-- ==== Sys2Proof/Word.lean ====
section
/-!
DEFINITION. The word types of the DL5100: a byte, a 32-bit setup register, a 64-bit device time.
-/
namespace Sys2Proof

/-- One byte, of a frame, of a structure or of the Root store. -/
abbrev Byte := BitVec 8

/-- One BAR0 setup register, or one JTAG or memory word of 32 bits (R7). -/
abbrev Word := BitVec 32

end Sys2Proof
end

