-- ==== Sys2Proof/Syntax.lean ====
section
/-!
DEFINITION. The commands of the block, one constructor per row of the table of operations and events. The table gives a
row no operands: each constructor's operands are what the spec's description of the step depends on from outside the
block (which port, bough or channel; a register value; frame bytes; data read from host memory; a physical observation).
The rows come in the table's order, those without operands last: compiled code can build at most 244 constructors that
have fields.
-/
namespace Sys2Proof

/-- What a Twig store takes its value by: M_REG, and the immediate of the microword, which selector 49 names (R219). -/
structure StoreSrc where
  reg : BitVec 6
  imm : BitVec 64
  deriving DecidableEq, Repr

/-- Error bits that arrive: in a word's codeword, and in the 256 parity symbols of its page (symbol i of codeword c is bits
8 (16 c + i) on). -/
structure ErrBits where
  pat : BitVec 88
  par : BitVec 2048
  deriving DecidableEq, Repr

/-- A command: an operation or an event of the DL5100. -/
inductive Instr where
  /-- R426: Write of KEY 0x5EED acts as a 10 µs SYSRST_N pulse; any other key is ignored. The word written to
  GLB_RST_CMD. -/
  | glbRstCmd (v : Word)
  /-- R428: Samples PSEL, loads the Heartwood defaults, reads and checks the header and the selected profile, then
  applies it or falls back, and sets DONE. PSEL pins; flash bytes of the two header copies and of the selected
  profile (none where the flash does not respond). -/
  | bootSequence (psel : BitVec 2) (h0 h1 prof : List Byte)
  /-- R441: GLB_PROF_CMD GO with MODE 0 checks a profile, applies its non-generation-bound records and stages the
  rest, then grafts and patches. PROF; flash bytes of the two header copies and of that profile. -/
  | profSwitchHitless (p : BitVec 2) (h0 h1 prof : List Byte)
  /-- R442: GLB_PROF_CMD GO with MODE 1 checks a profile and withholds bark tags until every bough is empty. PROF;
  flash bytes of the two header copies and of that profile. -/
  | profSwitchDrain (p : BitVec 2) (h0 h1 prof : List Byte)
  /-- R475: A junction-temperature sensor completes its 100 µs reading, updating MAX, HWM and the alert state.
  Sensor and its reading, signed quarter degrees. -/
  | tjSensorReading (n : Fin 16) (temp : BitVec 10)
  /-- R475: A sensor fails to complete a reading within 1 ms; its VALID falls and SNS_FAIL is set. The sensor. -/
  | snsFail (n : Fin 16)
  /-- R475: A write of GLB_TJ_CFG.HWM_CLR sets GLB_TJ_HWM to GLB_TJ_MAX. The word written to GLB_TJ_CFG, HWM_CLR
  being 1. -/
  | tjHwmClr (v : Word)
  /-- R451: A reference clock input stops for more than 1 µs; CLK_REF_STS shows it and REF_LOSS is set. 0 SYSCLK,
  1 PCIE_REFCLK, 2 TCLK_IN. -/
  | refClockLoss (ref : Fin 3)
  /-- R450: An island PLL loses lock; the island stops until reset, and it is flagged, counted and interrupted.
  The island (R447). -/
  | islandUnlock (isl : Fin 169)
  /-- R449: A write of CLK_CFG.TCLK_SEL while INIT = 1 makes the time island PLL relock; at any other time it is
  refused. The value written. -/
  | tclkSelWrite (sel : Bool)
  /-- R452: Writing START begins counting the cycles of the chosen island over 1 ms of device time. ISL of the
  written word. -/
  | clkMeasStart (isl : BitVec 8)
  /-- R7: A misaligned or wrongly sized BAR0 access completes with all ones or is discarded, and is flagged and
  recorded. Offset, and whether it was a write. -/
  | bar0BadAccess (off : BitVec 28) (write : Bool)
  /-- R446: A BAR0 access to a stopped island times out after 4 µs and is flagged and recorded. Offset, and
  whether it was a write. -/
  | bar0AccessTimeout (off : BitVec 28) (write : Bool)
  /-- R10: A BAR0 write to a register that has no row of its own is applied under its access code. Offset, a
  multiple of 4, and the word written. -/
  | regWrite (off : BitVec 28) (v : Word)
  /-- R473: JTAG instruction that drives the pins from the boundary-scan register. The boundary-scan register's
  contents after the scan. -/
  | jtagExtest (cells : Nat)
  /-- R473: JTAG instruction that samples or preloads the boundary-scan register. The boundary-scan register's
  contents after the scan. -/
  | jtagSamplePreload (cells : Nat)
  /-- R473: IEEE 1149.6 AC-coupled test instruction. The boundary-scan register's contents after the scan. -/
  | jtagExtestPulse (cells : Nat)
  /-- R473: IEEE 1149.6 AC-coupled train test instruction. The boundary-scan register's contents after the scan.
  -/
  | jtagExtestTrain (cells : Nat)
  /-- R473: JTAG instruction, 0xFF or any unlisted opcode, that selects the bypass register. The opcode scanned
  in. -/
  | jtagBypass (code : BitVec 8)
  /-- R45: A write of PRT_GRP_CFG.MODE is accepted only while the group is disabled and drained, and is otherwise
  flagged. Lane group and the mode written. -/
  | modeWrite (g : Fin 32) (mode : BitVec 3)
  /-- R45: An accepted group mode takes effect within 10 µs, shown in MODE_ACT; the trace state becomes UNKNOWN.
  The lane group. -/
  | modeActive (g : Fin 32)
  /-- R60: A write of PRT_CFG.EN = 1 starts the port and restarts the classification of seconds in the available
  state. The port, and the word written to PRT_CFG (its EN is 1). -/
  | portEnable (p : Fin 256) (v : Word)
  /-- R75: A write of PRT_CFG.EN = 0 stops taking SFDs, ends and commits the current second, and discards the
  port's queues. The port, and the word written to PRT_CFG (its EN is 0). -/
  | portDisable (p : Fin 256) (v : Word)
  /-- R75: The port's FIFO empties and its transmit MAC goes idle, so DRAINED becomes 1. The port. -/
  | portDrained (p : Fin 256)
  /-- R47: Clause 73 auto-negotiation resolves; on another ability the link stays down and negotiation restarts.
  The port, and whether negotiation resolved to the advertised ability. -/
  | anDone (p : Fin 256) (agreed : Bool)
  /-- R47: Auto-negotiation does not complete within 3 s; AN_FAIL is set, counted, and negotiation restarts. The
  port. -/
  | anFail (p : Fin 256)
  /-- R48: Link training completes on every lane of the port. The port. -/
  | ltDone (p : Fin 256)
  /-- R48: A lane's training exceeds the maximum wait; LT_FAIL is set and training restarts. The port. -/
  | ltFail (p : Fin 256)
  /-- R49: A valid alignment marker found at an unexpected position opens a candidate, or is dropped and counted
  when 4 are open. Port, PCS lane, bit position in the marker period, lane number of the marker. -/
  | amMatch (p : Fin 256) (ln : Fin 32) (pos : Nat) (mk : Fin 32)
  /-- R50: At one marker period after a candidate's last match, its position is tested: the count rises, the
  candidate closes as a mimic, or the lane locks. Port, PCS lane, the candidate's position, and the lane number of
  a valid marker found there. -/
  | amCandCheck (p : Fin 256) (ln : Fin 32) (pos : Nat) (mk : Option (Fin 32))
  /-- R51: A locked PCS lane tests its expected marker position and leaves lock after M errored markers. Port, PCS
  lane, whether the expected marker was valid. -/
  | amLockCheck (p : Fin 256) (ln : Fin 32) (valid : Bool)
  /-- R54: LINK_UP rises once alignment, fault and training conditions hold; PRT_INT.LINK is set. The port; no
  local or remote fault is detected any more. -/
  | linkUp (p : Fin 256)
  /-- R54: LINK_UP falls: counted, journaled, queues discarded, the frame in transmission aborted, and an optional
  flush started. The port; loss of signal, local fault, remote fault as detected. -/
  | linkDown (p : Fin 256) (los lf rf : Bool)
  /-- R55: A received RS(544,514) codeword is counted in a histogram bin or as uncorrectable, with symbol errors
  per lane. The port; uncorrectable, or the lane (within the port) of each corrected symbol. -/
  | fecCodeword (p : Fin 256) (ucw : Bool) (syms : List (Fin 4))
  /-- R56: A device-time second ends, or an accepted step occurs; the second is classified and the unavailable-
  second counters settle 10 seconds later. The port. -/
  | secondEnd (p : Fin 256)
  /-- R61: A received LLDP frame is counted, compared by the peer trace, and optionally copied to the host. Bough
  and bark tag of the received frame. -/
  | lldpFrame (b : Fin 32) (t : Fin 8192)
  /-- R63: No valid LLDP reception for TMO seconds moves the trace state to ABSENT. The port. -/
  | traceTimeout (p : Fin 256)
  /-- R63: A write to a PRT_TRC_EXP register restarts the run of identical receptions at 0. The port, the register
  (0 to 7 chassis, 8 to 15 port, 16 lengths) and the word. -/
  | traceExpWrite (p : Fin 256) (j : Fin 17) (v : Word)
  /-- R76: A PRT_LN_TXEQ write is ignored when its taps sum above 63, and otherwise takes effect at the next
  symbol-block boundary. The lane, and the word written. -/
  | txeqWrite (p : Fin 256) (v : Word)
  /-- R20: The MAC recognises an SFD; ARR_TS is sampled, SEQ assigned and a bark tag taken. The port; the bark tag
  from which a free one is sought; the frame's bytes from the first after the SFD to the last FCS byte, as the
  line will deliver them. -/
  | frameSfd (p : Fin 256) (t : Fin 8192) (bytes : List Byte)
  /-- R272: At its allocation point a frame estimates its length and takes an ingress-store buffer, retrying every
  cycle when none is free. The port whose FIFO head asks for a buffer. -/
  | bufferAlloc (p : Fin 256)
  /-- R70: A byte finds the port's receive FIFO full; the frame is cut off, counted, and dropped or ended. The
  port, and how many bytes of the arriving frame the MAC took before the FIFO was full. -/
  | rxFifoOvf (p : Fin 256) (got : Nat)
  /-- R276: A frame outgrows its buffer and is promoted to a larger buffer, or is cut off when a transfer has
  begun. The port whose arriving frame outgrows its buffer. -/
  | bufferOverrun (p : Fin 256)
  /-- R65: The frame's end arrives; FCS and length are checked, LEN and BAD are written, and bad frames are
  dropped or marked bad. The port; whether the frame ended with an error control character or was cut short. -/
  | frameEnd (p : Fin 256) (codeErr : Bool)
  /-- R17: The bough releases the parse window and writes GEN; the parser runs for 7 or 17 cycles. Bough and bark
  tag of the packet. -/
  | parseWindowRelease (b : Fin 32) (t : Fin 8192)
  /-- R97: A fragment entry's lifetime TMO expires and the entry is freed and counted. Set and way of the entry.
  -/
  | fragTimeout (fs : BitVec 12) (way : Fin 4)
  /-- R94: A write of BRG_FRAG_CFG.EN = 0 frees every fragment entry without counting. The word written to
  BRG_FRAG_CFG (its EN is 0). -/
  | fragTableDisable (v : Word)
  /-- R112: Decision pipeline C1–C8: flow, rule, bridging and VIP lookups merge, and the action is resolved and
  written to the bark. Bough and bark tag of the packet that takes a decision slot. -/
  | decision (b : Fin 32) (t : BitVec 13)
  /-- R164: The bough's updated hot block, or a release, reaches the bank after C8 and clears WBP. The bough whose
  oldest write-back reaches its bank. -/
  | hotBlockWriteback (b : Fin 32)
  /-- R192: A frame-end correction of BYTES and BAD_PKTS is applied to the flow line, or discarded when the line
  has gone. The bough whose oldest correction reaches its bank group. -/
  | frameEndCorrection (b : Fin 32)
  /-- R169: A directory engine takes a FIND: it matches the buckets, reads the hot block or creates the flow with
  any binding, and replies. Bank group and number of the pending entry whose FIND is taken. -/
  | find (g : Fin 16) (e : Fin 512)
  /-- R257: The owner of an alternate bucket takes a step sent by the primary owner: it matches and may place the
  flow there. The pending entry of the FIND. -/
  | dirAltStep (g : Fin 16) (e : Fin 512)
  /-- R257: A further step on the primary bucket writes the flow into the held way or releases it, or updates OVF.
  The pending entry of the FIND. -/
  | dirPrimaryStep (g : Fin 16) (e : Fin 512)
  /-- R174: Each directory engine's miss token bucket refills at RATE, capped at BURST. The directory engine. -/
  | missTokenRefill (c : Fin 2)
  /-- R168: A FIND reply reaches the bank group; the pending entry moves to INSTALL, or to RELEASE with the
  unstated action. The pending entry that is answered. -/
  | findReply (g : Fin 16) (e : Fin 512)
  /-- R170: The bank group chooses a victim way, writes back a dirty victim and installs the line, retrying each
  cycle while every way is busy. The pending entry whose line is installed. -/
  | lineInstall (g : Fin 16) (e : Fin 512)
  /-- R172: The release unit releases a parked packet, running steps 1 to 3 of its flow action on the installed
  line. The bank group of the release unit. -/
  | parkRelease (g : Fin 16)
  /-- R173: A parked packet reaches its release deadline and is released with the unstated action. Bough and bark
  tag of the parked packet. -/
  | parkTimeout (b : Fin 32) (t : BitVec 13)
  /-- R484: A packet joined on a WBP line is served once WBP clears, or misses again when the line is invalidated.
  Bough and bark tag of the packet that joined. -/
  | joinServe (b : Fin 32) (t : BitVec 13)
  /-- R190: A released packet returns to its bough, which runs steps 4 to 6 of its action stage. Bough and bark
  tag of the released packet. -/
  | parkReturn (b : Fin 32) (t : BitVec 13)
  /-- R181: The pruner visits one directory bucket and tests each valid flow for idleness. The directory engine.
  -/
  | flowSweepStep (c : Fin 2)
  /-- R184: A write of GRV_CFG.EN = 1 clears the line states, latches the seeds, and zeroes or keeps the
  directory. Bits KEEP and FLUSH of the word written to GRV_CFG (its EN is 1). -/
  | groveEnable (keep flush : Bool)
  /-- R186: A write of GRV_CFG.FLUSH starts writing back every dirty line. The word written to GRV_CFG (its FLUSH
  is 1). -/
  | groveFlush (v : Word)
  /-- R128: A recirculated packet takes a decision slot and is parsed and decided again with PASS = 1. The bough
  whose recirculation queue's head takes a decision slot. -/
  | recircPass (b : Fin 32)
  /-- R231: A work item arrives at its execution cluster and is assigned to an engine by affinity or load. Bough
  and bark tag of the item's packet. -/
  | twigDispatch (b : Fin 32) (t : BitVec 13)
  /-- R232: A cold-block read for a work item takes a token and completes from the Root store. Bough and bark tag
  of the item's packet. -/
  | twigColdRead (b : Fin 32) (t : BitVec 13)
  /-- R218: An engine loads an item's frame, patched with earlier commits, and records the patch epoch. Cluster
  and engine. -/
  | twigItemStart (k : Fin 16) (e : Fin 32)
  /-- R223: An engine executes one microword: ALU A, ALU B, memory and commit slots, and next address. Cluster and
  engine. -/
  | twigMicroword (k : Fin 16) (e : Fin 32)
  /-- R221: ALU operation 0: no result. Cluster, engine, whether in ALU A, selects, IMM. -/
  | aluNop (k : Fin 16) (e : Fin 32) (isA : Bool) (dst s1 s2 : BitVec 6) (imm : BitVec 64)
  /-- R221: ALU operation: S1 + S2, with flags. Cluster, engine, whether in ALU A, selects, IMM. -/
  | aluAdd (k : Fin 16) (e : Fin 32) (isA : Bool) (dst s1 s2 : BitVec 6) (imm : BitVec 64)
  /-- R221: ALU operation: S1 − S2, with flags. Cluster, engine, whether in ALU A, selects, IMM. -/
  | aluSub (k : Fin 16) (e : Fin 32) (isA : Bool) (dst s1 s2 : BitVec 6) (imm : BitVec 64)
  /-- R221: ALU operation: bitwise AND. Cluster, engine, whether in ALU A, selects, IMM. -/
  | aluAnd (k : Fin 16) (e : Fin 32) (isA : Bool) (dst s1 s2 : BitVec 6) (imm : BitVec 64)
  /-- R221: ALU operation: bitwise OR. Cluster, engine, whether in ALU A, selects, IMM. -/
  | aluOr (k : Fin 16) (e : Fin 32) (isA : Bool) (dst s1 s2 : BitVec 6) (imm : BitVec 64)
  /-- R221: ALU operation: bitwise XOR. Cluster, engine, whether in ALU A, selects, IMM. -/
  | aluXor (k : Fin 16) (e : Fin 32) (isA : Bool) (dst s1 s2 : BitVec 6) (imm : BitVec 64)
  /-- R221: ALU operation: shift left. Cluster, engine, whether in ALU A, selects, IMM. -/
  | aluShl (k : Fin 16) (e : Fin 32) (isA : Bool) (dst s1 s2 : BitVec 6) (imm : BitVec 64)
  /-- R221: ALU operation: logical shift right. Cluster, engine, whether in ALU A, selects, IMM. -/
  | aluShr (k : Fin 16) (e : Fin 32) (isA : Bool) (dst s1 s2 : BitVec 6) (imm : BitVec 64)
  /-- R221: ALU operation: arithmetic shift right. Cluster, engine, whether in ALU A, selects, IMM. -/
  | aluSar (k : Fin 16) (e : Fin 32) (isA : Bool) (dst s1 s2 : BitVec 6) (imm : BitVec 64)
  /-- R221: ALU operation: copy S1. Cluster, engine, whether in ALU A, selects, IMM. -/
  | aluMov (k : Fin 16) (e : Fin 32) (isA : Bool) (dst s1 s2 : BitVec 6) (imm : BitVec 64)
  /-- R221: ALU operation: flags of S1 − S2 without a result. Cluster, engine, whether in ALU A, selects, IMM. -/
  | aluCmp (k : Fin 16) (e : Fin 32) (isA : Bool) (dst s1 s2 : BitVec 6) (imm : BitVec 64)
  /-- R221: ALU operation: flags of S1 & S2 without a result. Cluster, engine, whether in ALU A, selects, IMM. -/
  | aluTst (k : Fin 16) (e : Fin 32) (isA : Bool) (dst s1 s2 : BitVec 6) (imm : BitVec 64)
  /-- R221: ALU operation: unsigned minimum. Cluster, engine, whether in ALU A, selects, IMM. -/
  | aluMinu (k : Fin 16) (e : Fin 32) (isA : Bool) (dst s1 s2 : BitVec 6) (imm : BitVec 64)
  /-- R221: ALU operation: unsigned maximum. Cluster, engine, whether in ALU A, selects, IMM. -/
  | aluMaxu (k : Fin 16) (e : Fin 32) (isA : Bool) (dst s1 s2 : BitVec 6) (imm : BitVec 64)
  /-- R221: ALU operation: bit-field extract. Cluster, engine, whether in ALU A, selects, IMM. -/
  | aluExt (k : Fin 16) (e : Fin 32) (isA : Bool) (dst s1 s2 : BitVec 6) (imm : BitVec 64)
  /-- R221: ALU operation: folded ones-complement sum of the 16-bit lanes. Cluster, engine, whether in ALU A,
  selects, IMM. -/
  | aluCsum16 (k : Fin 16) (e : Fin 32) (isA : Bool) (dst s1 s2 : BitVec 6) (imm : BitVec 64)
  /-- R221: ALU operation: byte reversal. Cluster, engine, whether in ALU A, selects, IMM. -/
  | aluBswap (k : Fin 16) (e : Fin 32) (isA : Bool) (dst s1 s2 : BitVec 6) (imm : BitVec 64)
  /-- R221: ALU operation: 32 × 32-bit multiply. Cluster, engine, whether in ALU A, selects, IMM. -/
  | aluMul32 (k : Fin 16) (e : Fin 32) (isA : Bool) (dst s1 s2 : BitVec 6) (imm : BitVec 64)
  /-- R222: Memory operation 0: none. Cluster, engine, M_REG, M_OFF, M_W. -/
  | memNop (k : Fin 16) (e : Fin 32) (reg : BitVec 6) (off : BitVec 9) (w : BitVec 2)
  /-- R222: Memory operation: little-endian load from the frame. Cluster, engine, M_REG, M_OFF, M_W. -/
  | memLd (k : Fin 16) (e : Fin 32) (reg : BitVec 6) (off : BitVec 9) (w : BitVec 2)
  /-- R222: Memory operation: network-order load from the frame. Cluster, engine, M_REG, M_OFF, M_W. -/
  | memLdn (k : Fin 16) (e : Fin 32) (reg : BitVec 6) (off : BitVec 9) (w : BitVec 2)
  /-- R222: Memory operation: little-endian store to the frame, setting staging mask bits. Cluster, engine, M_REG,
  M_OFF, M_W. -/
  | memSt (k : Fin 16) (e : Fin 32) (src : StoreSrc) (off : BitVec 9) (w : BitVec 2)
  /-- R222: Memory operation: network-order store to the frame. Cluster, engine, M_REG, M_OFF, M_W. -/
  | memStn (k : Fin 16) (e : Fin 32) (src : StoreSrc) (off : BitVec 9) (w : BitVec 2)
  /-- R222: Memory operation: indexed little-endian load. Cluster, engine, M_REG, M_OFF, M_W. -/
  | memLdi (k : Fin 16) (e : Fin 32) (reg : BitVec 6) (off : BitVec 9) (w : BitVec 2)
  /-- R222: Memory operation: indexed network-order load. Cluster, engine, M_REG, M_OFF, M_W. -/
  | memLdni (k : Fin 16) (e : Fin 32) (reg : BitVec 6) (off : BitVec 9) (w : BitVec 2)
  /-- R222: Memory operation: indexed little-endian store. Cluster, engine, M_REG, M_OFF, M_W. -/
  | memSti (k : Fin 16) (e : Fin 32) (src : StoreSrc) (off : BitVec 9) (w : BitVec 2)
  /-- R222: Memory operation: indexed network-order store. Cluster, engine, M_REG, M_OFF, M_W. -/
  | memStni (k : Fin 16) (e : Fin 32) (src : StoreSrc) (off : BitVec 9) (w : BitVec 2)
  /-- R224: Sequencing operation: go to address + 1. Cluster, engine. -/
  | seqNext (k : Fin 16) (e : Fin 32)
  /-- R224: Sequencing operation: go to TARGET. Cluster, engine, TARGET. -/
  | seqJmp (k : Fin 16) (e : Fin 32) (target : BitVec 14)
  /-- R224: Sequencing operation: go to TARGET when COND holds. Cluster, engine, COND, TARGET. -/
  | seqBr (k : Fin 16) (e : Fin 32) (cond : BitVec 4) (target : BitVec 14)
  /-- R224: Sequencing operation: push the return address and go to TARGET. Cluster, engine, TARGET. -/
  | seqCall (k : Fin 16) (e : Fin 32) (target : BitVec 14)
  /-- R224: Sequencing operation: pop the return address. Cluster, engine. -/
  | seqRet (k : Fin 16) (e : Fin 32)
  /-- R224: Sequencing operation: go to TARGET plus the low nibble of an operand. Cluster, engine, TARGET, A_SRC1,
  IMM. -/
  | seqSwitch (k : Fin 16) (e : Fin 32) (target : BitVec 14) (src1 : BitVec 6) (imm : BitVec 64)
  /-- R224: Sequencing operation: the routine ends after this microword. Cluster, engine. -/
  | seqEnd (k : Fin 16) (e : Fin 32)
  /-- R227: Commit operation 0: no region committed. Cluster, engine. -/
  | commitNone (k : Fin 16) (e : Fin 32)
  /-- R228: Commits the staged ACTION, EGR, CLASS and MCAST for application at completion. Cluster, engine. -/
  | commitBark (k : Fin 16) (e : Fin 32)
  /-- R228: Merges the staged hot-block bytes into the flow as a change under R166. Cluster, engine. -/
  | commitHot (k : Fin 16) (e : Fin 32)
  /-- R228: Writes the staged USER bytes to the record slot through the directory engine. Cluster, engine. -/
  | commitCold (k : Fin 16) (e : Fin 32)
  /-- R228: Adds the staged header bytes to the item's header patch of at most 64 bytes. Cluster, engine. -/
  | commitHdr (k : Fin 16) (e : Fin 32)
  /-- R227: Commits the BARK, HOT, COLD and HDR regions. Cluster, engine. -/
  | commitAll (k : Fin 16) (e : Fin 32)
  /-- R227: Commits all regions and drops the packet when the item completes. Cluster, engine. -/
  | commitDrop (k : Fin 16) (e : Fin 32)
  /-- R230: An item retires; committed bark values are resolved again, or the fallback or a retry applies, and its
  slot becomes ready. Bough and bark tag of the item's packet. -/
  | twigItemComplete (b : Fin 32) (t : BitVec 13)
  /-- R240: An item passes ITEM_TMAX, is removed or stopped, and its packet takes the fallback. Bough and bark tag
  of the item's packet. -/
  | twigItemTimeout (b : Fin 32) (t : BitVec 13)
  /-- R238: A packet's ordered slot becomes ready and it, with its ready successors, is released to admission.
  Bough and bark tag. -/
  | ordSlotReady (b : Fin 32) (t : BitVec 13)
  /-- R239: A ready slot has waited HOLD for its predecessors and is released anyway and counted. Bough and bark
  tag of the packet whose slot waits. -/
  | ordHoldExpire (b : Fin 32) (t : BitVec 13)
  /-- R244: A TWG_HALT write stops clusters from starting items, or lets stopped routines continue. The value
  written to TWG_HALT. -/
  | twigHaltReq (v : Word)
  /-- R244: Every engine of a halting cluster has stopped; HALTED is set. Cluster. -/
  | twigClusterHalted (k : Fin 16)
  /-- R345: A failed control-store page is rewritten from another cluster's copy. Cluster. -/
  | controlStoreRepair (k : Fin 16)
  /-- R124: A bough's device time reaches T_flip and it changes its current generation; the last bough's change
  enters DRAIN. The bough. -/
  | genFlip (b : Fin 32)
  /-- R122: A write of GRF_LOG_CFG is accepted only in IDLE, and is otherwise ignored and flagged. The value
  written. -/
  | grfLogCfgWrite (v : Word)
  /-- R106: A write of WIDTH outside a profile load is ignored and sets CFG_REJ_STK. The value written. -/
  | grfRsCfgWrite (v : Word)
  /-- R142: A pending learn request moves from its bough into the learn engine's merge buffer. The bough whose
  oldest request moves. -/
  | learnMerge (b : Fin 32)
  /-- R387: A write of TRK_PRIO_MAP takes effect at the next arbitration phase, or is refused when not a
  permutation. The value written. -/
  | trkPrioMapWrite (v : Word)
  /-- R383: A write of TRK_CFG.WAIT_CLR clears every TRK_WAIT_MAX. The word written to TRK_CFG (its WAIT_CLR is
  1). -/
  | waitClr (v : Word)
  /-- R263: A write of RTS_CFG.EN = 1 starts a full start or a warm exit from self-refresh on each stack. The word
  written to RTS_CFG. -/
  | rootStoreEnable (v : Word)
  /-- R263: A stack finishes training or self-refresh exit; READY rises, and any held Grove enable proceeds. The
  stack. -/
  | rootStoreReady (c : Fin 2)
  /-- R256: A mapping register write is accepted only while RTS_CFG.EN = 0. Register (0 STK, 1 to 5 PC0 to PC4, 6
  to 9 BA0 to BA3), value. -/
  | rtsMapWrite (j : Fin 10) (v : Word)
  /-- R267: A bandwidth cap write is applied, and BW_OVER is set when the caps sum above 209 GB/s. Class less 1,
  value. -/
  | rtsBwCfgWrite (n : Fin 6) (v : Word)
  /-- R268: A requester's access is accepted into the controller's request table, or is held back by credit. Tag,
  requester class, address, bytes, and the data of a write. -/
  | rtsRequest (tag : Nat) (cls : Fin 8) (a : BitVec 36) (n : Fin 257) (data : Option (List Byte))
  /-- R264: The controller issues the oldest ready request of the highest eligible class to its pseudo-channel.
  Controller, pseudo-channel. -/
  | rtsAccess (c : Fin 2) (pc : Fin 32)
  /-- R259: A Root store read returns its data with its tag, after any page correction. Controller, tag, an on-die
  ECC report. -/
  | rtsAccessComplete (c : Fin 2) (tag : Nat) (dieCe : Bool)
  /-- R260: An open row has seen no access for IDLE ns and is precharged. Controller, bank as (pseudo-channel * 3
  + SID) * 16 + bank. -/
  | pageIdleClose (c : Fin 2) (k : Fin 1536)
  /-- R261: A per-bank refresh command is issued on schedule. Controller, bank, whether a refresh management
  command. -/
  | hbmRefresh (c : Fin 2) (k : Fin 1536) (rfm : Bool)
  /-- R261: The stack temperature is read every 1 ms, selecting the refresh rate and possibly setting TEMP_HIGH.
  Stack, reading in °C. -/
  | hbmTempRead (c : Fin 2) (t : BitVec 8)
  /-- R262: A pseudo-channel is paused and retrained; three failures in a row set TRAIN_FAIL. Stack, pseudo-
  channel, outcome. -/
  | retrain (c : Fin 2) (pc : Fin 32) (ok : Bool)
  /-- R282: A dequeue order reaches the ingress bough, whose read port sends the copy's cells across the Crown.
  The ingress bough whose read port serves its next order. -/
  | dequeueOrder (b : Fin 32)
  /-- R283: The column reports a copy present in the crosspoint and the unit sends a transmit order. Number of the
  copy. -/
  | presenceNotice (n : Nat)
  /-- R283: The egress bough reads the copy's cells from the crosspoint, returns credits and hands them to egress
  editing. Number of the copy. -/
  | transmitOrder (n : Nat)
  /-- R30: A copy leaves the transmit MAC with a new FCS; the last copy frees the bark tag. The egress port. -/
  | txComplete (p : Fin 256)
  /-- R294: A cut-through copy's next cell is absent when needed, and the copy is stomped and counted. Number of
  the copy, and the bytes of its frame that had come in. -/
  | ctUnderrun (n got : Nat)
  /-- R293: An uncorrectable error in an ingress store or crosspoint cell discards or stomps each copy that reads
  it. The memory (0 ingress store, 1 crosspoint, 2 receive FIFO, 3 bark store or recirculation queue, 4 miss park,
  Twig frame or descriptor store), the packet, the copy that reads it, the bytes of its frame that had come in,
  word index and syndrome. -/
  | cellUe (mem : Fin 5) (b : Fin 32) (t : Fin 8192) (n got : Nat) (word : BitVec 48) (syn : BitVec 8)
  /-- R277: A free request releases a buffer after its checks, or fails and logs BUF_BAD_FREE. Bough, BUF, POOL
  and TAG of the free request. -/
  | bufferFree (b : Fin 32) (u : BitVec 13) (q : BitVec 2) (t : Fin 8192)
  /-- R296: A copy has held crosspoint cells longer than XP_MAX and is discarded or ended. Number of the copy. -/
  | xpStale (n : Nat)
  /-- R297: The 100 ms buffer sweep reclaims buffers older than STALE. The bough. -/
  | bufStaleSweep (b : Fin 32)
  /-- R289: A SHARED multicast window ends and unselected siblings are detached. Bough and bark tag of the packet,
  and the Crown column. -/
  | shareWinEnd (b : Fin 32) (t : Fin 8192) (c : Fin 32)
  /-- R270: A pool configuration write is accepted only when the store is idle and fits. Bough, pool, and the word
  written to CRN_POOL_CFG. -/
  | crnPoolCfgWrite (b : Fin 32) (q : Fin 4) (v : Word)
  /-- R317: The traffic manager checks a copy in order, predicts its queueing time, and admits it or refuses it.
  Bough and bark tag of the packet whose copies reach admission. -/
  | admission (b : Fin 32) (t : Fin 8192)
  /-- R305: Each cycle the unit selects per port the eligible head with the smallest finish tag and applies the
  deadline check. The port. -/
  | schedulerSelect (p : Fin 256)
  /-- R320: At least once per µs an ineligible head copy is tested against its deadline and discarded if late.
  Port and queue. -/
  | headAgeCheck (p : Fin 256) (q : Fin 16)
  /-- R307: Every 125 ns each enabled shaper adds RATE to its credit, capped at BURST. The traffic manager unit.
  -/
  | shaperRefill (t : Fin 4)
  /-- R303: A SHARE write is refused when the port's shares sum above 65,536, and otherwise applies from the next
  finish tag. Port, queue, and the word written to TMG_Q_SHARE. -/
  | qShareWrite (p : Fin 256) (q : Fin 16) (v : Word)
  /-- R310: Writing ACT_REQ schedules the staging gate list at the next cycle boundary, or is refused. The port,
  and the word written to TMG_GCL_CFG (its ACT_REQ is 1). -/
  | gclActReq (p : Fin 256) (v : Word)
  /-- R310: At T_a the staging and active gate lists exchange roles; GCL_ACT is set and journaled. The port. -/
  | gclActivate (p : Fin 256)
  /-- R323: A TIM_FREQ write crosses to the time island and changes the rate from the next cycle. The value
  written. -/
  | timFreqWrite (v : Word)
  /-- R325: An island receives no update for 4 µs and clears its SYNC_OK bit. The island. -/
  | timeSyncLoss (isl : Fin 168)
  /-- R330: TIM_ADJ_CMD STEP requests a step of Δ, accepted for T_s or refused with a cause. FORCE of TIM_ADJ_CMD;
  the value stands in TIM_ADJ. -/
  | timeStep (force : Bool)
  /-- R331: TIM_ADJ_CMD SET requests an absolute time at T_s, accepted or refused as a step. FORCE of TIM_ADJ_CMD;
  the value stands in TIM_ADJ. -/
  | timeSet (force : Bool)
  /-- R335: A selected edge on a TCAP pin latches its time and direction, counts, and may journal. The pin and the
  direction of the edge. -/
  | timeCapture (pin : Fin 4) (falling : Bool)
  /-- R336: A trigger configuration write enables the generator, or is refused while EN = 1. Generator, register
  number (offset / 4) in its block, value. -/
  | triggerCfgWrite (k : Fin 8) (off : Fin 16) (v : Word)
  /-- R337: A trigger generator reaches F and pulses its pin, starts a snapshot epoch or a sampling window. The
  generator. -/
  | triggerFire (k : Fin 8)
  /-- R337: At F − 1,000 ns the generator writes the gate base and issues ACT_REQ on its ports. The generator. -/
  | triggerGclAction (k : Fin 8)
  /-- R337: A trigger pin's pulse ends after WIDTH ns. The generator. -/
  | triggerPulseEnd (k : Fin 8)
  /-- R351: A scrub target reads a protected word, corrects and rewrites it, or starts a page correction. Scrub
  target, and the error bits that have arrived in the word it reads next (data bits from bit 0, check bits above).
  -/
  | scrubStep (t : Fin 4) (pat : BitVec 88)
  /-- R344: A page code corrects the failed words of a page, or the page fails and its contents are poisoned.
  Source, word within it, the error bits that have arrived in it and in its page's parity. -/
  | pageCorrection (src : Fin 8) (word : BitVec 40) (err : ErrBits)
  /-- R345: A table entry with an uncorrectable error is rewritten from its repair source. Table, copy, entry. -/
  | tableRepair (id : BitVec 8) (copy : Fin 2) (idx : BitVec 20)
  /-- R353: Every LEAK_MS the CE level of a source falls by 1. The source. -/
  | ceLeak (n : Fin 8)
  /-- R354: Writing ARM in test mode arms injection of CHK_XOR into the next COUNT word or page writes. The word
  written to ECC_INJ_CFG. -/
  | eccInjArm (v : Word)
  /-- R360: Channel operation ENABLE reads the channel entry and starts the channel, or refuses it. The channel;
  the 64 bytes of its Channel table entry read from host memory, none where the read failed. -/
  | chEnable (c : BitVec 10) (e : Option (List Byte))
  /-- R360: Channel operation DISABLE stops fetching, finishes commands in flight, abandons the knot and sets
  STATE 0. The channel. -/
  | chDisable (c : BitVec 10)
  /-- R360: Channel operation REFRESH rereads the interrupt fields of a running channel. The channel; its Channel
  table entry as read. -/
  | chRefresh (c : BitVec 10) (e : Option (List Byte))
  /-- R360: Channel operation RESET clears the device-owned bytes of a stopped channel. The channel. -/
  | chReset (c : BitVec 10)
  /-- R361: A channel-table entry is loaded into the cache, evicting the least recently used entry. The channel;
  its Channel table entry as read. -/
  | chtLoad (c : BitVec 10) (e : Option (List Byte))
  /-- R362: A doorbell write of SQ_TAIL hands descriptors to the device, or halts the channel on DB_RANGE. The
  channel; the value written; whether it was a 32-bit write. -/
  | sqTail (c : BitVec 10) (v : Word) (full : Bool)
  /-- R362: A doorbell write of CQ_HEAD returns completion slots and resumes a stalled channel. The channel; the
  value written; whether it was a 32-bit write. -/
  | cqHead (c : BitVec 10) (v : Word) (full : Bool)
  /-- R366: The device fetches and starts the next descriptor of a channel when contexts and completion room
  allow. The channel; the 64 bytes of the next descriptor as read. -/
  | commandFetch (c : BitVec 10) (d : Option (List Byte))
  /-- R363: A completion is written in ring order with its phase, after its result data. The channel; whether the
  host refused the completion write. -/
  | completionPost (c : BitVec 10) (refused : Bool)
  /-- R370: Command 0x00 does nothing and completes. The channel; the descriptor index of the command. -/
  | cmdNop (c : BitVec 10) (idx : BitVec 16)
  /-- R370: Command 0x01 writes COUNT entries into a table, staged when under a knot. The channel; the command's
  submission index; the entries' bytes as read from host memory, none where the read failed. -/
  | tblWrite (c : BitVec 10) (idx : BitVec 16) (d : Option (List Byte))
  /-- R370: Command 0x02 reads COUNT entries to host memory. The channel; the command's submission index. -/
  | tblRead (c : BitVec 10) (idx : BitVec 16)
  /-- R370: Command 0x03 places a bridging entry or creates or updates a flow by key. The channel; the submission
  index; the entry as read from host memory. -/
  | keyWrite (c : BitVec 10) (idx : BitVec 16) (d : Option (List Byte))
  /-- R370: Command 0x04 deletes a bridging entry or a flow by key. The channel; the submission index; the entry
  as read from host memory. -/
  | keyDelete (c : BitVec 10) (idx : BitVec 16) (d : Option (List Byte))
  /-- R370: Command 0x05 deletes a bridging entry or a flow by index. The channel; the submission index. -/
  | idxDelete (c : BitVec 10) (idx : BitVec 16)
  /-- R370: Command 0x06 looks up a key and writes the entry back to host memory. The channel; the submission
  index; the entry as read from host memory. -/
  | keyFind (c : BitVec 10) (idx : BitVec 16) (d : Option (List Byte))
  /-- R148: Command 0x07 removes learned bridging entries matching a port, a VLAN, both or neither. The channel;
  the submission index. -/
  | brgFlush (c : BitVec 10) (idx : BitVec 16)
  /-- R179: Command 0x08 pairs or unpairs two flows. The channel; the submission index. -/
  | flowPair (c : BitVec 10) (idx : BitVec 16)
  /-- R376: Command 0x10 acquires a knot over table groups, or is refused. The channel; the submission index. -/
  | knotAcq (c : BitVec 10) (idx : BitVec 16)
  /-- R377: Command 0x11 releases a knot, applying or discarding its staged writes; for knot 0 it acts as GRAFT.
  The channel; the submission index. -/
  | knotRel (c : BitVec 10) (idx : BitVec 16)
  /-- R378: Command 0x12 restarts a knot's lease. The channel; the submission index. -/
  | knotRenew (c : BitVec 10) (idx : BitVec 16)
  /-- R378: A knot's lease runs out; the knot is abandoned, its staged writes discarded, counted and journaled.
  The knot. -/
  | knotLeaseExpire (k : Fin 16)
  /-- R120: Command 0x13 commits the staged batch, releases the knot and starts the apply. The channel; the
  submission index. -/
  | graft (c : BitVec 10) (idx : BitVec 16)
  /-- R247: Command 0x14 schedules a Twig patch epoch flip with a version. The channel; the submission index. -/
  | patch (c : BitVec 10) (idx : BitVec 16)
  /-- R370: Command 0x20 reads user-region bytes to host memory. The channel; the submission index. -/
  | memRead (c : BitVec 10) (idx : BitVec 16)
  /-- R370: Command 0x21 writes host bytes into the user region, refused in a protected graft log. The channel;
  the submission index; the bytes as read from host memory. -/
  | memWrite (c : BitVec 10) (idx : BitVec 16) (d : Option (List Byte))
  /-- R409: Command 0x22 reads journal-range bytes to host memory. The channel; the submission index. -/
  | jrnRead (c : BitVec 10) (idx : BitVec 16)
  /-- R370: Command 0x23 reads counter slots from BAR4, optionally starting a snapshot. The channel; the
  submission index. -/
  | cntRead (c : BitVec 10) (idx : BitVec 16)
  /-- R373: Command 0x30 injects a packet at an ingress port, to be parsed and decided as a line frame. The
  channel; the submission index; where the search for a free tag starts; the frame as read from host memory. -/
  | injPipe (c : BitVec 10) (idx : BitVec 16) (t : Fin 8192) (d : Option (List Byte))
  /-- R373: Command 0x31 injects a packet directly to admission at an egress port and class. The channel; the
  submission index; where the search for a free tag starts; the frame as read from host memory. -/
  | injPort (c : BitVec 10) (idx : BitVec 16) (t : Fin 8192) (d : Option (List Byte))
  /-- R374: Command 0x40 posts a receive buffer on a RECEIVE channel. The channel; the submission index. -/
  | rxBuf (c : BitVec 10) (idx : BitVec 16)
  /-- R375: Command 0x41 posts an event buffer on an EVENT channel. The channel; the submission index. -/
  | evBuf (c : BitVec 10) (idx : BitVec 16)
  /-- R374: A copy to the host is written with its bark into posted buffers of its RECEIVE channel. The packet's
  bough and tag; the channel. -/
  | hostCopyDeliver (b : Fin 32) (t : BitVec 13) (c : BitVec 10)
  /-- R374: A copy to the host finds no buffers within WAIT and is given up and counted. The packet's bough and
  tag; the channel. -/
  | rxCopyGiveup (b : Fin 32) (t : BitVec 13) (c : BitVec 10)
  /-- R381: HOLDOFF µs after the first unsignalled completion, the channel sends its message. The channel. -/
  | holdoffExpire (c : BitVec 10)
  /-- R382: A DMA error, poisoned write data, bad doorbell, cleared BME or refused write halts a channel. The
  channel; the halt cause of STS bits 15:8. -/
  | channelHalt (c : BitVec 10) (cause : Fin 6)
  /-- R400: Writing OBS_PMU_CTL.CLR zeroes every performance counter. The word written to OBS_PMU_CTL. -/
  | pmuClr (v : Word)
  /-- R411: A unit regains hand-over and writes JRN_LOST with the count of records it lost. The event class (TYPE
  / 256) and the unit that lost records. -/
  | jrnLost (cls unit : BitVec 8)
  /-- R417: Device time passes a flow's EXP_NEXT; the exporter emits its deltas and advances EXP_NEXT. The flow.
  -/
  | activeExport (idx : BitVec 26)
  /-- R415: Writing OBS_EXP_CFG.LOAD reads and validates the flow templates and sends them. The word written to
  OBS_EXP_CFG. -/
  | templateLoad (v : Word)
  /-- R421: A stream entry is written into an EVENT channel's posted buffers. The stream. -/
  | evStreamEntry (stream : Fin 5)
  /-- R421: A buffer holding partial content for FLUSH µs is completed as it stands. The channel. -/
  | evBufferFlush (c : BitVec 10)
  /-- R31: Writing BGH_TAG_CFG.HWM_CLR sets the tag high-water mark to IN_USE. The bough, and the word written to
  BGH_TAG_CFG. -/
  | tagHwmClr (b : Fin 32) (v : Word)
  /-- R232: Each Twig cluster's cold-read token bucket gains tokens at TWG_COLD_CFG.RATE, capped at 64, so that a
  waiting item may issue its cold read. Cluster. -/
  | coldReadTokenRefill (k : Fin 16)
  /-- R161: Once per second, each stack writes one GRV_DIR_FULL journal event carrying the directory-full refusals
  counted in that second. The stack. -/
  | grvDirFull (c : Fin 2)
  /-- R173: Once per second, each bank group writes one GRV_PARK_TMO journal event carrying the park timeouts
  counted in that second. The bank group. -/
  | grvParkTmo (g : Fin 16)
  /-- R451: A reference clock input that had stopped is present again, and its bit of CLK_REF_STS returns to 1. 0
  SYSCLK, 1 PCIE_REFCLK, 2 TCLK_IN. -/
  | refClockReturn (ref : Fin 3)
  /-- R413: A write of OBS_EXP_CFG.EN = 1 turns the exporter on and sends every valid template. The word written
  to OBS_EXP_CFG. -/
  | exportEnable (v : Word)
  /-- R389: A lane in PRBS test mode gains or loses PRBS_LOCK on the received pattern and counts PRBS bit errors
  in PRT_LN_PRBS_ERR_CNT while locked. The lane; the checker's lock, and the bit errors it counted. -/
  | prbsCheck (p : Fin 256) (lock : Bool) (errs : BitVec 48)
  /-- R422: Power-on reset input goes low and holds every part of the device in reset, the time island and the
  Root store content included. -/
  | porstNAssert
  /-- R422: Release of PORST_N starts island PLL locking, PCIe training and the boot sequence. -/
  | porstNRelease
  /-- R424: System reset input goes low; Root store controllers complete accepted writes and enter self-refresh,
  held knots are abandoned, and packets in flight are lost. -/
  | sysrstNAssert
  /-- R423: Release of SYSRST_N starts the boot sequence with kept fields preserved. -/
  | sysrstNRelease
  /-- R423: End of the 10 µs pulse started by GLB_RST_CMD starts the boot sequence. -/
  | sysrstPulseEnd
  /-- R442: Once IN_USE of every bough reaches 0, the ports whose group MODE changes are disabled, rules are
  cleared if WIDTH changes, the records are applied, and tags are released. -/
  | profDrainComplete
  /-- R442: The drain is not complete within DRAIN_TMO; tags are released and the switch fails with DRAIN_TMO. -/
  | profDrainTimeout
  /-- R443: A hitless switch completes when both graft and patch have flipped; RESULT and the interrupt are set.
  -/
  | profSwitchDone
  /-- R459: A rail stays below its minimum for more than 2 µs, and the device resets itself as for PORST_N. -/
  | railUndervoltage
  /-- R459: Every rail has been back within range for 1 ms, so the self-reset ends and boot starts. -/
  | railRecovery
  /-- R449: The time island PLL completes its relock to the newly selected reference. -/
  | timePllRelock
  /-- R452: The 1 ms measurement window ends; CLK_MEAS_RES is written and BUSY cleared. -/
  | clkMeasDone
  /-- R473: JTAG instruction that selects the 32-bit IDCODE register. -/
  | jtagIdcode
  /-- R473: JTAG instruction that holds the pins and selects bypass. -/
  | jtagClamp
  /-- R473: JTAG instruction that sets the pins to high impedance. -/
  | jtagHighz
  /-- R184: Grove initialisation completes; READY rises and the interrupt is set. No operand. -/
  | groveReady
  /-- R186: Every line that was dirty at the flush is written; FLUSH_BUSY clears and FLUSH_DONE is set. No
  operand. -/
  | flushDone
  /-- R247: Every cluster reaches T: the patch epoch advances and FLIPPED is set. No operand. -/
  | twigPatchFlip
  /-- R247: No item of the old epoch runs; PREV_LIVE clears and the patch enters SYNC. No operand. -/
  | twigPatchRetire
  /-- R247: The new routine-table copy is copied into the other copy, and the patch returns to IDLE. No operand.
  -/
  | twigPatchSyncDone
  /-- R124: The management timer of FLIP_LEAD + 10 µs expires and every bough that has not flipped changes
  generation. No operand. -/
  | flipTimerExpire
  /-- R126: All 32 bough counts of G − 1 reach 0; the generation retires and CATCHUP starts. No operand. -/
  | genRetire
  /-- R126: DRAIN lasts DRAIN_WARN ms; DRAIN_SLOW is set and journaled. No operand. -/
  | drainSlow
  /-- R120: Every log slot is written to the staging copy; T_flip is set and the graft enters FLIP_WAIT. No
  operand. -/
  | graftApplyDone
  /-- R120: An uncorrectable error reading the graft log fails the graft into RESYNC. No operand. -/
  | graftLogUe
  /-- R120: Every log slot is written to the retired copy and the graft returns to IDLE. No operand. -/
  | catchupDone
  /-- R120: Every generation-bound table is copied from the current copy and the graft returns to IDLE. No
  operand. -/
  | resyncDone
  /-- R143: The learn engine releases a request after its settle time and installs, moves, refreshes or refuses
  its entry. No operand. -/
  | learnRelease
  /-- R146: The pruner samples and clears the HIT bits of one entry and marks or removes it. No operand. -/
  | pruneStep
  /-- R384: An arbitration phase of the Trunk bus grants the next transfer by priority and backoff. No operand. -/
  | trunkArbitration
  /-- R384: A Trunk bus transfer completes after its fixed number of phases. No operand. -/
  | trunkTransferEnd
  /-- R325: Every 256 ns the time island sends each island its time and rate, and the island corrects its rate. -/
  | timeUpdate
  /-- R323: Writing TIM_SNAP.REQ latches device time into TIM_SNAP_NS and TIM_SNAP_FRAC. -/
  | timeSnap
  /-- R329: TIM_ADJ_CMD SLEW adds an extra rate until Δ has been absorbed, replacing any earlier slew. -/
  | timeSlew
  /-- R331: Each island's copy reaches T_s and jumps by Δ; STEP_DONE is set and TIME_STEP journaled. -/
  | stepApply
  /-- R329: A slew has absorbed its Δ; SLEW_BUSY clears and SLEW_DONE is set. -/
  | slewDone
  /-- R339: PPS_OUT rises at each whole second of device time for WIDTH µs. -/
  | ppsPulse
  /-- R360: The commands in flight of a disabling channel have completed; bytes 32–63 are written and BUSY clears.
  -/
  | disableDone
  /-- R380: A block summary rises, or stays at 1 after an _INT or _MSK write, and sends its MSI-X message. -/
  | msixMessage
  /-- R358: Function-level reset disables every channel, abandons knots and resets MSI-X. -/
  | flr
  /-- R358: A move to D3hot resets the Sirvan interface as an FLR does. -/
  | d3hot
  /-- R395: Writing OBS_SNAP_CTL.REQ schedules a snapshot epoch 2 µs later. -/
  | snapReq
  /-- R396: At T each counter's value is copied into the epoch's bank, or the epoch is skipped. -/
  | snapshotEpoch
  /-- R396: The bank is complete; DONE is set and a snapshot notice is issued. -/
  | snapshotDone
  /-- R400: A performance counter wraps and sets OVF_STK and possibly PMU_OVF. -/
  | pmuOvf
  /-- R401: A sampling window of OBS_SAMP_WIN ns closes. -/
  | sampWinEnd
  /-- R409: The journal writer stores a record at the next record number, overwriting the oldest. -/
  | journalWrite
  /-- R411: The first journal record after SYSRST_N, followed by KNOT_ABANDON records for the knots held. -/
  | jrnRestart
  /-- R413: Every TMPL_INT seconds the exporter resends every valid template. -/
  | templateResend
  /-- R420: An IPFIX message is sent to the EVENT stream or injected as a UDP datagram on a port. -/
  | exportMessage
  /-- R420: Once a second, a record reports the export records lost in that second. -/
  | expLost
  /-- R339: PPS_OUT falls WIDTH µs after the whole second at which it rose. -/
  | ppsPulseEnd
  /-- R473: TRST_N low, or five TCK cycles with TMS high, puts the test access port into Test-Logic-Reset, which
  selects IDCODE. -/
  | jtagTestLogicReset
  deriving DecidableEq, Repr

end Sys2Proof
end

