-- ==== Sys2Proof/Decode.lean ====
section
/-!
DEFINITION. The rows of the table of operations and events carry no bits (their "fields" are empty and they have neither
"fixed" nor a width), so no word spells a command.
-/
namespace Sys2Proof

/-- The command that a word spells by the table's bits: the table gives no row any. -/
def decodeTableWord (_nbits _w : Nat) : Option Instr := none

end Sys2Proof
end

