-- ==== Sys2Proof/Config.lean ====
section
/-!
DEFINITION. The free values: what the spec leaves open. Each is an opaque constant without a body, so no proof can see
its value and every claim holds whatever it is. A constant of a counter is applied to the plain counter `free` of the
state, which each use advances, so that two uses are independent. Each is named in the assumption log.
-/
namespace Sys2Proof.Config

/-- R325: how an island corrects its advance rate at an update (the spec bounds the correction, ±200 ppm, and the
agreement reached; it gives no servo). In parts per million, as an integer; the model clamps it. -/
opaque steerPpm : Nat → Int

/-- R323: whether a handshake into the time island takes 1 or 2 of its cycles (R15 leaves it open). -/
opaque crossTwo : Nat → Bool

/-- R452: the error of a clock measurement (the spec bounds it, ±2 cycles); the model clamps it. -/
opaque measErr : Nat → Int

/-- R201, R210: the address a translation gives where the spec's arithmetic names none (an address or port outside the
pool's range, or an empty port block); the model keeps its low 32 bits. -/
opaque natAddr : Nat → Nat

/-- R410: OBS_JRN_HORIZON, which the spec bounds and does not fix; the model keeps it within the bound. -/
opaque jrnHorizon : Nat → Nat

/-- R120: a byte of a graft-log slot; the spec gives a staged write 256 bytes and no layout of them. -/
opaque logByte : Nat → Byte

end Sys2Proof.Config
end

