-- ==== Sys2Proof/Machine/Bits.lean ====
section
/-!
DEFINITION. Bit fields, byte orders and the small arithmetic every family shares. Fields are written `[lsb, width]`
of a natural number (R4); network order has byte 0 first and most significant, host order is little-endian (R5).
-/
namespace Sys2Proof.Machine

/-- The `w` bits of `x` from bit `lsb` up (R4). -/
def getBits (x lsb w : Nat) : Nat := (x >>> lsb) % 2 ^ w

/-- `x` with its `w` bits from `lsb` up replaced by the low `w` bits of `v`. -/
def setBits (x lsb w v : Nat) : Nat :=
  x - (getBits x lsb w) * 2 ^ lsb + (v % 2 ^ w) * 2 ^ lsb

/-- One bit of a number. -/
def bit (x i : Nat) : Bool := Nat.testBit x i

/-- A Boolean as the bit it stands for. -/
def b2n (b : Bool) : Nat := if b then 1 else 0

/-- The little-endian number that bytes spell (R5). -/
def leNat : List Byte → Nat
  | [] => 0
  | b :: bs => b.toNat + 256 * leNat bs

/-- The `n` little-endian bytes of a number. -/
def natLe : Nat → Nat → List Byte
  | 0, _ => []
  | n + 1, x => BitVec.ofNat 8 x :: natLe n (x / 256)

/-- The network-order number that bytes spell (R5). -/
def beNat (bs : List Byte) : Nat := bs.foldl (fun a b => a * 256 + b.toNat) 0

/-- The `n` network-order bytes of a number. -/
def natBe (n x : Nat) : List Byte := (natLe n x).reverse

/-- Bytes `off` to `off + n - 1` of a list; bytes beyond its end are absent. -/
def slice (bs : List Byte) (off n : Nat) : List Byte := (bs.drop off).take n

/-- Bytes `off` to `off + n - 1`, bytes beyond the end read as 0. -/
def slice0 (bs : List Byte) (off n : Nat) : List Byte :=
  let got := slice bs off n
  got ++ List.replicate (n - got.length) 0

/-- Network-order number of `n` bytes at `off` (absent bytes read 0). -/
def beAt (bs : List Byte) (off n : Nat) : Nat := beNat (slice0 bs off n)

/-- Little-endian number of `n` bytes at `off` (absent bytes read 0). -/
def leAt (bs : List Byte) (off n : Nat) : Nat := leNat (slice0 bs off n)

/-- `bs` with the bytes of `new` written from `off` on; what would fall beyond the end is dropped. -/
def splice (bs : List Byte) (off : Nat) (new : List Byte) : List Byte :=
  let n := bs.length
  bs.take off ++ (new.take (n - off)) ++ bs.drop (off + new.length)

/-- The signed value of an `n`-bit two's-complement number. -/
def toSigned (n x : Nat) : Int := if x % 2 ^ n < 2 ^ (n - 1) then (x % 2 ^ n : Nat) else (x % 2 ^ n : Nat) - (2 ^ n : Nat)

/-- The `n`-bit two's-complement number of an integer. -/
def ofSigned (n : Nat) (x : Int) : Nat := (x % (2 ^ n : Nat)).toNat

/-- `x / d` rounded up. -/
def ceilDiv (x d : Nat) : Nat := (x + d - 1) / d

/-- The number of 1 bits among the low `n` of `x`. -/
def popCount : Nat → Nat → Nat
  | 0, _ => 0
  | n + 1, x => x % 2 + popCount n (x / 2)

/-- The exclusive OR of the low `n` bits. -/
def parity (n x : Nat) : Bool := popCount n x % 2 == 1

/-- The positions of the 1 bits among the low `n` of `x`, lowest first. -/
def bitsOf (n x : Nat) : List Nat := (List.range n).filter (fun i => Nat.testBit x i)

/-- The lowest `i < n` at which `p` holds. -/
def firstIdx (n : Nat) (p : Nat → Bool) : Option Nat := (List.range n).find? p

/-- The element of a list at `i`, or `d`. -/
def nth {α : Type} (l : List α) (i : Nat) (d : α) : α := (l[i]?).getD d

/-- A list with element `i` replaced (unchanged where it has none). -/
def setNth {α : Type} (l : List α) (i : Nat) (v : α) : List α := l.set i v

/-- Ones-complement 16-bit sum with end-around carry of a list of 16-bit values, folded twice (enough for 2^16 terms). -/
def csumFold (x : Nat) : Nat :=
  let a := x % 65536 + x / 65536
  let b := a % 65536 + a / 65536
  b % 65536 + b / 65536

end Sys2Proof.Machine
end

