-- ==== Sys2Proof/Machine/RegMap.lean ====
section
/-!
DEFINITION. The setup registers of BAR0, block by block: the address of each register (with its indices), each field
as (address, lsb, width), and one table of rows giving every field's access code (R10) and reset value (R12). Written
from the register tables of chapters 01 to 18; "_HI" names the upper word of a two-word register or counter.
-/
namespace Sys2Proof.Machine

/-- A field of a setup register: the register's BAR0 offset, the lowest bit, the width. -/
structure RFld where
  addr : Nat
  lsb : Nat
  w : Nat
  deriving DecidableEq, Repr

/-- The access codes of R10. -/
inductive Acc where
  | rw | ro | w1c | w1s | wo | rws
  deriving DecidableEq, Repr

/-- One field of a register row: place, access code and reset value. -/
structure RegField where
  lsb : Nat
  w : Nat
  acc : Acc
  reset : Nat
  deriving DecidableEq, Repr

/-- One row of the register map: a first address, the (count, stride) of each index, outermost first, and the fields. -/
structure RegRow where
  base : Nat
  dims : List (Nat × Nat)
  fields : List RegField
  deriving DecidableEq, Repr

/-! ### Packet path (chapter 01) -/

def BGH_TAG_CFG (b : Nat) : Nat := 0x2000100 + b * 0x40000
def BGH_TAG_CFG_HOST_RSV (b : Nat) : RFld := ⟨BGH_TAG_CFG b, 0, 13⟩
def BGH_TAG_CFG_HWM_CLR (b : Nat) : RFld := ⟨BGH_TAG_CFG b, 13, 1⟩
def BGH_TAG_STS (b : Nat) : Nat := 0x2000104 + b * 0x40000
def BGH_TAG_STS_IN_USE (b : Nat) : RFld := ⟨BGH_TAG_STS b, 0, 14⟩
def BGH_TAG_STS_HWM (b : Nat) : RFld := ⟨BGH_TAG_STS b, 16, 14⟩
def BGH_TAG_THR (b : Nat) : Nat := 0x2000108 + b * 0x40000
def BGH_TAG_THR_THR (b : Nat) : RFld := ⟨BGH_TAG_THR b, 0, 14⟩
def BGH_TAG_EXHAUST_CNT (b : Nat) : Nat := 0x2000110 + b * 0x40000
def BGH_TAG_EXHAUST_CNT_HI (b : Nat) : Nat := 0x2000114 + b * 0x40000
def BGH_TAG_INT (b : Nat) : Nat := 0x2000118 + b * 0x40000
def BGH_TAG_INT_EXHAUST (b : Nat) : RFld := ⟨BGH_TAG_INT b, 0, 1⟩
def BGH_TAG_INT_HIGH (b : Nat) : RFld := ⟨BGH_TAG_INT b, 1, 1⟩
def BGH_TAG_MSK (b : Nat) : Nat := 0x200011c + b * 0x40000
def BGH_TAG_MSK_EXHAUST (b : Nat) : RFld := ⟨BGH_TAG_MSK b, 0, 1⟩
def BGH_TAG_MSK_HIGH (b : Nat) : RFld := ⟨BGH_TAG_MSK b, 1, 1⟩
/-! ### Ports and line (chapter 02) -/

def PRT_GRP_CFG (g : Nat) : Nat := 0x1000000 + g * 0x8000
def PRT_GRP_CFG_MODE (g : Nat) : RFld := ⟨PRT_GRP_CFG g, 0, 3⟩
def PRT_GRP_STS (g : Nat) : Nat := 0x1000004 + g * 0x8000
def PRT_GRP_STS_MODE_ACT (g : Nat) : RFld := ⟨PRT_GRP_STS g, 0, 3⟩
def PRT_GRP_STS_MODE_REJ_STK (g : Nat) : RFld := ⟨PRT_GRP_STS g, 3, 1⟩
def PRT_CFG (p : Nat) : Nat := 0x1000010 + p * 0x1000
def PRT_CFG_EN (p : Nat) : RFld := ⟨PRT_CFG p, 0, 1⟩
def PRT_CFG_CT_EN (p : Nat) : RFld := ⟨PRT_CFG p, 1, 1⟩
def PRT_CFG_AN_EN (p : Nat) : RFld := ⟨PRT_CFG p, 2, 1⟩
def PRT_CFG_LT_EN (p : Nat) : RFld := ⟨PRT_CFG p, 3, 1⟩
def PRT_CFG_TRACE_BLOCK_EN (p : Nat) : RFld := ⟨PRT_CFG p, 4, 1⟩
def PRT_CFG_LLDP_COPY_EN (p : Nat) : RFld := ⟨PRT_CFG p, 5, 1⟩
def PRT_CFG_MAX_FRAME (p : Nat) : RFld := ⟨PRT_CFG p, 8, 14⟩
def PRT_CFG_LLDP_CH (p : Nat) : RFld := ⟨PRT_CFG p, 22, 10⟩
def PRT_STS (p : Nat) : Nat := 0x1000014 + p * 0x1000
def PRT_STS_LINK_UP (p : Nat) : RFld := ⟨PRT_STS p, 0, 1⟩
def PRT_STS_ALIGNED (p : Nat) : RFld := ⟨PRT_STS p, 1, 1⟩
def PRT_STS_LOCAL_FAULT (p : Nat) : RFld := ⟨PRT_STS p, 2, 1⟩
def PRT_STS_REMOTE_FAULT (p : Nat) : RFld := ⟨PRT_STS p, 3, 1⟩
def PRT_STS_AN_DONE (p : Nat) : RFld := ⟨PRT_STS p, 4, 1⟩
def PRT_STS_LT_DONE (p : Nat) : RFld := ⟨PRT_STS p, 5, 1⟩
def PRT_STS_UAS (p : Nat) : RFld := ⟨PRT_STS p, 6, 1⟩
def PRT_STS_TRACE (p : Nat) : RFld := ⟨PRT_STS p, 7, 2⟩
def PRT_STS_DRAINED (p : Nat) : RFld := ⟨PRT_STS p, 9, 1⟩
def PRT_AM_CFG (p : Nat) : Nat := 0x1000020 + p * 0x1000
def PRT_AM_CFG_N (p : Nat) : RFld := ⟨PRT_AM_CFG p, 0, 4⟩
def PRT_AM_CFG_M (p : Nat) : RFld := ⟨PRT_AM_CFG p, 4, 4⟩
def PRT_ES_CFG (p : Nat) : Nat := 0x1000024 + p * 0x1000
def PRT_ES_CFG_SES_UCW (p : Nat) : RFld := ⟨PRT_ES_CFG p, 0, 16⟩
def PRT_ES_CFG_SES_FCS (p : Nat) : RFld := ⟨PRT_ES_CFG p, 16, 16⟩
def PRT_TRC_CFG (p : Nat) : Nat := 0x1000028 + p * 0x1000
def PRT_TRC_CFG_TMO (p : Nat) : RFld := ⟨PRT_TRC_CFG p, 0, 16⟩
def PRT_TRC_CFG_CMP_CHS_EN (p : Nat) : RFld := ⟨PRT_TRC_CFG p, 16, 1⟩
def PRT_TRC_CFG_CMP_PRT_EN (p : Nat) : RFld := ⟨PRT_TRC_CFG p, 17, 1⟩
def PRT_INT (p : Nat) : Nat := 0x1000030 + p * 0x1000
def PRT_INT_LINK (p : Nat) : RFld := ⟨PRT_INT p, 0, 1⟩
def PRT_INT_LOCK_LOSS (p : Nat) : RFld := ⟨PRT_INT p, 1, 1⟩
def PRT_INT_AN_FAIL (p : Nat) : RFld := ⟨PRT_INT p, 2, 1⟩
def PRT_INT_LT_FAIL (p : Nat) : RFld := ⟨PRT_INT p, 3, 1⟩
def PRT_INT_UAS_CHG (p : Nat) : RFld := ⟨PRT_INT p, 4, 1⟩
def PRT_INT_TRACE_CHG (p : Nat) : RFld := ⟨PRT_INT p, 5, 1⟩
def PRT_INT_RX_FIFO_OVF (p : Nat) : RFld := ⟨PRT_INT p, 6, 1⟩
def PRT_MSK (p : Nat) : Nat := 0x1000034 + p * 0x1000
def PRT_MSK_LINK (p : Nat) : RFld := ⟨PRT_MSK p, 0, 1⟩
def PRT_MSK_LOCK_LOSS (p : Nat) : RFld := ⟨PRT_MSK p, 1, 1⟩
def PRT_MSK_AN_FAIL (p : Nat) : RFld := ⟨PRT_MSK p, 2, 1⟩
def PRT_MSK_LT_FAIL (p : Nat) : RFld := ⟨PRT_MSK p, 3, 1⟩
def PRT_MSK_UAS_CHG (p : Nat) : RFld := ⟨PRT_MSK p, 4, 1⟩
def PRT_MSK_TRACE_CHG (p : Nat) : RFld := ⟨PRT_MSK p, 5, 1⟩
def PRT_MSK_RX_FIFO_OVF (p : Nat) : RFld := ⟨PRT_MSK p, 6, 1⟩
def PRT_TRC_EXP_CHS (p i : Nat) : Nat := 0x1000100 + p * 0x1000 + i * 4
def PRT_TRC_EXP_CHS_BYTE0 (p i : Nat) : RFld := ⟨PRT_TRC_EXP_CHS p i, 0, 8⟩
def PRT_TRC_EXP_CHS_BYTE1 (p i : Nat) : RFld := ⟨PRT_TRC_EXP_CHS p i, 8, 8⟩
def PRT_TRC_EXP_CHS_BYTE2 (p i : Nat) : RFld := ⟨PRT_TRC_EXP_CHS p i, 16, 8⟩
def PRT_TRC_EXP_CHS_BYTE3 (p i : Nat) : RFld := ⟨PRT_TRC_EXP_CHS p i, 24, 8⟩
def PRT_TRC_EXP_PRT (p i : Nat) : Nat := 0x1000120 + p * 0x1000 + i * 4
def PRT_TRC_EXP_PRT_BYTE0 (p i : Nat) : RFld := ⟨PRT_TRC_EXP_PRT p i, 0, 8⟩
def PRT_TRC_EXP_PRT_BYTE1 (p i : Nat) : RFld := ⟨PRT_TRC_EXP_PRT p i, 8, 8⟩
def PRT_TRC_EXP_PRT_BYTE2 (p i : Nat) : RFld := ⟨PRT_TRC_EXP_PRT p i, 16, 8⟩
def PRT_TRC_EXP_PRT_BYTE3 (p i : Nat) : RFld := ⟨PRT_TRC_EXP_PRT p i, 24, 8⟩
def PRT_TRC_RCV_CHS (p i : Nat) : Nat := 0x1000180 + p * 0x1000 + i * 4
def PRT_TRC_RCV_CHS_BYTE0 (p i : Nat) : RFld := ⟨PRT_TRC_RCV_CHS p i, 0, 8⟩
def PRT_TRC_RCV_CHS_BYTE1 (p i : Nat) : RFld := ⟨PRT_TRC_RCV_CHS p i, 8, 8⟩
def PRT_TRC_RCV_CHS_BYTE2 (p i : Nat) : RFld := ⟨PRT_TRC_RCV_CHS p i, 16, 8⟩
def PRT_TRC_RCV_CHS_BYTE3 (p i : Nat) : RFld := ⟨PRT_TRC_RCV_CHS p i, 24, 8⟩
def PRT_TRC_RCV_PRT (p i : Nat) : Nat := 0x10001a0 + p * 0x1000 + i * 4
def PRT_TRC_RCV_PRT_BYTE0 (p i : Nat) : RFld := ⟨PRT_TRC_RCV_PRT p i, 0, 8⟩
def PRT_TRC_RCV_PRT_BYTE1 (p i : Nat) : RFld := ⟨PRT_TRC_RCV_PRT p i, 8, 8⟩
def PRT_TRC_RCV_PRT_BYTE2 (p i : Nat) : RFld := ⟨PRT_TRC_RCV_PRT p i, 16, 8⟩
def PRT_TRC_RCV_PRT_BYTE3 (p i : Nat) : RFld := ⟨PRT_TRC_RCV_PRT p i, 24, 8⟩
def PRT_TRC_EXP_LEN (p : Nat) : Nat := 0x1000140 + p * 0x1000
def PRT_TRC_EXP_LEN_CHS_LEN (p : Nat) : RFld := ⟨PRT_TRC_EXP_LEN p, 0, 9⟩
def PRT_TRC_EXP_LEN_PRT_LEN (p : Nat) : RFld := ⟨PRT_TRC_EXP_LEN p, 16, 9⟩
def PRT_TRC_RCV_LEN (p : Nat) : Nat := 0x10001c0 + p * 0x1000
def PRT_TRC_RCV_LEN_CHS_LEN (p : Nat) : RFld := ⟨PRT_TRC_RCV_LEN p, 0, 9⟩
def PRT_TRC_RCV_LEN_PRT_LEN (p : Nat) : RFld := ⟨PRT_TRC_RCV_LEN p, 16, 9⟩
def RX_FRAMES_CNT (p : Nat) : Nat := 0x1000400 + p * 0x1000
def RX_FRAMES_CNT_HI (p : Nat) : Nat := 0x1000404 + p * 0x1000
def RX_BYTES_CNT (p : Nat) : Nat := 0x1000408 + p * 0x1000
def RX_BYTES_CNT_HI (p : Nat) : Nat := 0x100040c + p * 0x1000
def RX_FCS_ERR_CNT (p : Nat) : Nat := 0x1000410 + p * 0x1000
def RX_FCS_ERR_CNT_HI (p : Nat) : Nat := 0x1000414 + p * 0x1000
def RX_RUNT_CNT (p : Nat) : Nat := 0x1000418 + p * 0x1000
def RX_RUNT_CNT_HI (p : Nat) : Nat := 0x100041c + p * 0x1000
def RX_OVERSIZE_CNT (p : Nat) : Nat := 0x1000420 + p * 0x1000
def RX_OVERSIZE_CNT_HI (p : Nat) : Nat := 0x1000424 + p * 0x1000
def RX_MAC_CTRL_CNT (p : Nat) : Nat := 0x1000428 + p * 0x1000
def RX_MAC_CTRL_CNT_HI (p : Nat) : Nat := 0x100042c + p * 0x1000
def RX_LLDP_CNT (p : Nat) : Nat := 0x1000430 + p * 0x1000
def RX_LLDP_CNT_HI (p : Nat) : Nat := 0x1000434 + p * 0x1000
def RX_FIFO_OVF_CNT (p : Nat) : Nat := 0x1000438 + p * 0x1000
def RX_FIFO_OVF_CNT_HI (p : Nat) : Nat := 0x100043c + p * 0x1000
def RX_CT_BAD_CNT (p : Nat) : Nat := 0x1000440 + p * 0x1000
def RX_CT_BAD_CNT_HI (p : Nat) : Nat := 0x1000444 + p * 0x1000
def RX_CODE_ERR_CNT (p : Nat) : Nat := 0x1000448 + p * 0x1000
def RX_CODE_ERR_CNT_HI (p : Nat) : Nat := 0x100044c + p * 0x1000
def RX_TRACE_DROP_CNT (p : Nat) : Nat := 0x1000450 + p * 0x1000
def RX_TRACE_DROP_CNT_HI (p : Nat) : Nat := 0x1000454 + p * 0x1000
def TX_FRAMES_CNT (p : Nat) : Nat := 0x1000458 + p * 0x1000
def TX_FRAMES_CNT_HI (p : Nat) : Nat := 0x100045c + p * 0x1000
def TX_BYTES_CNT (p : Nat) : Nat := 0x1000460 + p * 0x1000
def TX_BYTES_CNT_HI (p : Nat) : Nat := 0x1000464 + p * 0x1000
def TX_STOMP_CNT (p : Nat) : Nat := 0x1000468 + p * 0x1000
def TX_STOMP_CNT_HI (p : Nat) : Nat := 0x100046c + p * 0x1000
def TX_ABORT_CNT (p : Nat) : Nat := 0x1000470 + p * 0x1000
def TX_ABORT_CNT_HI (p : Nat) : Nat := 0x1000474 + p * 0x1000
def AM_MIMIC_CNT (p : Nat) : Nat := 0x1000478 + p * 0x1000
def AM_MIMIC_CNT_HI (p : Nat) : Nat := 0x100047c + p * 0x1000
def AM_CAND_DROP_CNT (p : Nat) : Nat := 0x1000480 + p * 0x1000
def AM_CAND_DROP_CNT_HI (p : Nat) : Nat := 0x1000484 + p * 0x1000
def AM_LOCK_LOSS_CNT (p : Nat) : Nat := 0x1000488 + p * 0x1000
def AM_LOCK_LOSS_CNT_HI (p : Nat) : Nat := 0x100048c + p * 0x1000
def FEC_CW_CNT (p : Nat) : Nat := 0x1000490 + p * 0x1000
def FEC_CW_CNT_HI (p : Nat) : Nat := 0x1000494 + p * 0x1000
def FEC_CORR_CW_CNT (p : Nat) : Nat := 0x1000498 + p * 0x1000
def FEC_CORR_CW_CNT_HI (p : Nat) : Nat := 0x100049c + p * 0x1000
def FEC_UCW_CNT (p : Nat) : Nat := 0x10004a0 + p * 0x1000
def FEC_UCW_CNT_HI (p : Nat) : Nat := 0x10004a4 + p * 0x1000
def FEC_CORR_SYM_CNT (p : Nat) : Nat := 0x10004a8 + p * 0x1000
def FEC_CORR_SYM_CNT_HI (p : Nat) : Nat := 0x10004ac + p * 0x1000
def ES_CNT (p : Nat) : Nat := 0x10004b0 + p * 0x1000
def ES_CNT_HI (p : Nat) : Nat := 0x10004b4 + p * 0x1000
def SES_CNT (p : Nat) : Nat := 0x10004b8 + p * 0x1000
def SES_CNT_HI (p : Nat) : Nat := 0x10004bc + p * 0x1000
def UAS_CNT (p : Nat) : Nat := 0x10004c0 + p * 0x1000
def UAS_CNT_HI (p : Nat) : Nat := 0x10004c4 + p * 0x1000
def LINK_DOWN_CNT (p : Nat) : Nat := 0x10004c8 + p * 0x1000
def LINK_DOWN_CNT_HI (p : Nat) : Nat := 0x10004cc + p * 0x1000
def AN_FAIL_CNT (p : Nat) : Nat := 0x10004d0 + p * 0x1000
def AN_FAIL_CNT_HI (p : Nat) : Nat := 0x10004d4 + p * 0x1000
def TRACE_BAD_CNT (p : Nat) : Nat := 0x10004d8 + p * 0x1000
def TRACE_BAD_CNT_HI (p : Nat) : Nat := 0x10004dc + p * 0x1000
def FEC_HIST_CNT (p k : Nat) : Nat := 0x10004e0 + p * 0x1000 + k * 8
def FEC_HIST_CNT_HI (p k : Nat) : Nat := 0x10004e4 + p * 0x1000 + k * 8
/-! ### Observability (chapter 15) -/

def RX_CAUSE_CNT (p k : Nat) : Nat := 0x1000600 + p * 0x1000 + k * 8
def RX_CAUSE_CNT_HI (p k : Nat) : Nat := 0x1000604 + p * 0x1000 + k * 8
/-! ### Ports and line (chapter 02) -/

def PRT_LN_CFG (p : Nat) : Nat := 0x1000800 + p * 0x1000
def PRT_LN_CFG_RX_INV (p : Nat) : RFld := ⟨PRT_LN_CFG p, 0, 1⟩
def PRT_LN_CFG_TX_INV (p : Nat) : RFld := ⟨PRT_LN_CFG p, 1, 1⟩
def PRT_LN_CFG_PRBS (p : Nat) : RFld := ⟨PRT_LN_CFG p, 2, 2⟩
def PRT_LN_STS (p : Nat) : Nat := 0x1000804 + p * 0x1000
def PRT_LN_STS_SIG_DET (p : Nat) : RFld := ⟨PRT_LN_STS p, 0, 1⟩
def PRT_LN_STS_CDR_LOCK (p : Nat) : RFld := ⟨PRT_LN_STS p, 1, 1⟩
def PRT_LN_STS_PRBS_LOCK (p : Nat) : RFld := ⟨PRT_LN_STS p, 2, 1⟩
def PRT_LN_PRBS_ERR_CNT (p : Nat) : Nat := 0x1000808 + p * 0x1000
def PRT_LN_PRBS_ERR_CNT_HI (p : Nat) : Nat := 0x100080c + p * 0x1000
def PRT_LN_SYM_ERR_CNT (p : Nat) : Nat := 0x1000810 + p * 0x1000
def PRT_LN_SYM_ERR_CNT_HI (p : Nat) : Nat := 0x1000814 + p * 0x1000
def PRT_LN_TXEQ (p : Nat) : Nat := 0x1000818 + p * 0x1000
def PRT_LN_TXEQ_PRE3 (p : Nat) : RFld := ⟨PRT_LN_TXEQ p, 0, 6⟩
def PRT_LN_TXEQ_PRE2 (p : Nat) : RFld := ⟨PRT_LN_TXEQ p, 6, 6⟩
def PRT_LN_TXEQ_PRE1 (p : Nat) : RFld := ⟨PRT_LN_TXEQ p, 12, 6⟩
def PRT_LN_TXEQ_MAIN (p : Nat) : RFld := ⟨PRT_LN_TXEQ p, 18, 6⟩
def PRT_LN_TXEQ_POST1 (p : Nat) : RFld := ⟨PRT_LN_TXEQ p, 24, 6⟩
/-! ### Parser and keys (chapter 03) -/

def BGH_PKEY_CFG (b k : Nat) : Nat := 0x2000200 + b * 0x40000 + k * 4
def BGH_PKEY_CFG_ZONE (b k : Nat) : RFld := ⟨BGH_PKEY_CFG b k, 0, 8⟩
def BGH_PKEY_CFG_DEF_PROF (b k : Nat) : RFld := ⟨BGH_PKEY_CFG b k, 8, 4⟩
def BGH_PKEY_CFG_FRAG_EN (b k : Nat) : RFld := ⟨BGH_PKEY_CFG b k, 12, 1⟩
def BGH_EXC_CNT (b n : Nat) : Nat := 0x2001000 + b * 0x40000 + n * 8
def BGH_EXC_CNT_HI (b n : Nat) : Nat := 0x2001004 + b * 0x40000 + n * 8
def GRF_EXC_CFG (n : Nat) : Nat := 0x3001000 + n * 4
def GRF_EXC_CFG_ACT (n : Nat) : RFld := ⟨GRF_EXC_CFG n, 0, 3⟩
def GRF_EXC_CFG_NO_FLOW (n : Nat) : RFld := ⟨GRF_EXC_CFG n, 3, 1⟩
def GRF_EXC_CFG_JRN_EN (n : Nat) : RFld := ⟨GRF_EXC_CFG n, 4, 1⟩
def GRF_EXC_CFG_HOST_CH (n : Nat) : RFld := ⟨GRF_EXC_CFG n, 5, 10⟩
def BRG_FRAG_CFG : Nat := 0x3408000
def BRG_FRAG_CFG_TMO : RFld := ⟨BRG_FRAG_CFG, 0, 16⟩
def BRG_FRAG_CFG_EN : RFld := ⟨BRG_FRAG_CFG, 16, 1⟩
def BRG_FRAG_STS : Nat := 0x3408004
def BRG_FRAG_STS_IN_USE : RFld := ⟨BRG_FRAG_STS, 0, 15⟩
def BRG_FRAG_STS_HWM : RFld := ⟨BRG_FRAG_STS, 16, 15⟩
def FRAG_INSTALL_CNT : Nat := 0x3408010
def FRAG_INSTALL_CNT_HI : Nat := 0x3408014
def FRAG_HIT_CNT : Nat := 0x3408018
def FRAG_HIT_CNT_HI : Nat := 0x340801c
def FRAG_MISS_CNT : Nat := 0x3408020
def FRAG_MISS_CNT_HI : Nat := 0x3408024
def FRAG_FULL_CNT : Nat := 0x3408028
def FRAG_FULL_CNT_HI : Nat := 0x340802c
def FRAG_DONE_CNT : Nat := 0x3408030
def FRAG_DONE_CNT_HI : Nat := 0x3408034
def FRAG_TMO_CNT : Nat := 0x3408038
def FRAG_TMO_CNT_HI : Nat := 0x340803c
def GRV_HASH_SEED_A : Nat := 0x4000010
def GRV_HASH_SEED_A_SEED : RFld := ⟨GRV_HASH_SEED_A, 0, 32⟩
def GRV_HASH_SEED_B : Nat := 0x4000014
def GRV_HASH_SEED_B_SEED : RFld := ⟨GRV_HASH_SEED_B, 0, 32⟩
/-! ### Rules and grafting (chapter 04) -/

def GRF_RS_CFG : Nat := 0x3000000
def GRF_RS_CFG_WIDTH : RFld := ⟨GRF_RS_CFG, 0, 1⟩
def GRF_GEN_CUR : Nat := 0x3000004
def GRF_GEN_CUR_GEN : RFld := ⟨GRF_GEN_CUR, 0, 16⟩
def GRF_GEN_CUR_PREV_LIVE : RFld := ⟨GRF_GEN_CUR, 16, 1⟩
def GRF_GRAFT_STS : Nat := 0x3000008
def GRF_GRAFT_STS_STATE : RFld := ⟨GRF_GRAFT_STS, 0, 3⟩
def GRF_GRAFT_STS_BUSY : RFld := ⟨GRF_GRAFT_STS, 3, 1⟩
def GRF_GRAFT_STS_CFG_REJ_STK : RFld := ⟨GRF_GRAFT_STS, 4, 1⟩
def GRF_GRAFT_CFG : Nat := 0x300000c
def GRF_GRAFT_CFG_FLIP_LEAD : RFld := ⟨GRF_GRAFT_CFG, 0, 16⟩
def GRF_GRAFT_CFG_DRAIN_WARN : RFld := ⟨GRF_GRAFT_CFG, 16, 16⟩
def GRF_LOG_CFG : Nat := 0x3000010
def GRF_LOG_CFG_BASE : RFld := ⟨GRF_LOG_CFG, 0, 14⟩
def GRF_LOG_CFG_SIZE : RFld := ⟨GRF_LOG_CFG, 16, 7⟩
def GRF_LOG_STS : Nat := 0x3000014
def GRF_LOG_STS_STAGED : RFld := ⟨GRF_LOG_STS, 0, 19⟩
def GRF_GRAFT_INT : Nat := 0x3000018
def GRF_GRAFT_INT_FLIPPED : RFld := ⟨GRF_GRAFT_INT, 0, 1⟩
def GRF_GRAFT_INT_RETIRED : RFld := ⟨GRF_GRAFT_INT, 1, 1⟩
def GRF_GRAFT_INT_FAIL : RFld := ⟨GRF_GRAFT_INT, 2, 1⟩
def GRF_GRAFT_INT_DRAIN_SLOW : RFld := ⟨GRF_GRAFT_INT, 3, 1⟩
def GRF_GRAFT_MSK : Nat := 0x300001c
def GRF_GRAFT_MSK_FLIPPED : RFld := ⟨GRF_GRAFT_MSK, 0, 1⟩
def GRF_GRAFT_MSK_RETIRED : RFld := ⟨GRF_GRAFT_MSK, 1, 1⟩
def GRF_GRAFT_MSK_FAIL : RFld := ⟨GRF_GRAFT_MSK, 2, 1⟩
def GRF_GRAFT_MSK_DRAIN_SLOW : RFld := ⟨GRF_GRAFT_MSK, 3, 1⟩
def GRF_FLIP_TS : Nat := 0x3000020
def GRF_FLIP_TS_LO : RFld := ⟨GRF_FLIP_TS, 0, 32⟩
def GRF_FLIP_TS_HI : Nat := 0x3000024
def GRF_FLIP_TS_HI_HI : RFld := ⟨GRF_FLIP_TS_HI, 0, 32⟩
def GRAFT_CNT : Nat := 0x3000040
def GRAFT_CNT_HI : Nat := 0x3000044
def GRAFT_FAIL_CNT : Nat := 0x3000048
def GRAFT_FAIL_CNT_HI : Nat := 0x300004c
def BATCH_FULL_CNT : Nat := 0x3000050
def BATCH_FULL_CNT_HI : Nat := 0x3000054
def GRF_MIR_CFG (n : Nat) : Nat := 0x3000100 + n * 4
def GRF_MIR_CFG_DST (n : Nat) : RFld := ⟨GRF_MIR_CFG n, 0, 8⟩
def GRF_MIR_CFG_CLASS (n : Nat) : RFld := ⟨GRF_MIR_CFG n, 8, 4⟩
def GRF_MIR_CFG_EN (n : Nat) : RFld := ⟨GRF_MIR_CFG n, 12, 1⟩
def GRF_MIR_CFG_TRUNC (n : Nat) : RFld := ⟨GRF_MIR_CFG n, 16, 8⟩
def BGH_GEN_CNT (b : Nat) : Nat := 0x2000120 + b * 0x40000
def BGH_RECIRC_STS (b : Nat) : Nat := 0x2000124 + b * 0x40000
def BGH_RECIRC_STS_IN_USE (b : Nat) : RFld := ⟨BGH_RECIRC_STS b, 0, 11⟩
def BGH_RECIRC_STS_HWM (b : Nat) : RFld := ⟨BGH_RECIRC_STS b, 16, 11⟩
def BGH_RECIRC_CNT (b : Nat) : Nat := 0x2000300 + b * 0x40000
def BGH_RECIRC_CNT_HI (b : Nat) : Nat := 0x2000304 + b * 0x40000
def BGH_RECIRC_FULL_CNT (b : Nat) : Nat := 0x2000308 + b * 0x40000
def BGH_RECIRC_FULL_CNT_HI (b : Nat) : Nat := 0x200030c + b * 0x40000
def BGH_RECIRC_LOOP_CNT (b : Nat) : Nat := 0x2000310 + b * 0x40000
def BGH_RECIRC_LOOP_CNT_HI (b : Nat) : Nat := 0x2000314 + b * 0x40000
def BGH_TTL_DROP_CNT (b : Nat) : Nat := 0x2000318 + b * 0x40000
def BGH_TTL_DROP_CNT_HI (b : Nat) : Nat := 0x200031c + b * 0x40000
def BGH_EDIT_SKIP_CNT (b : Nat) : Nat := 0x2000320 + b * 0x40000
def BGH_EDIT_SKIP_CNT_HI (b : Nat) : Nat := 0x2000324 + b * 0x40000
/-! ### Bridging (chapter 05) -/

def BRG_LEARN_CFG : Nat := 0x3400000
def BRG_LEARN_CFG_HOLD : RFld := ⟨BRG_LEARN_CFG, 0, 16⟩
def BRG_LEARN_CFG_SETTLE : RFld := ⟨BRG_LEARN_CFG, 16, 8⟩
def BRG_PRUNE_CFG : Nat := 0x3400004
def BRG_PRUNE_CFG_PERIOD : RFld := ⟨BRG_PRUNE_CFG, 0, 16⟩
def BRG_STS : Nat := 0x3400008
def BRG_STS_IN_USE : RFld := ⟨BRG_STS, 0, 16⟩
def BRG_STS_MRG_USE : RFld := ⟨BRG_STS, 16, 11⟩
def BRG_STS_FULL : RFld := ⟨BRG_STS, 27, 1⟩
def BRG_INT : Nat := 0x3400010
def BRG_INT_FULL : RFld := ⟨BRG_INT, 0, 1⟩
def BRG_INT_FLAP : RFld := ⟨BRG_INT, 1, 1⟩
def BRG_INT_LEARN_FAIL : RFld := ⟨BRG_INT, 2, 1⟩
def BRG_INT_LQ_DROP : RFld := ⟨BRG_INT, 3, 1⟩
def BRG_MSK : Nat := 0x3400014
def BRG_MSK_FULL : RFld := ⟨BRG_MSK, 0, 1⟩
def BRG_MSK_FLAP : RFld := ⟨BRG_MSK, 1, 1⟩
def BRG_MSK_LEARN_FAIL : RFld := ⟨BRG_MSK, 2, 1⟩
def BRG_MSK_LQ_DROP : RFld := ⟨BRG_MSK, 3, 1⟩
def BRG_PORT_CFG (p : Nat) : Nat := 0x3401000 + p * 4
def BRG_PORT_CFG_PVID (p : Nat) : RFld := ⟨BRG_PORT_CFG p, 0, 12⟩
def BRG_PORT_CFG_LEARN_EN (p : Nat) : RFld := ⟨BRG_PORT_CFG p, 12, 1⟩
def BRG_PORT_CFG_FLUSH_ON_DOWN (p : Nat) : RFld := ⟨BRG_PORT_CFG p, 13, 1⟩
def BRG_PORT_CFG_LIMIT (p : Nat) : RFld := ⟨BRG_PORT_CFG p, 16, 14⟩
def BRG_PORT_STS (p : Nat) : Nat := 0x3401400 + p * 4
def BRG_PORT_STS_LEARNED (p : Nat) : RFld := ⟨BRG_PORT_STS p, 0, 16⟩
def LEARN_CNT : Nat := 0x3400100
def LEARN_CNT_HI : Nat := 0x3400104
def MOVE_CNT : Nat := 0x3400108
def MOVE_CNT_HI : Nat := 0x340010c
def FLAP_CNT : Nat := 0x3400110
def FLAP_CNT_HI : Nat := 0x3400114
def LEARN_FAIL_CNT : Nat := 0x3400118
def LEARN_FAIL_CNT_HI : Nat := 0x340011c
def LEARN_LATE_CNT : Nat := 0x3400120
def LEARN_LATE_CNT_HI : Nat := 0x3400124
def LEARN_Q_DROP_CNT : Nat := 0x3400128
def LEARN_Q_DROP_CNT_HI : Nat := 0x340012c
def LEARN_LIMIT_CNT : Nat := 0x3400130
def LEARN_LIMIT_CNT_HI : Nat := 0x3400134
def LEARN_STATIC_CNT : Nat := 0x3400138
def LEARN_STATIC_CNT_HI : Nat := 0x340013c
def AGE_CNT : Nat := 0x3400140
def AGE_CNT_HI : Nat := 0x3400144
def FLUSH_CNT : Nat := 0x3400148
def FLUSH_CNT_HI : Nat := 0x340014c
def BRG_FLOOD_CNT : Nat := 0x3400150
def BRG_FLOOD_CNT_HI : Nat := 0x3400154
def BRG_SAME_PORT_CNT : Nat := 0x3400158
def BRG_SAME_PORT_CNT_HI : Nat := 0x340015c
def BRG_VLAN_DROP_CNT : Nat := 0x3400160
def BRG_VLAN_DROP_CNT_HI : Nat := 0x3400164
def VIP_HIT_CNT : Nat := 0x3400168
def VIP_HIT_CNT_HI : Nat := 0x340016c
/-! ### Flow records (chapter 06) -/

def GRV_CFG : Nat := 0x4000000
def GRV_CFG_EN : RFld := ⟨GRV_CFG, 0, 1⟩
def GRV_CFG_KEEP : RFld := ⟨GRV_CFG, 1, 1⟩
def GRV_CFG_FLUSH : RFld := ⟨GRV_CFG, 2, 1⟩
def GRV_STS : Nat := 0x4000004
def GRV_STS_READY : RFld := ⟨GRV_STS, 0, 1⟩
def GRV_STS_INIT_BUSY : RFld := ⟨GRV_STS, 1, 1⟩
def GRV_STS_FLUSH_BUSY : RFld := ⟨GRV_STS, 2, 1⟩
def GRV_STS_KEEP_OK : RFld := ⟨GRV_STS, 3, 1⟩
def GRV_STS_KEEP_REJ_STK : RFld := ⟨GRV_STS, 4, 1⟩
def GRV_STS_CFG_REJ_STK : RFld := ⟨GRV_STS, 5, 1⟩
def GRV_DIR_STS : Nat := 0x4000008
def GRV_DIR_STS_FLOWS : RFld := ⟨GRV_DIR_STS, 0, 26⟩
def GRV_PARK_STS : Nat := 0x400000c
def GRV_PARK_STS_IN_USE : RFld := ⟨GRV_PARK_STS, 0, 17⟩
def GRV_PARK_HWM : Nat := 0x4000018
def GRV_PARK_HWM_HWM : RFld := ⟨GRV_PARK_HWM, 0, 17⟩
def GRV_PEND_STS : Nat := 0x400001c
def GRV_PEND_STS_IN_USE : RFld := ⟨GRV_PEND_STS, 0, 14⟩
def GRV_PEND_STS_HWM : RFld := ⟨GRV_PEND_STS, 16, 14⟩
def GRV_MISS_CFG : Nat := 0x4000020
def GRV_MISS_CFG_RATE : RFld := ⟨GRV_MISS_CFG, 0, 10⟩
def GRV_MISS_CFG_BURST : RFld := ⟨GRV_MISS_CFG, 16, 16⟩
def GRV_PARK_CFG : Nat := 0x4000024
def GRV_PARK_CFG_TMAX : RFld := ⟨GRV_PARK_CFG, 0, 11⟩
def GRV_PARK_CFG_PER_FLOW : RFld := ⟨GRV_PARK_CFG, 16, 8⟩
def GRV_PRUNE_CFG : Nat := 0x4000028
def GRV_PRUNE_CFG_PERIOD : RFld := ⟨GRV_PRUNE_CFG, 0, 16⟩
def GRV_INT : Nat := 0x4000030
def GRV_INT_READY : RFld := ⟨GRV_INT, 0, 1⟩
def GRV_INT_PARK_TMO : RFld := ⟨GRV_INT, 1, 1⟩
def GRV_INT_UNSTATED : RFld := ⟨GRV_INT, 2, 1⟩
def GRV_INT_DIR_FULL : RFld := ⟨GRV_INT, 3, 1⟩
def GRV_INT_PARK_FULL : RFld := ⟨GRV_INT, 4, 1⟩
def GRV_INT_FLUSH_DONE : RFld := ⟨GRV_INT, 5, 1⟩
def GRV_INT_OVF_SAT : RFld := ⟨GRV_INT, 6, 1⟩
def GRV_MSK : Nat := 0x4000034
def GRV_MSK_READY : RFld := ⟨GRV_MSK, 0, 1⟩
def GRV_MSK_PARK_TMO : RFld := ⟨GRV_MSK, 1, 1⟩
def GRV_MSK_UNSTATED : RFld := ⟨GRV_MSK, 2, 1⟩
def GRV_MSK_DIR_FULL : RFld := ⟨GRV_MSK, 3, 1⟩
def GRV_MSK_PARK_FULL : RFld := ⟨GRV_MSK, 4, 1⟩
def GRV_MSK_FLUSH_DONE : RFld := ⟨GRV_MSK, 5, 1⟩
def GRV_MSK_OVF_SAT : RFld := ⟨GRV_MSK, 6, 1⟩
def GRV_AGE_CFG (k : Nat) : Nat := 0x4000040 + k * 4
def GRV_AGE_CFG_IDLE (k : Nat) : RFld := ⟨GRV_AGE_CFG k, 0, 16⟩
def GRV_AGE_CFG_CLOSED_IDLE (k : Nat) : RFld := ⟨GRV_AGE_CFG k, 16, 15⟩
def GRV_AGE_CFG_PAIR_JOINT (k : Nat) : RFld := ⟨GRV_AGE_CFG k, 31, 1⟩
def GRV_UNS_CFG (c : Nat) : Nat := 0x4000080 + c * 4
def GRV_UNS_CFG_ACT (c : Nat) : RFld := ⟨GRV_UNS_CFG c, 0, 2⟩
def GRV_UNS_CFG_HOST_CH (c : Nat) : RFld := ⟨GRV_UNS_CFG c, 4, 10⟩
def GRV_HIT_CNT : Nat := 0x4000100
def GRV_HIT_CNT_HI : Nat := 0x4000104
def GRV_MISS_CNT : Nat := 0x4000108
def GRV_MISS_CNT_HI : Nat := 0x400010c
def GRV_FIND_CNT : Nat := 0x4000110
def GRV_FIND_CNT_HI : Nat := 0x4000114
def GRV_FIND_OB_CNT : Nat := 0x4000118
def GRV_FIND_OB_CNT_HI : Nat := 0x400011c
def GRV_ALT_READ_CNT : Nat := 0x4000120
def GRV_ALT_READ_CNT_HI : Nat := 0x4000124
def GRV_CREATE_CNT : Nat := 0x4000128
def GRV_CREATE_CNT_HI : Nat := 0x400012c
def GRV_EVICT_CNT : Nat := 0x4000130
def GRV_EVICT_CNT_HI : Nat := 0x4000134
def GRV_WB_CNT : Nat := 0x4000138
def GRV_WB_CNT_HI : Nat := 0x400013c
def GRV_FP_EVICT_CNT : Nat := 0x4000140
def GRV_FP_EVICT_CNT_HI : Nat := 0x4000144
def GRV_JOIN_CNT : Nat := 0x4000148
def GRV_JOIN_CNT_HI : Nat := 0x400014c
def GRV_WB_WAIT_CNT : Nat := 0x4000150
def GRV_WB_WAIT_CNT_HI : Nat := 0x4000154
def GRV_UNSTATED_CNT : Nat := 0x4000158
def GRV_UNSTATED_CNT_HI : Nat := 0x400015c
def GRV_DIR_FULL_CNT : Nat := 0x4000160
def GRV_DIR_FULL_CNT_HI : Nat := 0x4000164
def GRV_NOBUDGET_CNT : Nat := 0x4000168
def GRV_NOBUDGET_CNT_HI : Nat := 0x400016c
def GRV_PARK_FULL_CNT : Nat := 0x4000170
def GRV_PARK_FULL_CNT_HI : Nat := 0x4000174
def GRV_PEND_FULL_CNT : Nat := 0x4000178
def GRV_PEND_FULL_CNT_HI : Nat := 0x400017c
def GRV_PARK_CAP_CNT : Nat := 0x4000180
def GRV_PARK_CAP_CNT_HI : Nat := 0x4000184
def GRV_PARK_TMO_CNT : Nat := 0x4000188
def GRV_PARK_TMO_CNT_HI : Nat := 0x400018c
def GRV_OFF_CNT : Nat := 0x4000190
def GRV_OFF_CNT_HI : Nat := 0x4000194
def GRV_EXPIRE_CNT : Nat := 0x4000198
def GRV_EXPIRE_CNT_HI : Nat := 0x400019c
def GRV_DEL_CNT : Nat := 0x40001a0
def GRV_DEL_CNT_HI : Nat := 0x40001a4
def GRV_OVF_SAT_CNT : Nat := 0x40001a8
def GRV_OVF_SAT_CNT_HI : Nat := 0x40001ac
def GRV_UNSTATED_CLS_CNT (c : Nat) : Nat := 0x4000200 + c * 8
def GRV_UNSTATED_CLS_CNT_HI (c : Nat) : Nat := 0x4000204 + c * 8
/-! ### Flow actions (chapter 07) -/

def GRV_FA_CTL (n : Nat) : Nat := 0x4001000 + n * 0x10
def GRV_FA_CTL_TCP_EN (n : Nat) : RFld := ⟨GRV_FA_CTL n, 0, 1⟩
def GRV_FA_CTL_MTR_EN (n : Nat) : RFld := ⟨GRV_FA_CTL n, 1, 1⟩
def GRV_FA_CTL_MTR_CA (n : Nat) : RFld := ⟨GRV_FA_CTL n, 2, 1⟩
def GRV_FA_CTL_VERDICT_EN (n : Nat) : RFld := ⟨GRV_FA_CTL n, 3, 1⟩
def GRV_FA_CTL_BIND (n : Nat) : RFld := ⟨GRV_FA_CTL n, 4, 2⟩
def GRV_FA_CTL_PROBES (n : Nat) : RFld := ⟨GRV_FA_CTL n, 6, 2⟩
def GRV_FA_CTL_RED_DROP (n : Nat) : RFld := ⟨GRV_FA_CTL n, 8, 1⟩
def GRV_FA_CTL_YEL_DROP (n : Nat) : RFld := ⟨GRV_FA_CTL n, 9, 1⟩
def GRV_FA_MTR (n : Nat) : Nat := 0x4001004 + n * 0x10
def GRV_FA_MTR_MTR_PROF (n : Nat) : RFld := ⟨GRV_FA_MTR n, 0, 14⟩
def GRV_FA_HO (n : Nat) : Nat := 0x4001008 + n * 0x10
def GRV_FA_HO_HO_RT (n : Nat) : RFld := ⟨GRV_FA_HO n, 0, 12⟩
def GRV_FA_HO_HO_ALL (n : Nat) : RFld := ⟨GRV_FA_HO n, 12, 1⟩
def GRV_FA_HO_HO_NEW (n : Nat) : RFld := ⟨GRV_FA_HO n, 13, 1⟩
def GRV_FA_HO_HO_TCPCTL (n : Nat) : RFld := ⟨GRV_FA_HO n, 14, 1⟩
def GRV_FA_HO_HO_STATE (n : Nat) : RFld := ⟨GRV_FA_HO n, 15, 1⟩
def GRV_FA_HO_HO_RED (n : Nat) : RFld := ⟨GRV_FA_HO n, 16, 1⟩
def GRV_FA_HO_HO_NOBIND (n : Nat) : RFld := ⟨GRV_FA_HO n, 17, 1⟩
def GRV_FA_EXP (n : Nat) : Nat := 0x400100c + n * 0x10
def GRV_FA_EXP_EXP_TMPL (n : Nat) : RFld := ⟨GRV_FA_EXP n, 0, 8⟩
def GRV_FA_EXP_EXP_INT (n : Nat) : RFld := ⟨GRV_FA_EXP n, 16, 16⟩
def FA_CORR_CNT : Nat := 0x4000400
def FA_CORR_CNT_HI : Nat := 0x4000404
def FA_CORR_LOST_CNT : Nat := 0x4000408
def FA_CORR_LOST_CNT_HI : Nat := 0x400040c
def FA_MTR_GREEN_CNT : Nat := 0x4000410
def FA_MTR_GREEN_CNT_HI : Nat := 0x4000414
def FA_MTR_YELLOW_CNT : Nat := 0x4000418
def FA_MTR_YELLOW_CNT_HI : Nat := 0x400041c
def FA_MTR_RED_CNT : Nat := 0x4000420
def FA_MTR_RED_CNT_HI : Nat := 0x4000424
def FA_MTR_DROP_CNT : Nat := 0x4000428
def FA_MTR_DROP_CNT_HI : Nat := 0x400042c
def FA_VERDICT_CNT : Nat := 0x4000430
def FA_VERDICT_CNT_HI : Nat := 0x4000434
def FA_NAT_BIND_CNT : Nat := 0x4000438
def FA_NAT_BIND_CNT_HI : Nat := 0x400043c
def FA_NAT_PROBE_CNT : Nat := 0x4000440
def FA_NAT_PROBE_CNT_HI : Nat := 0x4000444
def FA_NAT_NOBIND_CNT : Nat := 0x4000448
def FA_NAT_NOBIND_CNT_HI : Nat := 0x400044c
def FA_NAT_NOPOOL_CNT : Nat := 0x4000450
def FA_NAT_NOPOOL_CNT_HI : Nat := 0x4000454
def FA_LB_BIND_CNT : Nat := 0x4000458
def FA_LB_BIND_CNT_HI : Nat := 0x400045c
def FA_LB_NOMEMBER_CNT : Nat := 0x4000460
def FA_LB_NOMEMBER_CNT_HI : Nat := 0x4000464
def FA_LB_REPIN_CNT : Nat := 0x4000468
def FA_LB_REPIN_CNT_HI : Nat := 0x400046c
def FA_LB_DOWN_CNT : Nat := 0x4000470
def FA_LB_DOWN_CNT_HI : Nat := 0x4000474
def FA_PAIR_CLASH_CNT : Nat := 0x4000478
def FA_PAIR_CLASH_CNT_HI : Nat := 0x400047c
def FA_HANDOVER_CNT : Nat := 0x4000480
def FA_HANDOVER_CNT_HI : Nat := 0x4000484
/-! ### Twig (chapter 08) -/

def TWG_CFG : Nat := 0x4800000
def TWG_CFG_ITEM_TMAX : RFld := ⟨TWG_CFG, 0, 14⟩
def TWG_CFG_HOLD : RFld := ⟨TWG_CFG, 16, 16⟩
def TWG_HALT : Nat := 0x4800004
def TWG_HALT_HALT_REQ : RFld := ⟨TWG_HALT, 0, 16⟩
def TWG_HALT_STS : Nat := 0x4800008
def TWG_HALT_STS_HALTED : RFld := ⟨TWG_HALT_STS, 0, 16⟩
def TWG_EPOCH : Nat := 0x480000c
def TWG_EPOCH_CUR : RFld := ⟨TWG_EPOCH, 0, 16⟩
def TWG_EPOCH_PREV_LIVE : RFld := ⟨TWG_EPOCH, 16, 1⟩
def TWG_IMG_VER : Nat := 0x4800010
def TWG_IMG_VER_VER : RFld := ⟨TWG_IMG_VER, 0, 32⟩
def TWG_PATCH_STS : Nat := 0x4800014
def TWG_PATCH_STS_STATE : RFld := ⟨TWG_PATCH_STS, 0, 2⟩
def TWG_PATCH_STS_BUSY : RFld := ⟨TWG_PATCH_STS, 2, 1⟩
def TWG_PATCH_STS_REJ_STK : RFld := ⟨TWG_PATCH_STS, 3, 1⟩
def TWG_PATCH_CFG : Nat := 0x4800018
def TWG_PATCH_CFG_FLIP_LEAD : RFld := ⟨TWG_PATCH_CFG, 0, 16⟩
def TWG_COLD_CFG : Nat := 0x480001c
def TWG_COLD_CFG_RATE : RFld := ⟨TWG_COLD_CFG, 0, 8⟩
def TWG_INT : Nat := 0x4800020
def TWG_INT_TRAP : RFld := ⟨TWG_INT, 0, 1⟩
def TWG_INT_TMO : RFld := ⟨TWG_INT, 1, 1⟩
def TWG_INT_WIN_FULL : RFld := ⟨TWG_INT, 2, 1⟩
def TWG_INT_ORD_SKIP : RFld := ⟨TWG_INT, 3, 1⟩
def TWG_INT_HALTED : RFld := ⟨TWG_INT, 4, 1⟩
def TWG_INT_FLIPPED : RFld := ⟨TWG_INT, 5, 1⟩
def TWG_INT_RETIRED : RFld := ⟨TWG_INT, 6, 1⟩
def TWG_INT_LOAD_ERR : RFld := ⟨TWG_INT, 7, 1⟩
def TWG_MSK : Nat := 0x4800024
def TWG_MSK_TRAP : RFld := ⟨TWG_MSK, 0, 1⟩
def TWG_MSK_TMO : RFld := ⟨TWG_MSK, 1, 1⟩
def TWG_MSK_WIN_FULL : RFld := ⟨TWG_MSK, 2, 1⟩
def TWG_MSK_ORD_SKIP : RFld := ⟨TWG_MSK, 3, 1⟩
def TWG_MSK_HALTED : RFld := ⟨TWG_MSK, 4, 1⟩
def TWG_MSK_FLIPPED : RFld := ⟨TWG_MSK, 5, 1⟩
def TWG_MSK_RETIRED : RFld := ⟨TWG_MSK, 6, 1⟩
def TWG_MSK_LOAD_ERR : RFld := ⟨TWG_MSK, 7, 1⟩
def TWG_TRAP_LOG0 : Nat := 0x4800028
def TWG_TRAP_LOG0_ADDR : RFld := ⟨TWG_TRAP_LOG0, 0, 14⟩
def TWG_TRAP_LOG0_VALID : RFld := ⟨TWG_TRAP_LOG0, 14, 1⟩
def TWG_TRAP_LOG0_CLUSTER : RFld := ⟨TWG_TRAP_LOG0, 16, 4⟩
def TWG_TRAP_LOG0_ENGINE : RFld := ⟨TWG_TRAP_LOG0, 20, 5⟩
def TWG_TRAP_LOG0_CAUSE : RFld := ⟨TWG_TRAP_LOG0, 25, 3⟩
def TWG_TRAP_LOG1 : Nat := 0x480002c
def TWG_TRAP_LOG1_ROUTINE : RFld := ⟨TWG_TRAP_LOG1, 0, 12⟩
def TWG_ORD_EN (i : Nat) : Nat := 0x4800100 + i * 4
def TWG_ORD_EN_PORTS (i : Nat) : RFld := ⟨TWG_ORD_EN i, 0, 32⟩
def TWG_ORD_ALL (i : Nat) : Nat := 0x4800120 + i * 4
def TWG_ORD_ALL_PORTS (i : Nat) : RFld := ⟨TWG_ORD_ALL i, 0, 32⟩
def TWG_CLU_STS (k : Nat) : Nat := 0x4800200 + k * 4
def TWG_CLU_STS_WIN_USE (k : Nat) : RFld := ⟨TWG_CLU_STS k, 0, 12⟩
def TWG_CLU_STS_DISP_USE (k : Nat) : RFld := ⟨TWG_CLU_STS k, 16, 12⟩
def TWG_ITEM_CNT : Nat := 0x4800400
def TWG_ITEM_CNT_HI : Nat := 0x4800404
def TWG_DONE_CNT : Nat := 0x4800408
def TWG_DONE_CNT_HI : Nat := 0x480040c
def TWG_UWORD_CNT : Nat := 0x4800410
def TWG_UWORD_CNT_HI : Nat := 0x4800414
def TWG_COMMIT_CNT : Nat := 0x4800418
def TWG_COMMIT_CNT_HI : Nat := 0x480041c
def TWG_UNCOMMIT_CNT : Nat := 0x4800420
def TWG_UNCOMMIT_CNT_HI : Nat := 0x4800424
def TWG_COMMIT_LOST_CNT : Nat := 0x4800428
def TWG_COMMIT_LOST_CNT_HI : Nat := 0x480042c
def TWG_COLD_CNT : Nat := 0x4800430
def TWG_COLD_CNT_HI : Nat := 0x4800434
def TWG_TRAP_CNT : Nat := 0x4800438
def TWG_TRAP_CNT_HI : Nat := 0x480043c
def TWG_RETRY_CNT : Nat := 0x4800440
def TWG_RETRY_CNT_HI : Nat := 0x4800444
def TWG_FALLBACK_CNT : Nat := 0x4800448
def TWG_FALLBACK_CNT_HI : Nat := 0x480044c
def TWG_TMO_CNT : Nat := 0x4800450
def TWG_TMO_CNT_HI : Nat := 0x4800454
def TWG_WIN_FULL_CNT : Nat := 0x4800458
def TWG_WIN_FULL_CNT_HI : Nat := 0x480045c
def TWG_DISP_FULL_CNT : Nat := 0x4800460
def TWG_DISP_FULL_CNT_HI : Nat := 0x4800464
def TWG_ORD_FULL_CNT : Nat := 0x4800468
def TWG_ORD_FULL_CNT_HI : Nat := 0x480046c
def TWG_ORD_SKIP_CNT : Nat := 0x4800470
def TWG_ORD_SKIP_CNT_HI : Nat := 0x4800474
def TWG_PATCH_CNT : Nat := 0x4800478
def TWG_PATCH_CNT_HI : Nat := 0x480047c
/-! ### Root store (chapter 09) -/

def RTS_CFG : Nat := 0x5000000
def RTS_CFG_EN : RFld := ⟨RTS_CFG, 0, 1⟩
def RTS_STS : Nat := 0x5000004
def RTS_STS_READY : RFld := ⟨RTS_STS, 0, 2⟩
def RTS_STS_KEPT : RFld := ⟨RTS_STS, 2, 2⟩
def RTS_STS_MAP_REJ_STK : RFld := ⟨RTS_STS, 4, 1⟩
def RTS_STS_BW_OVER : RFld := ⟨RTS_STS, 5, 1⟩
def RTS_MAP_STK : Nat := 0x5000010
def RTS_MAP_STK_XMASK : RFld := ⟨RTS_MAP_STK, 0, 14⟩
def RTS_MAP_PC (n : Nat) : Nat := 0x5000014 + n * 4
def RTS_MAP_PC_XMASK (n : Nat) : RFld := ⟨RTS_MAP_PC n, 0, 14⟩
def RTS_MAP_BA (n : Nat) : Nat := 0x5000028 + n * 4
def RTS_MAP_BA_XMASK (n : Nat) : RFld := ⟨RTS_MAP_BA n, 0, 14⟩
def RTS_PAGE_CFG : Nat := 0x5000040
def RTS_PAGE_CFG_POLICY : RFld := ⟨RTS_PAGE_CFG, 0, 2⟩
def RTS_PAGE_CFG_IDLE : RFld := ⟨RTS_PAGE_CFG, 8, 10⟩
def RTS_TRAIN_CFG : Nat := 0x5000044
def RTS_TRAIN_CFG_PERIOD : RFld := ⟨RTS_TRAIN_CFG, 0, 8⟩
def RTS_TEMP_CFG : Nat := 0x5000048
def RTS_TEMP_CFG_HIGH : RFld := ⟨RTS_TEMP_CFG, 0, 8⟩
def RTS_BW_CFG (n : Nat) : Nat := 0x5000080 + n * 4
def RTS_BW_CFG_CAP (n : Nat) : RFld := ⟨RTS_BW_CFG n, 0, 10⟩
def RTS_REQ_STS (s : Nat) : Nat := 0x5010000 + s * 0x10000
def RTS_REQ_STS_IN_USE (s : Nat) : RFld := ⟨RTS_REQ_STS s, 0, 13⟩
def RTS_REQ_STS_HWM (s : Nat) : RFld := ⟨RTS_REQ_STS s, 16, 13⟩
def RTS_TEMP (s : Nat) : Nat := 0x5010004 + s * 0x10000
def RTS_TEMP_TEMP (s : Nat) : RFld := ⟨RTS_TEMP s, 0, 8⟩
def RTS_TEMP_FAST_REF (s : Nat) : RFld := ⟨RTS_TEMP s, 8, 1⟩
def RTS_INT (s : Nat) : Nat := 0x5010010 + s * 0x10000
def RTS_INT_TEMP_HIGH (s : Nat) : RFld := ⟨RTS_INT s, 0, 1⟩
def RTS_INT_TRAIN_FAIL (s : Nat) : RFld := ⟨RTS_INT s, 1, 1⟩
def RTS_INT_BACKPRESS (s : Nat) : RFld := ⟨RTS_INT s, 2, 1⟩
def RTS_INT_READY (s : Nat) : RFld := ⟨RTS_INT s, 3, 1⟩
def RTS_MSK (s : Nat) : Nat := 0x5010014 + s * 0x10000
def RTS_MSK_TEMP_HIGH (s : Nat) : RFld := ⟨RTS_MSK s, 0, 1⟩
def RTS_MSK_TRAIN_FAIL (s : Nat) : RFld := ⟨RTS_MSK s, 1, 1⟩
def RTS_MSK_BACKPRESS (s : Nat) : RFld := ⟨RTS_MSK s, 2, 1⟩
def RTS_MSK_READY (s : Nat) : RFld := ⟨RTS_MSK s, 3, 1⟩
def RTS_RD_BYTES_CNT (s : Nat) : Nat := 0x5010100 + s * 0x10000
def RTS_RD_BYTES_CNT_HI (s : Nat) : Nat := 0x5010104 + s * 0x10000
def RTS_WR_BYTES_CNT (s : Nat) : Nat := 0x5010108 + s * 0x10000
def RTS_WR_BYTES_CNT_HI (s : Nat) : Nat := 0x501010c + s * 0x10000
def RTS_ROW_HIT_CNT (s : Nat) : Nat := 0x5010110 + s * 0x10000
def RTS_ROW_HIT_CNT_HI (s : Nat) : Nat := 0x5010114 + s * 0x10000
def RTS_ROW_MISS_CNT (s : Nat) : Nat := 0x5010118 + s * 0x10000
def RTS_ROW_MISS_CNT_HI (s : Nat) : Nat := 0x501011c + s * 0x10000
def RTS_RAW_FWD_CNT (s : Nat) : Nat := 0x5010120 + s * 0x10000
def RTS_RAW_FWD_CNT_HI (s : Nat) : Nat := 0x5010124 + s * 0x10000
def RTS_XSTK_CNT (s : Nat) : Nat := 0x5010128 + s * 0x10000
def RTS_XSTK_CNT_HI (s : Nat) : Nat := 0x501012c + s * 0x10000
def RTS_OB_BYTES_CNT (s : Nat) : Nat := 0x5010130 + s * 0x10000
def RTS_OB_BYTES_CNT_HI (s : Nat) : Nat := 0x5010134 + s * 0x10000
def RTS_BACKPRESS_CNT (s : Nat) : Nat := 0x5010138 + s * 0x10000
def RTS_BACKPRESS_CNT_HI (s : Nat) : Nat := 0x501013c + s * 0x10000
def RTS_REFRESH_CNT (s : Nat) : Nat := 0x5010140 + s * 0x10000
def RTS_REFRESH_CNT_HI (s : Nat) : Nat := 0x5010144 + s * 0x10000
def RTS_RFM_CNT (s : Nat) : Nat := 0x5010148 + s * 0x10000
def RTS_RFM_CNT_HI (s : Nat) : Nat := 0x501014c + s * 0x10000
def RTS_TRAIN_CNT (s : Nat) : Nat := 0x5010150 + s * 0x10000
def RTS_TRAIN_CNT_HI (s : Nat) : Nat := 0x5010154 + s * 0x10000
def RTS_TRAIN_FAIL_CNT (s : Nat) : Nat := 0x5010158 + s * 0x10000
def RTS_TRAIN_FAIL_CNT_HI (s : Nat) : Nat := 0x501015c + s * 0x10000
def RTS_DIE_CE_CNT (s : Nat) : Nat := 0x5010160 + s * 0x10000
def RTS_DIE_CE_CNT_HI (s : Nat) : Nat := 0x5010164 + s * 0x10000
def RTS_CLS_BYTES_CNT (s n : Nat) : Nat := 0x5010200 + s * 0x10000 + n * 8
def RTS_CLS_BYTES_CNT_HI (s n : Nat) : Nat := 0x5010204 + s * 0x10000 + n * 8
/-! ### Crown (chapter 10) -/

def CRN_MC_CFG : Nat := 0x6000000
def CRN_MC_CFG_SHARE_WIN : RFld := ⟨CRN_MC_CFG, 0, 16⟩
def CRN_AGE_CFG : Nat := 0x6000004
def CRN_AGE_CFG_XP_MAX : RFld := ⟨CRN_AGE_CFG, 0, 16⟩
def CRN_AGE_CFG_STALE : RFld := ⟨CRN_AGE_CFG, 16, 16⟩
def CRN_INT : Nat := 0x6000010
def CRN_INT_BAD_FREE : RFld := ⟨CRN_INT, 0, 1⟩
def CRN_INT_STALE : RFld := ⟨CRN_INT, 1, 1⟩
def CRN_INT_XP_STALE : RFld := ⟨CRN_INT, 2, 1⟩
def CRN_INT_LATE : RFld := ⟨CRN_INT, 3, 1⟩
def CRN_INT_UNDERRUN : RFld := ⟨CRN_INT, 4, 1⟩
def CRN_MSK : Nat := 0x6000014
def CRN_MSK_BAD_FREE : RFld := ⟨CRN_MSK, 0, 1⟩
def CRN_MSK_STALE : RFld := ⟨CRN_MSK, 1, 1⟩
def CRN_MSK_XP_STALE : RFld := ⟨CRN_MSK, 2, 1⟩
def CRN_MSK_LATE : RFld := ⟨CRN_MSK, 3, 1⟩
def CRN_MSK_UNDERRUN : RFld := ⟨CRN_MSK, 4, 1⟩
def CRN_MC_INVALID_CNT : Nat := 0x6000100
def CRN_MC_INVALID_CNT_HI : Nat := 0x6000104
def CRN_MC_EMPTY_CNT : Nat := 0x6000108
def CRN_MC_EMPTY_CNT_HI : Nat := 0x600010c
def CRN_POOL_CFG (b q : Nat) : Nat := 0x6010000 + b * 0x10000 + q * 4
def CRN_POOL_CFG_COUNT (b q : Nat) : RFld := ⟨CRN_POOL_CFG b q, 0, 14⟩
def CRN_STORE_CFG (b : Nat) : Nat := 0x6010010 + b * 0x10000
def CRN_STORE_CFG_SPILL (b : Nat) : RFld := ⟨CRN_STORE_CFG b, 0, 1⟩
def CRN_STORE_STS (b : Nat) : Nat := 0x6010014 + b * 0x10000
def CRN_STORE_STS_IDLE (b : Nat) : RFld := ⟨CRN_STORE_STS b, 0, 1⟩
def CRN_STORE_STS_CFG_REJ_STK (b : Nat) : RFld := ⟨CRN_STORE_STS b, 1, 1⟩
def CRN_POOL_STS (b q : Nat) : Nat := 0x6010020 + b * 0x10000 + q * 4
def CRN_POOL_STS_FREE (b q : Nat) : RFld := ⟨CRN_POOL_STS b q, 0, 14⟩
def CRN_POOL_STS_HWM (b q : Nat) : RFld := ⟨CRN_POOL_STS b q, 16, 14⟩
def CRN_RD_STS (b : Nat) : Nat := 0x6010030 + b * 0x10000
def CRN_RD_STS_RD_OUT (b : Nat) : RFld := ⟨CRN_RD_STS b, 0, 12⟩
def CRN_RD_STS_HWM (b : Nat) : RFld := ⟨CRN_RD_STS b, 16, 12⟩
def CRN_RSV_CFG (b o q : Nat) : Nat := 0x6010100 + b * 0x10000 + o * 0x10 + q * 4
def CRN_RSV_CFG_RSV (b o q : Nat) : RFld := ⟨CRN_RSV_CFG b o q, 0, 14⟩
def CRN_RSV_CFG_MAX (b o q : Nat) : RFld := ⟨CRN_RSV_CFG b o q, 16, 14⟩
def CRN_USE (b o q : Nat) : Nat := 0x6010200 + b * 0x10000 + o * 0x10 + q * 4
def CRN_USE_USE (b o q : Nat) : RFld := ⟨CRN_USE b o q, 0, 14⟩
def CRN_ALLOC_CNT (b : Nat) : Nat := 0x6010400 + b * 0x10000
def CRN_ALLOC_CNT_HI (b : Nat) : Nat := 0x6010404 + b * 0x10000
def CRN_SPILL_CNT (b : Nat) : Nat := 0x6010408 + b * 0x10000
def CRN_SPILL_CNT_HI (b : Nat) : Nat := 0x601040c + b * 0x10000
def CRN_PROMOTE_CNT (b : Nat) : Nat := 0x6010410 + b * 0x10000
def CRN_PROMOTE_CNT_HI (b : Nat) : Nat := 0x6010414 + b * 0x10000
def CRN_NOBUF_CNT (b : Nat) : Nat := 0x6010418 + b * 0x10000
def CRN_NOBUF_CNT_HI (b : Nat) : Nat := 0x601041c + b * 0x10000
def CRN_DBL_FREE_CNT (b : Nat) : Nat := 0x6010420 + b * 0x10000
def CRN_DBL_FREE_CNT_HI (b : Nat) : Nat := 0x6010424 + b * 0x10000
def CRN_FOREIGN_FREE_CNT (b : Nat) : Nat := 0x6010428 + b * 0x10000
def CRN_FOREIGN_FREE_CNT_HI (b : Nat) : Nat := 0x601042c + b * 0x10000
def CRN_OVERRUN_CNT (b : Nat) : Nat := 0x6010430 + b * 0x10000
def CRN_OVERRUN_CNT_HI (b : Nat) : Nat := 0x6010434 + b * 0x10000
def CRN_CT_DISCARD_CNT (b : Nat) : Nat := 0x6010438 + b * 0x10000
def CRN_CT_DISCARD_CNT_HI (b : Nat) : Nat := 0x601043c + b * 0x10000
def CRN_UE_DISCARD_CNT (b : Nat) : Nat := 0x6010440 + b * 0x10000
def CRN_UE_DISCARD_CNT_HI (b : Nat) : Nat := 0x6010444 + b * 0x10000
def CRN_UE_STOMP_CNT (b : Nat) : Nat := 0x6010448 + b * 0x10000
def CRN_UE_STOMP_CNT_HI (b : Nat) : Nat := 0x601044c + b * 0x10000
def CRN_STALE_CNT (b : Nat) : Nat := 0x6010450 + b * 0x10000
def CRN_STALE_CNT_HI (b : Nat) : Nat := 0x6010454 + b * 0x10000
def CRN_XFER_CNT (b : Nat) : Nat := 0x6010458 + b * 0x10000
def CRN_XFER_CNT_HI (b : Nat) : Nat := 0x601045c + b * 0x10000
def CRN_XFER_CELL_CNT (b : Nat) : Nat := 0x6010460 + b * 0x10000
def CRN_XFER_CELL_CNT_HI (b : Nat) : Nat := 0x6010464 + b * 0x10000
def CRN_MC_RESEND_CNT (b : Nat) : Nat := 0x6010468 + b * 0x10000
def CRN_MC_RESEND_CNT_HI (b : Nat) : Nat := 0x601046c + b * 0x10000
def CRN_XP_CFG (c : Nat) : Nat := 0x6400000 + c * 0x10000
def CRN_XP_CFG_PORT_MAX (c : Nat) : RFld := ⟨CRN_XP_CFG c, 0, 10⟩
def CRN_XP_CFG_SHARED_MAX (c : Nat) : RFld := ⟨CRN_XP_CFG c, 16, 10⟩
def CRN_XP_STS (c i : Nat) : Nat := 0x6400100 + c * 0x10000 + i * 4
def CRN_XP_STS_USE (c i : Nat) : RFld := ⟨CRN_XP_STS c i, 0, 10⟩
def CRN_XP_STS_HWM (c i : Nat) : RFld := ⟨CRN_XP_STS c i, 16, 10⟩
def CRN_LATE_CNT (c : Nat) : Nat := 0x6400400 + c * 0x10000
def CRN_LATE_CNT_HI (c : Nat) : Nat := 0x6400404 + c * 0x10000
def CRN_UNDERRUN_CNT (c : Nat) : Nat := 0x6400408 + c * 0x10000
def CRN_UNDERRUN_CNT_HI (c : Nat) : Nat := 0x640040c + c * 0x10000
def CRN_XP_STALE_CNT (c : Nat) : Nat := 0x6400410 + c * 0x10000
def CRN_XP_STALE_CNT_HI (c : Nat) : Nat := 0x6400414 + c * 0x10000
def CRN_XP_UE_CNT (c : Nat) : Nat := 0x6400418 + c * 0x10000
def CRN_XP_UE_CNT_HI (c : Nat) : Nat := 0x640041c + c * 0x10000
def CRN_XP_CELL_CNT (c : Nat) : Nat := 0x6400420 + c * 0x10000
def CRN_XP_CELL_CNT_HI (c : Nat) : Nat := 0x6400424 + c * 0x10000
/-! ### Scheduling (chapter 11) -/

def TMG_CLS_CFG (c : Nat) : Nat := 0x7000000 + c * 4
def TMG_CLS_CFG_BOUND (c : Nat) : RFld := ⟨TMG_CLS_CFG c, 0, 31⟩
def TMG_INT : Nat := 0x7000040
def TMG_INT_BOUND_MISS : RFld := ⟨TMG_INT, 0, 1⟩
def TMG_INT_REF_BOUND : RFld := ⟨TMG_INT, 1, 1⟩
def TMG_INT_DESC_FULL : RFld := ⟨TMG_INT, 2, 1⟩
def TMG_INT_GCL_ACT : RFld := ⟨TMG_INT, 3, 1⟩
def TMG_INT_GCL_ERR : RFld := ⟨TMG_INT, 4, 1⟩
def TMG_INT_LINK_DISC : RFld := ⟨TMG_INT, 5, 1⟩
def TMG_MSK : Nat := 0x7000044
def TMG_MSK_BOUND_MISS : RFld := ⟨TMG_MSK, 0, 1⟩
def TMG_MSK_REF_BOUND : RFld := ⟨TMG_MSK, 1, 1⟩
def TMG_MSK_DESC_FULL : RFld := ⟨TMG_MSK, 2, 1⟩
def TMG_MSK_GCL_ACT : RFld := ⟨TMG_MSK, 3, 1⟩
def TMG_MSK_GCL_ERR : RFld := ⟨TMG_MSK, 4, 1⟩
def TMG_MSK_LINK_DISC : RFld := ⟨TMG_MSK, 5, 1⟩
def TMG_DESC_STS (t : Nat) : Nat := 0x7000050 + t * 4
def TMG_DESC_STS_IN_USE (t : Nat) : RFld := ⟨TMG_DESC_STS t, 0, 17⟩
def TMG_DESC_HWM (t : Nat) : Nat := 0x7000060 + t * 4
def TMG_DESC_HWM_HWM (t : Nat) : RFld := ⟨TMG_DESC_HWM t, 0, 17⟩
def TMG_BOUND_MISS_CNT (c : Nat) : Nat := 0x7000100 + c * 8
def TMG_BOUND_MISS_CNT_HI (c : Nat) : Nat := 0x7000104 + c * 8
def TMG_REF_BOUND_CNT : Nat := 0x7000200
def TMG_REF_BOUND_CNT_HI : Nat := 0x7000204
def TMG_REF_QMAX_CNT : Nat := 0x7000208
def TMG_REF_QMAX_CNT_HI : Nat := 0x700020c
def TMG_REF_COLOUR_CNT : Nat := 0x7000210
def TMG_REF_COLOUR_CNT_HI : Nat := 0x7000214
def TMG_REF_DESC_CNT : Nat := 0x7000218
def TMG_REF_DESC_CNT_HI : Nat := 0x700021c
def TMG_REF_LINK_CNT : Nat := 0x7000220
def TMG_REF_LINK_CNT_HI : Nat := 0x7000224
def TMG_REF_QDIS_CNT : Nat := 0x7000228
def TMG_REF_QDIS_CNT_HI : Nat := 0x700022c
def TMG_DISC_LINK_CNT : Nat := 0x7000230
def TMG_DISC_LINK_CNT_HI : Nat := 0x7000234
def TMG_POL_FOREIGN_CNT : Nat := 0x7000238
def TMG_POL_FOREIGN_CNT_HI : Nat := 0x700023c
def TMG_POL_DROP_CNT : Nat := 0x7000240
def TMG_POL_DROP_CNT_HI : Nat := 0x7000244
def TMG_PORT_CFG (p : Nat) : Nat := 0x7100000 + p * 0x1000
def TMG_PORT_CFG_PSHP_EN (p : Nat) : RFld := ⟨TMG_PORT_CFG p, 0, 1⟩
def TMG_PORT_CFG_GCL_EN (p : Nat) : RFld := ⟨TMG_PORT_CFG p, 1, 1⟩
def TMG_PSHP_RATE (p : Nat) : Nat := 0x7100004 + p * 0x1000
def TMG_PSHP_RATE_RATE (p : Nat) : RFld := ⟨TMG_PSHP_RATE p, 0, 20⟩
def TMG_PSHP_BURST (p : Nat) : Nat := 0x7100008 + p * 0x1000
def TMG_PSHP_BURST_BURST (p : Nat) : RFld := ⟨TMG_PSHP_BURST p, 0, 24⟩
def TMG_PORT_STS (p : Nat) : Nat := 0x710000c + p * 0x1000
def TMG_PORT_STS_NQ (p : Nat) : RFld := ⟨TMG_PORT_STS p, 0, 5⟩
def TMG_PORT_STS_CFG_REJ_STK (p : Nat) : RFld := ⟨TMG_PORT_STS p, 5, 1⟩
def TMG_PSHP_CREDIT (p : Nat) : Nat := 0x7100010 + p * 0x1000
def TMG_PSHP_CREDIT_CREDIT (p : Nat) : RFld := ⟨TMG_PSHP_CREDIT p, 0, 32⟩
def TMG_GCL_CFG (p : Nat) : Nat := 0x7100020 + p * 0x1000
def TMG_GCL_CFG_LEN (p : Nat) : RFld := ⟨TMG_GCL_CFG p, 0, 9⟩
def TMG_GCL_CFG_ACT_REQ (p : Nat) : RFld := ⟨TMG_GCL_CFG p, 16, 1⟩
def TMG_GCL_BASE (p : Nat) : Nat := 0x7100024 + p * 0x1000
def TMG_GCL_BASE_LO (p : Nat) : RFld := ⟨TMG_GCL_BASE p, 0, 32⟩
def TMG_GCL_BASE_HI (p : Nat) : Nat := 0x7100028 + p * 0x1000
def TMG_GCL_BASE_HI_HI (p : Nat) : RFld := ⟨TMG_GCL_BASE_HI p, 0, 32⟩
def TMG_GCL_STS (p : Nat) : Nat := 0x710002c + p * 0x1000
def TMG_GCL_STS_PEND (p : Nat) : RFld := ⟨TMG_GCL_STS p, 0, 1⟩
def TMG_GCL_STS_ACTIVE (p : Nat) : RFld := ⟨TMG_GCL_STS p, 1, 1⟩
def TMG_GCL_CYCLE (p : Nat) : Nat := 0x7100030 + p * 0x1000
def TMG_GCL_CYCLE_CYCLE (p : Nat) : RFld := ⟨TMG_GCL_CYCLE p, 0, 32⟩
def TMG_Q_SHARE (p q : Nat) : Nat := 0x7100100 + p * 0x1000 + q * 0x20
def TMG_Q_SHARE_SHARE (p q : Nat) : RFld := ⟨TMG_Q_SHARE p q, 0, 17⟩
def TMG_Q_QMAX (p q : Nat) : Nat := 0x7100104 + p * 0x1000 + q * 0x20
def TMG_Q_QMAX_QMAX (p q : Nat) : RFld := ⟨TMG_Q_QMAX p q, 0, 24⟩
def TMG_Q_CLR (p q : Nat) : Nat := 0x7100108 + p * 0x1000 + q * 0x20
def TMG_Q_CLR_YEL_MAX (p q : Nat) : RFld := ⟨TMG_Q_CLR p q, 0, 16⟩
def TMG_Q_CLR_RED_MAX (p q : Nat) : RFld := ⟨TMG_Q_CLR p q, 16, 16⟩
def TMG_QSHP_RATE (p q : Nat) : Nat := 0x710010c + p * 0x1000 + q * 0x20
def TMG_QSHP_RATE_RATE (p q : Nat) : RFld := ⟨TMG_QSHP_RATE p q, 0, 20⟩
def TMG_QSHP_RATE_EN (p q : Nat) : RFld := ⟨TMG_QSHP_RATE p q, 31, 1⟩
def TMG_QSHP_BURST (p q : Nat) : Nat := 0x7100110 + p * 0x1000 + q * 0x20
def TMG_QSHP_BURST_BURST (p q : Nat) : RFld := ⟨TMG_QSHP_BURST p q, 0, 24⟩
def TMG_Q_BACKLOG (p q : Nat) : Nat := 0x7100114 + p * 0x1000 + q * 0x20
def TMG_Q_BACKLOG_Q (p q : Nat) : RFld := ⟨TMG_Q_BACKLOG p q, 0, 32⟩
def TMG_QSHP_CREDIT (p q : Nat) : Nat := 0x7100118 + p * 0x1000 + q * 0x20
def TMG_QSHP_CREDIT_CREDIT (p q : Nat) : RFld := ⟨TMG_QSHP_CREDIT p q, 0, 32⟩
def TMG_Q_GATE (p q : Nat) : Nat := 0x710011c + p * 0x1000 + q * 0x20
def TMG_Q_GATE_OPEN (p q : Nat) : RFld := ⟨TMG_Q_GATE p q, 0, 32⟩
/-! ### Device time (chapter 12) -/

def TIM_CFG : Nat := 0x200000
def TIM_CFG_TC_EN : RFld := ⟨TIM_CFG, 0, 1⟩
def TIM_FREQ : Nat := 0x200004
def TIM_FREQ_FREQ : RFld := ⟨TIM_FREQ, 0, 32⟩
def TIM_SNAP : Nat := 0x200008
def TIM_SNAP_REQ : RFld := ⟨TIM_SNAP, 0, 1⟩
def TIM_SNAP_NS : Nat := 0x20000c
def TIM_SNAP_NS_LO : RFld := ⟨TIM_SNAP_NS, 0, 32⟩
def TIM_SNAP_NS_HI : Nat := 0x200010
def TIM_SNAP_NS_HI_HI : RFld := ⟨TIM_SNAP_NS_HI, 0, 32⟩
def TIM_SNAP_FRAC : Nat := 0x200014
def TIM_SNAP_FRAC_FRAC : RFld := ⟨TIM_SNAP_FRAC, 0, 16⟩
def TIM_ADJ : Nat := 0x200018
def TIM_ADJ_LO : RFld := ⟨TIM_ADJ, 0, 32⟩
def TIM_ADJ_HI : Nat := 0x20001c
def TIM_ADJ_HI_HI : RFld := ⟨TIM_ADJ_HI, 0, 32⟩
def TIM_ADJ_CMD : Nat := 0x200020
def TIM_ADJ_CMD_OP : RFld := ⟨TIM_ADJ_CMD, 0, 2⟩
def TIM_ADJ_CMD_FORCE : RFld := ⟨TIM_ADJ_CMD, 2, 1⟩
def TIM_STEP_CFG : Nat := 0x200024
def TIM_STEP_CFG_THR : RFld := ⟨TIM_STEP_CFG, 0, 32⟩
def TIM_SLEW_CFG : Nat := 0x200028
def TIM_SLEW_CFG_MAX : RFld := ⟨TIM_SLEW_CFG, 0, 11⟩
def TIM_STS : Nat := 0x20002c
def TIM_STS_INIT : RFld := ⟨TIM_STS, 0, 1⟩
def TIM_STS_STEP_PEND : RFld := ⟨TIM_STS, 1, 1⟩
def TIM_STS_SLEW_BUSY : RFld := ⟨TIM_STS, 2, 1⟩
def TIM_STS_SYNC_OK : RFld := ⟨TIM_STS, 3, 1⟩
def TIM_STS_STEP_REJ_STK : RFld := ⟨TIM_STS, 4, 1⟩
def TIM_STS_REJ_CAUSE : RFld := ⟨TIM_STS, 5, 3⟩
def TIM_STS_TRG_REJ_STK : RFld := ⟨TIM_STS, 8, 1⟩
def TIM_STEP_AT : Nat := 0x200030
def TIM_STEP_AT_LO : RFld := ⟨TIM_STEP_AT, 0, 32⟩
def TIM_STEP_AT_HI : Nat := 0x200034
def TIM_STEP_AT_HI_HI : RFld := ⟨TIM_STEP_AT_HI, 0, 32⟩
def TIM_STEP_DELTA : Nat := 0x200038
def TIM_STEP_DELTA_LO : RFld := ⟨TIM_STEP_DELTA, 0, 32⟩
def TIM_STEP_DELTA_HI : Nat := 0x20003c
def TIM_STEP_DELTA_HI_HI : RFld := ⟨TIM_STEP_DELTA_HI, 0, 32⟩
def TIM_INT : Nat := 0x200040
def TIM_INT_STEP_DONE : RFld := ⟨TIM_INT, 0, 1⟩
def TIM_INT_STEP_REJ : RFld := ⟨TIM_INT, 1, 1⟩
def TIM_INT_SLEW_DONE : RFld := ⟨TIM_INT, 2, 1⟩
def TIM_INT_SYNC : RFld := ⟨TIM_INT, 3, 1⟩
def TIM_INT_CAP : RFld := ⟨TIM_INT, 4, 4⟩
def TIM_INT_TRG_SKIP : RFld := ⟨TIM_INT, 8, 1⟩
def TIM_MSK : Nat := 0x200044
def TIM_MSK_STEP_DONE : RFld := ⟨TIM_MSK, 0, 1⟩
def TIM_MSK_STEP_REJ : RFld := ⟨TIM_MSK, 1, 1⟩
def TIM_MSK_SLEW_DONE : RFld := ⟨TIM_MSK, 2, 1⟩
def TIM_MSK_SYNC : RFld := ⟨TIM_MSK, 3, 1⟩
def TIM_MSK_CAP : RFld := ⟨TIM_MSK, 4, 4⟩
def TIM_MSK_TRG_SKIP : RFld := ⟨TIM_MSK, 8, 1⟩
def TIM_PPS_CFG : Nat := 0x200048
def TIM_PPS_CFG_WIDTH : RFld := ⟨TIM_PPS_CFG, 0, 20⟩
def TIM_PPS_CFG_EN : RFld := ⟨TIM_PPS_CFG, 31, 1⟩
def TIM_PTP_EN (i : Nat) : Nat := 0x200080 + i * 4
def TIM_PTP_EN_PORTS (i : Nat) : RFld := ⟨TIM_PTP_EN i, 0, 32⟩
def TIM_PORT_ADJ (p : Nat) : Nat := 0x201000 + p * 4
def TIM_PORT_ADJ_RX_ADJ (p : Nat) : RFld := ⟨TIM_PORT_ADJ p, 0, 16⟩
def TIM_PORT_ADJ_TX_ADJ (p : Nat) : RFld := ⟨TIM_PORT_ADJ p, 16, 16⟩
def TIM_CAP_CFG (n : Nat) : Nat := 0x200100 + n * 0x20
def TIM_CAP_CFG_EDGE (n : Nat) : RFld := ⟨TIM_CAP_CFG n, 0, 2⟩
def TIM_CAP_CFG_JRN_EN (n : Nat) : RFld := ⟨TIM_CAP_CFG n, 2, 1⟩
def TIM_CAP_TS (n : Nat) : Nat := 0x200104 + n * 0x20
def TIM_CAP_TS_LO (n : Nat) : RFld := ⟨TIM_CAP_TS n, 0, 32⟩
def TIM_CAP_TS_HI (n : Nat) : Nat := 0x200108 + n * 0x20
def TIM_CAP_TS_HI_HI (n : Nat) : RFld := ⟨TIM_CAP_TS_HI n, 0, 32⟩
def TIM_CAP_FRAC (n : Nat) : Nat := 0x20010c + n * 0x20
def TIM_CAP_FRAC_FRAC (n : Nat) : RFld := ⟨TIM_CAP_FRAC n, 0, 16⟩
def TIM_CAP_FRAC_FALL (n : Nat) : RFld := ⟨TIM_CAP_FRAC n, 16, 1⟩
def TIM_CAP_CNT (n : Nat) : Nat := 0x200110 + n * 0x20
def TIM_CAP_CNT_HI (n : Nat) : Nat := 0x200114 + n * 0x20
def TIM_TRG_CFG (k : Nat) : Nat := 0x200200 + k * 0x40
def TIM_TRG_CFG_EN (k : Nat) : RFld := ⟨TIM_TRG_CFG k, 0, 1⟩
def TIM_TRG_CFG_PIN (k : Nat) : RFld := ⟨TIM_TRG_CFG k, 1, 3⟩
def TIM_TRG_CFG_SNAP (k : Nat) : RFld := ⟨TIM_TRG_CFG k, 4, 1⟩
def TIM_TRG_CFG_SAMP (k : Nat) : RFld := ⟨TIM_TRG_CFG k, 5, 1⟩
def TIM_TRG_CFG_GCL (k : Nat) : RFld := ⟨TIM_TRG_CFG k, 6, 1⟩
def TIM_TRG_CFG_ARM (k : Nat) : RFld := ⟨TIM_TRG_CFG k, 7, 3⟩
def TIM_TRG_START (k : Nat) : Nat := 0x200204 + k * 0x40
def TIM_TRG_START_LO (k : Nat) : RFld := ⟨TIM_TRG_START k, 0, 32⟩
def TIM_TRG_START_HI (k : Nat) : Nat := 0x200208 + k * 0x40
def TIM_TRG_START_HI_HI (k : Nat) : RFld := ⟨TIM_TRG_START_HI k, 0, 32⟩
def TIM_TRG_PERIOD (k : Nat) : Nat := 0x20020c + k * 0x40
def TIM_TRG_PERIOD_PERIOD (k : Nat) : RFld := ⟨TIM_TRG_PERIOD k, 0, 32⟩
def TIM_TRG_WIDTH (k : Nat) : Nat := 0x200210 + k * 0x40
def TIM_TRG_WIDTH_WIDTH (k : Nat) : RFld := ⟨TIM_TRG_WIDTH k, 0, 32⟩
def TIM_TRG_OFFSET (k : Nat) : Nat := 0x200214 + k * 0x40
def TIM_TRG_OFFSET_OFFSET (k : Nat) : RFld := ⟨TIM_TRG_OFFSET k, 0, 32⟩
def TIM_TRG_NEXT (k : Nat) : Nat := 0x200218 + k * 0x40
def TIM_TRG_NEXT_LO (k : Nat) : RFld := ⟨TIM_TRG_NEXT k, 0, 32⟩
def TIM_TRG_NEXT_HI (k : Nat) : Nat := 0x20021c + k * 0x40
def TIM_TRG_NEXT_HI_HI (k : Nat) : RFld := ⟨TIM_TRG_NEXT_HI k, 0, 32⟩
def TIM_TRG_GCL (k i : Nat) : Nat := 0x200220 + k * 0x40 + i * 4
def TIM_TRG_GCL_PORTS (k i : Nat) : RFld := ⟨TIM_TRG_GCL k i, 0, 32⟩
def TC_CORR_CNT : Nat := 0x200400
def TC_CORR_CNT_HI : Nat := 0x200404
def TC_NOFIX_CNT : Nat := 0x200408
def TC_NOFIX_CNT_HI : Nat := 0x20040c
def TC_RES_BAD_CNT : Nat := 0x200410
def TC_RES_BAD_CNT_HI : Nat := 0x200414
def TC_VER_CNT : Nat := 0x200418
def TC_VER_CNT_HI : Nat := 0x20041c
def STEP_CNT : Nat := 0x200420
def STEP_CNT_HI : Nat := 0x200424
def STEP_REJ_CNT : Nat := 0x200428
def STEP_REJ_CNT_HI : Nat := 0x20042c
def SET_FORCE_CNT : Nat := 0x200430
def SET_FORCE_CNT_HI : Nat := 0x200434
def TRG_SKIP_CNT : Nat := 0x200438
def TRG_SKIP_CNT_HI : Nat := 0x20043c
def TRG_GCL_SKIP_CNT : Nat := 0x200440
def TRG_GCL_SKIP_CNT_HI : Nat := 0x200444
def CAP_OVR_CNT : Nat := 0x200448
def CAP_OVR_CNT_HI : Nat := 0x20044c
/-! ### Integrity (chapter 13) -/

def ECC_CFG : Nat := 0x8000000
def ECC_CFG_SCRUB_EN : RFld := ⟨ECC_CFG, 0, 4⟩
def ECC_CFG_TEST_EN : RFld := ⟨ECC_CFG, 8, 1⟩
def ECC_SCRUB_CFG (s : Nat) : Nat := 0x8000010 + s * 4
def ECC_SCRUB_CFG_PERIOD (s : Nat) : RFld := ⟨ECC_SCRUB_CFG s, 0, 16⟩
def ECC_SCRUB_STS (s : Nat) : Nat := 0x8000020 + s * 4
def ECC_SCRUB_STS_PROGRESS (s : Nat) : RFld := ⟨ECC_SCRUB_STS s, 0, 10⟩
def ECC_SCRUB_STS_BEHIND (s : Nat) : RFld := ⟨ECC_SCRUB_STS s, 10, 1⟩
def ECC_SCRUB_STS_PASSES (s : Nat) : RFld := ⟨ECC_SCRUB_STS s, 16, 16⟩
def ECC_CE_CFG (n : Nat) : Nat := 0x8000040 + n * 4
def ECC_CE_CFG_THR (n : Nat) : RFld := ⟨ECC_CE_CFG n, 0, 16⟩
def ECC_CE_CFG_LEAK_MS (n : Nat) : RFld := ⟨ECC_CE_CFG n, 16, 16⟩
def ECC_CE_LVL (n : Nat) : Nat := 0x8000060 + n * 4
def ECC_CE_LVL_LEVEL (n : Nat) : RFld := ⟨ECC_CE_LVL n, 0, 16⟩
def ECC_INT : Nat := 0x8000080
def ECC_INT_CE_RATE : RFld := ⟨ECC_INT, 0, 8⟩
def ECC_INT_UE : RFld := ⟨ECC_INT, 8, 8⟩
def ECC_INT_PWR_REFUSE : RFld := ⟨ECC_INT, 16, 1⟩
def ECC_INT_INJ_DONE : RFld := ⟨ECC_INT, 17, 1⟩
def ECC_INT_SCRUB_BEHIND : RFld := ⟨ECC_INT, 18, 1⟩
def ECC_MSK : Nat := 0x8000084
def ECC_MSK_CE_RATE : RFld := ⟨ECC_MSK, 0, 8⟩
def ECC_MSK_UE : RFld := ⟨ECC_MSK, 8, 8⟩
def ECC_MSK_PWR_REFUSE : RFld := ⟨ECC_MSK, 16, 1⟩
def ECC_MSK_INJ_DONE : RFld := ⟨ECC_MSK, 17, 1⟩
def ECC_MSK_SCRUB_BEHIND : RFld := ⟨ECC_MSK, 18, 1⟩
def ECC_LOG_INFO : Nat := 0x8000090
def ECC_LOG_INFO_SRC : RFld := ⟨ECC_LOG_INFO, 0, 4⟩
def ECC_LOG_INFO_KIND : RFld := ⟨ECC_LOG_INFO, 4, 2⟩
def ECC_LOG_INFO_VALID : RFld := ⟨ECC_LOG_INFO, 6, 1⟩
def ECC_LOG_INFO_UNIT : RFld := ⟨ECC_LOG_INFO, 8, 8⟩
def ECC_LOG_INFO_SYN : RFld := ⟨ECC_LOG_INFO, 16, 8⟩
def ECC_LOG_LOC : Nat := 0x8000094
def ECC_LOG_LOC_LO : RFld := ⟨ECC_LOG_LOC, 0, 32⟩
def ECC_LOG_LOC_HI : Nat := 0x8000098
def ECC_LOG_LOC_HI_HI : RFld := ⟨ECC_LOG_LOC_HI, 0, 16⟩
def ECC_LOG_TS : Nat := 0x800009c
def ECC_LOG_TS_LO : RFld := ⟨ECC_LOG_TS, 0, 32⟩
def ECC_LOG_TS_HI : Nat := 0x80000a0
def ECC_LOG_TS_HI_HI : RFld := ⟨ECC_LOG_TS_HI, 0, 32⟩
def ECC_INJ_CFG : Nat := 0x80000c0
def ECC_INJ_CFG_SRC : RFld := ⟨ECC_INJ_CFG, 0, 4⟩
def ECC_INJ_CFG_LEVEL : RFld := ⟨ECC_INJ_CFG, 4, 1⟩
def ECC_INJ_CFG_CHK_XOR : RFld := ⟨ECC_INJ_CFG, 8, 8⟩
def ECC_INJ_CFG_COUNT : RFld := ⟨ECC_INJ_CFG, 16, 8⟩
def ECC_INJ_CFG_ARM : RFld := ⟨ECC_INJ_CFG, 31, 1⟩
def ECC_INJ_STS : Nat := 0x80000c4
def ECC_INJ_STS_LEFT : RFld := ⟨ECC_INJ_STS, 0, 8⟩
def CE_CNT (n : Nat) : Nat := 0x8000200 + n * 0x40
def CE_CNT_HI (n : Nat) : Nat := 0x8000204 + n * 0x40
def UE_CNT (n : Nat) : Nat := 0x8000208 + n * 0x40
def UE_CNT_HI (n : Nat) : Nat := 0x800020c + n * 0x40
def PAGE_FIX_CNT (n : Nat) : Nat := 0x8000210 + n * 0x40
def PAGE_FIX_CNT_HI (n : Nat) : Nat := 0x8000214 + n * 0x40
def PAGE_FAIL_CNT (n : Nat) : Nat := 0x8000218 + n * 0x40
def PAGE_FAIL_CNT_HI (n : Nat) : Nat := 0x800021c + n * 0x40
def POISON_RD_CNT (n : Nat) : Nat := 0x8000220 + n * 0x40
def POISON_RD_CNT_HI (n : Nat) : Nat := 0x8000224 + n * 0x40
def PWR_REFUSE_CNT (n : Nat) : Nat := 0x8000228 + n * 0x40
def PWR_REFUSE_CNT_HI (n : Nat) : Nat := 0x800022c + n * 0x40
def REPAIR_CNT (n : Nat) : Nat := 0x8000230 + n * 0x40
def REPAIR_CNT_HI (n : Nat) : Nat := 0x8000234 + n * 0x40
def SCRUB_FIX_CNT (n : Nat) : Nat := 0x8000238 + n * 0x40
def SCRUB_FIX_CNT_HI (n : Nat) : Nat := 0x800023c + n * 0x40
def ECC_LINE_LOST_CNT : Nat := 0x8000400
def ECC_LINE_LOST_CNT_HI : Nat := 0x8000404
def ECC_LINE_ORPHAN_CNT : Nat := 0x8000408
def ECC_LINE_ORPHAN_CNT_HI : Nat := 0x800040c
def ECC_PKT_DROP_CNT : Nat := 0x8000410
def ECC_PKT_DROP_CNT_HI : Nat := 0x8000414
def ECC_FLOW_POISON_CNT : Nat := 0x8000418
def ECC_FLOW_POISON_CNT_HI : Nat := 0x800041c
def ECC_QUARANTINE_CNT : Nat := 0x8000420
def ECC_QUARANTINE_CNT_HI : Nat := 0x8000424
/-! ### Sirvan and Trunk (chapter 14) -/

def SVN_CHT_BASE : Nat := 0x9000000
def SVN_CHT_BASE_BASE_LO : RFld := ⟨SVN_CHT_BASE, 12, 20⟩
def SVN_CHT_BASE_HI : Nat := 0x9000004
def SVN_CHT_BASE_HI_BASE_HI : RFld := ⟨SVN_CHT_BASE_HI, 0, 32⟩
def SVN_CH_CMD : Nat := 0x9000008
def SVN_CH_CMD_CH : RFld := ⟨SVN_CH_CMD, 0, 10⟩
def SVN_CH_CMD_OP : RFld := ⟨SVN_CH_CMD, 12, 3⟩
def SVN_CH_CMD_STS : Nat := 0x900000c
def SVN_CH_CMD_STS_BUSY : RFld := ⟨SVN_CH_CMD_STS, 0, 1⟩
def SVN_CH_CMD_STS_REJ_STK : RFld := ⟨SVN_CH_CMD_STS, 1, 1⟩
def SVN_CH_CMD_STS_RESULT : RFld := ⟨SVN_CH_CMD_STS, 2, 2⟩
def SVN_KNOT_CFG : Nat := 0x9000010
def SVN_KNOT_CFG_BASE : RFld := ⟨SVN_KNOT_CFG, 0, 14⟩
def SVN_KNOT_CFG_LEASE : RFld := ⟨SVN_KNOT_CFG, 16, 16⟩
def SVN_RX_CFG : Nat := 0x9000014
def SVN_RX_CFG_WAIT : RFld := ⟨SVN_RX_CFG, 0, 20⟩
def SVN_INT : Nat := 0x9000018
def SVN_INT_CH_HALT : RFld := ⟨SVN_INT, 0, 1⟩
def SVN_INT_KNOT_ABANDON : RFld := ⟨SVN_INT, 1, 1⟩
def SVN_INT_RX_GIVEUP : RFld := ⟨SVN_INT, 2, 1⟩
def SVN_INT_DB_IGN : RFld := ⟨SVN_INT, 3, 1⟩
def SVN_MSK : Nat := 0x900001c
def SVN_MSK_CH_HALT : RFld := ⟨SVN_MSK, 0, 1⟩
def SVN_MSK_KNOT_ABANDON : RFld := ⟨SVN_MSK, 1, 1⟩
def SVN_MSK_RX_GIVEUP : RFld := ⟨SVN_MSK, 2, 1⟩
def SVN_MSK_DB_IGN : RFld := ⟨SVN_MSK, 3, 1⟩
def SVN_KNOT_STS : Nat := 0x9000020
def SVN_KNOT_STS_HELD : RFld := ⟨SVN_KNOT_STS, 0, 16⟩
def SVN_VEC_MAP (s : Nat) : Nat := 0x9000040 + s * 4
def SVN_VEC_MAP_VEC (s : Nat) : RFld := ⟨SVN_VEC_MAP s, 0, 6⟩
def SVN_CH_HALT (i : Nat) : Nat := 0x9000100 + i * 4
def SVN_CH_HALT_HALTED (i : Nat) : RFld := ⟨SVN_CH_HALT i, 0, 32⟩
def SVN_KNOT_OWN (k : Nat) : Nat := 0x9000200 + k * 4
def SVN_KNOT_OWN_CH (k : Nat) : RFld := ⟨SVN_KNOT_OWN k, 0, 10⟩
def SVN_KNOT_OWN_HELD (k : Nat) : RFld := ⟨SVN_KNOT_OWN k, 15, 1⟩
def SVN_KNOT_OWN_LEFT (k : Nat) : RFld := ⟨SVN_KNOT_OWN k, 16, 16⟩
def SVN_CMD_CNT : Nat := 0x9000400
def SVN_CMD_CNT_HI : Nat := 0x9000404
def SVN_DUP_CNT : Nat := 0x9000408
def SVN_DUP_CNT_HI : Nat := 0x900040c
def KNOT_ABANDON_CNT : Nat := 0x9000410
def KNOT_ABANDON_CNT_HI : Nat := 0x9000414
def SVN_HALT_CNT : Nat := 0x9000418
def SVN_HALT_CNT_HI : Nat := 0x900041c
def SVN_DB_IGN_CNT : Nat := 0x9000420
def SVN_DB_IGN_CNT_HI : Nat := 0x9000424
def SVN_INJ_CNT : Nat := 0x9000428
def SVN_INJ_CNT_HI : Nat := 0x900042c
def SVN_INJ_WAIT_CNT : Nat := 0x9000430
def SVN_INJ_WAIT_CNT_HI : Nat := 0x9000434
def SVN_RX_CNT : Nat := 0x9000438
def SVN_RX_CNT_HI : Nat := 0x900043c
def SVN_RX_GIVEUP_CNT : Nat := 0x9000440
def SVN_RX_GIVEUP_CNT_HI : Nat := 0x9000444
def SVN_CHT_MISS_CNT : Nat := 0x9000448
def SVN_CHT_MISS_CNT_HI : Nat := 0x900044c
def MSIX_ADDR (v : Nat) : Nat := 0x9100000 + v * 0x10
def MSIX_ADDR_LO (v : Nat) : RFld := ⟨MSIX_ADDR v, 0, 32⟩
def MSIX_ADDR_HI (v : Nat) : Nat := 0x9100004 + v * 0x10
def MSIX_ADDR_HI_HI (v : Nat) : RFld := ⟨MSIX_ADDR_HI v, 0, 32⟩
def MSIX_DATA (v : Nat) : Nat := 0x9100008 + v * 0x10
def MSIX_DATA_DATA (v : Nat) : RFld := ⟨MSIX_DATA v, 0, 32⟩
def MSIX_CTL (v : Nat) : Nat := 0x910000c + v * 0x10
def MSIX_CTL_MASK (v : Nat) : RFld := ⟨MSIX_CTL v, 0, 1⟩
def MSIX_PBA (i : Nat) : Nat := 0x9101000 + i * 4
def MSIX_PBA_PEND (i : Nat) : RFld := ⟨MSIX_PBA i, 0, 32⟩
def TRK_PRIO_MAP : Nat := 0xb000000
def TRK_PRIO_MAP_EXPORT : RFld := ⟨TRK_PRIO_MAP, 0, 3⟩
def TRK_PRIO_MAP_HOST : RFld := ⟨TRK_PRIO_MAP, 3, 3⟩
def TRK_PRIO_MAP_GRAFT : RFld := ⟨TRK_PRIO_MAP, 6, 3⟩
def TRK_PRIO_MAP_PRUNE : RFld := ⟨TRK_PRIO_MAP, 9, 3⟩
def TRK_PRIO_MAP_LEARN : RFld := ⟨TRK_PRIO_MAP, 12, 3⟩
def TRK_PRIO_MAP_SCRUB : RFld := ⟨TRK_PRIO_MAP, 15, 3⟩
def TRK_PRIO_MAP_SPARE1 : RFld := ⟨TRK_PRIO_MAP, 18, 3⟩
def TRK_PRIO_MAP_SPARE0 : RFld := ⟨TRK_PRIO_MAP, 21, 3⟩
def TRK_CFG : Nat := 0xb000004
def TRK_CFG_BACKOFF_MAX : RFld := ⟨TRK_CFG, 0, 9⟩
def TRK_CFG_WAIT_CLR : RFld := ⟨TRK_CFG, 31, 1⟩
def TRK_STS : Nat := 0xb000008
def TRK_STS_OWNER : RFld := ⟨TRK_STS, 0, 3⟩
def TRK_STS_BUSY : RFld := ⟨TRK_STS, 3, 1⟩
def TRK_STS_MAP_REJ_STK : RFld := ⟨TRK_STS, 4, 1⟩
def TRK_INT : Nat := 0xb000010
def TRK_INT_MAP_REJ : RFld := ⟨TRK_INT, 0, 1⟩
def TRK_MSK : Nat := 0xb000014
def TRK_MSK_MAP_REJ : RFld := ⟨TRK_MSK, 0, 1⟩
def TRK_WAIT_MAX (r : Nat) : Nat := 0xb000040 + r * 4
def TRK_WAIT_MAX_WAIT (r : Nat) : RFld := ⟨TRK_WAIT_MAX r, 0, 20⟩
def TRK_GRANT_CNT (r : Nat) : Nat := 0xb000100 + r * 8
def TRK_GRANT_CNT_HI (r : Nat) : Nat := 0xb000104 + r * 8
def TRK_BUSY_NS_CNT (r : Nat) : Nat := 0xb000200 + r * 8
def TRK_BUSY_NS_CNT_HI (r : Nat) : Nat := 0xb000204 + r * 8
/-! ### Observability (chapter 15) -/

def OBS_SNAP_CTL : Nat := 0xa000000
def OBS_SNAP_CTL_REQ : RFld := ⟨OBS_SNAP_CTL, 0, 1⟩
def OBS_SNAP_EPOCH : Nat := 0xa000004
def OBS_SNAP_EPOCH_EPOCH : RFld := ⟨OBS_SNAP_EPOCH, 0, 32⟩
def OBS_SAMP_WIN : Nat := 0xa000010
def OBS_SAMP_WIN_WIN : RFld := ⟨OBS_SAMP_WIN, 0, 32⟩
def OBS_PMU_CTL : Nat := 0xa000020
def OBS_PMU_CTL_RUN : RFld := ⟨OBS_PMU_CTL, 0, 1⟩
def OBS_PMU_CTL_CLR : RFld := ⟨OBS_PMU_CTL, 1, 1⟩
def OBS_PMU_CTL_GATE : RFld := ⟨OBS_PMU_CTL, 2, 1⟩
def OBS_PS_CFG : Nat := 0xa000030
def OBS_PS_CFG_PERIOD : RFld := ⟨OBS_PS_CFG, 0, 16⟩
def OBS_PS_CFG_JITTER : RFld := ⟨OBS_PS_CFG, 16, 4⟩
def OBS_PS_CFG_MODE : RFld := ⟨OBS_PS_CFG, 20, 1⟩
def OBS_PS_CFG_GATE : RFld := ⟨OBS_PS_CFG, 21, 1⟩
def OBS_PS_STS : Nat := 0xa000034
def OBS_PS_STS_USE : RFld := ⟨OBS_PS_STS, 0, 13⟩
def OBS_PS_STS_HWM : RFld := ⟨OBS_PS_STS, 16, 13⟩
def OBS_PS_THR : Nat := 0xa000038
def OBS_PS_THR_THR : RFld := ⟨OBS_PS_THR, 0, 13⟩
def OBS_JRN_WPTR : Nat := 0xa000040
def OBS_JRN_WPTR_LO : RFld := ⟨OBS_JRN_WPTR, 0, 32⟩
def OBS_JRN_WPTR_HI : Nat := 0xa000044
def OBS_JRN_WPTR_HI_HI : RFld := ⟨OBS_JRN_WPTR_HI, 0, 32⟩
def OBS_JRN_HORIZON : Nat := 0xa000048
def OBS_JRN_HORIZON_LO : RFld := ⟨OBS_JRN_HORIZON, 0, 32⟩
def OBS_JRN_HORIZON_HI : Nat := 0xa00004c
def OBS_JRN_HORIZON_HI_HI : RFld := ⟨OBS_JRN_HORIZON_HI, 0, 32⟩
def OBS_JRN_CFG : Nat := 0xa000050
def OBS_JRN_CFG_EN : RFld := ⟨OBS_JRN_CFG, 0, 1⟩
def OBS_EXP_CFG : Nat := 0xa000060
def OBS_EXP_CFG_EN : RFld := ⟨OBS_EXP_CFG, 0, 1⟩
def OBS_EXP_CFG_DEST : RFld := ⟨OBS_EXP_CFG, 1, 1⟩
def OBS_EXP_CFG_LOAD : RFld := ⟨OBS_EXP_CFG, 2, 1⟩
def OBS_EXP_CFG_PORT : RFld := ⟨OBS_EXP_CFG, 8, 8⟩
def OBS_EXP_CFG_CLASS : RFld := ⟨OBS_EXP_CFG, 16, 4⟩
def OBS_EXP_MTU : Nat := 0xa000064
def OBS_EXP_MTU_MTU : RFld := ⟨OBS_EXP_MTU, 0, 14⟩
def OBS_EXP_MTU_TMPL_INT : RFld := ⟨OBS_EXP_MTU, 16, 16⟩
def OBS_EXP_DOMAIN : Nat := 0xa000068
def OBS_EXP_DOMAIN_DOMAIN : RFld := ⟨OBS_EXP_DOMAIN, 0, 32⟩
def OBS_EXP_TBASE : Nat := 0xa00006c
def OBS_EXP_TBASE_BASE : RFld := ⟨OBS_EXP_TBASE, 0, 14⟩
def OBS_EXP_HDR : Nat := 0xa000070
def OBS_EXP_HDR_LEN : RFld := ⟨OBS_EXP_HDR, 0, 8⟩
def OBS_EXP_HDR_IPOFF : RFld := ⟨OBS_EXP_HDR, 8, 8⟩
def OBS_EXP_UNIX0 : Nat := 0xa000074
def OBS_EXP_UNIX0_UNIX0 : RFld := ⟨OBS_EXP_UNIX0, 0, 32⟩
def OBS_EXP_STS : Nat := 0xa000078
def OBS_EXP_STS_TMPL_OK : RFld := ⟨OBS_EXP_STS, 0, 1⟩
def OBS_EXP_STS_HDR_ERR_STK : RFld := ⟨OBS_EXP_STS, 1, 1⟩
def OBS_PSMP_TMPL : Nat := 0xa00007c
def OBS_PSMP_TMPL_TID : RFld := ⟨OBS_PSMP_TMPL, 0, 16⟩
def OBS_EV_CFG : Nat := 0xa000080
def OBS_EV_CFG_FLUSH : RFld := ⟨OBS_EV_CFG, 0, 16⟩
def OBS_PSMP_SEED : Nat := 0xa000084
def OBS_PSMP_SEED_SEED : RFld := ⟨OBS_PSMP_SEED, 0, 32⟩
def OBS_PSMP_CFG (p : Nat) : Nat := 0xa000100 + p * 4
def OBS_PSMP_CFG_N (p : Nat) : RFld := ⟨OBS_PSMP_CFG p, 0, 16⟩
def OBS_PSMP_CFG_SNAP (p : Nat) : RFld := ⟨OBS_PSMP_CFG p, 16, 3⟩
def OBS_PSMP_CFG_EXPORT (p : Nat) : RFld := ⟨OBS_PSMP_CFG p, 19, 1⟩
def OBS_PSMP_CFG_EVENT (p : Nat) : RFld := ⟨OBS_PSMP_CFG p, 20, 1⟩
def OBS_PSMP_CFG_GATE (p : Nat) : RFld := ⟨OBS_PSMP_CFG p, 21, 1⟩
def OBS_INT : Nat := 0xa000090
def OBS_INT_PMU_OVF : RFld := ⟨OBS_INT, 0, 1⟩
def OBS_INT_PS_THR : RFld := ⟨OBS_INT, 1, 1⟩
def OBS_INT_PS_LOST : RFld := ⟨OBS_INT, 2, 1⟩
def OBS_INT_JRN_LOST : RFld := ⟨OBS_INT, 3, 1⟩
def OBS_INT_EXP_LOST : RFld := ⟨OBS_INT, 4, 1⟩
def OBS_INT_SNAP_SKIP : RFld := ⟨OBS_INT, 5, 1⟩
def OBS_MSK : Nat := 0xa000094
def OBS_MSK_PMU_OVF : RFld := ⟨OBS_MSK, 0, 1⟩
def OBS_MSK_PS_THR : RFld := ⟨OBS_MSK, 1, 1⟩
def OBS_MSK_PS_LOST : RFld := ⟨OBS_MSK, 2, 1⟩
def OBS_MSK_JRN_LOST : RFld := ⟨OBS_MSK, 3, 1⟩
def OBS_MSK_EXP_LOST : RFld := ⟨OBS_MSK, 4, 1⟩
def OBS_MSK_SNAP_SKIP : RFld := ⟨OBS_MSK, 5, 1⟩
def OBS_PMU_CFG (b j : Nat) : Nat := 0xa001000 + b * 0x20 + j * 4
def OBS_PMU_CFG_EVENT (b j : Nat) : RFld := ⟨OBS_PMU_CFG b j, 0, 8⟩
def OBS_PMU_CFG_MODE (b j : Nat) : RFld := ⟨OBS_PMU_CFG b j, 8, 2⟩
def OBS_PMU_CFG_UNIT (b j : Nat) : RFld := ⟨OBS_PMU_CFG b j, 10, 5⟩
def OBS_PMU_CFG_EN (b j : Nat) : RFld := ⟨OBS_PMU_CFG b j, 15, 1⟩
def OBS_PMU_CFG_OVF_STK (b j : Nat) : RFld := ⟨OBS_PMU_CFG b j, 16, 1⟩
def OBS_PMU_CFG_OVF_INT (b j : Nat) : RFld := ⟨OBS_PMU_CFG b j, 17, 1⟩
def OBS_PMU_GCFG (g : Nat) : Nat := 0xa002000 + g * 4
def OBS_PMU_GCFG_EVENT (g : Nat) : RFld := ⟨OBS_PMU_GCFG g, 0, 8⟩
def OBS_PMU_GCFG_MODE (g : Nat) : RFld := ⟨OBS_PMU_GCFG g, 8, 2⟩
def OBS_PMU_GCFG_UNIT (g : Nat) : RFld := ⟨OBS_PMU_GCFG g, 10, 5⟩
def OBS_PMU_GCFG_EN (g : Nat) : RFld := ⟨OBS_PMU_GCFG g, 15, 1⟩
def OBS_PMU_GCFG_OVF_STK (g : Nat) : RFld := ⟨OBS_PMU_GCFG g, 16, 1⟩
def OBS_PMU_GCFG_OVF_INT (g : Nat) : RFld := ⟨OBS_PMU_GCFG g, 17, 1⟩
def OBS_SNAP_SKIP_CNT : Nat := 0xa003000
def OBS_SNAP_SKIP_CNT_HI : Nat := 0xa003004
def OBS_PS_CNT : Nat := 0xa003008
def OBS_PS_CNT_HI : Nat := 0xa00300c
def OBS_PS_LOST_CNT : Nat := 0xa003010
def OBS_PS_LOST_CNT_HI : Nat := 0xa003014
def OBS_PSMP_CNT : Nat := 0xa003018
def OBS_PSMP_CNT_HI : Nat := 0xa00301c
def OBS_PSMP_LOST_CNT : Nat := 0xa003020
def OBS_PSMP_LOST_CNT_HI : Nat := 0xa003024
def OBS_JRN_CNT : Nat := 0xa003028
def OBS_JRN_CNT_HI : Nat := 0xa00302c
def OBS_JRN_LOST_CNT : Nat := 0xa003030
def OBS_JRN_LOST_CNT_HI : Nat := 0xa003034
def OBS_EXP_REC_CNT : Nat := 0xa003038
def OBS_EXP_REC_CNT_HI : Nat := 0xa00303c
def OBS_EXP_MSG_CNT : Nat := 0xa003040
def OBS_EXP_MSG_CNT_HI : Nat := 0xa003044
def OBS_EXP_LOST_CNT : Nat := 0xa003048
def OBS_EXP_LOST_CNT_HI : Nat := 0xa00304c
def OBS_EXP_LATE_CNT : Nat := 0xa003050
def OBS_EXP_LATE_CNT_HI : Nat := 0xa003054
def OBS_EXP_NOTMPL_CNT : Nat := 0xa003058
def OBS_EXP_NOTMPL_CNT_HI : Nat := 0xa00305c
def OBS_EXP_REFUSED_CNT : Nat := 0xa003060
def OBS_EXP_REFUSED_CNT_HI : Nat := 0xa003064
def OBS_EV_SKIP_CNT : Nat := 0xa003068
def OBS_EV_SKIP_CNT_HI : Nat := 0xa00306c
/-! ### Boot (chapter 16) -/

def GLB_BOOT_STS : Nat := 0x104
def GLB_BOOT_STS_BUSY : RFld := ⟨GLB_BOOT_STS, 0, 1⟩
def GLB_BOOT_STS_DONE : RFld := ⟨GLB_BOOT_STS, 1, 1⟩
def GLB_BOOT_STS_PROF_FALLBACK : RFld := ⟨GLB_BOOT_STS, 2, 1⟩
def GLB_BOOT_STS_HDR_COPY : RFld := ⟨GLB_BOOT_STS, 3, 1⟩
def GLB_BOOT_STS_CAUSE : RFld := ⟨GLB_BOOT_STS, 4, 4⟩
def GLB_BOOT_STS_PROF : RFld := ⟨GLB_BOOT_STS, 8, 2⟩
def GLB_BOOT_STS_SEL_SRC : RFld := ⟨GLB_BOOT_STS, 10, 1⟩
def GLB_BOOT_STS_RST_SRC : RFld := ⟨GLB_BOOT_STS, 11, 2⟩
def GLB_BOOT_STS_WR_DROP_STK : RFld := ⟨GLB_BOOT_STS, 13, 1⟩
def GLB_BOOT_VER : Nat := 0x108
def GLB_BOOT_VER_VER : RFld := ⟨GLB_BOOT_VER, 0, 32⟩
def GLB_PROF_SEL : Nat := 0x10c
def GLB_PROF_SEL_NEXT : RFld := ⟨GLB_PROF_SEL, 0, 2⟩
def GLB_PROF_SEL_NEXT_V : RFld := ⟨GLB_PROF_SEL, 2, 1⟩
def GLB_PROF_SEL_PSEL : RFld := ⟨GLB_PROF_SEL, 4, 2⟩
def GLB_PROF_CMD : Nat := 0x110
def GLB_PROF_CMD_PROF : RFld := ⟨GLB_PROF_CMD, 0, 2⟩
def GLB_PROF_CMD_MODE : RFld := ⟨GLB_PROF_CMD, 2, 1⟩
def GLB_PROF_CMD_GO : RFld := ⟨GLB_PROF_CMD, 3, 1⟩
def GLB_PROF_STS : Nat := 0x114
def GLB_PROF_STS_STATE : RFld := ⟨GLB_PROF_STS, 0, 3⟩
def GLB_PROF_STS_RESULT : RFld := ⟨GLB_PROF_STS, 4, 4⟩
def GLB_PROF_STS_REJ_STK : RFld := ⟨GLB_PROF_STS, 8, 1⟩
def GLB_PROF_CFG : Nat := 0x118
def GLB_PROF_CFG_DRAIN_TMO : RFld := ⟨GLB_PROF_CFG, 0, 16⟩
def GLB_RST_CMD : Nat := 0x11c
def GLB_RST_CMD_KEY : RFld := ⟨GLB_RST_CMD, 0, 16⟩
def GLB_BOOT_INT : Nat := 0x120
def GLB_BOOT_INT_DONE : RFld := ⟨GLB_BOOT_INT, 0, 1⟩
def GLB_BOOT_INT_FALLBACK : RFld := ⟨GLB_BOOT_INT, 1, 1⟩
def GLB_BOOT_INT_SWITCH_DONE : RFld := ⟨GLB_BOOT_INT, 2, 1⟩
def GLB_BOOT_INT_SWITCH_FAIL : RFld := ⟨GLB_BOOT_INT, 3, 1⟩
def GLB_BOOT_MSK : Nat := 0x124
def GLB_BOOT_MSK_DONE : RFld := ⟨GLB_BOOT_MSK, 0, 1⟩
def GLB_BOOT_MSK_FALLBACK : RFld := ⟨GLB_BOOT_MSK, 1, 1⟩
def GLB_BOOT_MSK_SWITCH_DONE : RFld := ⟨GLB_BOOT_MSK, 2, 1⟩
def GLB_BOOT_MSK_SWITCH_FAIL : RFld := ⟨GLB_BOOT_MSK, 3, 1⟩
/-! ### Global and clocks (chapter 17) -/

def GLB_ID : Nat := 0
def GLB_ID_VENDOR : RFld := ⟨GLB_ID, 0, 16⟩
def GLB_ID_PART : RFld := ⟨GLB_ID, 16, 16⟩
def GLB_REV : Nat := 4
def GLB_REV_STEP : RFld := ⟨GLB_REV, 0, 8⟩
def GLB_REV_ROM_VER : RFld := ⟨GLB_REV, 16, 16⟩
def GLB_ACC_STS : Nat := 8
def GLB_ACC_STS_ACC_ERR_STK : RFld := ⟨GLB_ACC_STS, 0, 1⟩
def GLB_ACC_STS_TMO_STK : RFld := ⟨GLB_ACC_STS, 1, 1⟩
def GLB_ACC_ADDR : Nat := 0xc
def GLB_ACC_ADDR_OFFSET : RFld := ⟨GLB_ACC_ADDR, 0, 28⟩
def GLB_ACC_ADDR_WRITE : RFld := ⟨GLB_ACC_ADDR, 31, 1⟩
def GLB_INT : Nat := 0x10
def GLB_INT_ACC_ERR : RFld := ⟨GLB_INT, 0, 1⟩
def GLB_INT_ACC_TMO : RFld := ⟨GLB_INT, 1, 1⟩
def GLB_MSK : Nat := 0x14
def GLB_MSK_ACC_ERR : RFld := ⟨GLB_MSK, 0, 1⟩
def GLB_MSK_ACC_TMO : RFld := ⟨GLB_MSK, 1, 1⟩
def GLB_SCRATCH : Nat := 0x20
def GLB_SCRATCH_VALUE : RFld := ⟨GLB_SCRATCH, 0, 32⟩
def GLB_SCRATCH_S : Nat := 0x24
def GLB_SCRATCH_S_VALUE : RFld := ⟨GLB_SCRATCH_S, 0, 32⟩
def CLK_REF_STS : Nat := 0x100000
def CLK_REF_STS_SYSCLK_OK : RFld := ⟨CLK_REF_STS, 0, 1⟩
def CLK_REF_STS_PCIE_OK : RFld := ⟨CLK_REF_STS, 1, 1⟩
def CLK_REF_STS_TCLK_OK : RFld := ⟨CLK_REF_STS, 2, 1⟩
def CLK_CFG : Nat := 0x100004
def CLK_CFG_TCLK_SEL : RFld := ⟨CLK_CFG, 0, 1⟩
def CLK_STS : Nat := 0x100008
def CLK_STS_CFG_REJ_STK : RFld := ⟨CLK_STS, 0, 1⟩
def CLK_STS_ALL_LOCKED : RFld := ⟨CLK_STS, 1, 1⟩
def CLK_ISL_LOCK (i : Nat) : Nat := 0x100010 + i * 4
def CLK_ISL_LOCK_ISL (i : Nat) : RFld := ⟨CLK_ISL_LOCK i, 0, 32⟩
def CLK_ISL_FAIL (i : Nat) : Nat := 0x100030 + i * 4
def CLK_ISL_FAIL_ISL (i : Nat) : RFld := ⟨CLK_ISL_FAIL i, 0, 32⟩
def CLK_INT : Nat := 0x100050
def CLK_INT_UNLOCK : RFld := ⟨CLK_INT, 0, 1⟩
def CLK_INT_REF_LOSS : RFld := ⟨CLK_INT, 1, 1⟩
def CLK_MSK : Nat := 0x100054
def CLK_MSK_UNLOCK : RFld := ⟨CLK_MSK, 0, 1⟩
def CLK_MSK_REF_LOSS : RFld := ⟨CLK_MSK, 1, 1⟩
def CLK_MEAS_CTL : Nat := 0x100060
def CLK_MEAS_CTL_ISL : RFld := ⟨CLK_MEAS_CTL, 0, 8⟩
def CLK_MEAS_CTL_START : RFld := ⟨CLK_MEAS_CTL, 8, 1⟩
def CLK_MEAS_CTL_BUSY : RFld := ⟨CLK_MEAS_CTL, 9, 1⟩
def CLK_MEAS_RES : Nat := 0x100064
def CLK_MEAS_RES_CYCLES : RFld := ⟨CLK_MEAS_RES, 0, 32⟩
def CLK_UNLOCK_CNT : Nat := 0x100100
def CLK_UNLOCK_CNT_HI : Nat := 0x100104
/-! ### Temperature (chapter 18) -/

def GLB_TJ_SNS (n : Nat) : Nat := 0x200 + n * 4
def GLB_TJ_SNS_TEMP (n : Nat) : RFld := ⟨GLB_TJ_SNS n, 0, 10⟩
def GLB_TJ_SNS_VALID (n : Nat) : RFld := ⟨GLB_TJ_SNS n, 16, 1⟩
def GLB_TJ_MAX : Nat := 0x240
def GLB_TJ_MAX_TEMP : RFld := ⟨GLB_TJ_MAX, 0, 10⟩
def GLB_TJ_MAX_SNS : RFld := ⟨GLB_TJ_MAX, 16, 4⟩
def GLB_TJ_HWM : Nat := 0x244
def GLB_TJ_HWM_TEMP : RFld := ⟨GLB_TJ_HWM, 0, 10⟩
def GLB_TJ_HWM_SNS : RFld := ⟨GLB_TJ_HWM, 16, 4⟩
def GLB_TJ_CFG : Nat := 0x248
def GLB_TJ_CFG_ALERT : RFld := ⟨GLB_TJ_CFG, 0, 10⟩
def GLB_TJ_CFG_HYST : RFld := ⟨GLB_TJ_CFG, 10, 4⟩
def GLB_TJ_CFG_HWM_CLR : RFld := ⟨GLB_TJ_CFG, 14, 1⟩
def GLB_TJ_INT : Nat := 0x250
def GLB_TJ_INT_ALERT : RFld := ⟨GLB_TJ_INT, 0, 1⟩
def GLB_TJ_INT_ALERT_CLR : RFld := ⟨GLB_TJ_INT, 1, 1⟩
def GLB_TJ_INT_SNS_FAIL : RFld := ⟨GLB_TJ_INT, 2, 1⟩
def GLB_TJ_MSK : Nat := 0x254
def GLB_TJ_MSK_ALERT : RFld := ⟨GLB_TJ_MSK, 0, 1⟩
def GLB_TJ_MSK_ALERT_CLR : RFld := ⟨GLB_TJ_MSK, 1, 1⟩
def GLB_TJ_MSK_SNS_FAIL : RFld := ⟨GLB_TJ_MSK, 2, 1⟩

def rowsGlb0 : List RegRow := [
  ⟨0x104, [], [⟨0, 1, .ro, 1⟩, ⟨1, 1, .ro, 0⟩, ⟨2, 1, .ro, 0⟩, ⟨3, 1, .ro, 0⟩, ⟨4, 4, .ro, 0⟩, ⟨8, 2, .ro, 0⟩, ⟨10, 1, .ro, 0⟩, ⟨11, 2, .ro, 0⟩, ⟨13, 1, .w1c, 0⟩]⟩,  -- GLB_BOOT_STS
  ⟨0x108, [], [⟨0, 32, .ro, 0⟩]⟩,  -- GLB_BOOT_VER
  ⟨0x10c, [], [⟨0, 2, .rws, 0⟩, ⟨2, 1, .rws, 0⟩, ⟨4, 2, .ro, 0⟩]⟩,  -- GLB_PROF_SEL
  ⟨0x110, [], [⟨0, 2, .wo, 0⟩, ⟨2, 1, .wo, 0⟩, ⟨3, 1, .wo, 0⟩]⟩,  -- GLB_PROF_CMD
  ⟨0x114, [], [⟨0, 3, .ro, 0⟩, ⟨4, 4, .ro, 0⟩, ⟨8, 1, .w1c, 0⟩]⟩,  -- GLB_PROF_STS
  ⟨0x118, [], [⟨0, 16, .rw, 0x64⟩]⟩,  -- GLB_PROF_CFG
  ⟨0x11c, [], [⟨0, 16, .wo, 0⟩]⟩,  -- GLB_RST_CMD
  ⟨0x120, [], [⟨0, 1, .w1c, 0⟩, ⟨1, 1, .w1c, 0⟩, ⟨2, 1, .w1c, 0⟩, ⟨3, 1, .w1c, 0⟩]⟩,  -- GLB_BOOT_INT
  ⟨0x124, [], [⟨0, 1, .rw, 0⟩, ⟨1, 1, .rw, 0⟩, ⟨2, 1, .rw, 0⟩, ⟨3, 1, .rw, 0⟩]⟩,  -- GLB_BOOT_MSK
  ⟨0, [], [⟨0, 16, .ro, 0x1d2b⟩, ⟨16, 16, .ro, 0x5100⟩]⟩,  -- GLB_ID
  ⟨4, [], [⟨0, 8, .ro, 0xa1⟩, ⟨16, 16, .ro, 1⟩]⟩,  -- GLB_REV
  ⟨8, [], [⟨0, 1, .w1c, 0⟩, ⟨1, 1, .w1c, 0⟩]⟩,  -- GLB_ACC_STS
  ⟨0xc, [], [⟨0, 28, .ro, 0⟩, ⟨31, 1, .ro, 0⟩]⟩,  -- GLB_ACC_ADDR
  ⟨0x10, [], [⟨0, 1, .w1c, 0⟩, ⟨1, 1, .w1c, 0⟩]⟩,  -- GLB_INT
  ⟨0x14, [], [⟨0, 1, .rw, 0⟩, ⟨1, 1, .rw, 0⟩]⟩,  -- GLB_MSK
  ⟨0x20, [], [⟨0, 32, .rw, 0⟩]⟩,  -- GLB_SCRATCH
  ⟨0x24, [], [⟨0, 32, .rws, 0⟩]⟩,  -- GLB_SCRATCH_S
  ⟨0x200, [(16, 4)], [⟨0, 10, .ro, 0⟩, ⟨16, 1, .ro, 0⟩]⟩,  -- GLB_TJ_SNS
  ⟨0x240, [], [⟨0, 10, .ro, 0⟩, ⟨16, 4, .ro, 0⟩]⟩,  -- GLB_TJ_MAX
  ⟨0x244, [], [⟨0, 10, .ro, 0x200⟩, ⟨16, 4, .ro, 0⟩]⟩,  -- GLB_TJ_HWM
  ⟨0x248, [], [⟨0, 10, .rw, 0x190⟩, ⟨10, 4, .rw, 8⟩, ⟨14, 1, .wo, 0⟩]⟩,  -- GLB_TJ_CFG
  ⟨0x250, [], [⟨0, 1, .w1c, 0⟩, ⟨1, 1, .w1c, 0⟩, ⟨2, 1, .w1c, 0⟩]⟩,  -- GLB_TJ_INT
  ⟨0x254, [], [⟨0, 1, .rw, 0⟩, ⟨1, 1, .rw, 0⟩, ⟨2, 1, .rw, 0⟩]⟩  -- GLB_TJ_MSK
]

/-- The rows of the GLB block. -/
def rowsGlb : List RegRow := rowsGlb0

def rowsClk0 : List RegRow := [
  ⟨0x100000, [], [⟨0, 1, .ro, 0⟩, ⟨1, 1, .ro, 0⟩, ⟨2, 1, .ro, 0⟩]⟩,  -- CLK_REF_STS
  ⟨0x100004, [], [⟨0, 1, .rws, 0⟩]⟩,  -- CLK_CFG
  ⟨0x100008, [], [⟨0, 1, .w1c, 0⟩, ⟨1, 1, .ro, 0⟩]⟩,  -- CLK_STS
  ⟨0x100010, [(6, 4)], [⟨0, 32, .ro, 0⟩]⟩,  -- CLK_ISL_LOCK
  ⟨0x100030, [(6, 4)], [⟨0, 32, .ro, 0⟩]⟩,  -- CLK_ISL_FAIL
  ⟨0x100050, [], [⟨0, 1, .w1c, 0⟩, ⟨1, 1, .w1c, 0⟩]⟩,  -- CLK_INT
  ⟨0x100054, [], [⟨0, 1, .rw, 0⟩, ⟨1, 1, .rw, 0⟩]⟩,  -- CLK_MSK
  ⟨0x100060, [], [⟨0, 8, .rw, 0⟩, ⟨8, 1, .wo, 0⟩, ⟨9, 1, .ro, 0⟩]⟩,  -- CLK_MEAS_CTL
  ⟨0x100064, [], [⟨0, 32, .ro, 0⟩]⟩,  -- CLK_MEAS_RES
  ⟨0x100100, [], [⟨0, 32, .ro, 0⟩]⟩,  -- CLK_UNLOCK_CNT
  ⟨0x100104, [], [⟨0, 16, .ro, 0⟩]⟩  -- CLK_UNLOCK_CNT_HI
]

/-- The rows of the CLK block. -/
def rowsClk : List RegRow := rowsClk0

def rowsTim0 : List RegRow := [
  ⟨0x200000, [], [⟨0, 1, .rws, 1⟩]⟩,  -- TIM_CFG
  ⟨0x200004, [], [⟨0, 32, .rws, 0⟩]⟩,  -- TIM_FREQ
  ⟨0x200008, [], [⟨0, 1, .wo, 0⟩]⟩,  -- TIM_SNAP
  ⟨0x20000c, [], [⟨0, 32, .ro, 0⟩]⟩,  -- TIM_SNAP_NS
  ⟨0x200010, [], [⟨0, 32, .ro, 0⟩]⟩,  -- TIM_SNAP_NS_HI
  ⟨0x200014, [], [⟨0, 16, .ro, 0⟩]⟩,  -- TIM_SNAP_FRAC
  ⟨0x200018, [], [⟨0, 32, .rw, 0⟩]⟩,  -- TIM_ADJ
  ⟨0x20001c, [], [⟨0, 32, .rw, 0⟩]⟩,  -- TIM_ADJ_HI
  ⟨0x200020, [], [⟨0, 2, .wo, 0⟩, ⟨2, 1, .wo, 0⟩]⟩,  -- TIM_ADJ_CMD
  ⟨0x200024, [], [⟨0, 32, .rws, 0x3e8⟩]⟩,  -- TIM_STEP_CFG
  ⟨0x200028, [], [⟨0, 11, .rws, 0x64⟩]⟩,  -- TIM_SLEW_CFG
  ⟨0x20002c, [], [⟨0, 1, .ro, 1⟩, ⟨1, 1, .ro, 0⟩, ⟨2, 1, .ro, 0⟩, ⟨3, 1, .ro, 0⟩, ⟨4, 1, .w1c, 0⟩, ⟨5, 3, .ro, 0⟩, ⟨8, 1, .w1c, 0⟩]⟩,  -- TIM_STS
  ⟨0x200030, [], [⟨0, 32, .ro, 0⟩]⟩,  -- TIM_STEP_AT
  ⟨0x200034, [], [⟨0, 32, .ro, 0⟩]⟩,  -- TIM_STEP_AT_HI
  ⟨0x200038, [], [⟨0, 32, .ro, 0⟩]⟩,  -- TIM_STEP_DELTA
  ⟨0x20003c, [], [⟨0, 32, .ro, 0⟩]⟩,  -- TIM_STEP_DELTA_HI
  ⟨0x200040, [], [⟨0, 1, .w1c, 0⟩, ⟨1, 1, .w1c, 0⟩, ⟨2, 1, .w1c, 0⟩, ⟨3, 1, .w1c, 0⟩, ⟨4, 4, .w1c, 0⟩, ⟨8, 1, .w1c, 0⟩]⟩,  -- TIM_INT
  ⟨0x200044, [], [⟨0, 1, .rw, 0⟩, ⟨1, 1, .rw, 0⟩, ⟨2, 1, .rw, 0⟩, ⟨3, 1, .rw, 0⟩, ⟨4, 4, .rw, 0⟩, ⟨8, 1, .rw, 0⟩]⟩,  -- TIM_MSK
  ⟨0x200048, [], [⟨0, 20, .rws, 0x186a0⟩, ⟨31, 1, .rws, 1⟩]⟩,  -- TIM_PPS_CFG
  ⟨0x200080, [(8, 4)], [⟨0, 32, .rws, 0xffffffff⟩]⟩,  -- TIM_PTP_EN
  ⟨0x201000, [(256, 4)], [⟨0, 16, .rws, 0⟩, ⟨16, 16, .rws, 0⟩]⟩,  -- TIM_PORT_ADJ
  ⟨0x200100, [(4, 0x20)], [⟨0, 2, .rws, 0⟩, ⟨2, 1, .rws, 0⟩]⟩,  -- TIM_CAP_CFG
  ⟨0x200104, [(4, 0x20)], [⟨0, 32, .ro, 0⟩]⟩,  -- TIM_CAP_TS
  ⟨0x200108, [(4, 0x20)], [⟨0, 32, .ro, 0⟩]⟩,  -- TIM_CAP_TS_HI
  ⟨0x20010c, [(4, 0x20)], [⟨0, 16, .ro, 0⟩, ⟨16, 1, .ro, 0⟩]⟩,  -- TIM_CAP_FRAC
  ⟨0x200110, [(4, 0x20)], [⟨0, 32, .ro, 0⟩]⟩,  -- TIM_CAP_CNT
  ⟨0x200114, [(4, 0x20)], [⟨0, 16, .ro, 0⟩]⟩,  -- TIM_CAP_CNT_HI
  ⟨0x200200, [(8, 0x40)], [⟨0, 1, .rws, 0⟩, ⟨1, 3, .rws, 0⟩, ⟨4, 1, .rws, 0⟩, ⟨5, 1, .rws, 0⟩, ⟨6, 1, .rws, 0⟩, ⟨7, 3, .rws, 0⟩]⟩,  -- TIM_TRG_CFG
  ⟨0x200204, [(8, 0x40)], [⟨0, 32, .rws, 0⟩]⟩,  -- TIM_TRG_START
  ⟨0x200208, [(8, 0x40)], [⟨0, 32, .rws, 0⟩]⟩,  -- TIM_TRG_START_HI
  ⟨0x20020c, [(8, 0x40)], [⟨0, 32, .rws, 0⟩]⟩,  -- TIM_TRG_PERIOD
  ⟨0x200210, [(8, 0x40)], [⟨0, 32, .rws, 0x64⟩]⟩,  -- TIM_TRG_WIDTH
  ⟨0x200214, [(8, 0x40)], [⟨0, 32, .rws, 0⟩]⟩,  -- TIM_TRG_OFFSET
  ⟨0x200218, [(8, 0x40)], [⟨0, 32, .ro, 0⟩]⟩,  -- TIM_TRG_NEXT
  ⟨0x20021c, [(8, 0x40)], [⟨0, 32, .ro, 0⟩]⟩,  -- TIM_TRG_NEXT_HI
  ⟨0x200220, [(8, 0x40), (8, 4)], [⟨0, 32, .rws, 0⟩]⟩,  -- TIM_TRG_GCL
  ⟨0x200400, [], [⟨0, 32, .ro, 0⟩]⟩,  -- TC_CORR_CNT
  ⟨0x200404, [], [⟨0, 16, .ro, 0⟩]⟩,  -- TC_CORR_CNT_HI
  ⟨0x200408, [], [⟨0, 32, .ro, 0⟩]⟩,  -- TC_NOFIX_CNT
  ⟨0x20040c, [], [⟨0, 16, .ro, 0⟩]⟩  -- TC_NOFIX_CNT_HI
]

def rowsTim1 : List RegRow := [
  ⟨0x200410, [], [⟨0, 32, .ro, 0⟩]⟩,  -- TC_RES_BAD_CNT
  ⟨0x200414, [], [⟨0, 16, .ro, 0⟩]⟩,  -- TC_RES_BAD_CNT_HI
  ⟨0x200418, [], [⟨0, 32, .ro, 0⟩]⟩,  -- TC_VER_CNT
  ⟨0x20041c, [], [⟨0, 16, .ro, 0⟩]⟩,  -- TC_VER_CNT_HI
  ⟨0x200420, [], [⟨0, 32, .ro, 0⟩]⟩,  -- STEP_CNT
  ⟨0x200424, [], [⟨0, 16, .ro, 0⟩]⟩,  -- STEP_CNT_HI
  ⟨0x200428, [], [⟨0, 32, .ro, 0⟩]⟩,  -- STEP_REJ_CNT
  ⟨0x20042c, [], [⟨0, 16, .ro, 0⟩]⟩,  -- STEP_REJ_CNT_HI
  ⟨0x200430, [], [⟨0, 32, .ro, 0⟩]⟩,  -- SET_FORCE_CNT
  ⟨0x200434, [], [⟨0, 16, .ro, 0⟩]⟩,  -- SET_FORCE_CNT_HI
  ⟨0x200438, [], [⟨0, 32, .ro, 0⟩]⟩,  -- TRG_SKIP_CNT
  ⟨0x20043c, [], [⟨0, 16, .ro, 0⟩]⟩,  -- TRG_SKIP_CNT_HI
  ⟨0x200440, [], [⟨0, 32, .ro, 0⟩]⟩,  -- TRG_GCL_SKIP_CNT
  ⟨0x200444, [], [⟨0, 16, .ro, 0⟩]⟩,  -- TRG_GCL_SKIP_CNT_HI
  ⟨0x200448, [], [⟨0, 32, .ro, 0⟩]⟩,  -- CAP_OVR_CNT
  ⟨0x20044c, [], [⟨0, 16, .ro, 0⟩]⟩  -- CAP_OVR_CNT_HI
]

/-- The rows of the TIM block. -/
def rowsTim : List RegRow := rowsTim0 ++ rowsTim1

def rowsPrt0 : List RegRow := [
  ⟨0x1000000, [(32, 0x8000)], [⟨0, 3, .rw, 0⟩]⟩,  -- PRT_GRP_CFG
  ⟨0x1000004, [(32, 0x8000)], [⟨0, 3, .ro, 0⟩, ⟨3, 1, .w1c, 0⟩]⟩,  -- PRT_GRP_STS
  ⟨0x1000010, [(256, 0x1000)], [⟨0, 1, .rw, 0⟩, ⟨1, 1, .rw, 0⟩, ⟨2, 1, .rw, 0⟩, ⟨3, 1, .rw, 1⟩, ⟨4, 1, .rw, 0⟩, ⟨5, 1, .rw, 1⟩, ⟨8, 14, .rw, 0x2400⟩, ⟨22, 10, .rw, 0⟩]⟩,  -- PRT_CFG
  ⟨0x1000014, [(256, 0x1000)], [⟨0, 1, .ro, 0⟩, ⟨1, 1, .ro, 0⟩, ⟨2, 1, .ro, 0⟩, ⟨3, 1, .ro, 0⟩, ⟨4, 1, .ro, 0⟩, ⟨5, 1, .ro, 0⟩, ⟨6, 1, .ro, 0⟩, ⟨7, 2, .ro, 0⟩, ⟨9, 1, .ro, 1⟩]⟩,  -- PRT_STS
  ⟨0x1000020, [(256, 0x1000)], [⟨0, 4, .rw, 2⟩, ⟨4, 4, .rw, 4⟩]⟩,  -- PRT_AM_CFG
  ⟨0x1000024, [(256, 0x1000)], [⟨0, 16, .rw, 8⟩, ⟨16, 16, .rw, 0x3e8⟩]⟩,  -- PRT_ES_CFG
  ⟨0x1000028, [(256, 0x1000)], [⟨0, 16, .rw, 0x78⟩, ⟨16, 1, .rw, 1⟩, ⟨17, 1, .rw, 1⟩]⟩,  -- PRT_TRC_CFG
  ⟨0x1000030, [(256, 0x1000)], [⟨0, 1, .w1c, 0⟩, ⟨1, 1, .w1c, 0⟩, ⟨2, 1, .w1c, 0⟩, ⟨3, 1, .w1c, 0⟩, ⟨4, 1, .w1c, 0⟩, ⟨5, 1, .w1c, 0⟩, ⟨6, 1, .w1c, 0⟩]⟩,  -- PRT_INT
  ⟨0x1000034, [(256, 0x1000)], [⟨0, 1, .rw, 0⟩, ⟨1, 1, .rw, 0⟩, ⟨2, 1, .rw, 0⟩, ⟨3, 1, .rw, 0⟩, ⟨4, 1, .rw, 0⟩, ⟨5, 1, .rw, 0⟩, ⟨6, 1, .rw, 0⟩]⟩,  -- PRT_MSK
  ⟨0x1000100, [(256, 0x1000), (8, 4)], [⟨0, 8, .rw, 0⟩, ⟨8, 8, .rw, 0⟩, ⟨16, 8, .rw, 0⟩, ⟨24, 8, .rw, 0⟩]⟩,  -- PRT_TRC_EXP_CHS
  ⟨0x1000120, [(256, 0x1000), (8, 4)], [⟨0, 8, .rw, 0⟩, ⟨8, 8, .rw, 0⟩, ⟨16, 8, .rw, 0⟩, ⟨24, 8, .rw, 0⟩]⟩,  -- PRT_TRC_EXP_PRT
  ⟨0x1000180, [(256, 0x1000), (8, 4)], [⟨0, 8, .ro, 0⟩, ⟨8, 8, .ro, 0⟩, ⟨16, 8, .ro, 0⟩, ⟨24, 8, .ro, 0⟩]⟩,  -- PRT_TRC_RCV_CHS
  ⟨0x10001a0, [(256, 0x1000), (8, 4)], [⟨0, 8, .ro, 0⟩, ⟨8, 8, .ro, 0⟩, ⟨16, 8, .ro, 0⟩, ⟨24, 8, .ro, 0⟩]⟩,  -- PRT_TRC_RCV_PRT
  ⟨0x1000140, [(256, 0x1000)], [⟨0, 9, .rw, 0⟩, ⟨16, 9, .rw, 0⟩]⟩,  -- PRT_TRC_EXP_LEN
  ⟨0x10001c0, [(256, 0x1000)], [⟨0, 9, .ro, 0⟩, ⟨16, 9, .ro, 0⟩]⟩,  -- PRT_TRC_RCV_LEN
  ⟨0x1000400, [(256, 0x1000)], [⟨0, 32, .ro, 0⟩]⟩,  -- RX_FRAMES_CNT
  ⟨0x1000404, [(256, 0x1000)], [⟨0, 16, .ro, 0⟩]⟩,  -- RX_FRAMES_CNT_HI
  ⟨0x1000408, [(256, 0x1000)], [⟨0, 32, .ro, 0⟩]⟩,  -- RX_BYTES_CNT
  ⟨0x100040c, [(256, 0x1000)], [⟨0, 16, .ro, 0⟩]⟩,  -- RX_BYTES_CNT_HI
  ⟨0x1000410, [(256, 0x1000)], [⟨0, 32, .ro, 0⟩]⟩,  -- RX_FCS_ERR_CNT
  ⟨0x1000414, [(256, 0x1000)], [⟨0, 16, .ro, 0⟩]⟩,  -- RX_FCS_ERR_CNT_HI
  ⟨0x1000418, [(256, 0x1000)], [⟨0, 32, .ro, 0⟩]⟩,  -- RX_RUNT_CNT
  ⟨0x100041c, [(256, 0x1000)], [⟨0, 16, .ro, 0⟩]⟩,  -- RX_RUNT_CNT_HI
  ⟨0x1000420, [(256, 0x1000)], [⟨0, 32, .ro, 0⟩]⟩,  -- RX_OVERSIZE_CNT
  ⟨0x1000424, [(256, 0x1000)], [⟨0, 16, .ro, 0⟩]⟩,  -- RX_OVERSIZE_CNT_HI
  ⟨0x1000428, [(256, 0x1000)], [⟨0, 32, .ro, 0⟩]⟩,  -- RX_MAC_CTRL_CNT
  ⟨0x100042c, [(256, 0x1000)], [⟨0, 16, .ro, 0⟩]⟩,  -- RX_MAC_CTRL_CNT_HI
  ⟨0x1000430, [(256, 0x1000)], [⟨0, 32, .ro, 0⟩]⟩,  -- RX_LLDP_CNT
  ⟨0x1000434, [(256, 0x1000)], [⟨0, 16, .ro, 0⟩]⟩,  -- RX_LLDP_CNT_HI
  ⟨0x1000438, [(256, 0x1000)], [⟨0, 32, .ro, 0⟩]⟩,  -- RX_FIFO_OVF_CNT
  ⟨0x100043c, [(256, 0x1000)], [⟨0, 16, .ro, 0⟩]⟩,  -- RX_FIFO_OVF_CNT_HI
  ⟨0x1000440, [(256, 0x1000)], [⟨0, 32, .ro, 0⟩]⟩,  -- RX_CT_BAD_CNT
  ⟨0x1000444, [(256, 0x1000)], [⟨0, 16, .ro, 0⟩]⟩,  -- RX_CT_BAD_CNT_HI
  ⟨0x1000448, [(256, 0x1000)], [⟨0, 32, .ro, 0⟩]⟩,  -- RX_CODE_ERR_CNT
  ⟨0x100044c, [(256, 0x1000)], [⟨0, 16, .ro, 0⟩]⟩,  -- RX_CODE_ERR_CNT_HI
  ⟨0x1000450, [(256, 0x1000)], [⟨0, 32, .ro, 0⟩]⟩,  -- RX_TRACE_DROP_CNT
  ⟨0x1000454, [(256, 0x1000)], [⟨0, 16, .ro, 0⟩]⟩,  -- RX_TRACE_DROP_CNT_HI
  ⟨0x1000458, [(256, 0x1000)], [⟨0, 32, .ro, 0⟩]⟩,  -- TX_FRAMES_CNT
  ⟨0x100045c, [(256, 0x1000)], [⟨0, 16, .ro, 0⟩]⟩,  -- TX_FRAMES_CNT_HI
  ⟨0x1000460, [(256, 0x1000)], [⟨0, 32, .ro, 0⟩]⟩  -- TX_BYTES_CNT
]

def rowsPrt1 : List RegRow := [
  ⟨0x1000464, [(256, 0x1000)], [⟨0, 16, .ro, 0⟩]⟩,  -- TX_BYTES_CNT_HI
  ⟨0x1000468, [(256, 0x1000)], [⟨0, 32, .ro, 0⟩]⟩,  -- TX_STOMP_CNT
  ⟨0x100046c, [(256, 0x1000)], [⟨0, 16, .ro, 0⟩]⟩,  -- TX_STOMP_CNT_HI
  ⟨0x1000470, [(256, 0x1000)], [⟨0, 32, .ro, 0⟩]⟩,  -- TX_ABORT_CNT
  ⟨0x1000474, [(256, 0x1000)], [⟨0, 16, .ro, 0⟩]⟩,  -- TX_ABORT_CNT_HI
  ⟨0x1000478, [(256, 0x1000)], [⟨0, 32, .ro, 0⟩]⟩,  -- AM_MIMIC_CNT
  ⟨0x100047c, [(256, 0x1000)], [⟨0, 16, .ro, 0⟩]⟩,  -- AM_MIMIC_CNT_HI
  ⟨0x1000480, [(256, 0x1000)], [⟨0, 32, .ro, 0⟩]⟩,  -- AM_CAND_DROP_CNT
  ⟨0x1000484, [(256, 0x1000)], [⟨0, 16, .ro, 0⟩]⟩,  -- AM_CAND_DROP_CNT_HI
  ⟨0x1000488, [(256, 0x1000)], [⟨0, 32, .ro, 0⟩]⟩,  -- AM_LOCK_LOSS_CNT
  ⟨0x100048c, [(256, 0x1000)], [⟨0, 16, .ro, 0⟩]⟩,  -- AM_LOCK_LOSS_CNT_HI
  ⟨0x1000490, [(256, 0x1000)], [⟨0, 32, .ro, 0⟩]⟩,  -- FEC_CW_CNT
  ⟨0x1000494, [(256, 0x1000)], [⟨0, 16, .ro, 0⟩]⟩,  -- FEC_CW_CNT_HI
  ⟨0x1000498, [(256, 0x1000)], [⟨0, 32, .ro, 0⟩]⟩,  -- FEC_CORR_CW_CNT
  ⟨0x100049c, [(256, 0x1000)], [⟨0, 16, .ro, 0⟩]⟩,  -- FEC_CORR_CW_CNT_HI
  ⟨0x10004a0, [(256, 0x1000)], [⟨0, 32, .ro, 0⟩]⟩,  -- FEC_UCW_CNT
  ⟨0x10004a4, [(256, 0x1000)], [⟨0, 16, .ro, 0⟩]⟩,  -- FEC_UCW_CNT_HI
  ⟨0x10004a8, [(256, 0x1000)], [⟨0, 32, .ro, 0⟩]⟩,  -- FEC_CORR_SYM_CNT
  ⟨0x10004ac, [(256, 0x1000)], [⟨0, 16, .ro, 0⟩]⟩,  -- FEC_CORR_SYM_CNT_HI
  ⟨0x10004b0, [(256, 0x1000)], [⟨0, 32, .ro, 0⟩]⟩,  -- ES_CNT
  ⟨0x10004b4, [(256, 0x1000)], [⟨0, 16, .ro, 0⟩]⟩,  -- ES_CNT_HI
  ⟨0x10004b8, [(256, 0x1000)], [⟨0, 32, .ro, 0⟩]⟩,  -- SES_CNT
  ⟨0x10004bc, [(256, 0x1000)], [⟨0, 16, .ro, 0⟩]⟩,  -- SES_CNT_HI
  ⟨0x10004c0, [(256, 0x1000)], [⟨0, 32, .ro, 0⟩]⟩,  -- UAS_CNT
  ⟨0x10004c4, [(256, 0x1000)], [⟨0, 16, .ro, 0⟩]⟩,  -- UAS_CNT_HI
  ⟨0x10004c8, [(256, 0x1000)], [⟨0, 32, .ro, 0⟩]⟩,  -- LINK_DOWN_CNT
  ⟨0x10004cc, [(256, 0x1000)], [⟨0, 16, .ro, 0⟩]⟩,  -- LINK_DOWN_CNT_HI
  ⟨0x10004d0, [(256, 0x1000)], [⟨0, 32, .ro, 0⟩]⟩,  -- AN_FAIL_CNT
  ⟨0x10004d4, [(256, 0x1000)], [⟨0, 16, .ro, 0⟩]⟩,  -- AN_FAIL_CNT_HI
  ⟨0x10004d8, [(256, 0x1000)], [⟨0, 32, .ro, 0⟩]⟩,  -- TRACE_BAD_CNT
  ⟨0x10004dc, [(256, 0x1000)], [⟨0, 16, .ro, 0⟩]⟩,  -- TRACE_BAD_CNT_HI
  ⟨0x10004e0, [(256, 0x1000), (16, 8)], [⟨0, 32, .ro, 0⟩]⟩,  -- FEC_HIST_CNT
  ⟨0x10004e4, [(256, 0x1000), (16, 8)], [⟨0, 16, .ro, 0⟩]⟩,  -- FEC_HIST_CNT_HI
  ⟨0x1000600, [(256, 0x1000), (7, 8)], [⟨0, 32, .ro, 0⟩]⟩,  -- RX_CAUSE_CNT
  ⟨0x1000604, [(256, 0x1000), (7, 8)], [⟨0, 16, .ro, 0⟩]⟩,  -- RX_CAUSE_CNT_HI
  ⟨0x1000800, [(256, 0x1000)], [⟨0, 1, .rw, 0⟩, ⟨1, 1, .rw, 0⟩, ⟨2, 2, .rw, 0⟩]⟩,  -- PRT_LN_CFG
  ⟨0x1000804, [(256, 0x1000)], [⟨0, 1, .ro, 0⟩, ⟨1, 1, .ro, 0⟩, ⟨2, 1, .ro, 0⟩]⟩,  -- PRT_LN_STS
  ⟨0x1000808, [(256, 0x1000)], [⟨0, 32, .ro, 0⟩]⟩,  -- PRT_LN_PRBS_ERR_CNT
  ⟨0x100080c, [(256, 0x1000)], [⟨0, 16, .ro, 0⟩]⟩,  -- PRT_LN_PRBS_ERR_CNT_HI
  ⟨0x1000810, [(256, 0x1000)], [⟨0, 32, .ro, 0⟩]⟩  -- PRT_LN_SYM_ERR_CNT
]

def rowsPrt2 : List RegRow := [
  ⟨0x1000814, [(256, 0x1000)], [⟨0, 16, .ro, 0⟩]⟩,  -- PRT_LN_SYM_ERR_CNT_HI
  ⟨0x1000818, [(256, 0x1000)], [⟨0, 6, .rw, 0⟩, ⟨6, 6, .rw, 0⟩, ⟨12, 6, .rw, 0x3a⟩, ⟨18, 6, .rw, 0x32⟩, ⟨24, 6, .rw, 0x3c⟩]⟩  -- PRT_LN_TXEQ
]

/-- The rows of the PRT block. -/
def rowsPrt : List RegRow := rowsPrt0 ++ rowsPrt1 ++ rowsPrt2

def rowsBgh0 : List RegRow := [
  ⟨0x2000100, [(32, 0x40000)], [⟨0, 13, .rw, 0x40⟩, ⟨13, 1, .wo, 0⟩]⟩,  -- BGH_TAG_CFG
  ⟨0x2000104, [(32, 0x40000)], [⟨0, 14, .ro, 0⟩, ⟨16, 14, .ro, 0⟩]⟩,  -- BGH_TAG_STS
  ⟨0x2000108, [(32, 0x40000)], [⟨0, 14, .rw, 0x1e00⟩]⟩,  -- BGH_TAG_THR
  ⟨0x2000110, [(32, 0x40000)], [⟨0, 32, .ro, 0⟩]⟩,  -- BGH_TAG_EXHAUST_CNT
  ⟨0x2000114, [(32, 0x40000)], [⟨0, 16, .ro, 0⟩]⟩,  -- BGH_TAG_EXHAUST_CNT_HI
  ⟨0x2000118, [(32, 0x40000)], [⟨0, 1, .w1c, 0⟩, ⟨1, 1, .w1c, 0⟩]⟩,  -- BGH_TAG_INT
  ⟨0x200011c, [(32, 0x40000)], [⟨0, 1, .rw, 0⟩, ⟨1, 1, .rw, 0⟩]⟩,  -- BGH_TAG_MSK
  ⟨0x2000200, [(32, 0x40000), (8, 4)], [⟨0, 8, .rw, 0⟩, ⟨8, 4, .rw, 0⟩, ⟨12, 1, .rw, 1⟩]⟩,  -- BGH_PKEY_CFG
  ⟨0x2001008, [(32, 0x40000), (63, 8)], [⟨0, 32, .ro, 0⟩]⟩,  -- BGH_EXC_CNT
  ⟨0x200100c, [(32, 0x40000), (63, 8)], [⟨0, 16, .ro, 0⟩]⟩,  -- BGH_EXC_CNT_HI
  ⟨0x2000120, [(32, 0x40000)], [⟨0, 14, .ro, 0⟩, ⟨16, 14, .ro, 0⟩]⟩,  -- BGH_GEN_CNT
  ⟨0x2000124, [(32, 0x40000)], [⟨0, 11, .ro, 0⟩, ⟨16, 11, .ro, 0⟩]⟩,  -- BGH_RECIRC_STS
  ⟨0x2000300, [(32, 0x40000)], [⟨0, 32, .ro, 0⟩]⟩,  -- BGH_RECIRC_CNT
  ⟨0x2000304, [(32, 0x40000)], [⟨0, 16, .ro, 0⟩]⟩,  -- BGH_RECIRC_CNT_HI
  ⟨0x2000308, [(32, 0x40000)], [⟨0, 32, .ro, 0⟩]⟩,  -- BGH_RECIRC_FULL_CNT
  ⟨0x200030c, [(32, 0x40000)], [⟨0, 16, .ro, 0⟩]⟩,  -- BGH_RECIRC_FULL_CNT_HI
  ⟨0x2000310, [(32, 0x40000)], [⟨0, 32, .ro, 0⟩]⟩,  -- BGH_RECIRC_LOOP_CNT
  ⟨0x2000314, [(32, 0x40000)], [⟨0, 16, .ro, 0⟩]⟩,  -- BGH_RECIRC_LOOP_CNT_HI
  ⟨0x2000318, [(32, 0x40000)], [⟨0, 32, .ro, 0⟩]⟩,  -- BGH_TTL_DROP_CNT
  ⟨0x200031c, [(32, 0x40000)], [⟨0, 16, .ro, 0⟩]⟩,  -- BGH_TTL_DROP_CNT_HI
  ⟨0x2000320, [(32, 0x40000)], [⟨0, 32, .ro, 0⟩]⟩,  -- BGH_EDIT_SKIP_CNT
  ⟨0x2000324, [(32, 0x40000)], [⟨0, 16, .ro, 0⟩]⟩  -- BGH_EDIT_SKIP_CNT_HI
]

/-- The rows of the BGH block. -/
def rowsBgh : List RegRow := rowsBgh0

def rowsGrf0 : List RegRow := [
  ⟨0x3001004, [], [⟨0, 3, .rw, 1⟩, ⟨3, 1, .rw, 0⟩, ⟨4, 1, .rw, 0⟩, ⟨5, 10, .rw, 0⟩]⟩,  -- GRF_EXC_CFG
  ⟨0x3001008, [], [⟨0, 3, .rw, 2⟩, ⟨3, 1, .rw, 0⟩, ⟨4, 1, .rw, 0⟩, ⟨5, 10, .rw, 0⟩]⟩,  -- GRF_EXC_CFG
  ⟨0x300100c, [], [⟨0, 3, .rw, 1⟩, ⟨3, 1, .rw, 0⟩, ⟨4, 1, .rw, 0⟩, ⟨5, 10, .rw, 0⟩]⟩,  -- GRF_EXC_CFG
  ⟨0x3001010, [], [⟨0, 3, .rw, 0⟩, ⟨3, 1, .rw, 0⟩, ⟨4, 1, .rw, 0⟩, ⟨5, 10, .rw, 0⟩]⟩,  -- GRF_EXC_CFG
  ⟨0x3001014, [(2, 4)], [⟨0, 3, .rw, 1⟩, ⟨3, 1, .rw, 0⟩, ⟨4, 1, .rw, 0⟩, ⟨5, 10, .rw, 0⟩]⟩,  -- GRF_EXC_CFG
  ⟨0x300101c, [], [⟨0, 3, .rw, 0⟩, ⟨3, 1, .rw, 0⟩, ⟨4, 1, .rw, 0⟩, ⟨5, 10, .rw, 0⟩]⟩,  -- GRF_EXC_CFG
  ⟨0x3001020, [(56, 4)], [⟨0, 3, .rw, 2⟩, ⟨3, 1, .rw, 0⟩, ⟨4, 1, .rw, 0⟩, ⟨5, 10, .rw, 0⟩]⟩,  -- GRF_EXC_CFG
  ⟨0x3000000, [], [⟨0, 1, .rw, 0⟩]⟩,  -- GRF_RS_CFG
  ⟨0x3000004, [], [⟨0, 16, .ro, 0⟩, ⟨16, 1, .ro, 0⟩]⟩,  -- GRF_GEN_CUR
  ⟨0x3000008, [], [⟨0, 3, .ro, 0⟩, ⟨3, 1, .ro, 0⟩, ⟨4, 1, .w1c, 0⟩]⟩,  -- GRF_GRAFT_STS
  ⟨0x300000c, [], [⟨0, 16, .rw, 0x7d0⟩, ⟨16, 16, .rw, 0x64⟩]⟩,  -- GRF_GRAFT_CFG
  ⟨0x3000010, [], [⟨0, 14, .rw, 0⟩, ⟨16, 7, .rw, 0x28⟩]⟩,  -- GRF_LOG_CFG
  ⟨0x3000014, [], [⟨0, 19, .ro, 0⟩]⟩,  -- GRF_LOG_STS
  ⟨0x3000018, [], [⟨0, 1, .w1c, 0⟩, ⟨1, 1, .w1c, 0⟩, ⟨2, 1, .w1c, 0⟩, ⟨3, 1, .w1c, 0⟩]⟩,  -- GRF_GRAFT_INT
  ⟨0x300001c, [], [⟨0, 1, .rw, 0⟩, ⟨1, 1, .rw, 0⟩, ⟨2, 1, .rw, 0⟩, ⟨3, 1, .rw, 0⟩]⟩,  -- GRF_GRAFT_MSK
  ⟨0x3000020, [], [⟨0, 32, .ro, 0⟩]⟩,  -- GRF_FLIP_TS
  ⟨0x3000024, [], [⟨0, 32, .ro, 0⟩]⟩,  -- GRF_FLIP_TS_HI
  ⟨0x3000040, [], [⟨0, 32, .ro, 0⟩]⟩,  -- GRAFT_CNT
  ⟨0x3000044, [], [⟨0, 16, .ro, 0⟩]⟩,  -- GRAFT_CNT_HI
  ⟨0x3000048, [], [⟨0, 32, .ro, 0⟩]⟩,  -- GRAFT_FAIL_CNT
  ⟨0x300004c, [], [⟨0, 16, .ro, 0⟩]⟩,  -- GRAFT_FAIL_CNT_HI
  ⟨0x3000050, [], [⟨0, 32, .ro, 0⟩]⟩,  -- BATCH_FULL_CNT
  ⟨0x3000054, [], [⟨0, 16, .ro, 0⟩]⟩,  -- BATCH_FULL_CNT_HI
  ⟨0x3000104, [(15, 4)], [⟨0, 8, .rw, 0⟩, ⟨8, 4, .rw, 0⟩, ⟨12, 1, .rw, 0⟩, ⟨16, 8, .rw, 0⟩]⟩  -- GRF_MIR_CFG
]

/-- The rows of the GRF block. -/
def rowsGrf : List RegRow := rowsGrf0

def rowsBrg0 : List RegRow := [
  ⟨0x3408000, [], [⟨0, 16, .rw, 0x1e⟩, ⟨16, 1, .rw, 1⟩]⟩,  -- BRG_FRAG_CFG
  ⟨0x3408004, [], [⟨0, 15, .ro, 0⟩, ⟨16, 15, .ro, 0⟩]⟩,  -- BRG_FRAG_STS
  ⟨0x3408010, [], [⟨0, 32, .ro, 0⟩]⟩,  -- FRAG_INSTALL_CNT
  ⟨0x3408014, [], [⟨0, 16, .ro, 0⟩]⟩,  -- FRAG_INSTALL_CNT_HI
  ⟨0x3408018, [], [⟨0, 32, .ro, 0⟩]⟩,  -- FRAG_HIT_CNT
  ⟨0x340801c, [], [⟨0, 16, .ro, 0⟩]⟩,  -- FRAG_HIT_CNT_HI
  ⟨0x3408020, [], [⟨0, 32, .ro, 0⟩]⟩,  -- FRAG_MISS_CNT
  ⟨0x3408024, [], [⟨0, 16, .ro, 0⟩]⟩,  -- FRAG_MISS_CNT_HI
  ⟨0x3408028, [], [⟨0, 32, .ro, 0⟩]⟩,  -- FRAG_FULL_CNT
  ⟨0x340802c, [], [⟨0, 16, .ro, 0⟩]⟩,  -- FRAG_FULL_CNT_HI
  ⟨0x3408030, [], [⟨0, 32, .ro, 0⟩]⟩,  -- FRAG_DONE_CNT
  ⟨0x3408034, [], [⟨0, 16, .ro, 0⟩]⟩,  -- FRAG_DONE_CNT_HI
  ⟨0x3408038, [], [⟨0, 32, .ro, 0⟩]⟩,  -- FRAG_TMO_CNT
  ⟨0x340803c, [], [⟨0, 16, .ro, 0⟩]⟩,  -- FRAG_TMO_CNT_HI
  ⟨0x3400000, [], [⟨0, 16, .rw, 0x3e8⟩, ⟨16, 8, .rw, 4⟩]⟩,  -- BRG_LEARN_CFG
  ⟨0x3400004, [], [⟨0, 16, .rw, 0x96⟩]⟩,  -- BRG_PRUNE_CFG
  ⟨0x3400008, [], [⟨0, 16, .ro, 0⟩, ⟨16, 11, .ro, 0⟩, ⟨27, 1, .ro, 0⟩]⟩,  -- BRG_STS
  ⟨0x3400010, [], [⟨0, 1, .w1c, 0⟩, ⟨1, 1, .w1c, 0⟩, ⟨2, 1, .w1c, 0⟩, ⟨3, 1, .w1c, 0⟩]⟩,  -- BRG_INT
  ⟨0x3400014, [], [⟨0, 1, .rw, 0⟩, ⟨1, 1, .rw, 0⟩, ⟨2, 1, .rw, 0⟩, ⟨3, 1, .rw, 0⟩]⟩,  -- BRG_MSK
  ⟨0x3401000, [(256, 4)], [⟨0, 12, .rw, 1⟩, ⟨12, 1, .rw, 1⟩, ⟨13, 1, .rw, 0⟩, ⟨16, 14, .rw, 0⟩]⟩,  -- BRG_PORT_CFG
  ⟨0x3401400, [(256, 4)], [⟨0, 16, .ro, 0⟩]⟩,  -- BRG_PORT_STS
  ⟨0x3400100, [], [⟨0, 32, .ro, 0⟩]⟩,  -- LEARN_CNT
  ⟨0x3400104, [], [⟨0, 16, .ro, 0⟩]⟩,  -- LEARN_CNT_HI
  ⟨0x3400108, [], [⟨0, 32, .ro, 0⟩]⟩,  -- MOVE_CNT
  ⟨0x340010c, [], [⟨0, 16, .ro, 0⟩]⟩,  -- MOVE_CNT_HI
  ⟨0x3400110, [], [⟨0, 32, .ro, 0⟩]⟩,  -- FLAP_CNT
  ⟨0x3400114, [], [⟨0, 16, .ro, 0⟩]⟩,  -- FLAP_CNT_HI
  ⟨0x3400118, [], [⟨0, 32, .ro, 0⟩]⟩,  -- LEARN_FAIL_CNT
  ⟨0x340011c, [], [⟨0, 16, .ro, 0⟩]⟩,  -- LEARN_FAIL_CNT_HI
  ⟨0x3400120, [], [⟨0, 32, .ro, 0⟩]⟩,  -- LEARN_LATE_CNT
  ⟨0x3400124, [], [⟨0, 16, .ro, 0⟩]⟩,  -- LEARN_LATE_CNT_HI
  ⟨0x3400128, [], [⟨0, 32, .ro, 0⟩]⟩,  -- LEARN_Q_DROP_CNT
  ⟨0x340012c, [], [⟨0, 16, .ro, 0⟩]⟩,  -- LEARN_Q_DROP_CNT_HI
  ⟨0x3400130, [], [⟨0, 32, .ro, 0⟩]⟩,  -- LEARN_LIMIT_CNT
  ⟨0x3400134, [], [⟨0, 16, .ro, 0⟩]⟩,  -- LEARN_LIMIT_CNT_HI
  ⟨0x3400138, [], [⟨0, 32, .ro, 0⟩]⟩,  -- LEARN_STATIC_CNT
  ⟨0x340013c, [], [⟨0, 16, .ro, 0⟩]⟩,  -- LEARN_STATIC_CNT_HI
  ⟨0x3400140, [], [⟨0, 32, .ro, 0⟩]⟩,  -- AGE_CNT
  ⟨0x3400144, [], [⟨0, 16, .ro, 0⟩]⟩,  -- AGE_CNT_HI
  ⟨0x3400148, [], [⟨0, 32, .ro, 0⟩]⟩  -- FLUSH_CNT
]

def rowsBrg1 : List RegRow := [
  ⟨0x340014c, [], [⟨0, 16, .ro, 0⟩]⟩,  -- FLUSH_CNT_HI
  ⟨0x3400150, [], [⟨0, 32, .ro, 0⟩]⟩,  -- BRG_FLOOD_CNT
  ⟨0x3400154, [], [⟨0, 16, .ro, 0⟩]⟩,  -- BRG_FLOOD_CNT_HI
  ⟨0x3400158, [], [⟨0, 32, .ro, 0⟩]⟩,  -- BRG_SAME_PORT_CNT
  ⟨0x340015c, [], [⟨0, 16, .ro, 0⟩]⟩,  -- BRG_SAME_PORT_CNT_HI
  ⟨0x3400160, [], [⟨0, 32, .ro, 0⟩]⟩,  -- BRG_VLAN_DROP_CNT
  ⟨0x3400164, [], [⟨0, 16, .ro, 0⟩]⟩,  -- BRG_VLAN_DROP_CNT_HI
  ⟨0x3400168, [], [⟨0, 32, .ro, 0⟩]⟩,  -- VIP_HIT_CNT
  ⟨0x340016c, [], [⟨0, 16, .ro, 0⟩]⟩  -- VIP_HIT_CNT_HI
]

/-- The rows of the BRG block. -/
def rowsBrg : List RegRow := rowsBrg0 ++ rowsBrg1

def rowsGrv0 : List RegRow := [
  ⟨0x4000010, [], [⟨0, 32, .rw, 0⟩]⟩,  -- GRV_HASH_SEED_A
  ⟨0x4000014, [], [⟨0, 32, .rw, 0xffffffff⟩]⟩,  -- GRV_HASH_SEED_B
  ⟨0x4000000, [], [⟨0, 1, .rw, 0⟩, ⟨1, 1, .rw, 0⟩, ⟨2, 1, .wo, 0⟩]⟩,  -- GRV_CFG
  ⟨0x4000004, [], [⟨0, 1, .ro, 0⟩, ⟨1, 1, .ro, 0⟩, ⟨2, 1, .ro, 0⟩, ⟨3, 1, .ro, 0⟩, ⟨4, 1, .w1c, 0⟩, ⟨5, 1, .w1c, 0⟩]⟩,  -- GRV_STS
  ⟨0x4000008, [], [⟨0, 26, .ro, 0⟩]⟩,  -- GRV_DIR_STS
  ⟨0x400000c, [], [⟨0, 17, .ro, 0⟩]⟩,  -- GRV_PARK_STS
  ⟨0x4000018, [], [⟨0, 17, .ro, 0⟩]⟩,  -- GRV_PARK_HWM
  ⟨0x400001c, [], [⟨0, 14, .ro, 0⟩, ⟨16, 14, .ro, 0⟩]⟩,  -- GRV_PEND_STS
  ⟨0x4000020, [], [⟨0, 10, .rw, 0x1f4⟩, ⟨16, 16, .rw, 0x400⟩]⟩,  -- GRV_MISS_CFG
  ⟨0x4000024, [], [⟨0, 11, .rw, 0x7d0⟩, ⟨16, 8, .rw, 0x40⟩]⟩,  -- GRV_PARK_CFG
  ⟨0x4000028, [], [⟨0, 16, .rw, 0x3c⟩]⟩,  -- GRV_PRUNE_CFG
  ⟨0x4000030, [], [⟨0, 1, .w1c, 0⟩, ⟨1, 1, .w1c, 0⟩, ⟨2, 1, .w1c, 0⟩, ⟨3, 1, .w1c, 0⟩, ⟨4, 1, .w1c, 0⟩, ⟨5, 1, .w1c, 0⟩, ⟨6, 1, .w1c, 0⟩]⟩,  -- GRV_INT
  ⟨0x4000034, [], [⟨0, 1, .rw, 0⟩, ⟨1, 1, .rw, 0⟩, ⟨2, 1, .rw, 0⟩, ⟨3, 1, .rw, 0⟩, ⟨4, 1, .rw, 0⟩, ⟨5, 1, .rw, 0⟩, ⟨6, 1, .rw, 0⟩]⟩,  -- GRV_MSK
  ⟨0x4000040, [(16, 4)], [⟨0, 16, .rw, 0x12c⟩, ⟨16, 15, .rw, 0xa⟩, ⟨31, 1, .rw, 0⟩]⟩,  -- GRV_AGE_CFG
  ⟨0x4000080, [(16, 4)], [⟨0, 2, .rw, 0⟩, ⟨4, 10, .rw, 0⟩]⟩,  -- GRV_UNS_CFG
  ⟨0x4000100, [], [⟨0, 32, .ro, 0⟩]⟩,  -- GRV_HIT_CNT
  ⟨0x4000104, [], [⟨0, 16, .ro, 0⟩]⟩,  -- GRV_HIT_CNT_HI
  ⟨0x4000108, [], [⟨0, 32, .ro, 0⟩]⟩,  -- GRV_MISS_CNT
  ⟨0x400010c, [], [⟨0, 16, .ro, 0⟩]⟩,  -- GRV_MISS_CNT_HI
  ⟨0x4000110, [], [⟨0, 32, .ro, 0⟩]⟩,  -- GRV_FIND_CNT
  ⟨0x4000114, [], [⟨0, 16, .ro, 0⟩]⟩,  -- GRV_FIND_CNT_HI
  ⟨0x4000118, [], [⟨0, 32, .ro, 0⟩]⟩,  -- GRV_FIND_OB_CNT
  ⟨0x400011c, [], [⟨0, 16, .ro, 0⟩]⟩,  -- GRV_FIND_OB_CNT_HI
  ⟨0x4000120, [], [⟨0, 32, .ro, 0⟩]⟩,  -- GRV_ALT_READ_CNT
  ⟨0x4000124, [], [⟨0, 16, .ro, 0⟩]⟩,  -- GRV_ALT_READ_CNT_HI
  ⟨0x4000128, [], [⟨0, 32, .ro, 0⟩]⟩,  -- GRV_CREATE_CNT
  ⟨0x400012c, [], [⟨0, 16, .ro, 0⟩]⟩,  -- GRV_CREATE_CNT_HI
  ⟨0x4000130, [], [⟨0, 32, .ro, 0⟩]⟩,  -- GRV_EVICT_CNT
  ⟨0x4000134, [], [⟨0, 16, .ro, 0⟩]⟩,  -- GRV_EVICT_CNT_HI
  ⟨0x4000138, [], [⟨0, 32, .ro, 0⟩]⟩,  -- GRV_WB_CNT
  ⟨0x400013c, [], [⟨0, 16, .ro, 0⟩]⟩,  -- GRV_WB_CNT_HI
  ⟨0x4000140, [], [⟨0, 32, .ro, 0⟩]⟩,  -- GRV_FP_EVICT_CNT
  ⟨0x4000144, [], [⟨0, 16, .ro, 0⟩]⟩,  -- GRV_FP_EVICT_CNT_HI
  ⟨0x4000148, [], [⟨0, 32, .ro, 0⟩]⟩,  -- GRV_JOIN_CNT
  ⟨0x400014c, [], [⟨0, 16, .ro, 0⟩]⟩,  -- GRV_JOIN_CNT_HI
  ⟨0x4000150, [], [⟨0, 32, .ro, 0⟩]⟩,  -- GRV_WB_WAIT_CNT
  ⟨0x4000154, [], [⟨0, 16, .ro, 0⟩]⟩,  -- GRV_WB_WAIT_CNT_HI
  ⟨0x4000158, [], [⟨0, 32, .ro, 0⟩]⟩,  -- GRV_UNSTATED_CNT
  ⟨0x400015c, [], [⟨0, 16, .ro, 0⟩]⟩,  -- GRV_UNSTATED_CNT_HI
  ⟨0x4000160, [], [⟨0, 32, .ro, 0⟩]⟩  -- GRV_DIR_FULL_CNT
]

def rowsGrv1 : List RegRow := [
  ⟨0x4000164, [], [⟨0, 16, .ro, 0⟩]⟩,  -- GRV_DIR_FULL_CNT_HI
  ⟨0x4000168, [], [⟨0, 32, .ro, 0⟩]⟩,  -- GRV_NOBUDGET_CNT
  ⟨0x400016c, [], [⟨0, 16, .ro, 0⟩]⟩,  -- GRV_NOBUDGET_CNT_HI
  ⟨0x4000170, [], [⟨0, 32, .ro, 0⟩]⟩,  -- GRV_PARK_FULL_CNT
  ⟨0x4000174, [], [⟨0, 16, .ro, 0⟩]⟩,  -- GRV_PARK_FULL_CNT_HI
  ⟨0x4000178, [], [⟨0, 32, .ro, 0⟩]⟩,  -- GRV_PEND_FULL_CNT
  ⟨0x400017c, [], [⟨0, 16, .ro, 0⟩]⟩,  -- GRV_PEND_FULL_CNT_HI
  ⟨0x4000180, [], [⟨0, 32, .ro, 0⟩]⟩,  -- GRV_PARK_CAP_CNT
  ⟨0x4000184, [], [⟨0, 16, .ro, 0⟩]⟩,  -- GRV_PARK_CAP_CNT_HI
  ⟨0x4000188, [], [⟨0, 32, .ro, 0⟩]⟩,  -- GRV_PARK_TMO_CNT
  ⟨0x400018c, [], [⟨0, 16, .ro, 0⟩]⟩,  -- GRV_PARK_TMO_CNT_HI
  ⟨0x4000190, [], [⟨0, 32, .ro, 0⟩]⟩,  -- GRV_OFF_CNT
  ⟨0x4000194, [], [⟨0, 16, .ro, 0⟩]⟩,  -- GRV_OFF_CNT_HI
  ⟨0x4000198, [], [⟨0, 32, .ro, 0⟩]⟩,  -- GRV_EXPIRE_CNT
  ⟨0x400019c, [], [⟨0, 16, .ro, 0⟩]⟩,  -- GRV_EXPIRE_CNT_HI
  ⟨0x40001a0, [], [⟨0, 32, .ro, 0⟩]⟩,  -- GRV_DEL_CNT
  ⟨0x40001a4, [], [⟨0, 16, .ro, 0⟩]⟩,  -- GRV_DEL_CNT_HI
  ⟨0x40001a8, [], [⟨0, 32, .ro, 0⟩]⟩,  -- GRV_OVF_SAT_CNT
  ⟨0x40001ac, [], [⟨0, 16, .ro, 0⟩]⟩,  -- GRV_OVF_SAT_CNT_HI
  ⟨0x4000200, [(16, 8)], [⟨0, 32, .ro, 0⟩]⟩,  -- GRV_UNSTATED_CLS_CNT
  ⟨0x4000204, [(16, 8)], [⟨0, 16, .ro, 0⟩]⟩,  -- GRV_UNSTATED_CLS_CNT_HI
  ⟨0x4001010, [(15, 0x10)], [⟨0, 1, .rw, 0⟩, ⟨1, 1, .rw, 0⟩, ⟨2, 1, .rw, 0⟩, ⟨3, 1, .rw, 0⟩, ⟨4, 2, .rw, 0⟩, ⟨6, 2, .rw, 1⟩, ⟨8, 1, .rw, 0⟩, ⟨9, 1, .rw, 0⟩]⟩,  -- GRV_FA_CTL
  ⟨0x4001014, [(15, 0x10)], [⟨0, 14, .rw, 0⟩]⟩,  -- GRV_FA_MTR
  ⟨0x4001018, [(15, 0x10)], [⟨0, 12, .rw, 0⟩, ⟨12, 1, .rw, 0⟩, ⟨13, 1, .rw, 0⟩, ⟨14, 1, .rw, 0⟩, ⟨15, 1, .rw, 0⟩, ⟨16, 1, .rw, 0⟩, ⟨17, 1, .rw, 0⟩]⟩,  -- GRV_FA_HO
  ⟨0x400101c, [(15, 0x10)], [⟨0, 8, .rw, 0⟩, ⟨16, 16, .rw, 0⟩]⟩,  -- GRV_FA_EXP
  ⟨0x4000400, [], [⟨0, 32, .ro, 0⟩]⟩,  -- FA_CORR_CNT
  ⟨0x4000404, [], [⟨0, 16, .ro, 0⟩]⟩,  -- FA_CORR_CNT_HI
  ⟨0x4000408, [], [⟨0, 32, .ro, 0⟩]⟩,  -- FA_CORR_LOST_CNT
  ⟨0x400040c, [], [⟨0, 16, .ro, 0⟩]⟩,  -- FA_CORR_LOST_CNT_HI
  ⟨0x4000410, [], [⟨0, 32, .ro, 0⟩]⟩,  -- FA_MTR_GREEN_CNT
  ⟨0x4000414, [], [⟨0, 16, .ro, 0⟩]⟩,  -- FA_MTR_GREEN_CNT_HI
  ⟨0x4000418, [], [⟨0, 32, .ro, 0⟩]⟩,  -- FA_MTR_YELLOW_CNT
  ⟨0x400041c, [], [⟨0, 16, .ro, 0⟩]⟩,  -- FA_MTR_YELLOW_CNT_HI
  ⟨0x4000420, [], [⟨0, 32, .ro, 0⟩]⟩,  -- FA_MTR_RED_CNT
  ⟨0x4000424, [], [⟨0, 16, .ro, 0⟩]⟩,  -- FA_MTR_RED_CNT_HI
  ⟨0x4000428, [], [⟨0, 32, .ro, 0⟩]⟩,  -- FA_MTR_DROP_CNT
  ⟨0x400042c, [], [⟨0, 16, .ro, 0⟩]⟩,  -- FA_MTR_DROP_CNT_HI
  ⟨0x4000430, [], [⟨0, 32, .ro, 0⟩]⟩,  -- FA_VERDICT_CNT
  ⟨0x4000434, [], [⟨0, 16, .ro, 0⟩]⟩,  -- FA_VERDICT_CNT_HI
  ⟨0x4000438, [], [⟨0, 32, .ro, 0⟩]⟩  -- FA_NAT_BIND_CNT
]

def rowsGrv2 : List RegRow := [
  ⟨0x400043c, [], [⟨0, 16, .ro, 0⟩]⟩,  -- FA_NAT_BIND_CNT_HI
  ⟨0x4000440, [], [⟨0, 32, .ro, 0⟩]⟩,  -- FA_NAT_PROBE_CNT
  ⟨0x4000444, [], [⟨0, 16, .ro, 0⟩]⟩,  -- FA_NAT_PROBE_CNT_HI
  ⟨0x4000448, [], [⟨0, 32, .ro, 0⟩]⟩,  -- FA_NAT_NOBIND_CNT
  ⟨0x400044c, [], [⟨0, 16, .ro, 0⟩]⟩,  -- FA_NAT_NOBIND_CNT_HI
  ⟨0x4000450, [], [⟨0, 32, .ro, 0⟩]⟩,  -- FA_NAT_NOPOOL_CNT
  ⟨0x4000454, [], [⟨0, 16, .ro, 0⟩]⟩,  -- FA_NAT_NOPOOL_CNT_HI
  ⟨0x4000458, [], [⟨0, 32, .ro, 0⟩]⟩,  -- FA_LB_BIND_CNT
  ⟨0x400045c, [], [⟨0, 16, .ro, 0⟩]⟩,  -- FA_LB_BIND_CNT_HI
  ⟨0x4000460, [], [⟨0, 32, .ro, 0⟩]⟩,  -- FA_LB_NOMEMBER_CNT
  ⟨0x4000464, [], [⟨0, 16, .ro, 0⟩]⟩,  -- FA_LB_NOMEMBER_CNT_HI
  ⟨0x4000468, [], [⟨0, 32, .ro, 0⟩]⟩,  -- FA_LB_REPIN_CNT
  ⟨0x400046c, [], [⟨0, 16, .ro, 0⟩]⟩,  -- FA_LB_REPIN_CNT_HI
  ⟨0x4000470, [], [⟨0, 32, .ro, 0⟩]⟩,  -- FA_LB_DOWN_CNT
  ⟨0x4000474, [], [⟨0, 16, .ro, 0⟩]⟩,  -- FA_LB_DOWN_CNT_HI
  ⟨0x4000478, [], [⟨0, 32, .ro, 0⟩]⟩,  -- FA_PAIR_CLASH_CNT
  ⟨0x400047c, [], [⟨0, 16, .ro, 0⟩]⟩,  -- FA_PAIR_CLASH_CNT_HI
  ⟨0x4000480, [], [⟨0, 32, .ro, 0⟩]⟩,  -- FA_HANDOVER_CNT
  ⟨0x4000484, [], [⟨0, 16, .ro, 0⟩]⟩  -- FA_HANDOVER_CNT_HI
]

/-- The rows of the GRV block. -/
def rowsGrv : List RegRow := rowsGrv0 ++ rowsGrv1 ++ rowsGrv2

def rowsTwg0 : List RegRow := [
  ⟨0x4800000, [], [⟨0, 14, .rw, 0x3e8⟩, ⟨16, 16, .rw, 0xbb8⟩]⟩,  -- TWG_CFG
  ⟨0x4800004, [], [⟨0, 16, .rw, 0⟩]⟩,  -- TWG_HALT
  ⟨0x4800008, [], [⟨0, 16, .ro, 0⟩]⟩,  -- TWG_HALT_STS
  ⟨0x480000c, [], [⟨0, 16, .ro, 0⟩, ⟨16, 1, .ro, 0⟩]⟩,  -- TWG_EPOCH
  ⟨0x4800010, [], [⟨0, 32, .ro, 0⟩]⟩,  -- TWG_IMG_VER
  ⟨0x4800014, [], [⟨0, 2, .ro, 0⟩, ⟨2, 1, .ro, 0⟩, ⟨3, 1, .w1c, 0⟩]⟩,  -- TWG_PATCH_STS
  ⟨0x4800018, [], [⟨0, 16, .rw, 0x7d0⟩]⟩,  -- TWG_PATCH_CFG
  ⟨0x480001c, [], [⟨0, 8, .rw, 4⟩]⟩,  -- TWG_COLD_CFG
  ⟨0x4800020, [], [⟨0, 1, .w1c, 0⟩, ⟨1, 1, .w1c, 0⟩, ⟨2, 1, .w1c, 0⟩, ⟨3, 1, .w1c, 0⟩, ⟨4, 1, .w1c, 0⟩, ⟨5, 1, .w1c, 0⟩, ⟨6, 1, .w1c, 0⟩, ⟨7, 1, .w1c, 0⟩]⟩,  -- TWG_INT
  ⟨0x4800024, [], [⟨0, 1, .rw, 0⟩, ⟨1, 1, .rw, 0⟩, ⟨2, 1, .rw, 0⟩, ⟨3, 1, .rw, 0⟩, ⟨4, 1, .rw, 0⟩, ⟨5, 1, .rw, 0⟩, ⟨6, 1, .rw, 0⟩, ⟨7, 1, .rw, 0⟩]⟩,  -- TWG_MSK
  ⟨0x4800028, [], [⟨0, 14, .ro, 0⟩, ⟨14, 1, .w1c, 0⟩, ⟨16, 4, .ro, 0⟩, ⟨20, 5, .ro, 0⟩, ⟨25, 3, .ro, 0⟩]⟩,  -- TWG_TRAP_LOG0
  ⟨0x480002c, [], [⟨0, 12, .ro, 0⟩]⟩,  -- TWG_TRAP_LOG1
  ⟨0x4800100, [(8, 4)], [⟨0, 32, .rw, 0⟩]⟩,  -- TWG_ORD_EN
  ⟨0x4800120, [(8, 4)], [⟨0, 32, .rw, 0⟩]⟩,  -- TWG_ORD_ALL
  ⟨0x4800200, [(16, 4)], [⟨0, 12, .ro, 0⟩, ⟨16, 12, .ro, 0⟩]⟩,  -- TWG_CLU_STS
  ⟨0x4800400, [], [⟨0, 32, .ro, 0⟩]⟩,  -- TWG_ITEM_CNT
  ⟨0x4800404, [], [⟨0, 16, .ro, 0⟩]⟩,  -- TWG_ITEM_CNT_HI
  ⟨0x4800408, [], [⟨0, 32, .ro, 0⟩]⟩,  -- TWG_DONE_CNT
  ⟨0x480040c, [], [⟨0, 16, .ro, 0⟩]⟩,  -- TWG_DONE_CNT_HI
  ⟨0x4800410, [], [⟨0, 32, .ro, 0⟩]⟩,  -- TWG_UWORD_CNT
  ⟨0x4800414, [], [⟨0, 16, .ro, 0⟩]⟩,  -- TWG_UWORD_CNT_HI
  ⟨0x4800418, [], [⟨0, 32, .ro, 0⟩]⟩,  -- TWG_COMMIT_CNT
  ⟨0x480041c, [], [⟨0, 16, .ro, 0⟩]⟩,  -- TWG_COMMIT_CNT_HI
  ⟨0x4800420, [], [⟨0, 32, .ro, 0⟩]⟩,  -- TWG_UNCOMMIT_CNT
  ⟨0x4800424, [], [⟨0, 16, .ro, 0⟩]⟩,  -- TWG_UNCOMMIT_CNT_HI
  ⟨0x4800428, [], [⟨0, 32, .ro, 0⟩]⟩,  -- TWG_COMMIT_LOST_CNT
  ⟨0x480042c, [], [⟨0, 16, .ro, 0⟩]⟩,  -- TWG_COMMIT_LOST_CNT_HI
  ⟨0x4800430, [], [⟨0, 32, .ro, 0⟩]⟩,  -- TWG_COLD_CNT
  ⟨0x4800434, [], [⟨0, 16, .ro, 0⟩]⟩,  -- TWG_COLD_CNT_HI
  ⟨0x4800438, [], [⟨0, 32, .ro, 0⟩]⟩,  -- TWG_TRAP_CNT
  ⟨0x480043c, [], [⟨0, 16, .ro, 0⟩]⟩,  -- TWG_TRAP_CNT_HI
  ⟨0x4800440, [], [⟨0, 32, .ro, 0⟩]⟩,  -- TWG_RETRY_CNT
  ⟨0x4800444, [], [⟨0, 16, .ro, 0⟩]⟩,  -- TWG_RETRY_CNT_HI
  ⟨0x4800448, [], [⟨0, 32, .ro, 0⟩]⟩,  -- TWG_FALLBACK_CNT
  ⟨0x480044c, [], [⟨0, 16, .ro, 0⟩]⟩,  -- TWG_FALLBACK_CNT_HI
  ⟨0x4800450, [], [⟨0, 32, .ro, 0⟩]⟩,  -- TWG_TMO_CNT
  ⟨0x4800454, [], [⟨0, 16, .ro, 0⟩]⟩,  -- TWG_TMO_CNT_HI
  ⟨0x4800458, [], [⟨0, 32, .ro, 0⟩]⟩,  -- TWG_WIN_FULL_CNT
  ⟨0x480045c, [], [⟨0, 16, .ro, 0⟩]⟩,  -- TWG_WIN_FULL_CNT_HI
  ⟨0x4800460, [], [⟨0, 32, .ro, 0⟩]⟩  -- TWG_DISP_FULL_CNT
]

def rowsTwg1 : List RegRow := [
  ⟨0x4800464, [], [⟨0, 16, .ro, 0⟩]⟩,  -- TWG_DISP_FULL_CNT_HI
  ⟨0x4800468, [], [⟨0, 32, .ro, 0⟩]⟩,  -- TWG_ORD_FULL_CNT
  ⟨0x480046c, [], [⟨0, 16, .ro, 0⟩]⟩,  -- TWG_ORD_FULL_CNT_HI
  ⟨0x4800470, [], [⟨0, 32, .ro, 0⟩]⟩,  -- TWG_ORD_SKIP_CNT
  ⟨0x4800474, [], [⟨0, 16, .ro, 0⟩]⟩,  -- TWG_ORD_SKIP_CNT_HI
  ⟨0x4800478, [], [⟨0, 32, .ro, 0⟩]⟩,  -- TWG_PATCH_CNT
  ⟨0x480047c, [], [⟨0, 16, .ro, 0⟩]⟩  -- TWG_PATCH_CNT_HI
]

/-- The rows of the TWG block. -/
def rowsTwg : List RegRow := rowsTwg0 ++ rowsTwg1

def rowsRts0 : List RegRow := [
  ⟨0x5000000, [], [⟨0, 1, .rw, 0⟩]⟩,  -- RTS_CFG
  ⟨0x5000004, [], [⟨0, 2, .ro, 0⟩, ⟨2, 2, .ro, 0⟩, ⟨4, 1, .w1c, 0⟩, ⟨5, 1, .ro, 0⟩]⟩,  -- RTS_STS
  ⟨0x5000010, [], [⟨0, 14, .rws, 0x421⟩]⟩,  -- RTS_MAP_STK
  ⟨0x5000014, [], [⟨0, 14, .rws, 2⟩]⟩,  -- RTS_MAP_PC
  ⟨0x5000018, [], [⟨0, 14, .rws, 4⟩]⟩,  -- RTS_MAP_PC
  ⟨0x500001c, [], [⟨0, 14, .rws, 8⟩]⟩,  -- RTS_MAP_PC
  ⟨0x5000020, [], [⟨0, 14, .rws, 0x10⟩]⟩,  -- RTS_MAP_PC
  ⟨0x5000024, [], [⟨0, 14, .rws, 0x40⟩]⟩,  -- RTS_MAP_PC
  ⟨0x5000028, [], [⟨0, 14, .rws, 0x80⟩]⟩,  -- RTS_MAP_BA
  ⟨0x500002c, [], [⟨0, 14, .rws, 0x100⟩]⟩,  -- RTS_MAP_BA
  ⟨0x5000030, [], [⟨0, 14, .rws, 0x200⟩]⟩,  -- RTS_MAP_BA
  ⟨0x5000034, [], [⟨0, 14, .rws, 0x800⟩]⟩,  -- RTS_MAP_BA
  ⟨0x5000040, [], [⟨0, 2, .rw, 0⟩, ⟨8, 10, .rw, 0xc8⟩]⟩,  -- RTS_PAGE_CFG
  ⟨0x5000044, [], [⟨0, 8, .rw, 1⟩]⟩,  -- RTS_TRAIN_CFG
  ⟨0x5000048, [], [⟨0, 8, .rw, 0x64⟩]⟩,  -- RTS_TEMP_CFG
  ⟨0x5000084, [], [⟨0, 10, .rw, 0x20⟩]⟩,  -- RTS_BW_CFG
  ⟨0x5000088, [], [⟨0, 10, .rw, 0x10⟩]⟩,  -- RTS_BW_CFG
  ⟨0x500008c, [], [⟨0, 10, .rw, 0x14⟩]⟩,  -- RTS_BW_CFG
  ⟨0x5000090, [], [⟨0, 10, .rw, 8⟩]⟩,  -- RTS_BW_CFG
  ⟨0x5000094, [], [⟨0, 10, .rw, 0x10⟩]⟩,  -- RTS_BW_CFG
  ⟨0x5000098, [], [⟨0, 10, .rw, 4⟩]⟩,  -- RTS_BW_CFG
  ⟨0x5010000, [(2, 0x10000)], [⟨0, 13, .ro, 0⟩, ⟨16, 13, .ro, 0⟩]⟩,  -- RTS_REQ_STS
  ⟨0x5010004, [(2, 0x10000)], [⟨0, 8, .ro, 0⟩, ⟨8, 1, .ro, 0⟩]⟩,  -- RTS_TEMP
  ⟨0x5010010, [(2, 0x10000)], [⟨0, 1, .w1c, 0⟩, ⟨1, 1, .w1c, 0⟩, ⟨2, 1, .w1c, 0⟩, ⟨3, 1, .w1c, 0⟩]⟩,  -- RTS_INT
  ⟨0x5010014, [(2, 0x10000)], [⟨0, 1, .rw, 0⟩, ⟨1, 1, .rw, 0⟩, ⟨2, 1, .rw, 0⟩, ⟨3, 1, .rw, 0⟩]⟩,  -- RTS_MSK
  ⟨0x5010100, [(2, 0x10000)], [⟨0, 32, .ro, 0⟩]⟩,  -- RTS_RD_BYTES_CNT
  ⟨0x5010104, [(2, 0x10000)], [⟨0, 16, .ro, 0⟩]⟩,  -- RTS_RD_BYTES_CNT_HI
  ⟨0x5010108, [(2, 0x10000)], [⟨0, 32, .ro, 0⟩]⟩,  -- RTS_WR_BYTES_CNT
  ⟨0x501010c, [(2, 0x10000)], [⟨0, 16, .ro, 0⟩]⟩,  -- RTS_WR_BYTES_CNT_HI
  ⟨0x5010110, [(2, 0x10000)], [⟨0, 32, .ro, 0⟩]⟩,  -- RTS_ROW_HIT_CNT
  ⟨0x5010114, [(2, 0x10000)], [⟨0, 16, .ro, 0⟩]⟩,  -- RTS_ROW_HIT_CNT_HI
  ⟨0x5010118, [(2, 0x10000)], [⟨0, 32, .ro, 0⟩]⟩,  -- RTS_ROW_MISS_CNT
  ⟨0x501011c, [(2, 0x10000)], [⟨0, 16, .ro, 0⟩]⟩,  -- RTS_ROW_MISS_CNT_HI
  ⟨0x5010120, [(2, 0x10000)], [⟨0, 32, .ro, 0⟩]⟩,  -- RTS_RAW_FWD_CNT
  ⟨0x5010124, [(2, 0x10000)], [⟨0, 16, .ro, 0⟩]⟩,  -- RTS_RAW_FWD_CNT_HI
  ⟨0x5010128, [(2, 0x10000)], [⟨0, 32, .ro, 0⟩]⟩,  -- RTS_XSTK_CNT
  ⟨0x501012c, [(2, 0x10000)], [⟨0, 16, .ro, 0⟩]⟩,  -- RTS_XSTK_CNT_HI
  ⟨0x5010130, [(2, 0x10000)], [⟨0, 32, .ro, 0⟩]⟩,  -- RTS_OB_BYTES_CNT
  ⟨0x5010134, [(2, 0x10000)], [⟨0, 16, .ro, 0⟩]⟩,  -- RTS_OB_BYTES_CNT_HI
  ⟨0x5010138, [(2, 0x10000)], [⟨0, 32, .ro, 0⟩]⟩  -- RTS_BACKPRESS_CNT
]

def rowsRts1 : List RegRow := [
  ⟨0x501013c, [(2, 0x10000)], [⟨0, 16, .ro, 0⟩]⟩,  -- RTS_BACKPRESS_CNT_HI
  ⟨0x5010140, [(2, 0x10000)], [⟨0, 32, .ro, 0⟩]⟩,  -- RTS_REFRESH_CNT
  ⟨0x5010144, [(2, 0x10000)], [⟨0, 16, .ro, 0⟩]⟩,  -- RTS_REFRESH_CNT_HI
  ⟨0x5010148, [(2, 0x10000)], [⟨0, 32, .ro, 0⟩]⟩,  -- RTS_RFM_CNT
  ⟨0x501014c, [(2, 0x10000)], [⟨0, 16, .ro, 0⟩]⟩,  -- RTS_RFM_CNT_HI
  ⟨0x5010150, [(2, 0x10000)], [⟨0, 32, .ro, 0⟩]⟩,  -- RTS_TRAIN_CNT
  ⟨0x5010154, [(2, 0x10000)], [⟨0, 16, .ro, 0⟩]⟩,  -- RTS_TRAIN_CNT_HI
  ⟨0x5010158, [(2, 0x10000)], [⟨0, 32, .ro, 0⟩]⟩,  -- RTS_TRAIN_FAIL_CNT
  ⟨0x501015c, [(2, 0x10000)], [⟨0, 16, .ro, 0⟩]⟩,  -- RTS_TRAIN_FAIL_CNT_HI
  ⟨0x5010160, [(2, 0x10000)], [⟨0, 32, .ro, 0⟩]⟩,  -- RTS_DIE_CE_CNT
  ⟨0x5010164, [(2, 0x10000)], [⟨0, 16, .ro, 0⟩]⟩,  -- RTS_DIE_CE_CNT_HI
  ⟨0x5010200, [(2, 0x10000), (8, 8)], [⟨0, 32, .ro, 0⟩]⟩,  -- RTS_CLS_BYTES_CNT
  ⟨0x5010204, [(2, 0x10000), (8, 8)], [⟨0, 16, .ro, 0⟩]⟩  -- RTS_CLS_BYTES_CNT_HI
]

/-- The rows of the RTS block. -/
def rowsRts : List RegRow := rowsRts0 ++ rowsRts1

def rowsCrn0 : List RegRow := [
  ⟨0x6000000, [], [⟨0, 16, .rw, 0x7d0⟩]⟩,  -- CRN_MC_CFG
  ⟨0x6000004, [], [⟨0, 16, .rw, 0x64⟩, ⟨16, 16, .rw, 0xfa0⟩]⟩,  -- CRN_AGE_CFG
  ⟨0x6000010, [], [⟨0, 1, .w1c, 0⟩, ⟨1, 1, .w1c, 0⟩, ⟨2, 1, .w1c, 0⟩, ⟨3, 1, .w1c, 0⟩, ⟨4, 1, .w1c, 0⟩]⟩,  -- CRN_INT
  ⟨0x6000014, [], [⟨0, 1, .rw, 0⟩, ⟨1, 1, .rw, 0⟩, ⟨2, 1, .rw, 0⟩, ⟨3, 1, .rw, 0⟩, ⟨4, 1, .rw, 0⟩]⟩,  -- CRN_MSK
  ⟨0x6000100, [], [⟨0, 32, .ro, 0⟩]⟩,  -- CRN_MC_INVALID_CNT
  ⟨0x6000104, [], [⟨0, 16, .ro, 0⟩]⟩,  -- CRN_MC_INVALID_CNT_HI
  ⟨0x6000108, [], [⟨0, 32, .ro, 0⟩]⟩,  -- CRN_MC_EMPTY_CNT
  ⟨0x600010c, [], [⟨0, 16, .ro, 0⟩]⟩,  -- CRN_MC_EMPTY_CNT_HI
  ⟨0x6010000, [(32, 0x10000)], [⟨0, 14, .rw, 0x800⟩]⟩,  -- CRN_POOL_CFG
  ⟨0x6010004, [(32, 0x10000)], [⟨0, 14, .rw, 0x200⟩]⟩,  -- CRN_POOL_CFG
  ⟨0x6010008, [(32, 0x10000)], [⟨0, 14, .rw, 0xcd⟩]⟩,  -- CRN_POOL_CFG
  ⟨0x601000c, [(32, 0x10000)], [⟨0, 14, .rw, 0x33⟩]⟩,  -- CRN_POOL_CFG
  ⟨0x6010010, [(32, 0x10000)], [⟨0, 1, .rw, 1⟩]⟩,  -- CRN_STORE_CFG
  ⟨0x6010014, [(32, 0x10000)], [⟨0, 1, .ro, 1⟩, ⟨1, 1, .w1c, 0⟩]⟩,  -- CRN_STORE_STS
  ⟨0x6010020, [(32, 0x10000)], [⟨0, 14, .ro, 0x800⟩, ⟨16, 14, .ro, 0⟩]⟩,  -- CRN_POOL_STS
  ⟨0x6010024, [(32, 0x10000)], [⟨0, 14, .ro, 0x200⟩, ⟨16, 14, .ro, 0⟩]⟩,  -- CRN_POOL_STS
  ⟨0x6010028, [(32, 0x10000)], [⟨0, 14, .ro, 0xcd⟩, ⟨16, 14, .ro, 0⟩]⟩,  -- CRN_POOL_STS
  ⟨0x601002c, [(32, 0x10000)], [⟨0, 14, .ro, 0x33⟩, ⟨16, 14, .ro, 0⟩]⟩,  -- CRN_POOL_STS
  ⟨0x6010030, [(32, 0x10000)], [⟨0, 12, .ro, 0⟩, ⟨16, 12, .ro, 0⟩]⟩,  -- CRN_RD_STS
  ⟨0x6010100, [(32, 0x10000)], [⟨0, 14, .rw, 0x40⟩, ⟨16, 14, .rw, 0x1fff⟩]⟩,  -- CRN_RSV_CFG
  ⟨0x6010104, [(32, 0x10000)], [⟨0, 14, .rw, 0x10⟩, ⟨16, 14, .rw, 0x1fff⟩]⟩,  -- CRN_RSV_CFG
  ⟨0x6010108, [(32, 0x10000)], [⟨0, 14, .rw, 8⟩, ⟨16, 14, .rw, 0x1fff⟩]⟩,  -- CRN_RSV_CFG
  ⟨0x601010c, [(32, 0x10000)], [⟨0, 14, .rw, 2⟩, ⟨16, 14, .rw, 0x1fff⟩]⟩,  -- CRN_RSV_CFG
  ⟨0x6010110, [(32, 0x10000)], [⟨0, 14, .rw, 0x40⟩, ⟨16, 14, .rw, 0x1fff⟩]⟩,  -- CRN_RSV_CFG
  ⟨0x6010114, [(32, 0x10000)], [⟨0, 14, .rw, 0x10⟩, ⟨16, 14, .rw, 0x1fff⟩]⟩,  -- CRN_RSV_CFG
  ⟨0x6010118, [(32, 0x10000)], [⟨0, 14, .rw, 8⟩, ⟨16, 14, .rw, 0x1fff⟩]⟩,  -- CRN_RSV_CFG
  ⟨0x601011c, [(32, 0x10000)], [⟨0, 14, .rw, 2⟩, ⟨16, 14, .rw, 0x1fff⟩]⟩,  -- CRN_RSV_CFG
  ⟨0x6010120, [(32, 0x10000)], [⟨0, 14, .rw, 0x40⟩, ⟨16, 14, .rw, 0x1fff⟩]⟩,  -- CRN_RSV_CFG
  ⟨0x6010124, [(32, 0x10000)], [⟨0, 14, .rw, 0x10⟩, ⟨16, 14, .rw, 0x1fff⟩]⟩,  -- CRN_RSV_CFG
  ⟨0x6010128, [(32, 0x10000)], [⟨0, 14, .rw, 8⟩, ⟨16, 14, .rw, 0x1fff⟩]⟩,  -- CRN_RSV_CFG
  ⟨0x601012c, [(32, 0x10000)], [⟨0, 14, .rw, 2⟩, ⟨16, 14, .rw, 0x1fff⟩]⟩,  -- CRN_RSV_CFG
  ⟨0x6010130, [(32, 0x10000)], [⟨0, 14, .rw, 0x40⟩, ⟨16, 14, .rw, 0x1fff⟩]⟩,  -- CRN_RSV_CFG
  ⟨0x6010134, [(32, 0x10000)], [⟨0, 14, .rw, 0x10⟩, ⟨16, 14, .rw, 0x1fff⟩]⟩,  -- CRN_RSV_CFG
  ⟨0x6010138, [(32, 0x10000)], [⟨0, 14, .rw, 8⟩, ⟨16, 14, .rw, 0x1fff⟩]⟩,  -- CRN_RSV_CFG
  ⟨0x601013c, [(32, 0x10000)], [⟨0, 14, .rw, 2⟩, ⟨16, 14, .rw, 0x1fff⟩]⟩,  -- CRN_RSV_CFG
  ⟨0x6010140, [(32, 0x10000)], [⟨0, 14, .rw, 0x40⟩, ⟨16, 14, .rw, 0x1fff⟩]⟩,  -- CRN_RSV_CFG
  ⟨0x6010144, [(32, 0x10000)], [⟨0, 14, .rw, 0x10⟩, ⟨16, 14, .rw, 0x1fff⟩]⟩,  -- CRN_RSV_CFG
  ⟨0x6010148, [(32, 0x10000)], [⟨0, 14, .rw, 8⟩, ⟨16, 14, .rw, 0x1fff⟩]⟩,  -- CRN_RSV_CFG
  ⟨0x601014c, [(32, 0x10000)], [⟨0, 14, .rw, 2⟩, ⟨16, 14, .rw, 0x1fff⟩]⟩,  -- CRN_RSV_CFG
  ⟨0x6010150, [(32, 0x10000)], [⟨0, 14, .rw, 0x40⟩, ⟨16, 14, .rw, 0x1fff⟩]⟩  -- CRN_RSV_CFG
]

def rowsCrn1 : List RegRow := [
  ⟨0x6010154, [(32, 0x10000)], [⟨0, 14, .rw, 0x10⟩, ⟨16, 14, .rw, 0x1fff⟩]⟩,  -- CRN_RSV_CFG
  ⟨0x6010158, [(32, 0x10000)], [⟨0, 14, .rw, 8⟩, ⟨16, 14, .rw, 0x1fff⟩]⟩,  -- CRN_RSV_CFG
  ⟨0x601015c, [(32, 0x10000)], [⟨0, 14, .rw, 2⟩, ⟨16, 14, .rw, 0x1fff⟩]⟩,  -- CRN_RSV_CFG
  ⟨0x6010160, [(32, 0x10000)], [⟨0, 14, .rw, 0x40⟩, ⟨16, 14, .rw, 0x1fff⟩]⟩,  -- CRN_RSV_CFG
  ⟨0x6010164, [(32, 0x10000)], [⟨0, 14, .rw, 0x10⟩, ⟨16, 14, .rw, 0x1fff⟩]⟩,  -- CRN_RSV_CFG
  ⟨0x6010168, [(32, 0x10000)], [⟨0, 14, .rw, 8⟩, ⟨16, 14, .rw, 0x1fff⟩]⟩,  -- CRN_RSV_CFG
  ⟨0x601016c, [(32, 0x10000)], [⟨0, 14, .rw, 2⟩, ⟨16, 14, .rw, 0x1fff⟩]⟩,  -- CRN_RSV_CFG
  ⟨0x6010170, [(32, 0x10000)], [⟨0, 14, .rw, 0x40⟩, ⟨16, 14, .rw, 0x1fff⟩]⟩,  -- CRN_RSV_CFG
  ⟨0x6010174, [(32, 0x10000)], [⟨0, 14, .rw, 0x10⟩, ⟨16, 14, .rw, 0x1fff⟩]⟩,  -- CRN_RSV_CFG
  ⟨0x6010178, [(32, 0x10000)], [⟨0, 14, .rw, 8⟩, ⟨16, 14, .rw, 0x1fff⟩]⟩,  -- CRN_RSV_CFG
  ⟨0x601017c, [(32, 0x10000)], [⟨0, 14, .rw, 2⟩, ⟨16, 14, .rw, 0x1fff⟩]⟩,  -- CRN_RSV_CFG
  ⟨0x6010180, [(32, 0x10000)], [⟨0, 14, .rw, 0x20⟩, ⟨16, 14, .rw, 0x1fff⟩]⟩,  -- CRN_RSV_CFG
  ⟨0x6010184, [(32, 0x10000)], [⟨0, 14, .rw, 8⟩, ⟨16, 14, .rw, 0x1fff⟩]⟩,  -- CRN_RSV_CFG
  ⟨0x6010188, [(32, 0x10000)], [⟨0, 14, .rw, 4⟩, ⟨16, 14, .rw, 0x1fff⟩]⟩,  -- CRN_RSV_CFG
  ⟨0x601018c, [(32, 0x10000)], [⟨0, 14, .rw, 1⟩, ⟨16, 14, .rw, 0x1fff⟩]⟩,  -- CRN_RSV_CFG
  ⟨0x6010200, [(32, 0x10000), (9, 0x10), (4, 4)], [⟨0, 14, .ro, 0⟩]⟩,  -- CRN_USE
  ⟨0x6010400, [(32, 0x10000)], [⟨0, 32, .ro, 0⟩]⟩,  -- CRN_ALLOC_CNT
  ⟨0x6010404, [(32, 0x10000)], [⟨0, 16, .ro, 0⟩]⟩,  -- CRN_ALLOC_CNT_HI
  ⟨0x6010408, [(32, 0x10000)], [⟨0, 32, .ro, 0⟩]⟩,  -- CRN_SPILL_CNT
  ⟨0x601040c, [(32, 0x10000)], [⟨0, 16, .ro, 0⟩]⟩,  -- CRN_SPILL_CNT_HI
  ⟨0x6010410, [(32, 0x10000)], [⟨0, 32, .ro, 0⟩]⟩,  -- CRN_PROMOTE_CNT
  ⟨0x6010414, [(32, 0x10000)], [⟨0, 16, .ro, 0⟩]⟩,  -- CRN_PROMOTE_CNT_HI
  ⟨0x6010418, [(32, 0x10000)], [⟨0, 32, .ro, 0⟩]⟩,  -- CRN_NOBUF_CNT
  ⟨0x601041c, [(32, 0x10000)], [⟨0, 16, .ro, 0⟩]⟩,  -- CRN_NOBUF_CNT_HI
  ⟨0x6010420, [(32, 0x10000)], [⟨0, 32, .ro, 0⟩]⟩,  -- CRN_DBL_FREE_CNT
  ⟨0x6010424, [(32, 0x10000)], [⟨0, 16, .ro, 0⟩]⟩,  -- CRN_DBL_FREE_CNT_HI
  ⟨0x6010428, [(32, 0x10000)], [⟨0, 32, .ro, 0⟩]⟩,  -- CRN_FOREIGN_FREE_CNT
  ⟨0x601042c, [(32, 0x10000)], [⟨0, 16, .ro, 0⟩]⟩,  -- CRN_FOREIGN_FREE_CNT_HI
  ⟨0x6010430, [(32, 0x10000)], [⟨0, 32, .ro, 0⟩]⟩,  -- CRN_OVERRUN_CNT
  ⟨0x6010434, [(32, 0x10000)], [⟨0, 16, .ro, 0⟩]⟩,  -- CRN_OVERRUN_CNT_HI
  ⟨0x6010438, [(32, 0x10000)], [⟨0, 32, .ro, 0⟩]⟩,  -- CRN_CT_DISCARD_CNT
  ⟨0x601043c, [(32, 0x10000)], [⟨0, 16, .ro, 0⟩]⟩,  -- CRN_CT_DISCARD_CNT_HI
  ⟨0x6010440, [(32, 0x10000)], [⟨0, 32, .ro, 0⟩]⟩,  -- CRN_UE_DISCARD_CNT
  ⟨0x6010444, [(32, 0x10000)], [⟨0, 16, .ro, 0⟩]⟩,  -- CRN_UE_DISCARD_CNT_HI
  ⟨0x6010448, [(32, 0x10000)], [⟨0, 32, .ro, 0⟩]⟩,  -- CRN_UE_STOMP_CNT
  ⟨0x601044c, [(32, 0x10000)], [⟨0, 16, .ro, 0⟩]⟩,  -- CRN_UE_STOMP_CNT_HI
  ⟨0x6010450, [(32, 0x10000)], [⟨0, 32, .ro, 0⟩]⟩,  -- CRN_STALE_CNT
  ⟨0x6010454, [(32, 0x10000)], [⟨0, 16, .ro, 0⟩]⟩,  -- CRN_STALE_CNT_HI
  ⟨0x6010458, [(32, 0x10000)], [⟨0, 32, .ro, 0⟩]⟩,  -- CRN_XFER_CNT
  ⟨0x601045c, [(32, 0x10000)], [⟨0, 16, .ro, 0⟩]⟩  -- CRN_XFER_CNT_HI
]

def rowsCrn2 : List RegRow := [
  ⟨0x6010460, [(32, 0x10000)], [⟨0, 32, .ro, 0⟩]⟩,  -- CRN_XFER_CELL_CNT
  ⟨0x6010464, [(32, 0x10000)], [⟨0, 16, .ro, 0⟩]⟩,  -- CRN_XFER_CELL_CNT_HI
  ⟨0x6010468, [(32, 0x10000)], [⟨0, 32, .ro, 0⟩]⟩,  -- CRN_MC_RESEND_CNT
  ⟨0x601046c, [(32, 0x10000)], [⟨0, 16, .ro, 0⟩]⟩,  -- CRN_MC_RESEND_CNT_HI
  ⟨0x6400000, [(32, 0x10000)], [⟨0, 10, .rw, 0xc0⟩, ⟨16, 10, .rw, 0x100⟩]⟩,  -- CRN_XP_CFG
  ⟨0x6400100, [(32, 0x10000), (32, 4)], [⟨0, 10, .ro, 0⟩, ⟨16, 10, .ro, 0⟩]⟩,  -- CRN_XP_STS
  ⟨0x6400400, [(32, 0x10000)], [⟨0, 32, .ro, 0⟩]⟩,  -- CRN_LATE_CNT
  ⟨0x6400404, [(32, 0x10000)], [⟨0, 16, .ro, 0⟩]⟩,  -- CRN_LATE_CNT_HI
  ⟨0x6400408, [(32, 0x10000)], [⟨0, 32, .ro, 0⟩]⟩,  -- CRN_UNDERRUN_CNT
  ⟨0x640040c, [(32, 0x10000)], [⟨0, 16, .ro, 0⟩]⟩,  -- CRN_UNDERRUN_CNT_HI
  ⟨0x6400410, [(32, 0x10000)], [⟨0, 32, .ro, 0⟩]⟩,  -- CRN_XP_STALE_CNT
  ⟨0x6400414, [(32, 0x10000)], [⟨0, 16, .ro, 0⟩]⟩,  -- CRN_XP_STALE_CNT_HI
  ⟨0x6400418, [(32, 0x10000)], [⟨0, 32, .ro, 0⟩]⟩,  -- CRN_XP_UE_CNT
  ⟨0x640041c, [(32, 0x10000)], [⟨0, 16, .ro, 0⟩]⟩,  -- CRN_XP_UE_CNT_HI
  ⟨0x6400420, [(32, 0x10000)], [⟨0, 32, .ro, 0⟩]⟩,  -- CRN_XP_CELL_CNT
  ⟨0x6400424, [(32, 0x10000)], [⟨0, 16, .ro, 0⟩]⟩  -- CRN_XP_CELL_CNT_HI
]

/-- The rows of the CRN block. -/
def rowsCrn : List RegRow := rowsCrn0 ++ rowsCrn1 ++ rowsCrn2

def rowsTmg0 : List RegRow := [
  ⟨0x7000000, [(16, 4)], [⟨0, 31, .rw, 0x989680⟩]⟩,  -- TMG_CLS_CFG
  ⟨0x7000040, [], [⟨0, 1, .w1c, 0⟩, ⟨1, 1, .w1c, 0⟩, ⟨2, 1, .w1c, 0⟩, ⟨3, 1, .w1c, 0⟩, ⟨4, 1, .w1c, 0⟩, ⟨5, 1, .w1c, 0⟩]⟩,  -- TMG_INT
  ⟨0x7000044, [], [⟨0, 1, .rw, 0⟩, ⟨1, 1, .rw, 0⟩, ⟨2, 1, .rw, 0⟩, ⟨3, 1, .rw, 0⟩, ⟨4, 1, .rw, 0⟩, ⟨5, 1, .rw, 0⟩]⟩,  -- TMG_MSK
  ⟨0x7000050, [(4, 4)], [⟨0, 17, .ro, 0⟩]⟩,  -- TMG_DESC_STS
  ⟨0x7000060, [(4, 4)], [⟨0, 17, .ro, 0⟩]⟩,  -- TMG_DESC_HWM
  ⟨0x7000100, [(16, 8)], [⟨0, 32, .ro, 0⟩]⟩,  -- TMG_BOUND_MISS_CNT
  ⟨0x7000104, [(16, 8)], [⟨0, 16, .ro, 0⟩]⟩,  -- TMG_BOUND_MISS_CNT_HI
  ⟨0x7000200, [], [⟨0, 32, .ro, 0⟩]⟩,  -- TMG_REF_BOUND_CNT
  ⟨0x7000204, [], [⟨0, 16, .ro, 0⟩]⟩,  -- TMG_REF_BOUND_CNT_HI
  ⟨0x7000208, [], [⟨0, 32, .ro, 0⟩]⟩,  -- TMG_REF_QMAX_CNT
  ⟨0x700020c, [], [⟨0, 16, .ro, 0⟩]⟩,  -- TMG_REF_QMAX_CNT_HI
  ⟨0x7000210, [], [⟨0, 32, .ro, 0⟩]⟩,  -- TMG_REF_COLOUR_CNT
  ⟨0x7000214, [], [⟨0, 16, .ro, 0⟩]⟩,  -- TMG_REF_COLOUR_CNT_HI
  ⟨0x7000218, [], [⟨0, 32, .ro, 0⟩]⟩,  -- TMG_REF_DESC_CNT
  ⟨0x700021c, [], [⟨0, 16, .ro, 0⟩]⟩,  -- TMG_REF_DESC_CNT_HI
  ⟨0x7000220, [], [⟨0, 32, .ro, 0⟩]⟩,  -- TMG_REF_LINK_CNT
  ⟨0x7000224, [], [⟨0, 16, .ro, 0⟩]⟩,  -- TMG_REF_LINK_CNT_HI
  ⟨0x7000228, [], [⟨0, 32, .ro, 0⟩]⟩,  -- TMG_REF_QDIS_CNT
  ⟨0x700022c, [], [⟨0, 16, .ro, 0⟩]⟩,  -- TMG_REF_QDIS_CNT_HI
  ⟨0x7000230, [], [⟨0, 32, .ro, 0⟩]⟩,  -- TMG_DISC_LINK_CNT
  ⟨0x7000234, [], [⟨0, 16, .ro, 0⟩]⟩,  -- TMG_DISC_LINK_CNT_HI
  ⟨0x7000238, [], [⟨0, 32, .ro, 0⟩]⟩,  -- TMG_POL_FOREIGN_CNT
  ⟨0x700023c, [], [⟨0, 16, .ro, 0⟩]⟩,  -- TMG_POL_FOREIGN_CNT_HI
  ⟨0x7000240, [], [⟨0, 32, .ro, 0⟩]⟩,  -- TMG_POL_DROP_CNT
  ⟨0x7000244, [], [⟨0, 16, .ro, 0⟩]⟩,  -- TMG_POL_DROP_CNT_HI
  ⟨0x7100000, [(256, 0x1000)], [⟨0, 1, .rw, 0⟩, ⟨1, 1, .rw, 0⟩]⟩,  -- TMG_PORT_CFG
  ⟨0x7100004, [(256, 0x1000)], [⟨0, 20, .rw, 0x186a0⟩]⟩,  -- TMG_PSHP_RATE
  ⟨0x7100008, [(256, 0x1000)], [⟨0, 24, .rw, 0x4000⟩]⟩,  -- TMG_PSHP_BURST
  ⟨0x710000c, [(256, 0x1000)], [⟨0, 5, .ro, 0x10⟩, ⟨5, 1, .w1c, 0⟩]⟩,  -- TMG_PORT_STS
  ⟨0x7100010, [(256, 0x1000)], [⟨0, 32, .ro, 0⟩]⟩,  -- TMG_PSHP_CREDIT
  ⟨0x7100020, [(256, 0x1000)], [⟨0, 9, .rw, 1⟩, ⟨16, 1, .wo, 0⟩]⟩,  -- TMG_GCL_CFG
  ⟨0x7100024, [(256, 0x1000)], [⟨0, 32, .rw, 0⟩]⟩,  -- TMG_GCL_BASE
  ⟨0x7100028, [(256, 0x1000)], [⟨0, 32, .rw, 0⟩]⟩,  -- TMG_GCL_BASE_HI
  ⟨0x710002c, [(256, 0x1000)], [⟨0, 1, .ro, 0⟩, ⟨1, 1, .ro, 0⟩]⟩,  -- TMG_GCL_STS
  ⟨0x7100030, [(256, 0x1000)], [⟨0, 32, .ro, 0⟩]⟩,  -- TMG_GCL_CYCLE
  ⟨0x7100100, [(256, 0x1000), (16, 0x20)], [⟨0, 17, .rw, 0x1000⟩]⟩,  -- TMG_Q_SHARE
  ⟨0x7100104, [(256, 0x1000), (16, 0x20)], [⟨0, 24, .rw, 0x4000⟩]⟩,  -- TMG_Q_QMAX
  ⟨0x7100108, [(256, 0x1000), (16, 0x20)], [⟨0, 16, .rw, 0xffff⟩, ⟨16, 16, .rw, 0xffff⟩]⟩,  -- TMG_Q_CLR
  ⟨0x710010c, [(256, 0x1000), (16, 0x20)], [⟨0, 20, .rw, 0x186a0⟩, ⟨31, 1, .rw, 0⟩]⟩,  -- TMG_QSHP_RATE
  ⟨0x7100110, [(256, 0x1000), (16, 0x20)], [⟨0, 24, .rw, 0x4000⟩]⟩  -- TMG_QSHP_BURST
]

def rowsTmg1 : List RegRow := [
  ⟨0x7100114, [(256, 0x1000), (16, 0x20)], [⟨0, 32, .ro, 0⟩]⟩,  -- TMG_Q_BACKLOG
  ⟨0x7100118, [(256, 0x1000), (16, 0x20)], [⟨0, 32, .ro, 0⟩]⟩,  -- TMG_QSHP_CREDIT
  ⟨0x710011c, [(256, 0x1000), (16, 0x20)], [⟨0, 32, .ro, 0⟩]⟩  -- TMG_Q_GATE
]

/-- The rows of the TMG block. -/
def rowsTmg : List RegRow := rowsTmg0 ++ rowsTmg1

def rowsEcc0 : List RegRow := [
  ⟨0x8000000, [], [⟨0, 4, .rw, 0xf⟩, ⟨8, 1, .rw, 0⟩]⟩,  -- ECC_CFG
  ⟨0x8000010, [], [⟨0, 16, .rw, 8⟩]⟩,  -- ECC_SCRUB_CFG
  ⟨0x8000014, [], [⟨0, 16, .rw, 0x10⟩]⟩,  -- ECC_SCRUB_CFG
  ⟨0x8000018, [(2, 4)], [⟨0, 16, .rw, 1⟩]⟩,  -- ECC_SCRUB_CFG
  ⟨0x8000020, [(4, 4)], [⟨0, 10, .ro, 0⟩, ⟨10, 1, .ro, 0⟩, ⟨16, 16, .ro, 0⟩]⟩,  -- ECC_SCRUB_STS
  ⟨0x8000040, [(8, 4)], [⟨0, 16, .rw, 0x40⟩, ⟨16, 16, .rw, 0x3e8⟩]⟩,  -- ECC_CE_CFG
  ⟨0x8000060, [(8, 4)], [⟨0, 16, .ro, 0⟩]⟩,  -- ECC_CE_LVL
  ⟨0x8000080, [], [⟨0, 8, .w1c, 0⟩, ⟨8, 8, .w1c, 0⟩, ⟨16, 1, .w1c, 0⟩, ⟨17, 1, .w1c, 0⟩, ⟨18, 1, .w1c, 0⟩]⟩,  -- ECC_INT
  ⟨0x8000084, [], [⟨0, 8, .rw, 0⟩, ⟨8, 8, .rw, 0⟩, ⟨16, 1, .rw, 0⟩, ⟨17, 1, .rw, 0⟩, ⟨18, 1, .rw, 0⟩]⟩,  -- ECC_MSK
  ⟨0x8000090, [], [⟨0, 4, .ro, 0⟩, ⟨4, 2, .ro, 0⟩, ⟨6, 1, .w1c, 0⟩, ⟨8, 8, .ro, 0⟩, ⟨16, 8, .ro, 0⟩]⟩,  -- ECC_LOG_INFO
  ⟨0x8000094, [], [⟨0, 32, .ro, 0⟩]⟩,  -- ECC_LOG_LOC
  ⟨0x8000098, [], [⟨0, 16, .ro, 0⟩]⟩,  -- ECC_LOG_LOC_HI
  ⟨0x800009c, [], [⟨0, 32, .ro, 0⟩]⟩,  -- ECC_LOG_TS
  ⟨0x80000a0, [], [⟨0, 32, .ro, 0⟩]⟩,  -- ECC_LOG_TS_HI
  ⟨0x80000c0, [], [⟨0, 4, .rw, 0⟩, ⟨4, 1, .rw, 0⟩, ⟨8, 8, .rw, 0⟩, ⟨16, 8, .rw, 1⟩, ⟨31, 1, .w1s, 0⟩]⟩,  -- ECC_INJ_CFG
  ⟨0x80000c4, [], [⟨0, 8, .ro, 0⟩]⟩,  -- ECC_INJ_STS
  ⟨0x8000200, [(8, 0x40)], [⟨0, 32, .ro, 0⟩]⟩,  -- CE_CNT
  ⟨0x8000204, [(8, 0x40)], [⟨0, 16, .ro, 0⟩]⟩,  -- CE_CNT_HI
  ⟨0x8000208, [(8, 0x40)], [⟨0, 32, .ro, 0⟩]⟩,  -- UE_CNT
  ⟨0x800020c, [(8, 0x40)], [⟨0, 16, .ro, 0⟩]⟩,  -- UE_CNT_HI
  ⟨0x8000210, [(8, 0x40)], [⟨0, 32, .ro, 0⟩]⟩,  -- PAGE_FIX_CNT
  ⟨0x8000214, [(8, 0x40)], [⟨0, 16, .ro, 0⟩]⟩,  -- PAGE_FIX_CNT_HI
  ⟨0x8000218, [(8, 0x40)], [⟨0, 32, .ro, 0⟩]⟩,  -- PAGE_FAIL_CNT
  ⟨0x800021c, [(8, 0x40)], [⟨0, 16, .ro, 0⟩]⟩,  -- PAGE_FAIL_CNT_HI
  ⟨0x8000220, [(8, 0x40)], [⟨0, 32, .ro, 0⟩]⟩,  -- POISON_RD_CNT
  ⟨0x8000224, [(8, 0x40)], [⟨0, 16, .ro, 0⟩]⟩,  -- POISON_RD_CNT_HI
  ⟨0x8000228, [(8, 0x40)], [⟨0, 32, .ro, 0⟩]⟩,  -- PWR_REFUSE_CNT
  ⟨0x800022c, [(8, 0x40)], [⟨0, 16, .ro, 0⟩]⟩,  -- PWR_REFUSE_CNT_HI
  ⟨0x8000230, [(8, 0x40)], [⟨0, 32, .ro, 0⟩]⟩,  -- REPAIR_CNT
  ⟨0x8000234, [(8, 0x40)], [⟨0, 16, .ro, 0⟩]⟩,  -- REPAIR_CNT_HI
  ⟨0x8000238, [(8, 0x40)], [⟨0, 32, .ro, 0⟩]⟩,  -- SCRUB_FIX_CNT
  ⟨0x800023c, [(8, 0x40)], [⟨0, 16, .ro, 0⟩]⟩,  -- SCRUB_FIX_CNT_HI
  ⟨0x8000400, [], [⟨0, 32, .ro, 0⟩]⟩,  -- ECC_LINE_LOST_CNT
  ⟨0x8000404, [], [⟨0, 16, .ro, 0⟩]⟩,  -- ECC_LINE_LOST_CNT_HI
  ⟨0x8000408, [], [⟨0, 32, .ro, 0⟩]⟩,  -- ECC_LINE_ORPHAN_CNT
  ⟨0x800040c, [], [⟨0, 16, .ro, 0⟩]⟩,  -- ECC_LINE_ORPHAN_CNT_HI
  ⟨0x8000410, [], [⟨0, 32, .ro, 0⟩]⟩,  -- ECC_PKT_DROP_CNT
  ⟨0x8000414, [], [⟨0, 16, .ro, 0⟩]⟩,  -- ECC_PKT_DROP_CNT_HI
  ⟨0x8000418, [], [⟨0, 32, .ro, 0⟩]⟩,  -- ECC_FLOW_POISON_CNT
  ⟨0x800041c, [], [⟨0, 16, .ro, 0⟩]⟩  -- ECC_FLOW_POISON_CNT_HI
]

def rowsEcc1 : List RegRow := [
  ⟨0x8000420, [], [⟨0, 32, .ro, 0⟩]⟩,  -- ECC_QUARANTINE_CNT
  ⟨0x8000424, [], [⟨0, 16, .ro, 0⟩]⟩  -- ECC_QUARANTINE_CNT_HI
]

/-- The rows of the ECC block. -/
def rowsEcc : List RegRow := rowsEcc0 ++ rowsEcc1

def rowsSvn0 : List RegRow := [
  ⟨0x9000000, [], [⟨12, 20, .rw, 0⟩]⟩,  -- SVN_CHT_BASE
  ⟨0x9000004, [], [⟨0, 32, .rw, 0⟩]⟩,  -- SVN_CHT_BASE_HI
  ⟨0x9000008, [], [⟨0, 10, .wo, 0⟩, ⟨12, 3, .wo, 0⟩]⟩,  -- SVN_CH_CMD
  ⟨0x900000c, [], [⟨0, 1, .ro, 0⟩, ⟨1, 1, .w1c, 0⟩, ⟨2, 2, .ro, 0⟩]⟩,  -- SVN_CH_CMD_STS
  ⟨0x9000010, [], [⟨0, 14, .rw, 0x40⟩, ⟨16, 16, .rw, 0xa⟩]⟩,  -- SVN_KNOT_CFG
  ⟨0x9000014, [], [⟨0, 20, .rw, 0x64⟩]⟩,  -- SVN_RX_CFG
  ⟨0x9000018, [], [⟨0, 1, .w1c, 0⟩, ⟨1, 1, .w1c, 0⟩, ⟨2, 1, .w1c, 0⟩, ⟨3, 1, .w1c, 0⟩]⟩,  -- SVN_INT
  ⟨0x900001c, [], [⟨0, 1, .rw, 0⟩, ⟨1, 1, .rw, 0⟩, ⟨2, 1, .rw, 0⟩, ⟨3, 1, .rw, 0⟩]⟩,  -- SVN_MSK
  ⟨0x9000020, [], [⟨0, 16, .ro, 0⟩]⟩,  -- SVN_KNOT_STS
  ⟨0x9000040, [], [⟨0, 6, .rw, 0⟩]⟩,  -- SVN_VEC_MAP
  ⟨0x9000044, [], [⟨0, 6, .rw, 1⟩]⟩,  -- SVN_VEC_MAP
  ⟨0x9000048, [], [⟨0, 6, .rw, 2⟩]⟩,  -- SVN_VEC_MAP
  ⟨0x900004c, [], [⟨0, 6, .rw, 3⟩]⟩,  -- SVN_VEC_MAP
  ⟨0x9000050, [], [⟨0, 6, .rw, 4⟩]⟩,  -- SVN_VEC_MAP
  ⟨0x9000054, [], [⟨0, 6, .rw, 5⟩]⟩,  -- SVN_VEC_MAP
  ⟨0x9000058, [], [⟨0, 6, .rw, 6⟩]⟩,  -- SVN_VEC_MAP
  ⟨0x900005c, [], [⟨0, 6, .rw, 7⟩]⟩,  -- SVN_VEC_MAP
  ⟨0x9000060, [], [⟨0, 6, .rw, 8⟩]⟩,  -- SVN_VEC_MAP
  ⟨0x9000064, [], [⟨0, 6, .rw, 9⟩]⟩,  -- SVN_VEC_MAP
  ⟨0x9000068, [], [⟨0, 6, .rw, 0xa⟩]⟩,  -- SVN_VEC_MAP
  ⟨0x900006c, [], [⟨0, 6, .rw, 0xb⟩]⟩,  -- SVN_VEC_MAP
  ⟨0x9000070, [], [⟨0, 6, .rw, 0xc⟩]⟩,  -- SVN_VEC_MAP
  ⟨0x9000074, [], [⟨0, 6, .rw, 0xd⟩]⟩,  -- SVN_VEC_MAP
  ⟨0x9000078, [], [⟨0, 6, .rw, 0xe⟩]⟩,  -- SVN_VEC_MAP
  ⟨0x900007c, [], [⟨0, 6, .rw, 0xf⟩]⟩,  -- SVN_VEC_MAP
  ⟨0x9000100, [(32, 4)], [⟨0, 32, .ro, 0⟩]⟩,  -- SVN_CH_HALT
  ⟨0x9000200, [(16, 4)], [⟨0, 10, .ro, 0⟩, ⟨15, 1, .ro, 0⟩, ⟨16, 16, .ro, 0⟩]⟩,  -- SVN_KNOT_OWN
  ⟨0x9000400, [], [⟨0, 32, .ro, 0⟩]⟩,  -- SVN_CMD_CNT
  ⟨0x9000404, [], [⟨0, 16, .ro, 0⟩]⟩,  -- SVN_CMD_CNT_HI
  ⟨0x9000408, [], [⟨0, 32, .ro, 0⟩]⟩,  -- SVN_DUP_CNT
  ⟨0x900040c, [], [⟨0, 16, .ro, 0⟩]⟩,  -- SVN_DUP_CNT_HI
  ⟨0x9000410, [], [⟨0, 32, .ro, 0⟩]⟩,  -- KNOT_ABANDON_CNT
  ⟨0x9000414, [], [⟨0, 16, .ro, 0⟩]⟩,  -- KNOT_ABANDON_CNT_HI
  ⟨0x9000418, [], [⟨0, 32, .ro, 0⟩]⟩,  -- SVN_HALT_CNT
  ⟨0x900041c, [], [⟨0, 16, .ro, 0⟩]⟩,  -- SVN_HALT_CNT_HI
  ⟨0x9000420, [], [⟨0, 32, .ro, 0⟩]⟩,  -- SVN_DB_IGN_CNT
  ⟨0x9000424, [], [⟨0, 16, .ro, 0⟩]⟩,  -- SVN_DB_IGN_CNT_HI
  ⟨0x9000428, [], [⟨0, 32, .ro, 0⟩]⟩,  -- SVN_INJ_CNT
  ⟨0x900042c, [], [⟨0, 16, .ro, 0⟩]⟩,  -- SVN_INJ_CNT_HI
  ⟨0x9000430, [], [⟨0, 32, .ro, 0⟩]⟩  -- SVN_INJ_WAIT_CNT
]

def rowsSvn1 : List RegRow := [
  ⟨0x9000434, [], [⟨0, 16, .ro, 0⟩]⟩,  -- SVN_INJ_WAIT_CNT_HI
  ⟨0x9000438, [], [⟨0, 32, .ro, 0⟩]⟩,  -- SVN_RX_CNT
  ⟨0x900043c, [], [⟨0, 16, .ro, 0⟩]⟩,  -- SVN_RX_CNT_HI
  ⟨0x9000440, [], [⟨0, 32, .ro, 0⟩]⟩,  -- SVN_RX_GIVEUP_CNT
  ⟨0x9000444, [], [⟨0, 16, .ro, 0⟩]⟩,  -- SVN_RX_GIVEUP_CNT_HI
  ⟨0x9000448, [], [⟨0, 32, .ro, 0⟩]⟩,  -- SVN_CHT_MISS_CNT
  ⟨0x900044c, [], [⟨0, 16, .ro, 0⟩]⟩,  -- SVN_CHT_MISS_CNT_HI
  ⟨0x9100000, [(64, 0x10)], [⟨0, 32, .rw, 0⟩]⟩,  -- MSIX_ADDR
  ⟨0x9100004, [(64, 0x10)], [⟨0, 32, .rw, 0⟩]⟩,  -- MSIX_ADDR_HI
  ⟨0x9100008, [(64, 0x10)], [⟨0, 32, .rw, 0⟩]⟩,  -- MSIX_DATA
  ⟨0x910000c, [(64, 0x10)], [⟨0, 1, .rw, 1⟩]⟩,  -- MSIX_CTL
  ⟨0x9101000, [(2, 4)], [⟨0, 32, .ro, 0⟩]⟩  -- MSIX_PBA
]

/-- The rows of the SVN block. -/
def rowsSvn : List RegRow := rowsSvn0 ++ rowsSvn1

def rowsObs0 : List RegRow := [
  ⟨0xa000000, [], [⟨0, 1, .wo, 0⟩]⟩,  -- OBS_SNAP_CTL
  ⟨0xa000004, [], [⟨0, 32, .ro, 0⟩]⟩,  -- OBS_SNAP_EPOCH
  ⟨0xa000010, [], [⟨0, 32, .rw, 0x989680⟩]⟩,  -- OBS_SAMP_WIN
  ⟨0xa000020, [], [⟨0, 1, .rw, 1⟩, ⟨1, 1, .wo, 0⟩, ⟨2, 1, .rw, 0⟩]⟩,  -- OBS_PMU_CTL
  ⟨0xa000030, [], [⟨0, 16, .rw, 0⟩, ⟨16, 4, .rw, 0⟩, ⟨20, 1, .rw, 0⟩, ⟨21, 1, .rw, 0⟩]⟩,  -- OBS_PS_CFG
  ⟨0xa000034, [], [⟨0, 13, .ro, 0⟩, ⟨16, 13, .ro, 0⟩]⟩,  -- OBS_PS_STS
  ⟨0xa000038, [], [⟨0, 13, .rw, 0x800⟩]⟩,  -- OBS_PS_THR
  ⟨0xa000040, [], [⟨0, 32, .rws, 0⟩]⟩,  -- OBS_JRN_WPTR
  ⟨0xa000044, [], [⟨0, 32, .rws, 0⟩]⟩,  -- OBS_JRN_WPTR_HI
  ⟨0xa000048, [], [⟨0, 32, .ro, 0⟩]⟩,  -- OBS_JRN_HORIZON
  ⟨0xa00004c, [], [⟨0, 32, .ro, 0⟩]⟩,  -- OBS_JRN_HORIZON_HI
  ⟨0xa000050, [], [⟨0, 1, .rws, 1⟩]⟩,  -- OBS_JRN_CFG
  ⟨0xa000060, [], [⟨0, 1, .rw, 0⟩, ⟨1, 1, .rw, 0⟩, ⟨2, 1, .wo, 0⟩, ⟨8, 8, .rw, 0⟩, ⟨16, 4, .rw, 0⟩]⟩,  -- OBS_EXP_CFG
  ⟨0xa000064, [], [⟨0, 14, .rw, 0x578⟩, ⟨16, 16, .rw, 0x3c⟩]⟩,  -- OBS_EXP_MTU
  ⟨0xa000068, [], [⟨0, 32, .rw, 0⟩]⟩,  -- OBS_EXP_DOMAIN
  ⟨0xa00006c, [], [⟨0, 14, .rw, 0x80⟩]⟩,  -- OBS_EXP_TBASE
  ⟨0xa000070, [], [⟨0, 8, .rw, 0⟩, ⟨8, 8, .rw, 0xe⟩]⟩,  -- OBS_EXP_HDR
  ⟨0xa000074, [], [⟨0, 32, .rw, 0⟩]⟩,  -- OBS_EXP_UNIX0
  ⟨0xa000078, [], [⟨0, 1, .ro, 0⟩, ⟨1, 1, .w1c, 0⟩]⟩,  -- OBS_EXP_STS
  ⟨0xa00007c, [], [⟨0, 16, .rw, 0x100⟩]⟩,  -- OBS_PSMP_TMPL
  ⟨0xa000080, [], [⟨0, 16, .rw, 0x64⟩]⟩,  -- OBS_EV_CFG
  ⟨0xa000084, [], [⟨0, 32, .rw, 1⟩]⟩,  -- OBS_PSMP_SEED
  ⟨0xa000100, [(256, 4)], [⟨0, 16, .rw, 0⟩, ⟨16, 3, .rw, 2⟩, ⟨19, 1, .rw, 1⟩, ⟨20, 1, .rw, 0⟩, ⟨21, 1, .rw, 0⟩]⟩,  -- OBS_PSMP_CFG
  ⟨0xa000090, [], [⟨0, 1, .w1c, 0⟩, ⟨1, 1, .w1c, 0⟩, ⟨2, 1, .w1c, 0⟩, ⟨3, 1, .w1c, 0⟩, ⟨4, 1, .w1c, 0⟩, ⟨5, 1, .w1c, 0⟩]⟩,  -- OBS_INT
  ⟨0xa000094, [], [⟨0, 1, .rw, 0⟩, ⟨1, 1, .rw, 0⟩, ⟨2, 1, .rw, 0⟩, ⟨3, 1, .rw, 0⟩, ⟨4, 1, .rw, 0⟩, ⟨5, 1, .rw, 0⟩]⟩,  -- OBS_MSK
  ⟨0xa001000, [(32, 0x20), (8, 4)], [⟨0, 8, .rw, 0⟩, ⟨8, 2, .rw, 0⟩, ⟨10, 5, .rw, 0⟩, ⟨15, 1, .rw, 0⟩, ⟨16, 1, .w1c, 0⟩, ⟨17, 1, .rw, 0⟩]⟩,  -- OBS_PMU_CFG
  ⟨0xa002000, [(64, 4)], [⟨0, 8, .rw, 0⟩, ⟨8, 2, .rw, 0⟩, ⟨10, 5, .rw, 0⟩, ⟨15, 1, .rw, 0⟩, ⟨16, 1, .w1c, 0⟩, ⟨17, 1, .rw, 0⟩]⟩,  -- OBS_PMU_GCFG
  ⟨0xa003000, [], [⟨0, 32, .ro, 0⟩]⟩,  -- OBS_SNAP_SKIP_CNT
  ⟨0xa003004, [], [⟨0, 16, .ro, 0⟩]⟩,  -- OBS_SNAP_SKIP_CNT_HI
  ⟨0xa003008, [], [⟨0, 32, .ro, 0⟩]⟩,  -- OBS_PS_CNT
  ⟨0xa00300c, [], [⟨0, 16, .ro, 0⟩]⟩,  -- OBS_PS_CNT_HI
  ⟨0xa003010, [], [⟨0, 32, .ro, 0⟩]⟩,  -- OBS_PS_LOST_CNT
  ⟨0xa003014, [], [⟨0, 16, .ro, 0⟩]⟩,  -- OBS_PS_LOST_CNT_HI
  ⟨0xa003018, [], [⟨0, 32, .ro, 0⟩]⟩,  -- OBS_PSMP_CNT
  ⟨0xa00301c, [], [⟨0, 16, .ro, 0⟩]⟩,  -- OBS_PSMP_CNT_HI
  ⟨0xa003020, [], [⟨0, 32, .ro, 0⟩]⟩,  -- OBS_PSMP_LOST_CNT
  ⟨0xa003024, [], [⟨0, 16, .ro, 0⟩]⟩,  -- OBS_PSMP_LOST_CNT_HI
  ⟨0xa003028, [], [⟨0, 32, .ro, 0⟩]⟩,  -- OBS_JRN_CNT
  ⟨0xa00302c, [], [⟨0, 16, .ro, 0⟩]⟩,  -- OBS_JRN_CNT_HI
  ⟨0xa003030, [], [⟨0, 32, .ro, 0⟩]⟩  -- OBS_JRN_LOST_CNT
]

def rowsObs1 : List RegRow := [
  ⟨0xa003034, [], [⟨0, 16, .ro, 0⟩]⟩,  -- OBS_JRN_LOST_CNT_HI
  ⟨0xa003038, [], [⟨0, 32, .ro, 0⟩]⟩,  -- OBS_EXP_REC_CNT
  ⟨0xa00303c, [], [⟨0, 16, .ro, 0⟩]⟩,  -- OBS_EXP_REC_CNT_HI
  ⟨0xa003040, [], [⟨0, 32, .ro, 0⟩]⟩,  -- OBS_EXP_MSG_CNT
  ⟨0xa003044, [], [⟨0, 16, .ro, 0⟩]⟩,  -- OBS_EXP_MSG_CNT_HI
  ⟨0xa003048, [], [⟨0, 32, .ro, 0⟩]⟩,  -- OBS_EXP_LOST_CNT
  ⟨0xa00304c, [], [⟨0, 16, .ro, 0⟩]⟩,  -- OBS_EXP_LOST_CNT_HI
  ⟨0xa003050, [], [⟨0, 32, .ro, 0⟩]⟩,  -- OBS_EXP_LATE_CNT
  ⟨0xa003054, [], [⟨0, 16, .ro, 0⟩]⟩,  -- OBS_EXP_LATE_CNT_HI
  ⟨0xa003058, [], [⟨0, 32, .ro, 0⟩]⟩,  -- OBS_EXP_NOTMPL_CNT
  ⟨0xa00305c, [], [⟨0, 16, .ro, 0⟩]⟩,  -- OBS_EXP_NOTMPL_CNT_HI
  ⟨0xa003060, [], [⟨0, 32, .ro, 0⟩]⟩,  -- OBS_EXP_REFUSED_CNT
  ⟨0xa003064, [], [⟨0, 16, .ro, 0⟩]⟩,  -- OBS_EXP_REFUSED_CNT_HI
  ⟨0xa003068, [], [⟨0, 32, .ro, 0⟩]⟩,  -- OBS_EV_SKIP_CNT
  ⟨0xa00306c, [], [⟨0, 16, .ro, 0⟩]⟩  -- OBS_EV_SKIP_CNT_HI
]

/-- The rows of the OBS block. -/
def rowsObs : List RegRow := rowsObs0 ++ rowsObs1

def rowsTrk0 : List RegRow := [
  ⟨0xb000000, [], [⟨0, 3, .rw, 2⟩, ⟨3, 3, .rw, 3⟩, ⟨6, 3, .rw, 4⟩, ⟨9, 3, .rw, 5⟩, ⟨12, 3, .rw, 6⟩, ⟨15, 3, .rw, 7⟩, ⟨18, 3, .rw, 1⟩, ⟨21, 3, .rw, 0⟩]⟩,  -- TRK_PRIO_MAP
  ⟨0xb000004, [], [⟨0, 9, .rw, 0x100⟩, ⟨31, 1, .wo, 0⟩]⟩,  -- TRK_CFG
  ⟨0xb000008, [], [⟨0, 3, .ro, 0⟩, ⟨3, 1, .ro, 0⟩, ⟨4, 1, .w1c, 0⟩]⟩,  -- TRK_STS
  ⟨0xb000010, [], [⟨0, 1, .w1c, 0⟩]⟩,  -- TRK_INT
  ⟨0xb000014, [], [⟨0, 1, .rw, 0⟩]⟩,  -- TRK_MSK
  ⟨0xb000040, [(8, 4)], [⟨0, 20, .ro, 0⟩]⟩,  -- TRK_WAIT_MAX
  ⟨0xb000100, [(8, 8)], [⟨0, 32, .ro, 0⟩]⟩,  -- TRK_GRANT_CNT
  ⟨0xb000104, [(8, 8)], [⟨0, 16, .ro, 0⟩]⟩,  -- TRK_GRANT_CNT_HI
  ⟨0xb000200, [(8, 8)], [⟨0, 32, .ro, 0⟩]⟩,  -- TRK_BUSY_NS_CNT
  ⟨0xb000204, [(8, 8)], [⟨0, 16, .ro, 0⟩]⟩  -- TRK_BUSY_NS_CNT_HI
]

/-- The rows of the TRK block. -/
def rowsTrk : List RegRow := rowsTrk0

/-- The rows of the block that an address falls in (block bases of R444). -/
def rowsAt (a : Nat) : List RegRow :=
  if a < 0x100000 then rowsGlb else if a < 0x200000 then rowsClk else if a < 0x1000000 then rowsTim
  else if a < 0x2000000 then rowsPrt else if a < 0x3000000 then rowsBgh else if a < 0x3400000 then rowsGrf
  else if a < 0x4000000 then rowsBrg else if a < 0x4800000 then rowsGrv else if a < 0x5000000 then rowsTwg
  else if a < 0x6000000 then rowsRts else if a < 0x7000000 then rowsCrn else if a < 0x8000000 then rowsTmg
  else if a < 0x9000000 then rowsEcc else if a < 0xa000000 then rowsSvn else if a < 0xb000000 then rowsObs
  else rowsTrk

/-- Whether an offset within a row is that of one of its registers: the indices peel off outermost first. -/
def offIn : List (Nat × Nat) → Nat → Bool
  | [], off => off == 0
  | (c, st) :: r, off => decide (off / st < c) && offIn r (off % st)

/-- Whether the row holds a register at the address. -/
def RegRow.holds (r : RegRow) (a : Nat) : Bool := decide (r.base ≤ a) && offIn r.dims (a - r.base)

/-- The fields of the register at an address; none where the address is unassigned (R9). -/
def fieldsAt (a : Nat) : List RegField :=
  match (rowsAt a).find? (fun r => r.holds a) with
  | some r => r.fields
  | none => []

/-- The value that a list of fields holds after PORST_N (R12). -/
def resetOfFields (fs : List RegField) : Nat := fs.foldl (fun v f => v + f.reset * 2 ^ f.lsb) 0

/-- The value of the register at an address after PORST_N; an unassigned address reads 0 (R9, R12). -/
def resetOf (a : Nat) : Word := BitVec.ofNat 32 (resetOfFields (fieldsAt a))

/-- The bits of the fields whose access code satisfies `p`. -/
def maskOf (fs : List RegField) (p : Acc → Bool) : Nat :=
  fs.foldl (fun v f => if p f.acc then v + (2 ^ f.w - 1) * 2 ^ f.lsb else v) 0

/-- The value a register holds after the host writes `v` where it held `old`, by the access codes of R10. WO and
reserved fields read 0. -/
def hostWritten (fs : List RegField) (old v : Nat) : Nat :=
  fs.foldl (fun x f =>
    let o := getBits old f.lsb f.w
    let n := getBits v f.lsb f.w
    let r := match f.acc with
      | .rw => n | .rws => n | .ro => o | .w1c => o - (o &&& n) | .w1s => o ||| n | .wo => 0
    x + r * 2 ^ f.lsb) 0

end Sys2Proof.Machine
end

