-- ==== Sys2Proof/Machine/Tab.lean ====
section
/-!
DEFINITION. Sparse storage by number: a list of (key, value) pairs in ONE canonical form, keys strictly rising and no
entry equal to what an unlisted key reads as. Every memory, table and register file of the model is one of these, so
that equal contents are equal data.
-/
namespace Sys2Proof.Machine

/-- Sparse contents: strictly rising keys. -/
abbrev Tab (α : Type) := List (Nat × α)

/-- What is listed at `k`. -/
def Tab.find? {α : Type} (t : Tab α) (k : Nat) : Option α :=
  match t with
  | [] => none
  | (j, v) :: r => if j = k then some v else Tab.find? r k

/-- The value at `k`, `d` where nothing is listed. -/
def Tab.get {α : Type} (d : α) (t : Tab α) (k : Nat) : α := (t.find? k).getD d

/-- The first listed entry with a property, in rising order of keys. -/
def Tab.first {α : Type} (t : Tab α) (p : Nat × α → Bool) : Option (Nat × α) := List.find? p t

/-- `t` without key `k`. -/
def Tab.erase {α : Type} (t : Tab α) (k : Nat) : Tab α :=
  match t with
  | [] => []
  | (j, v) :: r => if j = k then Tab.erase r k else (j, v) :: Tab.erase r k

/-- `t` with `v` listed at `k`. -/
def Tab.insert {α : Type} (t : Tab α) (k : Nat) (v : α) : Tab α :=
  match t with
  | [] => [(k, v)]
  | (j, u) :: r =>
    if j = k then (k, v) :: r else if k < j then (k, v) :: (j, u) :: r else (j, u) :: Tab.insert r k v

/-- `t` with value `v` at `k`, where unlisted keys read `d`: writing `d` removes the entry. -/
def Tab.set {α : Type} [DecidableEq α] (d : α) (t : Tab α) (k : Nat) (v : α) : Tab α :=
  if v = d then t.erase k else t.insert k v

/-- `t` with the value at `k` changed by `f`. -/
def Tab.modify {α : Type} [DecidableEq α] (d : α) (t : Tab α) (k : Nat) (f : α → α) : Tab α :=
  t.set d k (f (t.get d k))

/-- Keys strictly rising from above `lo` (`none`: no lower limit). -/
def Tab.sortedFrom {α : Type} : Option Nat → Tab α → Bool
  | _, [] => true
  | lo, (k, _) :: r => (match lo with | none => true | some l => decide (l < k)) && Tab.sortedFrom (some k) r

/-- The canonical form, for contents whose unlisted key `k` reads `d k`. -/
def Tab.wf {α : Type} [DecidableEq α] (d : Nat → α) (t : Tab α) : Bool :=
  t.sortedFrom none && t.all (fun e => decide (e.2 ≠ d e.1))

end Sys2Proof.Machine
end

