-- ==== Sys2Proof/Machine/State.lean ====
section
/-!
DEFINITION. The state of the block, as plain data: every register, buffer, queue, table, counter, engine and pin the
spec gives the DL5100, and the queue of commands that wait. A table or memory is a sorted list without default entries
(Tab). Fault and Refusal name the ways a step could stop; the model's meanings use neither (see NOTES.md, Stops).
-/
namespace Sys2Proof.Machine

/-- Reasons a step stops with a fault. No meaning raises one: every row's effect is described by the spec. -/
inductive Fault where
  /-- No command raises it; declared because the interface asks for a fault type. Safe. -/
  | none
  deriving DecidableEq, Repr

/-- Reasons a step is refused. -/
inductive Refusal where
  /-- Raised only by Dispatch's arm of a command that has no meaning yet. Safe: nothing is claimed of it. -/
  | notModelled (mnemonic : String)
  deriving DecidableEq, Repr

/-! ### Time (chapter 12) -/

/-- One island's local copy of device time (R325): `base` (units of 2^-48 ns) at true time `at_` (ticks of 125 ps),
advancing `rate` units a nanosecond. -/
structure IslClk where
  base : Nat := 0
  at_ : Nat := 0
  rate : Nat := 2 ^ 48
  /-- `base` is on the scale before this step (`T_s`, Δ), which the copy takes when it reaches `T_s` (R331) -/
  lag : Option (Nat × Int) := none
  deriving DecidableEq, Repr

/-- An accepted step or set awaiting `T_s` (R331). -/
structure StepReq where
  ts : Nat
  delta : Int
  op : Nat
  force : Bool
  deriving DecidableEq, Repr

/-- A trigger generator's progress (R336): the base time its firings count from (`none`: waiting for a capture or not
enabled), the next `j`, and whether a single firing is spent. -/
structure TrgSt where
  start : Option Nat := none
  j : Nat := 0
  spent : Bool := false
  deriving DecidableEq, Repr

/-- The time island (R323 to R339) and true time. -/
structure TimeSt where
  /-- true time in ticks of 125 ps -/
  mono : Nat := 0
  /-- device time in units of 2^-48 ns -/
  acc : Nat := 0
  /-- what a slew has still to absorb, units of 2^-48 ns, and its sign -/
  slewLeft : Nat := 0
  slewNeg : Bool := false
  stepPend : Option StepReq := none
  /-- `T_s + Δ` of the last applied step or set -/
  lastStepEnd : Option Nat := none
  /-- local copies by island number (R447) -/
  isl : Tab IslClk := []
  /-- true time of the last update each island received -/
  upd : Tab Nat := []
  /-- device time of the next update to the islands -/
  updNext : Nat := 0
  /-- islands whose agreement bit is set -/
  sync : Tab Bool := []
  /-- true time of the last captured edge by pin -/
  capAt : Tab Nat := []
  trg : Tab TrgSt := []
  /-- pulses: generator to (pin, end in device ns) -/
  pulse : Tab (Nat × Nat) := []
  /-- generators whose GCL actions up to firing `j` are done: generator to j + 1 -/
  gclDone : Tab Nat := []
  /-- end of the PPS pulse in device ns -/
  ppsEnd : Option Nat := none
  /-- the first whole second that may still have a pulse -/
  ppsNext : Nat := 0
  deriving DecidableEq, Repr

/-! ### Resets, clocks, rails, temperature, JTAG (chapters 16 to 18) -/

/-- The reset inputs and what holds the device in reset. -/
structure RstSt where
  porstLow : Bool := false
  sysrstLow : Bool := false
  /-- end of the 10 µs pulse of GLB_RST_CMD, true time -/
  pulseEnd : Option Nat := none
  /-- a rail has been below its minimum for 2 µs (R459) -/
  railReset : Bool := false
  /-- THERM_TRIP_N is low (R477) -/
  tripped : Bool := false
  /-- the pins were taken by a JTAG instruction; only PORST_N restores reliance (R473) -/
  pinsTaken : Bool := false
  deriving DecidableEq, Repr

/-- Clock supervision that no register holds (R449, R451, R452). -/
structure ClkSt where
  /-- end of the measurement window in device ns -/
  measEnd : Option Nat := none
  /-- true time at the start of the measurement -/
  measFrom : Nat := 0
  /-- reference inputs that have stopped: bit 0 SYSCLK, 1 PCIE_REFCLK, 2 TCLK_IN -/
  refLost : Nat := 0
  /-- the time PLL is relocking (R449) -/
  relock : Bool := false
  deriving DecidableEq, Repr

/-- Junction temperature pins and sensors (R475 to R477). -/
structure TjSt where
  /-- THERM_ALERT_N is low -/
  alertLow : Bool := false
  /-- true time of each sensor's last reading -/
  readAt : Tab Nat := []
  deriving DecidableEq, Repr

/-- The test access port (R473). -/
structure JtagSt where
  /-- the current instruction code -/
  ir : BitVec 8 := 0x02
  /-- the boundary-scan register, as the number its cells spell -/
  bsr : Nat := 0
  /-- pins driven from the boundary-scan register -/
  driven : Bool := false
  /-- pins at high impedance -/
  hiz : Bool := false
  deriving DecidableEq, Repr

/-! ### Journal (R408 to R412) -/

/-- A journal record before it has a number: TS, TYPE, UNIT, and the payload from byte 16 (with PKT: SEQ, port, and the
payload from byte 21). -/
structure JRec where
  ts : Nat
  type : Nat
  unit : Nat
  pkt : Bool
  seq : Nat
  port : Nat
  body : List Byte
  deriving DecidableEq, Repr

/-- The journal writer: records handed over (at most 4,096, R411), records lost by unit since it last could hand over
(count, TS of the first), and what the first records after SYSRST_N must be. -/
structure JrnSt where
  q : List JRec := []
  lost : Tab (Nat × Nat) := []
  restart : Bool := false
  /-- knots held at the reset: (knot, channel) -/
  knots : List (Nat × Nat) := []
  deriving DecidableEq, Repr

/-! ### Interrupts (R379 to R381) and PCI Express (R358) -/

/-- MSI-X: sources whose message is due (0 to 15 a block summary, 16 + c channel c), messages sent, and the
configuration bits of the function. -/
structure MsiSt where
  due : List Nat := []
  /-- the messages sent, address and data, newest first -/
  sent : List (Nat × Nat) := []
  enable : Bool := true
  funcMask : Bool := false
  /-- Bus Master Enable -/
  bme : Bool := true
  /-- the function is in D3hot -/
  d3 : Bool := false
  deriving DecidableEq, Repr

/-- What the configuration space of the PCI Express function holds beside Bus Master Enable, MSI-X and the power state
(R357): Memory Space Enable, the bases of its BARs, the encodings of the maximum payload and read request sizes (128 bytes
times 2 to it), ECRC generation and checking, the link's speed (1 to 5) and width. -/
structure PcieSt where
  memEn : Bool := true
  bar0 : Nat := 0
  bar2 : Nat := 0
  bar4 : Nat := 0
  mps : Nat := 0
  mrrs : Nat := 2
  ecrcGen : Bool := false
  ecrcChk : Bool := false
  speed : Nat := 5
  width : Nat := 8
  deriving DecidableEq, Repr

/-! ### The bark (R23) -/

/-- The 48-byte record that travels with a packet, field by field. -/
structure Bark where
  arrTs : Nat := 0
  seq : Nat := 0
  deadline : Nat := 0
  gen : Nat := 0
  action : Nat := 0
  ingPort : Nat := 0
  bough : Nat := 0
  pass : Bool := false
  copy : Bool := false
  twig : Bool := false
  flowIdx : Nat := 0
  flowHit : Bool := false
  flowNew : Bool := false
  parked : Bool := false
  ct : Bool := false
  colour : Nat := 3
  egr : Nat := 0
  cls : Nat := 0
  len : Nat := 0
  mcast : Bool := false
  bad : Bool := false
  exc : Nat := 0
  vipHit : Bool := false
  inj : Bool := false
  mirror : Nat := 0
  keyProf : Nat := 0
  tag : Nat := 0
  buf : Nat := 0
  pool : Nat := 0
  vipIdx : Nat := 0
  brgIdx : Nat := 0
  brgHit : Bool := false
  hash : Nat := 0
  predDep : Nat := 0
  deriving DecidableEq, Repr

/-! ### Ports and line supervision (chapter 02) -/

/-- An open candidate of a PCS lane (R49): position in the marker period, marker's lane number, count. -/
structure AmCand where
  pos : Nat
  lane : Nat
  count : Nat
  deriving DecidableEq, Repr

/-- One PCS lane's alignment-marker search and lock (R49 to R51). -/
structure PcsLane where
  cands : List AmCand := []
  lock : Option (Nat × Nat) := none
  run : Nat := 0
  deriving DecidableEq, Repr

/-- A classified second not yet committed (R58, R59): start, class (0 error-free, 1 ES, 2 SES), and whether it lies in
an unavailable period. -/
structure Second where
  start : Nat
  cls : Nat
  unav : Bool
  deriving DecidableEq, Repr

/-- A port's line supervision that no register holds. -/
structure PortSt where
  pcs : Tab PcsLane := []
  /-- an accepted MODE awaits its effect (kept in the group's first port) -/
  modePend : Bool := false
  /-- the current second: start, STEP_CNT at its start, an SES condition seen, uncorrectable codewords, errored frames,
  lock losses -/
  secStart : Nat := 0
  secStep : Nat := 0
  secSes : Bool := false
  secUcw : Nat := 0
  secErr : Nat := 0
  secLock : Nat := 0
  secs : List Second := []
  /-- peer trace: strings of the last reception, run of identical receptions, device time of the last valid one -/
  chs : List Byte := []
  prt : List Byte := []
  run : Nat := 0
  lastRx : Nat := 0
  /-- SEQ of the next frame (R21) -/
  seq : Nat := 0
  deriving DecidableEq, Repr

/-! ### Tables by command (R369) and the parser's results (chapter 03) -/

/-- Fragment fields of a set's L3 header (R94): offset in bytes, more fragments, identification, payload bytes. -/
structure FragInfo where
  off : Nat
  more : Bool
  ident : Nat
  pay : Nat
  deriving DecidableEq, Repr

/-- A header set (R87): offsets of its L2, L3 and L4 headers, IP version, L4 kind (R82), L4 protocol, the EtherType that
leads to L3 or the last one (R107), whether its last MPLS entry was terminated, its fragment fields, and the L4 fields that
a fragment-table hit gave (R96). -/
structure HdrSet where
  l2 : Option Nat := none
  l3 : Option Nat := none
  ver : Nat := 0
  l4 : Option Nat := none
  l4k : Nat := 0
  proto : Nat := 0
  etype : Nat := 0
  mplsTerm : Bool := false
  frag : Option FragInfo := none
  fhit : Bool := false
  fsp : Nat := 0
  fdp : Nat := 0
  fext : Nat := 0
  deriving DecidableEq, Repr

/-- What the parser hands on (R79, R85 to R101): header stack (node, offset), the two sets, exceptions, tunnel, profile,
user field, outermost VID, the highest byte used and the frame length required (R92), the flow key, the parse window, and the action of
the exception as its bough held it at the end of parse (R93). -/
structure ParseRes where
  stack : List (Nat × Nat) := []
  outer : HdrSet := {}
  inner : HdrSet := {}
  raised : List Nat := []
  exc : Nat := 0
  tun : Bool := false
  tunId : Nat := 0
  user : Option Nat := none
  vid : Option Nat := none
  eth0 : Bool := false
  used : Nat := 0
  need : Nat := 0
  prof : Nat := 0
  key : List Byte := []
  win : List Byte := []
  flowEn : Bool := false
  act : Nat := 0
  excCh : Nat := 0
  /-- GRF_EXC_CFG2 as the bough held it then: ACT, HOST_CH, NO_FLOW (R92, R93) -/
  lateAct : Nat := 0
  lateCh : Nat := 0
  lateNoFlow : Bool := false
  /-- the zone then, and the rule key built then (R107, R108) -/
  zone : Nat := 0
  rkey : List Byte := []
  /-- the flow key was built from the outer set (R101) -/
  osel : Bool := false
  deriving DecidableEq, Repr

/-- An entry of the fragment table (R95). -/
structure FragEnt where
  ident : List Byte
  sp : Nat
  dp : Nat
  ext : Nat
  seen : Nat
  total : Option Nat
  inst : Nat
  deriving DecidableEq, Repr

/-! ### The decision and the flow action (chapters 04 to 07) -/

/-- Where a packet's forwarded copies go: nowhere, to a port, to a multicast group, or by a flood to a group's members
that are members of the VLAN (mask of ports as read at C7, R137, R138). -/
inductive Egress where
  | none
  | port (p : Nat)
  | group (g : Nat)
  | flood (g mask : Nat)
  deriving DecidableEq, Repr

/-- A translation record (R210): the side rewritten, the address placed as in the flow key, the port if rewritten. -/
structure Xlat where
  src : Bool
  addr : List Byte
  port : Option Nat
  deriving DecidableEq, Repr

/-- What a packet's decision resolved (R112) and its action stage left for later steps. -/
structure DecRes where
  /-- the action record in force (its 32 bytes as a number), and the reason its COPY gives (R374): 1 by rule, 5 by verdict or Twig commit -/
  act : Nat := 0
  actInfo : Nat := 1
  /-- FA_SEL and RECIRC of the record that the rule selected, FA_SEL 0 after a policer's drop (R316) -/
  fa : Nat := 0
  recirc : Bool := false
  /-- bridging result, exception's egress (R91), and the egress a flow action returned (R209) -/
  brg : Egress := .none
  excEg : Option Egress := none
  flowEg : Option Egress := none
  /-- the copies' destination -/
  eg : Egress := .none
  /-- policer and flow meter results (R112) -/
  pol : Nat := 3
  mtr : Nat := 3
  /-- a drop: the counter of R392 that counts it -/
  drop : Option Nat := none
  /-- VIP entry as read at C7 (R151) -/
  vip : Nat := 0
  /-- hot block after steps 1 to 3 (R190) -/
  hot : List Byte := []
  /-- hand-over causes (R213) and the Twig routine to run -/
  causes : Nat := 0
  rt : Option Nat := none
  xl : Option Xlat := none
  /-- mirror session as the bough held it: DST, CLASS, TRUNC (R114) -/
  mir : Option (Nat × Nat × Nat) := none
  /-- the mirror sessions as the bough held them at the packet's C8 (R114) -/
  mirs : List (Option (Nat × Nat × Nat)) := []
  deriving DecidableEq, Repr

/-- A packet's flow lookup: hashes of its key, the line that serves it, the lines, flows and LEN that its steps 1 counted
while its frame was still arriving (R192), and its parking: group, deadline (true time), pending entry, the line it joined on WBP. -/
structure FlowSt where
  hA : Nat := 0
  hB : Nat := 0
  line : Option Nat := none
  counted : List (Nat × Nat × Nat) := []
  grp : Nat := 0
  due : Nat := 0
  entry : Option Nat := none
  joinLine : Option Nat := none
  /-- the line it joined was taken before it was served (R484) -/
  joinLost : Bool := false
  unst : Option Nat := none
  deriving DecidableEq, Repr

/-- A Canopy line and its state word (R156). -/
structure CLine where
  fp : Nat := 0
  v : Bool := false
  ref : Bool := false
  dirty : Bool := false
  wbp : Bool := false
  pend : Bool := false
  own : Nat := 0
  data : List Byte := []
  deriving DecidableEq, Repr

/-- What a FIND carries to create its flow (R199), computed at the C8 that issues it: the hot block's number before any
binding, the export template and interval, ARR_TS, BIND and PROBES of the set, and what a binding reads of the packet. -/
structure CreateReq where
  hot : Nat := 0
  tmpl : Nat := 0
  expInt : Nat := 0
  arrTs : Nat := 0
  bind : Nat := 0
  probes : Nat := 0
  vip : Nat := 0
  vipHit : Bool := false
  ver : Nat := 0
  proto : Nat := 0
  src : List Byte := []
  dst : List Byte := []
  sport : Nat := 0
  dport : Nat := 0
  gen : Nat := 0
  deriving DecidableEq, Repr

/-- Where a FIND stands in its directory engines (R257). -/
inductive FindSt where
  /-- not yet taken by its engine -/
  | sent
  /-- a step sent to the owner of the alternate bucket -/
  | alt
  /-- a further step on the primary bucket: the alternate bucket's step found this flow, or none -/
  | prim (found : Option Nat)
  /-- the flow was created at this index; the OVF increases still to be made, each a step of its own, by bucket -/
  | ovf (buckets : List Nat) (idx : Nat)
  /-- the reply: the flow's index and whether created; or NONE with its cause of R177 -/
  | line (idx : Nat) (new : Bool)
  | none (cause : Nat)
  deriving DecidableEq, Repr

/-- States of a pending entry (R168). -/
inductive PendPh where
  | find
  | install
  | release
  deriving DecidableEq, Repr

/-- A pending entry: the key and profile whose line is fetched, its hashes, its parked packets in list order, how far its
FIND has come, whether it is in budget, a way held for it, the installed line. -/
structure PendEnt where
  key : List Byte
  prof : Nat
  hA : Nat
  hB : Nat
  ph : PendPh := .find
  pkts : List Nat := []
  fs : FindSt := .sent
  inBudget : Bool := false
  counted : Bool := false
  heldWay : Option Nat := none
  cr : CreateReq := {}
  crPkt : Nat := 0
  hot : List Byte := []
  line : Option Nat := none
  isNew : Bool := false
  /-- its place in the order in which the engines took FINDs (R169) -/
  taken : Nat := 0
  deriving DecidableEq, Repr

/-- A learn request (R139): key, port, order, whether a REFRESH, whether in the merge buffer, and the port whose
arriving cut-through frame it waits for. -/
structure LearnReq where
  vid : Nat
  mac : Nat
  port : Nat
  ts : Nat
  seq : Nat
  refresh : Bool
  merged : Bool := false
  hold : Option Nat := none
  deriving DecidableEq, Repr

/-- Bridging beside the tables: full INST_TS and the boughs' HIT bits by entry, learn requests in order of issue, the
pruner's next entry and device time of its next step. -/
structure BrgSt where
  ts : Tab Nat := []
  hit : Tab Nat := []
  learn : List LearnReq := []
  pruneIdx : Nat := 0
  pruneAt : Nat := 0
  deriving DecidableEq, Repr

/-- A frame-end correction on its way (R192): bough, line, flow, what BYTES gains modulo 2^48, and whether BAD. -/
structure Corr where
  bough : Nat
  line : Nat
  flow : Nat
  delta : Nat
  bad : Bool
  deriving DecidableEq, Repr

/-- The Grove beside the Root store (chapter 06): lines by 16,384 * bank + line, pending entries by 512 * group + entry,
write-backs on their way to the banks by bough (line, hot block or a release, oldest
first), the seeds latched, the miss tokens in 1/1,000 by engine and the ns of their last refill, ways held for FINDs,
the sweep's next bucket by stack, lines a flush has still to write, device-second accounts of the journal events. -/
structure GroveSt where
  lines : Tab CLine := []
  pends : Tab PendEnt := []
  wbq : Tab (List (Nat × Option (List Byte))) := []
  /-- frame-end corrections, oldest first -/
  corrs : List Corr := []
  seedA : Nat := 0
  seedB : Nat := 0
  everReady : Bool := false
  initEnd : Option Nat := none
  keep : Bool := false
  heldEn : Bool := false
  tokUsed : Tab Nat := []
  tokAt : Tab Nat := []
  sweepAt : Tab Nat := []
  /-- true time of the next bucket visit by engine -/
  sweepTm : Tab Nat := []
  flushLeft : List Nat := []
  quarantine : List Nat := []
  dirFull : Tab (Nat × Nat) := []
  parkTmo : Tab (Nat × Nat) := []
  /-- flows whose deletion waits for their line (R166), with whether as the partner of a poisoned one (R346) -/
  delWait : List (Nat × Bool) := []
  /-- the write-back buffer of each bank group: lines whose write-back the controller has not accepted (R170) -/
  wbuf : Tab (List Nat) := []
  /-- the number of the next FIND an engine takes (R169) -/
  nextTake : Nat := 0
  deriving DecidableEq, Repr

/-- A staged table write: table, index, entry. -/
structure Staged where
  table : Nat
  idx : Nat
  val : Nat
  deriving DecidableEq, Repr

/-- The graft (R120 to R127) beside its registers: the batch, boughs that have flipped (a bit each), the ends of the
apply or catch-up phase, of the flip timer and of DRAIN_WARN (true time), and the command that awaits its completion. -/
structure GraftSt where
  log : List Staged := []
  flipped : Nat := 0
  phaseEnd : Nat := 0
  timerEnd : Nat := 0
  drainAt : Nat := 0
  warned : Bool := false
  by_ : Option (Nat × Nat) := none
  tflipAddr : Nat := 0
  deriving DecidableEq, Repr

/-! ### Twig engines (chapter 08) -/

/-- How far a work item is. -/
inductive ItemPh where
  | queued
  | running
  /-- stopped by a halt of its cluster, its state kept (R244) -/
  | stopped
  /-- ended; its completion is due -/
  | ended
  /-- ended by a trap, a timeout or a missing routine: the fallback is due -/
  | failed
  deriving DecidableEq, Repr

/-- The cold read of an item (R232). -/
inductive ColdPh where
  | unneeded
  | wanted
  | read
  deriving DecidableEq, Repr

/-- An engine's registers X0 to X47, flags (Z, N, C, V in bits 3 to 0), return stack (newest first), microword address,
frame and staging mask (a bit a frame byte) (R215). -/
structure EngSt where
  x : List (BitVec 64) := List.replicate 48 0
  flags : BitVec 4 := 0
  stack : List Nat := []
  pc : Nat := 0
  frame : List Byte := []
  mask : Nat := 0
  deriving DecidableEq, Repr

/-- A work item (R216): its packet, cluster and engine, affinity key, routine, times (true time) of creation and entry,
its copy of the frame (R217), the engine state while it runs, its commit record (R229) and its patch epoch. -/
structure Item where
  pkt : Nat
  cluster : Nat
  engine : Nat := 0
  aff : Nat
  flow : Nat
  rt : Nat
  createdAt : Nat
  enteredAt : Nat := 0
  startedAt : Nat := 0
  entered : Bool := false
  ph : ItemPh := .queued
  cold : ColdPh := .unneeded
  coldWait : Nat := 0
  img : List Byte := []
  eng : EngSt := {}
  epoch : Nat := 0
  run : Nat := 0
  retried : Bool := false
  committed : Bool := false
  bark : List (Nat × Byte) := []
  drop : Bool := false
  patch : List (Nat × Byte) := []
  ownSlot : Bool := false
  deriving DecidableEq, Repr

/-- A slot of ordered release (R235): its number, the packet that took it, whether that packet still holds its tag, its
window, port, whether ready and since when (true time). -/
structure OrdSlot where
  id : Nat
  pkt : Nat
  live : Bool := true
  win : Nat
  port : Nat
  ready : Bool := false
  readyAt : Nat := 0
  deriving DecidableEq, Repr

/-- A hot-block byte committed by a routine of a cluster (R218), the number of its commit, and the true time at which the
bank applied it. -/
structure HotCommit where
  op : Nat
  cluster : Nat
  flow : Nat
  off : Nat
  val : Byte
  applied : Option Nat
  deriving DecidableEq, Repr

/-- The Twig clusters beside their registers: items in order of creation, ordered slots in order of reservation, commits
kept for later items, cold-read tokens used (1/1,000) and the ns of their last refill, the patch's T, the version it
brings, the drain of the old epoch and the command that awaits it. -/
structure TwigSt where
  items : Tab Item := []
  nextItem : Nat := 0
  slots : List OrdSlot := []
  nextSlot : Nat := 0
  commits : List HotCommit := []
  nextCommit : Nat := 0
  coldUsed : Tab Nat := []
  coldAt : Tab Nat := []
  patchT : Nat := 0
  patchVer : Nat := 0
  syncAt : Nat := 0
  by_ : Option (Nat × Nat) := none
  deriving DecidableEq, Repr

/-! ### Root store controllers (chapter 09) -/

/-- A request in a controller's table (R268): its tag, requester class, address and bytes as accesses of R253, whether a
write, whether issued, what a read accepted now returns (R258), and whether it is a read-modify-write (R253). -/
structure RtsReq where
  tag : Nat
  cls : Nat
  addr : Nat
  len : Nat
  write : Bool
  issued : Bool := false
  data : List Byte := []
  rmw : Bool := false
  deriving DecidableEq, Repr

/-- A bank's page state (R260): open or closed, last row, the 2-bit counter, true time of the last access. -/
structure BankSt where
  isOpen : Bool := false
  row : Nat := 0
  c : Nat := 1
  at_ : Nat := 0
  deriving DecidableEq, Repr

/-- One controller: requests in order of acceptance, requests held back by credit, bytes issued by class with their true
time (the last 1 µs), banks by (pseudo-channel * 3 + SID) * 16 + bank, row hits in a row that went ahead of an older
request by 8 * pseudo-channel + class, whether its stack is starting or in self-refresh, retrainings failed in a row by
pseudo-channel, the last read returned (tag and data), the true time of each pseudo-channel's last retraining, and the
pseudo-channel that is paused for one until a true time (R262). -/
structure RtsSt where
  reqs : List RtsReq := []
  held : List RtsReq := []
  recent : List (Nat × Nat × Nat) := []
  banks : Tab BankSt := []
  ahead : Tab Nat := []
  starting : Bool := false
  startAt : Nat := 0
  selfRef : Bool := false
  trainFails : Tab Nat := []
  lastTag : Nat := 0
  lastBytes : List Byte := []
  trainAt : Tab Nat := []
  pausePc : Nat := 0
  pauseEnd : Nat := 0
  deriving DecidableEq, Repr

/-! ### Error protection (chapter 13) -/

/-- Error protection beside its registers: the XOR of each stored codeword with its sound one (data bits from bit 0, check
bits above them) by source * 2^40 + word; of each page's 256 parity symbols (symbol i of codeword c is byte 16 c + i) by
source * 2^40 + page; the words whose page failed, which carry the mark of R342 beside that pattern; symbol errors of the
page code that no word code shows, as the XOR of a byte with what its page's parity covers, by 16 * word key + byte; the
words of its pass that each scrub target has read, the true time of its next read in 2^-32 ticks, whether its pass has
reported that it runs behind (R352); the device time of each source's last leak, failed
control-store pages (source, page) and table entries (512 * unit + 2 * TABLE + copy, index) that await their repair. -/
structure EccSt where
  diff : Tab Nat := []
  pageDiff : Tab Nat := []
  poison : List Nat := []
  symErr : Tab Nat := []
  scrubPos : Tab Nat := []
  scrubNext : Tab Nat := []
  behind : Tab Bool := []
  leakAt : Tab Nat := []
  pageDue : List (Nat × Nat) := []
  repairDue : List (Nat × Nat) := []
  deriving DecidableEq, Repr

/-! ### Packets in flight, the ingress stores, the Crown and the traffic manager (chapters 01, 10, 11) -/

/-- Where a packet stands on its path (chapter 01). -/
inductive PStage where
  /-- its frame is arriving, or waits for a buffer or for its parse window's release -/
  | rx
  /-- a received LLDP frame that awaits the peer trace (R61) -/
  | lldp
  /-- parsed; awaits a decision slot -/
  | parsed
  /-- parked in its Canopy bank group (R167) -/
  | parked
  /-- released from the park; awaits steps 4 to 6 of its action stage (R190) -/
  | returned
  /-- in a Twig cluster (R231) -/
  | twig
  /-- its ordered slot is ready or held back (R237) -/
  | ordered
  /-- in its bough's recirculation queue (R128) -/
  | recirc
  /-- awaits admission of its copies -/
  | toAdmit
  /-- every copy has been formed; the tag is held until the last is done (R30) -/
  | sent
  deriving DecidableEq, Repr

/-- A copy to the host that is pending (R374): channel and INFO. -/
structure HostCopy where
  ch : Nat
  info : Nat
  /-- true time at which it was asked for -/
  at_ : Nat := 0
  deriving DecidableEq, Repr

/-- A packet: its bark, its bytes, and the per-packet state that the stages index by tag. -/
structure Pkt where
  bark : Bark := {}
  /-- frame bytes, FCS included, as they arrive -/
  bytes : List Byte := []
  stage : PStage := .rx
  /-- injected by the host (R373); by the exporter (R420) -/
  host : Bool := false
  exp : Bool := false
  /-- the frame's end has arrived, at this true time -/
  ended : Bool := false
  endAt : Nat := 0
  /-- it holds an ingress-store buffer; its first allocation failed and was counted; the estimate E formed at its
  allocation point (R271) -/
  hasBuf : Bool := false
  nobuf : Bool := false
  est : Option Nat := none
  /-- it awaits a larger buffer (R276) -/
  promote : Bool := false
  /-- its parse window has been released; it is counted in the GEN count of its bough (R125) -/
  window : Bool := false
  genHeld : Bool := false
  /-- order of the parse-window releases (R165) -/
  rel : Nat := 0
  /-- what the parser found -/
  ps : ParseRes := {}
  /-- what the decision resolved -/
  dec : DecRes := {}
  /-- the flow lookup's progress -/
  flow : FlowSt := {}
  /-- copies to the host that are pending (R374) -/
  hostCopies : List HostCopy := []
  /-- the header patch a Twig routine committed: (offset, byte) (R230) -/
  patch : List (Nat × Byte) := []
  /-- ordered-release slot held (R235), by its number -/
  slot : Option Nat := none
  /-- an uncorrectable word of its frame was read from the receive FIFO (R345) -/
  ue : Bool := false
  /-- what an injection made of its words (R354): its bark, queue entry, park entry or Twig frame is uncorrectable; its
  bytes in the ingress store are -/
  memUe : Bool := false
  stUe : Bool := false
  deriving DecidableEq, Repr

/-- What the receive MAC is doing on a port. -/
inductive RxCur where
  | idle
  /-- a frame none of whose further bytes are stored; the MAC still checks it (R65): its bytes -/
  | skip (bytes : List Byte)
  /-- a frame of which the MAC takes no further bytes (R70) -/
  | gone
  /-- a frame with a bark tag -/
  | frame (tag : Nat)
  /-- a cut-through frame whose packet is over and its tag free (R30), while its bytes still arrive -/
  | loose (p : Pkt)
  deriving DecidableEq, Repr

/-- A port's receive side: the frame at the MAC, and the tags whose frames stand in the FIFO, oldest first. -/
structure RxPort where
  cur : RxCur := .idle
  fifo : List Nat := []
  deriving DecidableEq, Repr

/-- An allocated buffer (R278): owning tag, pool, owner, true time of its allocation. -/
structure BufSt where
  tag : Nat
  pool : Nat
  owner : Nat
  at_ : Nat
  deriving DecidableEq, Repr

/-- Where a copy stands between admission and the line. -/
inductive CStage where
  | queued
  /-- selected; its dequeue order has not been served -/
  | ordered
  /-- its cells are in the crosspoint -/
  | xp
  /-- its transmit order has been sent -/
  | noticed
  /-- handed to egress editing; its head is leaving -/
  | tx
  deriving DecidableEq, Repr

/-- A copy of a packet to an egress port. -/
structure Copy where
  bough : Nat
  tag : Nat
  port : Nat
  cls : Nat
  /-- W of R299, L and the cells of R280 -/
  w : Nat
  len : Nat
  cells : Nat
  /-- LEN at admission -/
  flen : Nat
  deadline : Nat
  predDep : Nat
  colour : Nat
  mirror : Bool
  ct : Bool
  /-- under SHARED (R289): the group's key; detached after the window -/
  shared : Bool
  detached : Bool
  stage : CStage
  /-- true time at which it became its queue's head, order of its selection, true time its cells entered the crosspoint -/
  headAt : Nat
  ord : Nat
  xpAt : Nat
  /-- earliest SFD at the egress plane, ps of device time -/
  sfd : Nat
  /-- the bytes the line carries, and the T_eg of the SFD in ns (from egress editing on) -/
  out : List Byte
  teg : Nat
  /-- an uncorrectable error was met in its cells (R293, R345): 1 ingress store, 2 crosspoint, 3 descriptor store -/
  ue : Nat
  deriving DecidableEq, Repr

/-- A shared transfer of R289, by packet key * 32 + column. -/
structure ShareSt where
  refs : Nat
  winEnd : Nat
  cells : Nat
  present : Bool
  deriving DecidableEq, Repr

/-- A queue of a port: its copies, head first, and the tags of its head (R304). -/
structure TmQ where
  copies : List Nat := []
  bytes : Nat := 0
  s : Nat := 0
  f : Nat := 0
  /-- O_q as last computed (R312), in ps -/
  open_ : Nat := 0
  deriving DecidableEq, Repr

/-- A port of the traffic manager: virtual time, the time its reference plane is free (ps), the gate lists. -/
structure TmPort where
  v : Nat := 0
  free : Nat := 0
  /-- which of the two lists is active: false the first -/
  side : Bool := false
  /-- the active list: entries, and the start T_a of its cycles -/
  len : Nat := 0
  base : Nat := 0
  /-- the pending activation: T_a and LEN -/
  pend : Option (Nat × Nat) := none
  deriving DecidableEq, Repr

/-! ### Sirvan and the Trunk bus (chapter 14) -/

/-- A command in flight on a channel: submission index, descriptor bytes, its completion (status, result) once finished,
whether that repeats an earlier one (R367), whether it has started and not finished, whether its injection has waited. -/
structure Cmd where
  idx : Nat
  desc : List Byte
  fin : Option (Nat × Nat) := none
  dup : Bool := false
  started : Bool := false
  held : Bool := false
  deriving DecidableEq, Repr

/-- A completion ready to be posted on a RECEIVE or EVENT channel: that of the buffer of descriptor `idx`. -/
structure RxComp where
  idx : Nat
  irq : Bool
  sop : Bool
  eop : Bool
  result : Nat
  info : Nat
  op : Nat
  deriving DecidableEq, Repr

/-- A buffer posted on a RECEIVE or EVENT channel: its address, its descriptor's index and IRQ bit. -/
structure PostedBuf where
  addr : Nat
  idx : Nat
  irq : Bool
  deriving DecidableEq, Repr

/-- A write staged under a knot (R377): opcode, table, index, the entry's bytes as a number (or PARAM). -/
structure KnotWrite where
  op : Nat
  table : Nat
  idx : Nat
  val : Nat
  deriving DecidableEq, Repr

/-- A channel (R359): the host-owned fields read at ENABLE, the device-owned ones, ring positions, commands in flight in
ring order, completions written and not returned, posted buffers, completions waiting, interrupt accumulation (true time of
the end of HOLDOFF), a DISABLE in progress, and the bytes its partly filled event buffer holds since when. -/
structure ChSt where
  sqBase : Nat := 0
  cqBase : Nat := 0
  sqLog : Nat := 0
  cqLog : Nat := 0
  typ : Nat := 0
  vec : Nat := 0
  irqEn : Bool := false
  irqCnt : Nat := 0
  holdoff : Nat := 0
  bufUnits : Nat := 0
  evSel : Nat := 0
  sqHead : Nat := 0
  sqTail : Nat := 0
  cqTail : Nat := 0
  cqHead : Nat := 0
  phase : Bool := false
  st : Nat := 0
  cause : Nat := 0
  lastV : Bool := false
  lastTag : Nat := 0
  lastStatus : Nat := 0
  lastResult : Nat := 0
  flight : List Cmd := []
  cqOut : Nat := 0
  bufs : List PostedBuf := []
  comps : List RxComp := []
  unsig : Nat := 0
  holdEnd : Option Nat := none
  disabling : Bool := false
  evFill : Nat := 0
  evAt : Nat := 0
  deriving DecidableEq, Repr

/-- A knot held (R376): channel, table mask, lease in ms and its end (true time), writes staged. -/
structure Knot where
  ch : Nat
  mask : Nat
  lease : Nat
  until_ : Nat
  staged : List KnotWrite := []
  deriving DecidableEq, Repr

/-- A transfer on the Trunk bus or asked for: requester (index of TRK_WAIT_MAXr), phases, true time of the request. -/
structure TrkReq where
  r : Nat
  phases : Nat
  at_ : Nat
  deriving DecidableEq, Repr

/-- The Trunk bus: requests waiting in order, the transfer in progress and its end (true time), the outcome of the
arbitration in its last phase (a winner, or nobody), backoff of a requester: its next backoff and the phases left of the
present one, whether the grant is parked on the last owner, start of the last SCRUB transfer. -/
structure TrunkSt where
  want : List TrkReq := []
  cur : Option (TrkReq × Nat) := none
  next : Option (Option TrkReq) := none
  back : Tab (Nat × Nat) := []
  parked : Bool := true
  scrubAt : Option Nat := none
  deriving DecidableEq, Repr

/-- Sirvan beside its registers: channels, knots, cached channel-table entries (least recently used first), the host
memory written by the device (an unlisted byte reads 0), the channel whose operation runs, the snapshots that CNT_READ
commands have asked for. -/
structure SvnSt where
  ch : Tab ChSt := []
  knots : Tab Knot := []
  cache : List Nat := []
  mem : Tab Byte := []
  busyCh : Option Nat := none
  /-- channels whose DISABLE a function-level reset or D3hot has started (R358) -/
  flrCh : List Nat := []
  /-- channels that found no room in the cache, or no command context, and wait for their turn (R361, R366) -/
  loadWait : List Nat := []
  ctxWait : List Nat := []
  /-- snapshot times that CNT_READ commands wait for, by 65536 * channel + submission index -/
  snapAt : Tab Nat := []
  deriving DecidableEq, Repr

/-! ### Profiles (chapter 16) -/

/-- A run-time profile switch: the profile's bytes as checked, its version, number and mode, and the end of the drain. -/
structure ProfSw where
  bytes : List Byte
  prof : Nat
  drain : Bool
  until_ : Nat := 0
  graftDone : Bool := false
  patchDone : Bool := false
  deriving DecidableEq, Repr

/-! ### Observability (chapter 15) -/

/-- A snapshot bank (R396): its header entry and the frozen slots, by slot number of R393's layout. -/
structure SnapBank where
  epoch : Nat := 0
  done : Bool := false
  t : Nat := 0
  slots : Tab Nat := []
  deriving DecidableEq, Repr

/-- A packet sample (R405): the bark as written at C8, its exported status, and the sampled bytes. -/
structure PktSample where
  bark : Bark
  dropped : Bool
  bytes : List Byte
  deriving DecidableEq, Repr

/-- A data record the exporter holds (R420): the template it is sent under (none: a packet sample), and its bytes. -/
structure ExpRec where
  tmpl : Nat
  bytes : List Byte
  /-- its Root store address (R252) -/
  at_ : Nat := 0
  deriving DecidableEq, Repr

/-- A flow template as loaded (R415): the IPFIX ID and (element, length) of each field. -/
structure FlowTmpl where
  id : Nat := 0
  fields : List (Nat × Nat) := []
  deriving DecidableEq, Repr

/-- Counters that live only in BAR4, performance counters, snapshots, samplers, the exporter and the event streams. -/
structure ObsSt where
  /-- queue-set and policer-set counters (R322), by BAR4 live-bank offset / 8 -/
  pages : Tab Nat := []
  /-- performance counters: 8 b + j, then 256 + g -/
  pmu : Tab Nat := []
  /-- occurrences in the current cycle, by 64 * event code + unit -/
  pmuNow : Tab Nat := []
  /-- counters whose event's number was not 0 in the last cycle -/
  pmuPrev : Tab Bool := []
  /-- performance counters that have wrapped and await PMU_OVF -/
  pmuWrap : List Nat := []
  /-- end of the open sampling window, device ns -/
  sampEnd : Option Nat := none
  /-- the snapshot times scheduled, in order -/
  snapDue : List Nat := []
  bank0 : SnapBank := {}
  bank1 : SnapBank := {}
  /-- the epoch whose DONE is awaited -/
  snapRun : Option Nat := none
  /-- cluster countdowns and sequences (R402, R406), port sequences (R405) -/
  psCount : Tab Nat := []
  psSeq : Tab Nat := []
  psmpSeq : Tab Nat := []
  /-- precise samples buffered, oldest first: 32-byte records (R403) -/
  psBuf : List (List Byte) := []
  /-- packet samples waiting by bough (R407) -/
  psmpQ : Tab (List PktSample) := []
  /-- the exporter: templates loaded, records held, records sent, messages built and not yet delivered -/
  tmpl : Tab FlowTmpl := []
  expRecs : List ExpRec := []
  /-- the slot of Export staging that the next record takes -/
  expSlot : Nat := 0
  expSeq : Nat := 0
  /-- messages over the port destination handed to injection; newest first -/
  expSent : List (List Byte) := []
  /-- template records waiting to be sent over the port destination, and the device time of the next resend -/
  expTmpl : List (List Byte) := []
  tmplDue : Option Nat := none
  /-- export records lost since the last EXP_LOST record, and the start of the second of the first -/
  expLostSec : Nat := 0
  expLostAt : Nat := 0
  /-- event stream entries waiting, by stream; entry counts by stream; next journal record of the stream -/
  evQ : Tab (List (List Byte)) := []
  evCount : Tab Nat := []
  evJrn : Tab Nat := []
  deriving DecidableEq, Repr

/-- The machine's whole state. -/
@[ext]
structure State where
  /-- the commands waiting, first in, first out -/
  pending : List Instr := []
  /-- the setup registers of BAR0, by offset; an unlisted one reads `resetOf` -/
  regs : Tab Word := []
  /-- MODEL'S OWN: uses of free values so far; no statement rests on it -/
  free : Nat := 0
  time : TimeSt := {}
  rst : RstSt := {}
  clk : ClkSt := {}
  tj : TjSt := {}
  jtag : JtagSt := {}
  jrn : JrnSt := {}
  msi : MsiSt := {}
  /-- data of the last BAR0 read completion the model shows (R7, R446) -/
  lastRead : Word := 0
  ports : Tab PortSt := []
  /-- the tables of R369 that are not the Root store's, by (2 * TABLE + copy) * 2^32 + index, each entry the little-endian
  number its bytes spell -/
  tbl : Tab Nat := []
  /-- the fragment table, by 4 * set + way -/
  frags : Tab FragEnt := []
  brg : BrgSt := {}
  gv : GroveSt := {}
  gr : GraftSt := {}
  /-- recirculation queue of a bough: packets, oldest first -/
  recircQ : Tab (List Nat) := []
  /-- the Root store's bytes, by address (R252) -/
  rs : Tab Byte := []
  twig : TwigSt := {}
  rts0 : RtsSt := {}
  rts1 : RtsSt := {}
  ecc : EccSt := {}
  rx : Tab RxPort := []
  /-- packets by 8192 * bough + tag -/
  pkts : Tab Pkt := []
  /-- allocated buffers by 8192 * bough + start unit -/
  bufs : Tab BufSt := []
  /-- tags freed in the present cycle of their bough (R33): key, whether a host packet's, true time -/
  freedTags : List (Nat × Bool × Nat) := []
  /-- buffers freed in the present cycle (R273): key of the start unit, pool, true time -/
  freedBufs : List (Nat × Nat × Nat) := []
  /-- number of the next parse-window release -/
  nextRel : Nat := 0
  /-- round-robin arbiters: the member that has the first claim, by 65536 * kind + unit -/
  turns : Tab Nat := []
  /-- copies by number, in order of admission; the next number; the next selection order -/
  copies : Tab Copy := []
  nextCopy : Nat := 0
  nextOrd : Nat := 0
  shares : Tab ShareSt := []
  /-- queues by 16 * port + queue -/
  qs : Tab TmQ := []
  tmPorts : Tab TmPort := []
  /-- next shaper refill of a unit, device ns -/
  refillAt : Tab Nat := []
  /-- last frame each port put on the line, and whether it was stomped -/
  txLast : Tab (List Byte × Bool) := []
  svn : SvnSt := {}
  pcie : PcieSt := {}
  trk : TrunkSt := {}
  sw : Option ProfSw := none
  obs : ObsSt := {}
  deriving DecidableEq, Repr

/-- The state right after PORST_N is released and before the boot sequence runs: every register at its reset value
(R12), device time 0, nothing in flight, memory zero, no command waiting. -/
def State.reset : State := {}

end Sys2Proof.Machine
end

