-- ==== Sys2Proof/Machine/Ops.lean ====
section
/-!
DEFINITION. The named operations every family shares: reading and changing setup registers and counters (R10 to R13,
R389), raising an interrupt cause (R379, R380), handing a record to the journal (R411), counting a performance event
(R399), and letting time pass (R323, R325).
-/
namespace Sys2Proof.Machine

/-- The outcome of a command of this block. -/
abbrev Out := Host.Outcome State Fault Refusal

/-! ### Registers -/

/-- The word a register file holds at a BAR0 offset; an unlisted register reads its reset value (R12). -/
def regAt (r : Tab Word) (a : Nat) : Word := (r.find? a).getD (resetOf a)

/-- The word at a BAR0 offset. -/
def State.reg (s : State) (a : Nat) : Nat := (regAt s.regs a).toNat

/-- The state with the word at a BAR0 offset replaced. -/
def State.setReg (s : State) (a v : Nat) : State :=
  { s with regs := s.regs.set (resetOf a) a (BitVec.ofNat 32 v) }

/-- The value of a field. -/
def State.rd (s : State) (f : RFld) : Nat := getBits (s.reg f.addr) f.lsb f.w

/-- Whether a one-bit field is 1. -/
def State.on (s : State) (f : RFld) : Bool := s.rd f != 0

/-- The state with a field replaced. -/
def State.wr (s : State) (f : RFld) (v : Nat) : State := s.setReg f.addr (setBits (s.reg f.addr) f.lsb f.w v)

/-- A field changed by a Boolean. -/
def State.wrB (s : State) (f : RFld) (v : Bool) : State := s.wr f (b2n v)

/-- The fields of a register after a host write, by their access codes (R10). -/
def State.hostWrite (s : State) (a v : Nat) : State := s.setReg a (hostWritten (fieldsAt a) (s.reg a) v)

/-- A two-register value: low word at `a`, high word at `a + 4`. -/
def State.rd64 (s : State) (a : Nat) : Nat := s.reg a + 2 ^ 32 * s.reg (a + 4)

/-- A two-register value written. -/
def State.wr64 (s : State) (a v : Nat) : State := (s.setReg a v).setReg (a + 4) (v / 2 ^ 32)

/-- The value of a 48-bit counter (R389). -/
def State.cntAt (s : State) (a : Nat) : Nat := s.reg a + 2 ^ 32 * (s.reg (a + 4) % 2 ^ 16)

/-- A 48-bit counter increased by `n`, wrapping (R389). -/
def State.cnt (s : State) (a : Nat) (n : Nat := 1) : State := s.wr64 a ((s.cntAt a + n) % 2 ^ 48)

/-- A field counted up, saturating at its width. -/
def State.bumpSat (s : State) (f : RFld) (n : Nat := 1) : State := s.wr f (min (2 ^ f.w - 1) (s.rd f + n))

/-! ### Interrupt causes -/

/-- The block summary (R379) that an _INT register belongs to. -/
def intBlock (a : Nat) : Option Nat :=
  if a = SVN_INT then some 0
  else if a = GLB_INT ∨ a = GLB_BOOT_INT ∨ a = GLB_TJ_INT ∨ a = CLK_INT then some 1
  else if a = TIM_INT then some 2
  else if 0x1000000 ≤ a ∧ a < 0x2000000 ∧ a % 0x1000 = 0x30 then some 3
  else if 0x2000000 ≤ a ∧ a < 0x2800000 ∧ a % 0x40000 = 0x118 then some 4
  else if a = GRF_GRAFT_INT then some 5
  else if a = BRG_INT then some 6
  else if a = GRV_INT then some 7
  else if a = TWG_INT then some 8
  else if a = RTS_INT 0 ∨ a = RTS_INT 1 then some 9
  else if a = CRN_INT then some 10
  else if a = TMG_INT then some 11
  else if a = ECC_INT then some 12
  else if a = OBS_INT then some 13
  else if a = TRK_INT then some 14
  else none

/-- The summary of a block: the OR of its causes that no mask suppresses (R379). Every _MSK stands 4 above its _INT. -/
def State.summary (s : State) (b : Nat) : Bool :=
  s.regs.any (fun e => intBlock e.1 == some b && (e.2 &&& ~~~(regAt s.regs (e.1 + 4))) != 0)

/-- A block source asks for its message (R380). -/
def State.msiDue (s : State) (src : Nat) : State := { s with msi.due := s.msi.due ++ [src] }

/-- Cause bits set in an interrupt field; the block's message is due when its summary rises (R380). An event of the cycle of
a clearing write is a row after it, so the bit ends set (R11; DEDUCED, assumption 102). -/
def State.raiseN (s : State) (f : RFld) (v : Nat) : State :=
  let s' := s.wr f (s.rd f ||| v)
  match intBlock f.addr with
  | some b => if s.summary b = false ∧ s'.summary b = true then s'.msiDue b else s'
  | none => s'

/-- One cause raised. -/
def State.raise (s : State) (f : RFld) : State := s.raiseN f 1

/-! ### Islands and time -/

/-- Island numbers of R447. -/
def islBough (b : Nat) : Nat := b
def islQuad (q : Nat) : Nat := 32 + q
def islCol (c : Nat) : Nat := 96 + c
def islGroup (g : Nat) : Nat := 128 + g
def islCluster (k : Nat) : Nat := 144 + k
def islRts (c : Nat) : Nat := 160 + c
def islTm (t : Nat) : Nat := 162 + t
def islPcie : Nat := 166
def islMgmt : Nat := 167
def islTime : Nat := 168

/-- The bough of a logical port (R14: bough b serves lanes 8b to 8b + 7). -/
def portBough (p : Nat) : Nat := p / 8
/-- The SerDes quad island of a port. -/
def portQuad (p : Nat) : Nat := islQuad (p / 4)
/-- The traffic manager unit of a port (R14). -/
def portTm (p : Nat) : Nat := p / 64

/-- Whether an island has stopped (R450). -/
def State.islStopped (s : State) (i : Nat) : Bool := bit (s.rd (CLK_ISL_FAIL_ISL (i / 32))) (i % 32)

/-- Whether the device is held in reset: PORST_N, a rail, SYSRST_N, the pulse of GLB_RST_CMD or a thermal trip
(R422, R423, R459, R477). -/
def State.inReset (s : State) : Bool :=
  s.rst.porstLow || s.rst.railReset || s.rst.sysrstLow || s.rst.pulseEnd.isSome || s.rst.tripped

/-- Whether the power-on reset holds everything. -/
def State.inPor (s : State) : Bool := s.rst.porstLow || s.rst.railReset

/-- An island acts: the device is out of reset and the island has its clock. -/
def State.alive (s : State) (i : Nat) : Bool := !s.inReset && !s.islStopped i

/-- The signed rate offset, units of 2^-48 ns a cycle: FREQ in units of 2^-40 (R323). -/
def State.freqOff (s : State) : Int := toSigned 32 (s.reg TIM_FREQ) * 256

/-- Units of 2^-48 ns a slew adds each cycle of the time island, within the total limit of ±1,953.125 ppm = 2^39
(R323, R329). -/
def State.slewStep (s : State) : Nat :=
  let ppm := max 1 (min 1953 (s.rd TIM_SLEW_CFG_MAX))
  let want := ppm * 2 ^ 48 / 1000000
  let room : Int := if s.time.slewNeg then 2 ^ 39 + s.freqOff else 2 ^ 39 - s.freqOff
  min want room.toNat

/-- The rate the time island sends: units of 2^-48 ns each ns (R325). -/
def State.sentRate (s : State) : Nat :=
  let sl : Int := if s.time.slewLeft = 0 then 0 else
    if s.time.slewNeg then -(s.slewStep : Int) else (s.slewStep : Int)
  ((2 ^ 48 : Nat) + s.freqOff + sl).toNat

/-- Device time at this tick, between the cycles of the time island too. -/
def State.accFine (s : State) : Nat :=
  s.time.acc + (if s.islStopped islTime then 0 else s.time.mono % 8 * s.sentRate / 8)

/-- A value of an accumulator moved by Δ ns. -/
def accStep (a : Nat) (d : Int) : Nat := ((a : Int) + d * (2 ^ 48 : Nat)).toNat

/-- How far the copy of an island may be from the time island while updates arrive: 0.25 ns in a SerDes quad, 1.0 ns
elsewhere (R325). -/
def islBound (i : Nat) : Nat := if 32 ≤ i ∧ i < 96 then 2 ^ 46 else 2 ^ 48

/-- An island's copy as its own advance rate has taken it. -/
def State.rawCopy (s : State) (i : Nat) : Nat :=
  let c := s.time.isl.get {} i
  c.base + (s.time.mono - c.at_) * c.rate / 8

/-- Whether the agreement of R325 holds of an island: its updates arrive. -/
def State.agrees (s : State) (i : Nat) : Bool := s.time.sync.get false i && !s.islStopped i

/-- An island's copy on the scale of its `base`; where updates arrive it agrees with the time island (R325). -/
def State.copyOld (s : State) (i : Nat) : Nat :=
  let ref := match (s.time.isl.get {} i).lag with
    | some (_, d) => accStep s.accFine (-d)
    | none => s.accFine
  if s.agrees i then max (ref - islBound i) (min (ref + islBound i) (s.rawCopy i)) else s.rawCopy i

/-- The copy of an island and the step it has still to take: it has taken one when it has reached its `T_s` (R331). -/
def State.copyNow (s : State) (i : Nat) : Nat × Option (Nat × Int) :=
  let a := s.copyOld i
  match (s.time.isl.get {} i).lag with
  | some (ts, d) => if a < ts * 2 ^ 48 then (a, some (ts, d)) else (accStep a d, none)
  | none => (a, none)

/-- Device time as an island reads it, units of 2^-48 ns: the time island's own, or its local copy (R325, R326). An
accepted step is taken when the copy reaches `T_s` (R331). -/
def State.localAcc (s : State) (i : Nat) : Nat :=
  if i = islTime then s.time.acc
  else
    let (a, lag) := s.copyNow i
    match lag, s.time.stepPend with
    | none, some r => if a < r.ts * 2 ^ 48 then a else accStep a r.delta
    | _, _ => a

/-- Device time in whole ns as an island reads it (R326). -/
def State.now (s : State) (i : Nat) : Nat := s.localAcc i / 2 ^ 48

/-- Device time of the time island, whole ns. -/
def State.devNow (s : State) : Nat := s.time.acc / 2 ^ 48

/-- The accumulator and remaining slew after `n` cycles of the time island (R323, R329). -/
def State.accAfter (s : State) (n : Nat) : Nat × Nat :=
  let ab := min s.time.slewLeft (n * s.slewStep)
  let d : Int := (n * 2 ^ 48 : Nat) + s.freqOff * (n : Int) + (if s.time.slewNeg then -(ab : Int) else (ab : Int))
  (s.time.acc + d.toNat, s.time.slewLeft - ab)

/-! ### Performance events (R399) -/

/-- `n` occurrences of a performance event at a unit in the current cycle. -/
def State.pmuEv (s : State) (code unit : Nat) (n : Nat := 1) : State :=
  { s with obs.pmuNow := s.obs.pmuNow.modify 0 (64 * code + unit) (· + n) }

/-- Whether a sampling window is open, by an island's time (R401, R326). -/
def State.sampOpen (s : State) (isl : Nat) : Bool :=
  match s.obs.sampEnd with
  | some e => decide (s.now isl < e)
  | none => false

/-- The island that decides a performance event of a unit (R390). -/
def pmuIsl (code unit : Nat) : Nat :=
  if code = 0x0C then islCol unit
  else if code < 0x20 then islBough unit else if code < 0x30 then islCluster unit else if code < 0x40 then islRts unit
  else if code < 0x50 then islGroup unit else if code < 0x60 then islTm unit else islMgmt

/-- Ticks of 125 ps in a cycle of the island of an event (R14). -/
def pmuPeriod (code : Nat) : Nat :=
  if 0x30 ≤ code ∧ code ≤ 0x34 then 8 else if 0x60 ≤ code then 20 else 5

/-- The number of units of an event's kind (R399). -/
def pmuUnits (code : Nat) : Nat :=
  if 0x01 ≤ code ∧ code ≤ 0x0D then 32 else if 0x20 ≤ code ∧ code ≤ 0x24 then 16
  else if 0x30 ≤ code ∧ code ≤ 0x34 then 2 else if 0x40 ≤ code ∧ code ≤ 0x43 then 16
  else if 0x50 ≤ code ∧ code ≤ 0x53 then 4 else if 0x60 ≤ code ∧ code ≤ 0x63 then 1 else 0

/-- A Root store controller. -/
def State.rts (s : State) (c : Nat) : RtsSt := if c = 0 then s.rts0 else s.rts1

/-- Frames of a bough that wait at a port's FIFO head for a buffer (R274). -/
def State.fifoWaiting (s : State) (b : Nat) : Nat :=
  (s.rx.filter (fun e => e.1 / 8 == b && (match e.2.fifo with
    | t :: _ => (s.pkts.find? (8192 * b + t)).any (fun p => p.nobuf && !p.hasBuf)
    | [] => false))).length

/-- The occupancy an occupancy event reads (R399); 0 for an event that counts occurrences. -/
def State.pmuLevel (s : State) (code unit : Nat) : Nat :=
  match code with
  | 0x07 => b2n (decide (s.rd (BGH_TAG_THR_THR unit) ≤ s.rd (BGH_TAG_STS_IN_USE unit)))
  | 0x08 => s.fifoWaiting unit
  | 0x0B => s.rd (CRN_RD_STS_RD_OUT unit)
  | 0x22 => s.rd (TWG_CLU_STS_DISP_USE unit)
  | 0x23 => s.rd (TWG_CLU_STS_WIN_USE unit)
  | 0x24 => (s.twig.items.filter (fun e => e.2.cluster == unit && decide (e.2.cold = .wanted))).length
  | 0x31 => (s.rts unit).reqs.length
  | 0x34 => ((s.rts unit).held.map (·.cls)).eraseDups.length
  | 0x41 => (s.pkts.filter (fun e => decide (e.2.stage = .parked) && e.2.flow.grp == unit)).length
  | 0x52 => s.rd (TMG_DESC_STS_IN_USE unit)
  | 0x61 => s.rd TRK_STS_BUSY
  | 0x63 => s.rd BRG_STS_MRG_USE
  | _ => 0

/-- The event a performance counter's configuration word selects, and its unit: counter key 8 b + j or 256 + g. -/
def pmuSel (key cfg : Nat) : Nat × Nat :=
  (getBits cfg 0 8, if key < 256 then key / 8 else getBits cfg 10 5)

/-- Whether the counter's event exists and its unit is in range; a bough counter counts only bough events (R399). -/
def pmuValid (key code unit : Nat) : Bool :=
  decide (unit < pmuUnits code) && (decide (256 ≤ key) || (decide (1 ≤ code) && decide (code ≤ 0x0D)))

/-- The key of the performance counter whose configuration register stands at an address. -/
def pmuKeyOf (a : Nat) : Option Nat :=
  if 0xA001000 ≤ a ∧ a < 0xA001400 then some ((a - 0xA001000) / 4)
  else if 0xA002000 ≤ a ∧ a < 0xA002100 then some (256 + (a - 0xA002000) / 4)
  else none

/-- One performance counter over the `k` cycles that end now, the first of which saw the occurrences (R399, R400). -/
def State.pmuCount (s : State) (key cfg m m' : Nat) : State :=
  let (code, unit) := pmuSel key cfg
  let k := m' / pmuPeriod code - m / pmuPeriod code
  if !pmuValid key code unit || k = 0 then s
  else
    let lvl := s.pmuLevel code unit
    let first := s.obs.pmuNow.get 0 (64 * code + unit) + lvl
    let prev := s.obs.pmuPrev.get false key
    let gate := !s.on OBS_PMU_CTL_GATE || s.sampOpen (pmuIsl code unit)
    let s' := { s with obs.pmuPrev := s.obs.pmuPrev.set false key (decide (1 ≤ if k = 1 then first else lvl)) }
    if !gate || !bit cfg 15 || !s.on OBS_PMU_CTL_RUN then s'
    else
      let add := match getBits cfg 8 2 with
        | 1 => b2n (decide (1 ≤ first)) + (k - 1) * b2n (decide (1 ≤ lvl))
        | 2 => b2n (decide (1 ≤ first) && !prev) + (if 1 < k then b2n (decide (1 ≤ lvl) && decide (first = 0)) else 0)
        | _ => first + (k - 1) * lvl
      let v := s'.obs.pmu.get 0 key + add
      let s' := { s' with obs.pmu := s'.obs.pmu.set 0 key (v % 2 ^ 48) }
      if v < 2 ^ 48 then s' else { s' with obs.pmuWrap := s'.obs.pmuWrap ++ [key] }

/-- Every configured performance counter over the ticks from `m` to `m'`; occurrences of the cycles that ended are
spent. -/
def State.pmuTick (s : State) (m m' : Nat) : State :=
  let s' := s.regs.foldl (fun t e =>
    match pmuKeyOf e.1 with
    | some key => t.pmuCount key e.2.toNat m m'
    | none => t) s
  { s' with obs.pmuNow := s'.obs.pmuNow.filter (fun e =>
      m' / pmuPeriod (e.1 / 64) == m / pmuPeriod (e.1 / 64)) }

/-- R268: each cycle of a controller's island in which a requester is held back counts. -/
def State.backpress (s : State) (c cyc : Nat) : State :=
  if (s.rts c).held.isEmpty || cyc = 0 then s else s.cnt (RTS_BACKPRESS_CNT c) cyc

/-- SVN_KNOT_OWNk.LEFT of the knots held: what remains of each lease in ms, rounded up (R378). -/
def State.leaseShow (s : State) : State :=
  s.svn.knots.foldl (fun s e => s.wr (SVN_KNOT_OWN_LEFT e.1) (ceilDiv (e.2.until_ - s.time.mono) 8000000)) s

/-- `n` ticks of 125 ps pass: the time island's cycles add to device time, the local copies run on, the performance
counters count their cycles. While PORST_N holds the device, device time stays at its start (R324). -/
def State.advance (s : State) (n : Nat) : State :=
  let m := s.time.mono
  let m' := m + n
  if s.inPor then { s with time.mono := m' }
  else
    let cyc := m' / 8 - m / 8
    let (a, l) := if s.islStopped islTime then (s.time.acc, s.time.slewLeft) else s.accAfter cyc
    let s := s.pmuTick m m'
    let s := s.backpress 0 cyc
    let s := s.backpress 1 cyc
    { s with time.mono := m', time.acc := a, time.slewLeft := l }.leaseShow

/-- Time passes until true time is at least `due` ticks. -/
def State.waitMono (s : State) (due : Nat) : State :=
  if due ≤ s.time.mono then s else s.advance (due - s.time.mono)

/-- Cycles of the time island until its accumulator is at least `want`. A slew that ends on the way changes the rate: with
it the accumulator is the lesser of two straight lines, or with a negative one the greater. -/
def State.cyclesTo (s : State) (want : Nat) : Nat :=
  let base : Int := (2 ^ 48 : Nat) + s.freqOff
  let need : Int := (want : Int) - s.time.acc
  let line (n per : Int) : Nat := ceilDiv n.toNat per.toNat
  if need ≤ 0 then 0
  else if s.time.slewLeft = 0 then line need base
  else if s.time.slewNeg then min (line need (base - s.slewStep)) (line (need + s.time.slewLeft) base)
  else max (line need (base + s.slewStep)) (line (need - s.time.slewLeft) base)

/-- Ticks until the time island's device time is at least `t` ns: its cycle after which it is. -/
def State.ticksTo (s : State) (t : Nat) : Nat :=
  let n := s.cyclesTo (t * 2 ^ 48)
  if n = 0 then 0 else 8 * n - s.time.mono % 8

/-- Time passes until the time island's device time is at least `t` ns. A stopped time island never gets there. -/
def State.waitDev (s : State) (t : Nat) : State := if t ≤ s.devNow then s else s.advance (s.ticksTo t)

/-- Ticks until device time between the cycles (`accFine`) is at least `want`. -/
def State.ticksFine (s : State) (want : Nat) : Nat :=
  if want ≤ s.accFine then 0
  else
    let n := s.cyclesTo want
    let a := (s.accAfter (n - 1)).1
    8 * (n - 1) + min 8 (ceilDiv (8 * (want - a)) s.sentRate) - s.time.mono % 8

/-- Ticks until island `i`'s copy of device time is at least `t` ns; none where it has stopped. -/
def State.ticksIsl (s : State) (i t : Nat) : Nat :=
  if t ≤ s.now i then 0
  else if i = islTime then s.ticksTo t
  else
    let c := s.time.isl.get {} i
    let (want, off) := match (s.copyNow i).2, c.lag with
      | some (ts, d), _ => (max (ts * 2 ^ 48) (accStep (t * 2 ^ 48) (-d)), d)
      | none, some (_, d) => (accStep (t * 2 ^ 48) (-d), d)
      | none, none => (t * 2 ^ 48, 0)
    let raw := if c.rate = 0 then 0 else ceilDiv (8 * (want - c.base)) c.rate - (s.time.mono - c.at_)
    if s.agrees i then
      min (s.ticksFine (accStep (want + islBound i) off)) (max raw (s.ticksFine (accStep (want - islBound i) off)))
    else raw

/-- Time passes until island `i`'s copy of device time is at least `t` ns. -/
def State.waitIsl (s : State) (i t : Nat) : State := if t ≤ s.now i then s else s.advance (s.ticksIsl i t)

/-- A fresh free value's index (see Config). -/
def State.fresh (s : State) : Nat × State := (s.free, { s with free := s.free + 1 })

/-! ### Round robin -/

/-- The first waiting member at or cyclically after `from_`, of `n`. -/
def rrNext (from_ n : Nat) (waits : Nat → Bool) : Option Nat :=
  ((List.range n).map (fun j => (from_ + j) % n)).find? waits

/-- Kinds of round-robin arbiters, as keys of `turns`: decision slots of a bough (R19), its allocator (R273), a bough's
reads of its column (R283), Sirvan's loads of channel entries (R361) and command contexts (R366). -/
def rrSlots (b : Nat) : Nat := 65536 + b
def rrAlloc (b : Nat) : Nat := 2 * 65536 + b
def rrRead (c : Nat) : Nat := 3 * 65536 + c
def rrLoad : Nat := 4 * 65536
def rrContext : Nat := 5 * 65536

/-- The member that an arbiter of `n` members serves next. -/
def State.rrPick (s : State) (arb n : Nat) (waits : Nat → Bool) : Option Nat := rrNext (s.turns.get 0 arb) n waits

/-- Member `i` of an arbiter has been served: the next one has the first claim (where a first turn starts: DESIGN CHOICE,
assumption 105). -/
def State.rrServed (s : State) (arb n i : Nat) : State := { s with turns := s.turns.set 0 arb ((i + 1) % n) }

/-! ### The journal -/

/-- The key under which a unit's lost records are counted: the event class and the unit. -/
def jrnUnit (type unit : Nat) : Nat := type / 256 * 65536 + unit

/-- A record enters the writer's queue behind every record of another unit, and of its own unit behind those with a TS no
later (R410). The queue is given newest first. -/
def jrnBehind (r : JRec) : List JRec → List JRec
  | [] => [r]
  | q :: l =>
    if jrnUnit q.type q.unit = jrnUnit r.type r.unit ∧ r.ts < q.ts then
      q :: jrnBehind r l
    else if l.any (fun x => jrnUnit x.type x.unit == jrnUnit r.type r.unit && decide (r.ts < x.ts)) then
      q :: jrnBehind r l
    else r :: q :: l

/-- The queue, oldest first, with a record entered. -/
def jrnInsert (r : JRec) (l : List JRec) : List JRec := (jrnBehind r l.reverse).reverse

/-- A unit that lost records and can hand over again writes JRN_LOST with their number and the TS of the first, before
anything else (R411). -/
def State.jrnFlushLost (s : State) (isl u : Nat) : State :=
  let l := s.jrn.lost.get (0, 0) u
  if l.1 = 0 || 4096 ≤ s.jrn.q.length then s
  else
    let r : JRec := ⟨s.now isl, 0x0C01, u % 65536, false, 0, 0, natLe 4 l.1 ++ List.replicate 4 0 ++ natLe 8 l.2⟩
    { s with jrn.q := s.jrn.q ++ [r], jrn.lost := s.jrn.lost.erase u }

/-- A record handed to the journal writer, or lost and counted when it holds 4,096 (R411). With OBS_JRN_CFG.EN = 0 the
journal is not written. -/
def State.journalRec (s : State) (isl : Nat) (r : JRec) : State :=
  if !s.on OBS_JRN_CFG_EN then s
  else
    let u := jrnUnit r.type r.unit
    let s := s.jrnFlushLost isl u
    if 4096 ≤ s.jrn.q.length then
      let l := s.jrn.lost.get (0, 0) u
      let s := { s with jrn.lost := s.jrn.lost.set (0, 0) u (l.1 + 1, if l.1 = 0 then r.ts else l.2) }
      (s.cnt OBS_JRN_LOST_CNT).raise OBS_INT_JRN_LOST
    else { s with jrn.q := jrnInsert r s.jrn.q }

/-- An event with no packet: TS is device time in the island that raises it (R408, R326). -/
def State.journal (s : State) (isl type unit : Nat) (body : List Byte) : State :=
  s.journalRec isl ⟨s.now isl, type, unit, false, 0, 0, body⟩

/-- An event of an island at a stated device time. -/
def State.journalAt (s : State) (isl ts type unit : Nat) (body : List Byte) : State :=
  s.journalRec isl ⟨ts, type, unit, false, 0, 0, body⟩

/-- An event of a packet: TS is its ARR_TS, and the record names its SEQ and port (R408). -/
def State.journalPkt (s : State) (isl type unit : Nat) (b : Bark) (body : List Byte) : State :=
  s.journalRec isl ⟨b.arrTs, type, unit, true, b.seq, b.ingPort, body⟩

/-! ### Answers -/

/-- A command completes in this state. -/
def done (s : State) : Out := .next s

/-- A command that acts only outside reset; in reset nothing happens. -/
def whenUp (s : State) (f : State → State) : Out := .next (if s.inReset then s else f s)

/-- A command of an island: nothing happens while the device is in reset or the island is stopped (R450). -/
def onIsl (i : Nat) (s : State) (f : State → State) : Out := .next (if s.alive i then f s else s)

/-- Whether the time island acts: SYSRST_N does not stop it (R324). -/
def State.timeUp (s : State) : Bool := !s.inPor && !s.islStopped islTime

/-- An event of the time island. -/
def onTime (s : State) (f : State → State) : Out := .next (if s.timeUp then f s else s)

/-! ### BAR0 accesses (R427, R444 to R446) -/

/-- The island that holds the register at a BAR0 offset (R444). -/
def bar0Isl (a : Nat) : Nat :=
  if a < 0x200000 then islMgmt
  else if a < 0x1000000 then islTime
  else if a < 0x2000000 then portQuad ((a - 0x1000000) / 0x1000)
  else if a < 0x3000000 then islBough ((a - 0x2000000) / 0x40000 % 32)
  else if a < 0x5000000 then islMgmt
  else if a < 0x6000000 then (if 0x5010000 ≤ a ∧ a < 0x5030000 then islRts ((a - 0x5010000) / 0x10000) else islMgmt)
  else if a < 0x7000000 then
    (if 0x6400000 ≤ a ∧ a < 0x6600000 then islCol ((a - 0x6400000) / 0x10000)
     else if 0x6010000 ≤ a ∧ a < 0x6210000 then islBough ((a - 0x6010000) / 0x10000) else islMgmt)
  else if a < 0x8000000 then
    (if 0x7100000 ≤ a ∧ a < 0x7200000 then islTm (portTm ((a - 0x7100000) / 0x1000)) else islMgmt)
  else if a < 0x9000000 then islMgmt
  else if a < 0xA000000 then islPcie
  else islMgmt

/-- An access event recorded under R446: the offset of the first until both sticky bits are clear. -/
def State.accEvent (s : State) (stk int : RFld) (a : Nat) (write : Bool) : State :=
  let s := if s.reg GLB_ACC_STS = 0 then
      s.setReg GLB_ACC_ADDR (a % 2 ^ 28 + b2n write * 2 ^ 31) else s
  (s.wr stk 1).raise int

/-- What reaches a register of BAR0 (R427, R446, R450): in reset, or with the PCIe or management island stopped, a write
is discarded; while BUSY, a write outside the GLB block is discarded and flagged; a stopped island times out. An address
that no register has is flagged so too, though R9 flags no write to it (DESIGN CHOICE, assumption 99). -/
def State.barWrite (s : State) (a : Nat) (f : State → State) : State :=
  if s.inReset || s.islStopped islPcie || s.islStopped islMgmt then s
  else if s.on GLB_BOOT_STS_BUSY && decide (0x100000 ≤ a) then s.wr GLB_BOOT_STS_WR_DROP_STK 1
  else if s.islStopped (bar0Isl a) then s.accEvent GLB_ACC_STS_TMO_STK GLB_INT_ACC_TMO a true
  else f s

/-- Whether a host write of the register at `a` reaches it. -/
def State.reaches (s : State) (a : Nat) : Bool :=
  !s.inReset && !s.islStopped islPcie && !s.islStopped islMgmt && !(s.on GLB_BOOT_STS_BUSY && decide (0x100000 ≤ a))
    && !s.islStopped (bar0Isl a)

/-- A row that is a host write of the register at `a`. -/
def onBar0 (a : Nat) (s : State) (f : State → State) : Out := .next (s.barWrite a f)

end Sys2Proof.Machine
end

