-- ==== Sys2Proof/Machine/Pins.lean ====
section
/-!
DEFINITION. Reference clocks and islands (R448 to R452), junction temperature (R475, R476; the trip is with the resets),
the test access port (R473), and BAR0 accesses that complete abnormally (R7, R446).
-/
namespace Sys2Proof.Machine

/-! ### Clocks -/

/-- The island's bit in CLK_ISL_LOCKi, and the summary of all 169 (R450). -/
def State.setLock (s : State) (i : Nat) (v : Bool) : State :=
  let f := CLK_ISL_LOCK_ISL (i / 32)
  let s := s.wr f (setBits (s.rd f) (i % 32) 1 (b2n v))
  let all := (List.range 5).all (fun k => s.rd (CLK_ISL_LOCK_ISL k) == 0xFFFFFFFF) && s.rd (CLK_ISL_LOCK_ISL 5) == 0x1FF
  s.wrB CLK_STS_ALL_LOCKED all

/-- CLK_REF_STS shows which reference inputs are present (R451). -/
def State.showRefs (s : State) : State :=
  s.setReg CLK_REF_STS (7 - s.clk.refLost % 8)

/-- R451: the input has been stopped for 1 µs (8,000 ticks). Its followers then lose lock, each by ISLAND_UNLOCK. -/
def State.refClockLoss (s : State) (r : Nat) : State :=
  let s := s.advance 8000
  let s := { s with clk.refLost := s.clk.refLost ||| 2 ^ r }
  s.showRefs.raise CLK_INT_REF_LOSS

def execRefClockLoss (ref : Fin 3) (s : State) : Out := .next (if s.inPor then
    { s with clk.refLost := s.clk.refLost ||| 2 ^ ref.val } else s.refClockLoss ref.val)

/-- R451: the input is present again. -/
def State.refClockReturn (s : State) (r : Nat) : State :=
  let s := { s with clk.refLost := setBits s.clk.refLost r 1 0 }
  if s.inPor then s else s.showRefs

def execRefClockReturn (ref : Fin 3) (s : State) : Out := done (s.refClockReturn ref.val)

/-- R450: the island stops; its copy of device time stops with it, its LOCK bit falls, its FAIL bit rises. -/
def State.islandUnlock (s : State) (i : Nat) : State :=
  let s := if i = islTime then s else
    let (a, lag) := s.copyNow i
    { s with time.isl := s.time.isl.set {} i ⟨a, s.time.mono, 0, lag⟩ }
  let s := s.setLock i false
  let f := CLK_ISL_FAIL_ISL (i / 32)
  let s := s.wr f (setBits (s.rd f) (i % 32) 1 1)
  (s.cnt CLK_UNLOCK_CNT).raise CLK_INT_UNLOCK

def execIslandUnlock (isl : Fin 169) (s : State) : Out := onIsl isl.val s (·.islandUnlock isl.val)

/-- R449: TCLK_SEL is used only while INIT = 1; the time PLL then relocks. -/
def State.tclkSel (s : State) (v : Nat) : State :=
  if s.on TIM_STS_INIT then
    { s.wr CLK_CFG_TCLK_SEL v with clk.relock := true }.setLock islTime false
  else s.wr CLK_STS_CFG_REJ_STK 1

def execTclkSelWrite (sel : Bool) (s : State) : Out := onBar0 CLK_CFG s (·.tclkSel (b2n sel))

/-- R449: the relock completes. -/
def execTimePllRelock (s : State) : Out :=
  onTime s (fun s => if s.clk.relock then { s with clk.relock := false }.setLock islTime true else s)

/-- R452: a measurement starts, or is refused while BUSY or for an island above 168. Of a refused write ISL is not stored
(DESIGN CHOICE, assumption 100). -/
def State.measStart (s : State) (i : Nat) : State :=
  if s.on CLK_MEAS_CTL_BUSY || decide (168 < i) then s.wr CLK_STS_CFG_REJ_STK 1
  else
    { (s.wr CLK_MEAS_CTL_ISL i).wr CLK_MEAS_CTL_BUSY 1 with
      clk.measEnd := some (s.devNow + 1000000), clk.measFrom := s.time.mono }

def execClkMeasStart (isl : BitVec 8) (s : State) : Out := onBar0 CLK_MEAS_CTL s (·.measStart isl.toNat)

/-- Cycles of an island's nominal clock in a number of ticks (R14). -/
def islCycles (i ticks : Nat) : Nat :=
  if 32 ≤ i ∧ i < 96 then ticks * 166015625 / 800000000
  else if i = 160 ∨ i = 161 ∨ i = 166 ∨ i = 168 then ticks / 8
  else if i = 167 then ticks / 20 else ticks / 5

/-- R452: the window ends; the count stands within ±2 cycles. A stopped island counts none. -/
def State.measDone (s : State) : State :=
  match s.clk.measEnd with
  | none => s
  | some e =>
    let s := s.waitDev e
    let i := s.rd CLK_MEAS_CTL_ISL
    let (n, s) := s.fresh
    let err := max (-2) (min 2 (Config.measErr n))
    let c := if s.islStopped i then 0 else ((islCycles i (s.time.mono - s.clk.measFrom) : Int) + err).toNat
    { (s.setReg CLK_MEAS_RES c).wr CLK_MEAS_CTL_BUSY 0 with clk.measEnd := none }

def execClkMeasDone (s : State) : Out := onIsl islMgmt s (·.measDone)

/-! ### Junction temperature -/

/-- The readings of the sensors that are VALID, lowest sensor first: (sensor, signed reading). -/
def State.tjReadings (s : State) : List (Nat × Int) :=
  (List.range 16).filterMap (fun n =>
    if s.on (GLB_TJ_SNS_VALID n) then some (n, toSigned 10 (s.rd (GLB_TJ_SNS_TEMP n))) else none)

/-- The highest reading; the lowest-numbered sensor among equals. -/
def tjHighest : List (Nat × Int) → Option (Nat × Int)
  | [] => none
  | e :: r => match tjHighest r with
    | none => some e
    | some b => if b.2 ≤ e.2 then some e else some b

/-- GLB_TJ_MAX and GLB_TJ_HWM after a change of the readings. -/
def State.tjMax (s : State) : State :=
  match tjHighest s.tjReadings with
  | none => s.setReg GLB_TJ_MAX 0
  | some (n, t) =>
    let w := ofSigned 10 t + n * 2 ^ 16
    let s := s.setReg GLB_TJ_MAX w
    if toSigned 10 (s.rd GLB_TJ_HWM_TEMP) < t then s.setReg GLB_TJ_HWM w else s

/-- R476: THERM_ALERT_N and its causes. -/
def State.tjAlert (s : State) : State :=
  let a := toSigned 10 (s.rd GLB_TJ_CFG_ALERT)
  let lo := a - (s.rd GLB_TJ_CFG_HYST : Int)
  let rs := s.tjReadings
  if !s.tj.alertLow && rs.any (fun e => decide (a ≤ e.2)) then
    { s with tj.alertLow := true }.raise GLB_TJ_INT_ALERT
  else if s.tj.alertLow && rs.all (fun e => decide (e.2 < lo)) then
    { s with tj.alertLow := false }.raise GLB_TJ_INT_ALERT_CLR
  else s

/-- R475: a sensor's reading is complete. -/
def State.tjReading (s : State) (n temp : Nat) : State :=
  let s := (s.wr (GLB_TJ_SNS_TEMP n) temp).wr (GLB_TJ_SNS_VALID n) 1
  let s := { s with tj.readAt := s.tj.readAt.insert n s.time.mono }
  s.tjMax.tjAlert

/-- A sensor has completed no reading for 1 ms (8,000,000 ticks); its VALID falls. -/
def State.snsFail (s : State) (n : Nat) : State :=
  let s := s.waitMono ((s.tj.readAt.get 0 n) + 8000000)
  (s.wr (GLB_TJ_SNS_VALID n) 0).tjMax.raise GLB_TJ_INT_SNS_FAIL

def execSnsFail (n : Fin 16) (s : State) : Out := .next (if s.inPor then s else s.snsFail n.val)

/-- A write of GLB_TJ_CFG with HWM_CLR: the high-water mark becomes the present maximum. -/
def State.tjHwmClr (s : State) (v : Nat) : State :=
  let s := s.hostWrite GLB_TJ_CFG v
  s.setReg GLB_TJ_HWM (s.reg GLB_TJ_MAX)

def execTjHwmClr (v : Word) (s : State) : Out := onBar0 GLB_TJ_CFG s (·.tjHwmClr v.toNat)

/-! ### Abnormal BAR0 accesses -/

/-- R7: a bad access; a read completes with all ones. In reset a read does too, and nothing is flagged (R427). -/
def State.badAccess (s : State) (off : Nat) (write : Bool) : State :=
  let s := if write then s else { s with lastRead := BitVec.ofNat 32 0xFFFFFFFF }
  if s.inReset || s.islStopped islPcie || s.islStopped islMgmt then s
  else s.accEvent GLB_ACC_STS_ACC_ERR_STK GLB_INT_ACC_ERR off write

def execBar0BadAccess (off : BitVec 28) (write : Bool) (s : State) : Out := done (s.badAccess off.toNat write)

/-- R446: an access to a stopped island completes after 4 µs (32,000 ticks), flagged. -/
def State.accessTimeout (s : State) (off : Nat) (write : Bool) : State :=
  if s.inReset || s.islStopped islPcie || s.islStopped islMgmt || !s.islStopped (bar0Isl off) then s
  else
    let s := s.advance 32000
    let s := if write then s else { s with lastRead := BitVec.ofNat 32 0xFFFFFFFF }
    s.accEvent GLB_ACC_STS_TMO_STK GLB_INT_ACC_TMO off write

def execBar0AccessTimeout (off : BitVec 28) (write : Bool) (s : State) : Out := done (s.accessTimeout off.toNat write)

/-! ### JTAG -/

/-- The data registers of R473. -/
inductive JtagDr where
  | boundary | idcode | bypass
  deriving DecidableEq, Repr

/-- The data register an instruction selects (R473). -/
def jtagDr (ir : BitVec 8) : JtagDr :=
  if ir = 0 ∨ ir = 1 ∨ ir = 5 ∨ ir = 6 then .boundary else if ir = 2 then .idcode else .bypass

/-- The 32-bit IDCODE (R473). -/
def jtagIdcode : Word := 0x1510084B

/-- A JTAG instruction takes effect: what drives the pins, and whether they were taken from the device. -/
def State.jtagSet (s : State) (ir : BitVec 8) (driven hiz : Bool) : State :=
  { s with jtag.ir := ir, jtag.driven := driven, jtag.hiz := hiz, rst.pinsTaken := s.rst.pinsTaken || driven || hiz }

/-- A JTAG instruction with the boundary-scan register: its cells hold what was scanned. -/
def State.jtagCells (s : State) (c : Nat) : State := { s with jtag.bsr := c }

def execJtagExtest (cells : Nat) (s : State) : Out := done ((s.jtagCells cells).jtagSet 0x00 true false)
def execJtagSamplePreload (cells : Nat) (s : State) : Out := done ((s.jtagCells cells).jtagSet 0x01 false false)
def execJtagIdcode (s : State) : Out := done (s.jtagSet 0x02 false false)
def execJtagClamp (s : State) : Out := done (s.jtagSet 0x03 true false)
def execJtagHighz (s : State) : Out := done (s.jtagSet 0x04 false true)
def execJtagExtestPulse (cells : Nat) (s : State) : Out := done ((s.jtagCells cells).jtagSet 0x05 true false)
def execJtagExtestTrain (cells : Nat) (s : State) : Out := done ((s.jtagCells cells).jtagSet 0x06 true false)

/-- R473: 0xFF and every unlisted value select the bypass register; a listed opcode is not this row and changes nothing. -/
def execJtagBypass (code : BitVec 8) (s : State) : Out :=
  done (if 0x06 < code.toNat then s.jtagSet code false false else s)

/-- R473: Test-Logic-Reset selects IDCODE. -/
def execJtagTestLogicReset (s : State) : Out := done (s.jtagSet 0x02 false false)

end Sys2Proof.Machine
end

