-- ==== Sys2Proof/Machine/Layouts.lean ====
section
/-!
DEFINITION. Host-visible table entries (R369): the number an entry's bytes spell little-endian, its fields as (lsb,
width), its default contents, and which of its bits a host write may set (R483).
-/
namespace Sys2Proof.Machine

/-- A field of a table entry. -/
structure Fld where
  lsb : Nat
  w : Nat
  deriving DecidableEq, Repr

/-- The value of a field of an entry. -/
def fget (e : Nat) (f : Fld) : Nat := getBits e f.lsb f.w
/-- A one-bit field as a Boolean. -/
def fon (e : Nat) (f : Fld) : Bool := fget e f != 0
/-- An entry with a field replaced. -/
def fset (e : Nat) (f : Fld) (v : Nat) : Nat := setBits e f.lsb f.w v

/-! ### Parse graph (R81, R84, R100) -/

def ND_KIND : Fld := ⟨0, 8⟩
def ND_TERM : Fld := ⟨8, 1⟩
def ND_REQ_NEXT : Fld := ⟨9, 1⟩
def ND_PROF_V : Fld := ⟨10, 1⟩
def ND_PROF : Fld := ⟨12, 4⟩
def ND_LEN_ADD : Fld := ⟨16, 8⟩
def ND_LEN_OFF : Fld := ⟨24, 8⟩
def ND_LEN_MASK : Fld := ⟨32, 16⟩
def ND_LEN_SHR : Fld := ⟨48, 4⟩
def ND_LEN_MUL : Fld := ⟨52, 3⟩
def ND_NXT_OFF : Fld := ⟨56, 8⟩
def ND_NXT_MASK : Fld := ⟨64, 16⟩
def ND_USR_OFF : Fld := ⟨80, 8⟩
def ND_USR_W : Fld := ⟨88, 3⟩
def ND_USR_V : Fld := ⟨95, 1⟩
def ND_TUN_OFF : Fld := ⟨96, 8⟩
def ND_TUN_SHR : Fld := ⟨104, 5⟩

def TR_FROM : Fld := ⟨0, 7⟩
def TR_V : Fld := ⟨7, 1⟩
def TR_VALUE : Fld := ⟨16, 16⟩
def TR_MASK : Fld := ⟨32, 16⟩
def TR_TO : Fld := ⟨48, 7⟩
def TR_STOP : Fld := ⟨55, 1⟩

def KP_MASK : Fld := ⟨0, 52⟩
def KP_EN : Fld := ⟨64, 1⟩
def KP_HDR_SEL : Fld := ⟨65, 1⟩
def KP_EXT_SEL : Fld := ⟨66, 2⟩

/-- The kinds of the default nodes 0 to 20 (R86). -/
def dfltKinds : List Nat :=
  [0x01, 0x02, 0x03, 0x05, 0x06, 0x04, 0x12, 0x14, 0x15, 0x07, 0x11, 0x0B, 0x0A, 0x0C, 0x0D, 0x09, 0x10, 0x08, 0x0E,
   0x0F, 0x01]

/-- One default transition: valid, all bits of the value matched. -/
def dfltTr (from_ value dest : Nat) : Nat := from_ + 128 + value * 2 ^ 16 + 0xFFFF * 2 ^ 32 + dest * 2 ^ 48

/-- Next values of the Ethernet headers and tags, and the nodes they lead to (R86). -/
def ethNext : List (Nat × Nat) :=
  [(0x8100, 1), (0x88A8, 2), (0x0800, 3), (0x86DD, 4), (0x8847, 5), (0x8848, 5), (0x0806, 6)]
/-- Next values of IPv4 (R86). -/
def ipNext : List (Nat × Nat) := [(6, 11), (17, 12), (1, 13), (58, 14), (47, 15), (50, 16), (51, 10)]
/-- Next values that lead to extension and fragment headers (R86). -/
def extNext : List (Nat × Nat) := [(0, 9), (43, 9), (60, 9), (44, 17)]

/-- The default transition table, from entry 0 on (R86 gives the transitions; their entry numbers are a DESIGN CHOICE). -/
def dfltTrans : List Nat :=
  [0, 1, 2, 20].flatMap (fun f => ethNext.map (fun x => dfltTr f x.1 x.2))
    ++ [dfltTr 5 0x0000 5, dfltTr 5 0x0104 7, dfltTr 5 0x0106 8]
    ++ [3, 7].flatMap (fun f => ipNext.map (fun x => dfltTr f x.1 x.2))
    ++ [4, 8, 9, 10, 17].flatMap (fun f => (ipNext ++ extNext).map (fun x => dfltTr f x.1 x.2))
    ++ [dfltTr 12 4789 18, dfltTr 12 6081 19, 18 + 128 + 20 * 2 ^ 48]
    ++ [15, 19].flatMap (fun f => [dfltTr f 0x6558 20, dfltTr f 0x0800 3, dfltTr f 0x86DD 4])

/-! ### Rules and actions (R109, R110, R117): ACT_IDX and V of a rule stand after the key and mask -/

def AR_OP : Fld := ⟨0, 3⟩
def AR_COPY : Fld := ⟨3, 1⟩
def AR_MIRROR : Fld := ⟨4, 4⟩
def AR_CLASS : Fld := ⟨8, 4⟩
def AR_FA_SEL : Fld := ⟨12, 4⟩
def AR_EGR : Fld := ⟨16, 12⟩
def AR_RECIRC : Fld := ⟨28, 1⟩
def AR_TWIG_V : Fld := ⟨29, 1⟩
def AR_POL_V : Fld := ⟨30, 1⟩
def AR_POL_IDX : Fld := ⟨32, 13⟩
def AR_EDIT_OP : Fld := ⟨45, 3⟩
def AR_TWIG_RT : Fld := ⟨48, 12⟩
def AR_EDIT_VID : Fld := ⟨64, 12⟩
def AR_EDIT_PCP : Fld := ⟨76, 3⟩
def AR_DSCP : Fld := ⟨80, 6⟩
def AR_DSCP_V : Fld := ⟨86, 1⟩
def AR_TTL_DEC : Fld := ⟨87, 1⟩
def AR_HOST_CH : Fld := ⟨96, 10⟩

/-- Bits of a rule key: WIDTH 0 or 1 (R106). -/
def ruleBits (width : Nat) : Nat := if width = 0 then 640 else 320
def RU_ACT (width : Nat) : Fld := ⟨2 * ruleBits width, 16⟩
def RU_V (width : Nat) : Fld := ⟨2 * ruleBits width + 16, 1⟩

def RK_HDR_SEL : Fld := ⟨0, 1⟩
def RK_UDF_NODE (n : Nat) : Fld := ⟨8 + 16 * n, 7⟩
def RK_UDF_V (n : Nat) : Fld := ⟨15 + 16 * n, 1⟩
def RK_UDF_OFF (n : Nat) : Fld := ⟨16 + 16 * n, 8⟩

/-! ### Bridging, VLAN, VIP (R132, R136, R149) -/

def BR_VID : Fld := ⟨48, 12⟩
def BR_EGR : Fld := ⟨64, 12⟩
def BR_MCAST : Fld := ⟨76, 1⟩
def BR_V : Fld := ⟨80, 1⟩
def BR_STATIC : Fld := ⟨81, 1⟩
def BR_LEARNED : Fld := ⟨82, 1⟩
def BR_AGE : Fld := ⟨83, 1⟩
def BR_INST_TS : Fld := ⟨96, 32⟩
/-- The station address of a bridging entry, as a network-order number. -/
def brMac (e : Nat) : Nat := beNat (natLe 6 e)

def VL_MEMBER : Fld := ⟨0, 256⟩
def VL_FLOOD_GRP : Fld := ⟨256, 12⟩
def VL_V : Fld := ⟨272, 1⟩
def VL_LEARN_EN : Fld := ⟨273, 1⟩
def VL_ING_FILT : Fld := ⟨274, 1⟩

def VP_PLEN : Fld := ⟨128, 8⟩
def VP_V : Fld := ⟨136, 1⟩
def VP_EXACT : Fld := ⟨137, 1⟩
def VP_VER6 : Fld := ⟨138, 1⟩
def VP_ZONE : Fld := ⟨144, 8⟩
def VP_PROTO : Fld := ⟨152, 8⟩
def VP_PORT : Fld := ⟨160, 16⟩
def VP_LB_GRP : Fld := ⟨192, 16⟩
def VP_NAT_POOL : Fld := ⟨208, 12⟩
def VP_NAT_V : Fld := ⟨223, 1⟩
def VP_LB_V : Fld := ⟨224, 1⟩

/-! ### Meters, pools, groups, members, policers (R194, R200, R203, R313) -/

def MP_CIR : Fld := ⟨0, 32⟩
def MP_PIR : Fld := ⟨32, 32⟩
def MP_CBS : Fld := ⟨64, 24⟩
def MP_PBS : Fld := ⟨88, 24⟩
def MP_MODE : Fld := ⟨112, 1⟩
def MP_V : Fld := ⟨113, 1⟩

def NP_IN_LEN : Fld := ⟨32, 8⟩
def NP_SHARE : Fld := ⟨40, 3⟩
def NP_V : Fld := ⟨43, 1⟩
def NP_REV_ZONE : Fld := ⟨96, 8⟩
def NP_REV_PROF : Fld := ⟨104, 4⟩
def npInBase (e : Nat) : Nat := beNat (natLe 4 e)
def npOutBase (e : Nat) : Nat := beNat (natLe 4 (e / 2 ^ 64))
/-- PORT_LO, little-endian; values below 1,024 act as 1,024 (R200). -/
def npPortLo (e : Nat) : Nat := max 1024 (getBits e 48 16)

def LG_SLOT_BASE : Fld := ⟨144, 20⟩
def LG_SLOT_LOG2 : Fld := ⟨168, 5⟩
def LG_V : Fld := ⟨176, 1⟩
def LG_DNAT : Fld := ⟨177, 1⟩
def LG_VER6 : Fld := ⟨178, 1⟩
def LG_REV_ZONE : Fld := ⟨184, 8⟩
def LG_REV_PROF : Fld := ⟨192, 4⟩
/-- SVC_ADDR or BE_ADDR, 16 bytes as in the flow key, and the port that follows, in network order. -/
def lbAddr (e : Nat) : List Byte := natLe 16 e
def lbPort (e : Nat) : Nat := beNat (natLe 2 (e / 2 ^ 128))

def LM_EGR : Fld := ⟨144, 12⟩
def LM_MCAST : Fld := ⟨156, 1⟩
def LM_GRP : Fld := ⟨160, 14⟩
def LM_STATE : Fld := ⟨174, 2⟩
def LM_V : Fld := ⟨176, 1⟩
def LM_VER6 : Fld := ⟨177, 1⟩

def PO_CIR : Fld := ⟨0, 32⟩
def PO_PIR : Fld := ⟨32, 32⟩
def PO_CBS : Fld := ⟨64, 24⟩
def PO_PBS : Fld := ⟨88, 24⟩
def PO_MODE : Fld := ⟨112, 1⟩
def PO_V : Fld := ⟨113, 1⟩
def PO_RED_DROP : Fld := ⟨114, 1⟩
def PO_YEL_DROP : Fld := ⟨115, 1⟩
def PO_C : Fld := ⟨128, 24⟩
def PO_P : Fld := ⟨152, 24⟩
def PO_LAST : Fld := ⟨176, 48⟩

/-! ### Routines, multicast groups, gate entries (R246, R286, R309) -/

def RT_BASE : Fld := ⟨0, 14⟩
def RT_LEN : Fld := ⟨16, 15⟩
def RT_MAXW : Fld := ⟨32, 16⟩
def RT_FB_ACT : Fld := ⟨48, 16⟩
def RT_V : Fld := ⟨64, 1⟩
def RT_FB_V : Fld := ⟨65, 1⟩
def RT_RETRY_EN : Fld := ⟨66, 1⟩
def RT_COLD : Fld := ⟨67, 1⟩

def MC_MEMBER : Fld := ⟨0, 256⟩
def MC_V : Fld := ⟨256, 1⟩
def MC_MODE : Fld := ⟨257, 1⟩
def MC_SRC_PRUNE : Fld := ⟨258, 1⟩

def GC_INTERVAL : Fld := ⟨0, 32⟩
def GC_GATES : Fld := ⟨32, 16⟩

/-- The default contents of a table entry (the Heartwood defaults). -/
def tblDefault (id idx : Nat) : Nat :=
  match id with
  | 0x10 => nth dfltKinds idx 0
  | 0x11 => nth dfltTrans idx 0
  | 0x12 => if idx = 0 then 0xFFFFFFFFFFFFF + 2 ^ 64 else 0
  | 0x31 => 2 ^ 256 - 1 + idx * 2 ^ 256 + 3 * 2 ^ 272
  | 0x60 => 2 ^ 256 - 1 + 5 * 2 ^ 256
  | _ => 0

/-- The key of a table entry. -/
def tblKey (id copy idx : Nat) : Nat := (id * 2 + copy) * 2 ^ 32 + idx

/-- The default contents by key. -/
def tblKeyDefault (k : Nat) : Nat := tblDefault (k / 2 ^ 33) (k % 2 ^ 32)

/-- Whether the entry of a key awaits its repair in some unit: every lookup takes it as invalid until then (R345). -/
def State.repairing (s : State) (k : Nat) : Bool :=
  s.ecc.repairDue.any (fun e => e.1 % 512 == k / 2 ^ 32 && e.2 == k % 2 ^ 32)

/-- An entry of a table copy as last written. -/
def State.entHeld (s : State) (id copy idx : Nat) : Nat := (s.tbl.find? (tblKey id copy idx)).getD (tblDefault id idx)

/-- An entry of a table copy; one that awaits its repair reads as invalid (R345). -/
def State.ent (s : State) (id copy idx : Nat) : Nat :=
  if s.repairing (tblKey id copy idx) then 0 else s.entHeld id copy idx

/-- A protected word of an entry of a table (2 * TABLE + copy) in a unit; in a rule store word 0 to 15 is a slice of KEY (0
to 7) or of MASK (8 to 15), 16 and 17 the other fields. -/
def tblWord (unit tc idx w : Nat) : Nat := ((unit * 512 + tc) * 2 ^ 20 + idx) * 32 + w

/-- The key of a word among every source's. -/
def eccKey (src word : Nat) : Nat := src * 2 ^ 40 + word

/-- An entry of a table copy replaced. -/
def State.setEnt (s : State) (id copy idx v : Nat) : State :=
  { s with tbl := s.tbl.set (tblDefault id idx) (tblKey id copy idx) v }

/-! ### Sizes and what a host write sets (R369, R483) -/

/-- Bytes of an entry; the rule table's depends on WIDTH. -/
def tblBytes (width id : Nat) : Nat :=
  match id with
  | 0x10 => 16 | 0x11 => 8 | 0x12 => 16 | 0x20 => if width = 0 then 176 else 96 | 0x21 => 32 | 0x22 => 8
  | 0x30 => 16 | 0x31 => 40 | 0x32 => 32 | 0x40 => 256 | 0x41 => 256
  | 0x42 => 16 | 0x43 => 16 | 0x44 => 32 | 0x45 => 2 | 0x46 => 32
  | 0x50 => 24 | 0x51 => 16 | 0x60 => 40 | 0x70 => 32 | 0x71 => 8 | _ => 0

/-- Entries of a table; 0 for an unknown identifier. -/
def tblCount (width id : Nat) : Nat :=
  match id with
  | 0x10 => 128 | 0x11 => 1024 | 0x12 => 16 | 0x20 => if width = 0 then 32768 else 65536 | 0x21 => 65536 | 0x22 => 1
  | 0x30 => 32768 | 0x31 => 4096 | 0x32 => 65536 | 0x40 => 2 ^ 26
  | 0x42 => 16384 | 0x43 => 4096 | 0x44 => 16384 | 0x45 => 2 ^ 20 | 0x46 => 65536
  | 0x50 => 16384 | 0x51 => 4096 | 0x60 => 4096 | 0x70 => 8192 | 0x71 => 65536 | _ => 0

/-- A generation-bound table (R116). -/
def tblGen (id : Nat) : Bool := (decide (0x10 ≤ id) && decide (id ≤ 0x12)) || (decide (0x20 ≤ id) && decide (id ≤ 0x22))

/-- The knot group of a table (R369); knot 0's tables and the Twig tables have none. -/
def tblGroup (id : Nat) : Option Nat :=
  if 0x30 ≤ id ∧ id ≤ 0x32 then some 0 else if id = 0x40 ∨ id = 0x41 then some 1
  else if 0x42 ≤ id ∧ id ≤ 0x46 then some 2 else if id = 0x60 then some 3
  else if id = 0x70 then some 4 else if id = 0x71 then some 5 else none

/-- A number with 1 in the bits of the given (lsb, width) ranges. -/
def ones (l : List (Nat × Nat)) : Nat := l.foldl (fun m x => m ||| ((2 ^ x.2 - 1) * 2 ^ x.1)) 0

/-- The bits of an entry that a host write sets: neither reserved nor read-only to the host (R483). -/
def tblWritable (width id : Nat) : Nat :=
  match id with
  | 0x10 => ones [(0, 11), (12, 4), (16, 8), (24, 8), (32, 16), (48, 7), (56, 8), (64, 16), (80, 8), (88, 3), (95, 1), (96, 13)]
  | 0x11 => ones [(0, 8), (16, 40)]
  | 0x12 => ones [(0, 52), (64, 4)]
  | 0x20 => ones [(0, 2 * ruleBits width + 17)]
  | 0x21 => ones [(0, 31), (32, 28), (64, 15), (80, 8), (96, 10)]
  | 0x22 => ones [(0, 1), (8, 32)]
  | 0x30 => ones [(0, 60), (64, 13), (80, 2)]
  | 0x31 => ones [(0, 268), (272, 3)]
  | 0x32 => ones [(0, 139), (144, 32), (192, 28), (223, 2)]
  | 0x42 => ones [(0, 114)]
  | 0x43 => ones [(0, 44), (48, 60)]
  | 0x44 => ones [(0, 164), (168, 5), (176, 3), (184, 12)]
  | 0x45 => ones [(0, 16)]
  | 0x46 => ones [(0, 157), (160, 18)]
  | 0x50 => ones [(0, 64), (66, 94)]
  | 0x51 => ones [(0, 14), (16, 15), (32, 36)]
  | 0x60 => ones [(0, 259)]
  | 0x70 => ones [(0, 116)]
  | 0x71 => ones [(0, 48)]
  | _ => 0

/-- KEY bits under a MASK bit of 0 read back as 0 (R109). -/
def ruleNorm (width e : Nat) : Nat :=
  let n := ruleBits width
  let m := getBits e n n
  e - (e % 2 ^ n) + ((e % 2 ^ n) &&& m)

/-- Whether a table copy holds anything but its defaults. -/
def State.tblTouched (s : State) (id copy : Nat) : Bool :=
  s.tbl.any (fun e => e.1 / 2 ^ 32 == id * 2 + copy)

end Sys2Proof.Machine
end

