-- ==== Sys2Proof/Machine/Codes.lean ====
section
/-!
DEFINITION. Error protection (R340 to R354): the word codes and their syndromes, page codes, what a reader of a bad word
meets, the CE level, the error log and injection; and the Root store's bytes and mapping (R252, R255), whose reads and
writes meet them. The model keeps what each word should hold, and beside it the XOR of the stored codeword with the
sound one, which alone decides the syndrome (the codes are linear).
-/
namespace Sys2Proof.Machine

/-! ### Word codes (R341, R342) -/

/-- Codeword position of data bit `k`: the positions from 3 that are no powers of two. -/
def dataPos (k : Nat) : Nat := k + 1 + ((List.range 8).filter (fun j => decide (2 ^ j ≤ k + j + 1))).length

/-- The syndrome s of an error pattern over `n` data bits, check bits c[6:0] above them. -/
def synOf (n d : Nat) : Nat :=
  (List.range n).foldl (fun x k => if bit d k then x ^^^ dataPos k else x) ((d >>> n) % 128)

/-- The parity q of an error pattern over the whole codeword. -/
def parOf (n d : Nat) : Bool := parity (n + 8) d

/-- What a read of a word finds (R341, R342). -/
inductive WordSt where
  | ok
  | ce
  | ue
  | poison
  deriving DecidableEq, Repr

/-- The outcome of an error pattern: positions run to 71 of the (72,64) code, to 87 of the (88,80) code. -/
def classify (n d : Nat) : WordSt :=
  let s := synOf n d
  if parOf n d then (if s ≤ n + 7 then .ce else .ue)
  else if s = 0 then .ok else if s = 3 then .poison else .ue

/-- The codeword bit at a position: 0 names c[7], a power of two a check bit. -/
def posBit (n s : Nat) : Nat :=
  if s = 0 then n + 7
  else if 2 ^ s.log2 = s then n + s.log2
  else s - 2 - s.log2

/-- The outcome that a syndrome byte {q, s} shows. -/
def synSt (n syn : Nat) : WordSt :=
  let s := syn % 128
  if 128 ≤ syn then (if s ≤ n + 7 then .ce else .ue)
  else if s = 0 then .ok else if s = 3 then .poison else .ue

/-- What is left of a correctable pattern once the bit its syndrome names is corrected. -/
def afterCorrection (n d : Nat) : Nat := d ^^^ 2 ^ posBit n (synOf n d)

/-- {q, s[6:0]} of a pattern (ECC_LOG_INFO.SYN). -/
def synByte (n d : Nat) : Nat := synOf n d % 128 + 128 * b2n (parOf n d)

/-- A slice of a rule's KEY or MASK, which has parity alone (R340). -/
def isSlice (src word : Nat) : Bool := src == 7 && word / 2 ^ 26 % 256 == 0x20 && decide (word % 32 < 16)

/-- Data bits of a word of a source: control-store halves and rule slices have 80. -/
def wordBits (src word : Nat) : Nat := if src = 3 ∧ word < 2 ^ 30 ∨ isSlice src word = true then 80 else 64

/-- Its check bits: a slice has one. -/
def checkBits (src word : Nat) : Nat := if isSlice src word then 1 else 8

/-- The words of a rule by WIDTH (R340): its slices of KEY and MASK and the words of its other fields. -/
def ruleWords (width : Nat) : List Nat :=
  if width = 0 then List.range 18 else [0, 1, 2, 3, 8, 9, 10, 11, 16, 17]

/-! ### The words of each source (R340), numbered within it -/

/-- Canopy: word `i` of a line, 16 the state word. Root store: address / 8. Control store: half `h` of a microword of a
cluster; routine table: word of an entry of a copy of a cluster. Tables: word of an entry of a table in a unit. -/
def canopyWord (l i : Nat) : Nat := 32 * l + i
def ctlWord (k a h : Nat) : Nat := (k * 16384 + a) * 2 + h
def rtWord (k copy r w : Nat) : Nat := 2 ^ 30 + ((k * 2 + copy) * 4096 + r) * 2 + w

/-- A spread bit of an address: its nominal bit XORed with the row bits its mask selects (R255). -/
def spread (a nominal mask : Nat) : Bool := bit a nominal ^^ parity 14 ((getBits a 20 14) &&& mask)

/-- The stack that holds an address. -/
def State.stkOf (s : State) (a : Nat) : Nat := b2n (spread a 10 (s.rd RTS_MAP_STK_XMASK))
/-- The pseudo-channel of an address. -/
def State.pcOf (s : State) (a : Nat) : Nat :=
  (List.range 5).foldl (fun x n => x + b2n (spread a (11 + n) (s.rd (RTS_MAP_PC_XMASK n))) * 2 ^ n) 0
/-- The bank of an address. -/
def State.baOf (s : State) (a : Nat) : Nat :=
  (List.range 4).foldl (fun x n => x + b2n (spread a (16 + n) (s.rd (RTS_MAP_BA_XMASK n))) * 2 ^ n) 0

/-- The protected word of a Root store address, among every source's. -/
def State.rsWord (s : State) (a : Nat) : Nat := eccKey (1 + s.stkOf a) (a / 8)

/-! ### Pages (R343) -/

/-- Multiplication in GF(2^8) by x^8 + x^4 + x^3 + x^2 + 1. -/
def gfDouble (a : Nat) : Nat := if 128 ≤ a then (2 * a) ^^^ 0x11D else 2 * a
def gfMul (a b : Nat) : Nat :=
  (List.range 8).foldl (fun x i => gfDouble x ^^^ (if bit b (7 - i) then a else 0)) 0

/-- A polynomial, highest degree first, times x + `a`. -/
def gfTimes (p : List Nat) (a : Nat) : List Nat := List.zipWith (· ^^^ ·) (p ++ [0]) (0 :: p.map (gfMul a))

/-- g(x) = (x + α^0) … (x + α^15), α = 2: its 17 coefficients, highest degree first. -/
def rsGen : List Nat := ((List.range 16).foldl (fun (x : List Nat × Nat) _ => (gfTimes x.1 x.2, gfDouble x.2)) ([1], 1)).1

/-- The 16 parity symbols m(x) × x^16 mod g(x) of data symbols given from x^143 down, highest degree first. -/
def rsParity (m : List Nat) : List Nat :=
  m.foldl (fun r d =>
    let fb := d ^^^ r.headD 0
    List.zipWith (· ^^^ ·) (r.drop 1 ++ [0]) ((rsGen.drop 1).map (gfMul fb))) (List.replicate 16 0)

/-- The page of a Root store address: rows 2m and 2m + 1 of one bank. -/
def State.rsPage (s : State) (a : Nat) : Nat :=
  ((a / 2 ^ 34 * 32 + s.pcOf a) * 16 + s.baOf a) * 8192 + getBits a 20 14 / 2

/-- The (page, codeword) of every byte of a word; none where the memory has no page code. -/
def State.pageBytes (s : State) (src word : Nat) : List (Nat × Nat) :=
  match src with
  | 0 => if word % 32 < 16 then (List.range 8).map (fun b => (word / 512, (8 * word + b) % 16)) else []
  | 1 => (List.range 8).map (fun b => (s.rsPage (8 * word), (8 * word + b) % 16))
  | 2 => (List.range 8).map (fun b => (s.rsPage (8 * word), (8 * word + b) % 16))
  | 3 =>
    if word < 2 ^ 30 then
      (List.range 10).map (fun b =>
        let j := 20 * (word / 2 % 16384) + 10 * (word % 2) + b
        (word / 32768 * 160 + j / 2048, j % 16))
    else []
  | _ => []

/-- The Root store address of byte `j` of a page: row 2m + j / 1,024, and the spread bits that lead to its bank (R255). -/
def State.pageAddr (s : State) (stack page j : Nat) : Nat :=
  let row := page % 8192 * 2 + j / 1024
  let a := page / 8192 / 512 * 2 ^ 34 + row * 2 ^ 20 + j % 1024
  let fld (b nominal mask : Nat) : Nat := b2n ((b == 1) ^^ parity 14 (row &&& mask)) * 2 ^ nominal
  let pc := page / 8192 / 16 % 32
  let ba := page / 8192 % 16
  a + fld stack 10 (s.rd RTS_MAP_STK_XMASK)
    + (List.range 5).foldl (fun x n => x + fld (getBits pc n 1) (11 + n) (s.rd (RTS_MAP_PC_XMASK n))) 0
    + (List.range 4).foldl (fun x n => x + fld (getBits ba n 1) (16 + n) (s.rd (RTS_MAP_BA_XMASK n))) 0

/-- The key of a byte of a word among the symbol errors. -/
def symKey (src word b : Nat) : Nat := 16 * eccKey src word + b

/-- The word and the byte of it that byte `j` of a page is. -/
def State.pageByte (s : State) (src page j : Nat) : Nat × Nat :=
  match src with
  | 0 => (canopyWord (16 * page + j / 128) (j % 128 / 8), j % 8)
  | 3 =>
    let o := page % 160 * 2048 + j
    (ctlWord (page / 160) (o / 20) (o % 20 / 10), o % 10)
  | _ => (s.pageAddr (src - 1) page j / 8, j % 8)

/-- What a byte of a word holds. -/
def State.heldByte (s : State) (src word b : Nat) : Nat :=
  match src with
  | 0 => (nth (s.gv.lines.get {} (word / 32)).data (8 * (word % 32) + b) 0).toNat
  | 3 => getBits (s.ent 0x50 0 (word / 2 % 16384)) (80 * (word % 2) + 8 * b) 8
  | _ => (s.rs.get 0 (8 * word + b)).toNat

/-- The stored parity symbols of codeword `c` of a page, highest degree first: the code's over the bytes that the parity
covers, and the errors in them (R343). -/
def State.pageParity (s : State) (src page c : Nat) : List Nat :=
  let data := (List.range 128).map (fun i =>
    let (w, b) := s.pageByte src page (16 * i + c)
    s.heldByte src w b ^^^ s.ecc.symErr.get 0 (symKey src w b))
  (rsParity data).mapIdx (fun i x => x ^^^ getBits (s.ecc.pageDiff.get 0 (eccKey src page)) (8 * (16 * c + 15 - i)) 8)

/-- The error pattern of a stored word: a mark of R342 inverts check bits 1:0. -/
def State.wordPat (s : State) (k : Nat) : Nat :=
  s.ecc.diff.get 0 k ^^^ (if s.ecc.poison.contains k then 3 * 2 ^ 64 else 0)

/-- The failed words of a source: those whose stored codeword is uncorrectable and not poisoned. -/
def State.failedWords (s : State) (src : Nat) : List Nat :=
  (s.ecc.diff.filter (fun e => e.1 / 2 ^ 40 == src && decide (classify (wordBits src (e.1 % 2 ^ 40)) e.2 = .ue))).map
    (fun e => e.1 % 2 ^ 40)

/-- The data that a reader of a word gets wrong without its word code showing it: of a control-store half its pattern after
any correction; of the other memories, whose contents have taken it, what symErr holds. -/
def State.hiddenErr (s : State) (src word b : Nat) : Nat :=
  if src = 3 then
    let d := s.ecc.diff.get 0 (eccKey 3 word)
    match classify 80 d with
    | .ok => getBits d (8 * b) 8
    | .ce => getBits (afterCorrection 80 d) (8 * b) 8
    | _ => 0
  else s.ecc.symErr.get 0 (symKey src word b)

/-- The words of a page that may hold such errors. -/
def State.hiddenWords (s : State) (src : Nat) : List Nat :=
  if src = 3 then (s.ecc.diff.filter (fun e => e.1 / 2 ^ 40 == 3)).map (fun e => e.1 % 2 ^ 40)
  else ((s.ecc.symErr.filter (fun e => e.1 / 2 ^ 44 == src)).map (fun e => e.1 / 16 % 2 ^ 40)).eraseDups

/-- R344: whether every codeword of a page has 2e + v ≤ 16: each byte of a failed word is an erasure; a parity symbol in
error and a byte in error at an unknown place count 2. -/
def State.pageOk (s : State) (src page : Nat) : Bool :=
  let failed := s.failedWords src
  let hit := failed.flatMap (fun w => (s.pageBytes src w).filter (fun x => x.1 == page))
  let hidden := ((s.hiddenWords src).filter (fun w => !failed.contains w)).flatMap (fun w =>
    ((s.pageBytes src w).zipIdx.filter (fun x => x.1.1 == page && s.hiddenErr src w x.2 != 0)).map (·.1.2))
  let par := s.ecc.pageDiff.get 0 (eccKey src page)
  (List.range 16).all (fun c =>
    let e := (hidden.filter (· == c)).length + ((List.range 16).filter (fun i => getBits par (8 * (16 * c + i)) 8 != 0)).length
    decide (2 * e + (hit.filter (fun x => x.2 == c)).length ≤ 16))

/-! ### Counting (R345, R353) and the log -/

/-- R353: the leaks of a source's level that are due by now: 1 for every LEAK_MS ms of device time. -/
def State.leakDue (s : State) (n : Nat) : State :=
  let per := 1000000 * max 1 (s.rd (ECC_CE_CFG_LEAK_MS n))
  let last := s.ecc.leakAt.get 0 n
  let k := (s.now islMgmt - last) / per
  if k = 0 then s
  else ({ s with ecc.leakAt := s.ecc.leakAt.set 0 n (last + k * per) } : State).wr (ECC_CE_LVL_LEVEL n)
    (s.rd (ECC_CE_LVL_LEVEL n) - k)

/-- R353: a CE of a source raises its level, after the leaks that are due. -/
def State.ceCount (s : State) (src isl : Nat) : State :=
  let s := (s.leakDue src).cnt (CE_CNT src)
  let old := s.rd (ECC_CE_LVL_LEVEL src)
  let new := min 65535 (old + 1)
  let thr := max 1 (s.rd (ECC_CE_CFG_THR src))
  let s := s.wr (ECC_CE_LVL_LEVEL src) new
  if old < thr ∧ thr ≤ new then (s.raiseN ECC_INT_CE_RATE (2 ^ src)).journal isl 0x0A04 src (natLe 2 new) else s

/-- The error log holds its first event until VALID is cleared. -/
def State.eccLog (s : State) (src kind unit syn loc isl : Nat) : State :=
  if s.on ECC_LOG_INFO_VALID then s
  else
    let s := s.setReg ECC_LOG_INFO (src + 16 * kind + 64 + 256 * (unit % 256) + 65536 * syn)
    (s.wr64 ECC_LOG_LOC (loc % 2 ^ 48)).wr64 ECC_LOG_TS (s.now isl)

/-- The payload of the ECC events: UNIT, SYN and location (R412). -/
def eccBody (unit syn loc : Nat) : List Byte := natLe 1 unit ++ natLe 1 syn ++ natLe 6 loc

/-- An uncorrected event: counted, flagged, journaled and logged (R345). -/
def State.pageFail (s : State) (src unit syn loc isl : Nat) : State :=
  let s := ((s.cnt (PAGE_FAIL_CNT src)).raiseN ECC_INT_UE (2 ^ src)).journal isl 0x0A01 src (eccBody unit syn loc)
  s.eccLog src 0 unit syn loc isl

/-- An entry or page rewritten from its repair source (R345). -/
def State.repaired (s : State) (src unit syn loc isl : Nat) : State :=
  ((s.cnt (REPAIR_CNT src)).journal isl 0x0A03 src (eccBody unit syn loc)).eccLog src 3 unit syn loc isl

/-- UNIT and location of a word (ECC_LOG_INFO, ECC_LOG_LOC), and the island that reads it. -/
def wordAt (src word : Nat) : Nat × Nat × Nat :=
  match src with
  | 0 => let l := word / 32; (l / 16384 / 32, l / 16384 * 2 ^ 16 + l % 16384, islGroup (l / 16384 / 32))
  | 1 => (0, 8 * word, islRts 0)
  | 2 => (1, 8 * word, islRts 1)
  | 3 =>
    if word < 2 ^ 30 then (word / 32768, word / 2 % 16384, islCluster (word / 32768))
    else
      let w := word - 2 ^ 30
      (w / 16384, 0x51 * 2 ^ 24 + w / 2 % 4096, islCluster (w / 16384))
  | _ =>
    let tc := word / 2 ^ 25 % 512
    (word / 2 ^ 34, tc / 2 * 2 ^ 24 + word / 32 % 2 ^ 20, islMgmt)

/-! ### Table words (R345) -/

/-- The table copy of a unit (512 * unit + 2 * TABLE + copy) and the entry that a word of source 7, or of the routine tables
of source 3, belongs to. -/
def tblOfWord (src word : Nat) : Nat × Nat :=
  if src = 3 then (512 * ((word - 2 ^ 30) / 16384) + 2 * 0x51 + (word - 2 ^ 30) / 8192 % 2, (word - 2 ^ 30) / 2 % 4096)
  else (word / 2 ^ 25, word / 32 % 2 ^ 20)

/-- What a read of a table word finds. The parity of a rule's slice detects an odd number of errors (R340). -/
def tblWordSt (src word d : Nat) : WordSt :=
  if isSlice src word then (if parity 81 d then .ue else .ok) else classify 64 d

/-- The syndrome that the log shows of a table word: a slice's is its parity. -/
def tblSyn (src word d : Nat) : Nat := if isSlice src word then b2n (parity 81 d) else synByte 64 d

/-- R345: an entry with an uncorrectable word is invalid until its repair. -/
def State.tblBad (s : State) (src word : Nat) : State :=
  let e := tblOfWord src word
  let d := s.ecc.diff.get 0 (eccKey src word)
  let u := wordAt src word
  if s.ecc.repairDue.contains e then s
  else
    let s := if tblWordSt src word d = .poison then s.cnt (POISON_RD_CNT src) else s.cnt (UE_CNT src)
    ({ s with ecc.repairDue := s.ecc.repairDue ++ [e] } : State).pageFail src u.1 (tblSyn src word d) u.2.1 u.2.2

/-- A word of a table's copy is read: a CE is counted, an uncorrectable word makes its entry invalid; a rule's slice is left
to the scrubber (R345). -/
def State.meetTbl (s : State) (src word : Nat) : State :=
  match tblWordSt src word (s.ecc.diff.get 0 (eccKey src word)) with
  | .ok => s
  | .ce => s.ceCount src (wordAt src word).2.2
  | _ => if isSlice src word then s else s.tblBad src word

/-- The units that hold a copy of a table: the eight rule stores; the 32 search copies of the bridging table and its master
(R131); the boughs for the other tables that their decisions read; one otherwise (DESIGN CHOICE, assumption 70). -/
def tblUnits (id : Nat) : Nat :=
  if id = 0x20 then 8 else if id = 0x30 then 33 else if id = 0x60 ∨ id = 0x70 ∨ id = 0x71 then 1 else 32

/-- The source of an entry's words: routine tables are source 3. -/
def tblSrc (id : Nat) : Nat := if id = 0x51 then 3 else 7

/-- The word `w` of an entry in a unit. -/
def unitWord (id unit copy idx w : Nat) : Nat := if id = 0x51 then rtWord unit copy idx w else tblWord unit (2 * id + copy) idx w

/-- The units that hold a copy of a table's entry, the 16 clusters for the routine tables. -/
def copyUnits (id : Nat) : Nat := if id = 0x51 then 16 else tblUnits id

/-- The numbers of an entry's words. -/
def State.entWords (s : State) (id : Nat) : List Nat :=
  let width := s.rd GRF_RS_CFG_WIDTH
  if id = 0x20 then ruleWords width else List.range (ceilDiv (tblBytes width id) 8)

/-- A lookup reads its unit's copy of an entry and meets its codes (R345). -/
def State.meetEnt (s : State) (unit id copy idx : Nat) : State :=
  if s.ecc.diff.isEmpty then s
  else (s.entWords id).foldl (fun s w => s.meetTbl (tblSrc id) (unitWord id unit copy idx w)) s

/-- Entries of (table, copy, index) that a unit's lookups read. -/
def State.meetEnts (s : State) (unit : Nat) (l : List (Nat × Nat × Nat)) : State :=
  if s.ecc.diff.isEmpty then s else l.foldl (fun s x => s.meetEnt unit x.1 x.2.1 x.2.2) s

/-! ### Errors that arrive, and injection (R354) -/

/-- 64 bits XORed into the contents of a Canopy or Root store word. -/
def State.xorWord (s : State) (src word data : Nat) : State :=
  let xor (old : List Byte) : List Byte := natLe 8 (leNat old ^^^ data)
  if src = 0 then
    let x := s.gv.lines.get {} (word / 32)
    if word % 32 < 16 then
      { s with gv.lines := s.gv.lines.set {} (word / 32)
                 { x with data := splice x.data (8 * (word % 32)) (xor (slice0 x.data (8 * (word % 32)) 8)) } }
    else s
  else
    let bs := xor ((List.range 8).map (fun i => s.rs.get 0 (8 * word + i)))
    { s with rs := (bs.foldl (fun (x : Tab Byte × Nat) b => (x.1.set 0 x.2 b, x.2 + 1)) (s.rs, 8 * word)).1 }

/-- The bytes of a word that no longer agree with their page's parity, after their contents changed by `data`. -/
def State.symXor (s : State) (src word data : Nat) : State :=
  { s with ecc.symErr := (List.range 8).foldl (fun (t : Tab Nat) b =>
      t.modify 0 (symKey src word b) (· ^^^ getBits data (8 * b) 8)) s.ecc.symErr }

/-- The symbol errors of a page are corrected (R344): its bytes are again what the parity covers. -/
def State.symFix (s : State) (src page : Nat) : State :=
  if src = 3 then s
  else
    ((s.hiddenWords src).filter (fun w => (s.pageBytes src w).any (fun x => x.1 == page))).foldl (fun s w =>
      let d := (List.range 8).foldl (fun x b => x + s.hiddenErr src w b * 2 ^ (8 * b)) 0
      (s.xorWord src w d).symXor src w d) s

/-- The parity of a page computed anew over the bytes as they stand (R349). -/
def State.symForget (s : State) (src page : Nat) : State :=
  { s with
    ecc.symErr := s.ecc.symErr.filter (fun e =>
      !(e.1 / 2 ^ 44 == src && (s.pageBytes src (e.1 / 16 % 2 ^ 40)).any (fun x => x.1 == page)))
    ecc.pageDiff := s.ecc.pageDiff.erase (eccKey src page) }

/-- A page corrected (R344): its failed words and its symbol errors are rewritten, and its parity. -/
def State.pageFixed (s : State) (src page : Nat) (bad : List Nat) : State :=
  let s := s.symFix src page
  let hidden := if src = 3 then (s.hiddenWords 3).filter (fun w => (s.pageBytes 3 w).any (fun x => x.1 == page)) else []
  { s with ecc.diff := (bad ++ hidden).foldl (fun t w => Tab.erase t (eccKey src w)) s.ecc.diff
           ecc.pageDiff := s.ecc.pageDiff.erase (eccKey src page) }.cnt (PAGE_FIX_CNT src)

/-- A pattern XORed into a stored word. Where the codeword then decodes to other data than it should hold, that data is
what every reader gets, so the contents change: in the Root store and the Canopy the change is made here, and the page's
parity no longer covers it. -/
def State.flipWord (s : State) (src word pat : Nat) : State :=
  let n := wordBits src word
  let d := s.wordPat (eccKey src word) ^^^ (pat % 2 ^ (n + checkBits src word))
  let s := { s with ecc.poison := s.ecc.poison.filter (· != eccKey src word) }
  let res := match classify n d with | .ok => d | .ce => afterCorrection n d | _ => 0
  let data := res % 2 ^ n
  if res = 0 ∨ 2 < src then { s with ecc.diff := s.ecc.diff.set 0 (eccKey src word) d }
  else
    let s := { s with ecc.diff := s.ecc.diff.set 0 (eccKey src word) (d ^^^ res) }
    (s.xorWord src word data).symXor src word data

/-- Whether an injection is armed for a source at a level. -/
def State.injArmed (s : State) (src level : Nat) : Bool :=
  s.on ECC_INJ_CFG_ARM && s.rd ECC_INJ_CFG_SRC == src && s.rd ECC_INJ_CFG_LEVEL == level

/-- One injection made: LEFT counts down; at 0 ARM reads 0 and INJ_DONE is set. -/
def State.injSpent (s : State) : State :=
  let n := s.rd ECC_INJ_STS_LEFT - 1
  let s := s.wr ECC_INJ_STS_LEFT n
  if n = 0 then (s.wr ECC_INJ_CFG_ARM 0).raise ECC_INT_INJ_DONE else s

/-- A whole word written: new check bits and no poison, but for an injection into them. Of a microword only the check bits
of its first half take one (R354). -/
def State.wordWritten (s : State) (src word : Nat) : State :=
  let k := eccKey src word
  let s := { s with ecc.diff := s.ecc.diff.erase k, ecc.poison := s.ecc.poison.filter (· != k) }
  if s.injArmed src 0 && !(src == 3 && decide (word < 2 ^ 30) && word % 2 == 1) then
    (s.flipWord src word (s.rd ECC_INJ_CFG_CHK_XOR * 2 ^ wordBits src word)).injSpent
  else s

/-- The protected words that hold an entry of a table copy: source and word, in every unit. -/
def entryWords (width id copy idx : Nat) : List (Nat × Nat) :=
  match id with
  | 0x50 => (List.range 16).flatMap (fun k => [(3, ctlWord k idx 0), (3, ctlWord k idx 1)])
  | 0x51 => (List.range 16).flatMap (fun k => [(3, rtWord k copy idx 0), (3, rtWord k copy idx 1)])
  | 0x20 => (List.range 8).flatMap (fun u => (ruleWords width).map (fun w => (7, tblWord u (0x40 + copy) idx w)))
  | _ => (List.range (tblUnits id)).flatMap (fun u =>
      (List.range (ceilDiv (tblBytes width id) 8)).map (fun w => (7, tblWord u (2 * id + copy) idx w)))

/-- The control-store pages of a microword in a cluster, as page numbers of source 3. -/
def ctlPages (k a : Nat) : List Nat := [k * 160 + 20 * a / 2048, k * 160 + (20 * a + 19) / 2048].eraseDups

/-- A page of a source written: an injection into its parity. -/
def State.pageWritten (s : State) (src page : Nat) : State :=
  if s.injArmed src 1 then
    let k := eccKey src page
    { s with ecc.pageDiff := s.ecc.pageDiff.set 0 k (s.ecc.pageDiff.get 0 k ^^^ s.rd ECC_INJ_CFG_CHK_XOR) }.injSpent
  else s

/-- An entry has been written whole: its words' errors go, and with them its wait for a repair; an injection may enter. -/
def State.entWritten (s : State) (id copy idx : Nat) : State :=
  if s.ecc.diff.isEmpty && s.ecc.repairDue.isEmpty && !s.on ECC_INJ_CFG_ARM then s
  else
    let s := { s with ecc.repairDue := s.ecc.repairDue.filter (fun e => !(e.1 % 512 == 2 * id + copy && e.2 == idx)) }
    let s := (entryWords (s.rd GRF_RS_CFG_WIDTH) id copy idx).foldl (fun s w => s.wordWritten w.1 w.2) s
    if id = 0x50 then (List.range 16).foldl (fun s k => (ctlPages k idx).foldl (fun s p => s.pageWritten 3 p) s) s else s

/-- `n` words written into a packet memory (sources 4 to 6): what an armed injection makes of them, and whether one reads
as uncorrectable (R354). -/
def State.injPacket (s : State) (src n unit isl : Nat) : Bool × State :=
  if !s.injArmed src 0 then (false, s)
  else
    let d := s.rd ECC_INJ_CFG_CHK_XOR * 2 ^ 64
    let m := min n (s.rd ECC_INJ_STS_LEFT)
    let s := (List.range m).foldl (fun s _ => s.injSpent) s
    match classify 64 d with
    | .ok => (false, s)
    | .ce => (false, (List.range m).foldl (fun s _ => s.ceCount src isl) s)
    | .ue => (true, (s.cnt (UE_CNT src)).pageFail src unit (synByte 64 d) 0 isl)
    | .poison => (true, (s.cnt (POISON_RD_CNT src)).eccLog src 2 unit (synByte 64 d) 0 isl)

/-! ### Root store pages (R345, R347, R349) -/

/-- The page correction of the pages a failed word lies in: every failed word of them is rewritten, or the page fails and
they are poisoned with the data as stored. Other sources' failures have their own ends. -/
def State.fixRsWord (s : State) (src word : Nat) : State :=
  let page := s.rsPage (8 * word)
  let bad := (s.failedWords src).filter (fun w => s.rsPage (8 * w) == page)
  if s.pageOk src page then s.pageFixed src page bad
  else
    let d := s.ecc.diff.get 0 (eccKey src word)
    let s := s.pageFail src (src - 1) (synByte 64 d) (8 * word) (islRts (src - 1))
    bad.foldl (fun s w =>
      let k := eccKey src w
      let bs := natLe 8 (leNat ((List.range 8).map (fun i => s.rs.get 0 (8 * w + i))) ^^^ (s.ecc.diff.get 0 k % 2 ^ 64))
      { s with rs := (bs.foldl (fun (x : Tab Byte × Nat) b => (x.1.set 0 x.2 b, x.2 + 1)) (s.rs, 8 * w)).1
               ecc.diff := s.ecc.diff.erase k
               ecc.poison := s.ecc.poison ++ [k] })
      (s.symForget src page)

/-- Whether a Root store word is poisoned: it decodes with that syndrome, by a mark or by a natural double error (R342). -/
def State.wordPoisoned (s : State) (k : Nat) : Bool := decide (classify 64 (s.wordPat k) = .poison)

/-- A read of a Root store word, by its key (R345): a CE is counted, an uncorrectable word leads to the page correction,
a read of poison is counted. -/
def State.readWord (s : State) (k : Nat) : State :=
  let src := k / 2 ^ 40
  let w := k % 2 ^ 40
  if s.wordPoisoned k then
    let u := wordAt src w
    (s.cnt (POISON_RD_CNT src)).eccLog src 2 u.1 (synByte 64 (s.wordPat k)) u.2.1 u.2.2
  else
    match classify 64 (s.ecc.diff.get 0 k) with
    | .ce => s.ceCount src (islRts (src - 1))
    | .ue => (s.cnt (UE_CNT src)).fixRsWord src w
    | _ => s

/-! ### Root store bytes (R252, R348) -/

/-- `n` bytes of the Root store. -/
def State.rsRead (s : State) (a n : Nat) : List Byte := (List.range n).map (fun i => s.rs.get 0 (a + i))

/-- Bytes set at an address. -/
def State.rsPut (s : State) (a : Nat) (bs : List Byte) : State :=
  { s with rs := (bs.foldl (fun (x : Tab Byte × Nat) b => (x.1.set 0 x.2 b, x.2 + 1)) (s.rs, a)).1 }

/-- The keys of the words that `n` bytes from `a` touch. -/
def State.rsKeys (s : State) (a n : Nat) : List Nat :=
  (List.range ((a + n + 7) / 8 - a / 8)).map (fun i => s.rsWord (8 * (a / 8 + i)))

/-- A read meets the codes of the words it touches. -/
def State.rsScan (s : State) (a n : Nat) : State :=
  if s.ecc.diff.isEmpty && s.ecc.poison.isEmpty then s else (s.rsKeys a n).foldl State.readWord s

/-- Whether any of `n` bytes from `a` is poisoned. -/
def State.rsPoisoned (s : State) (a n : Nat) : Bool :=
  !(s.ecc.diff.isEmpty && s.ecc.poison.isEmpty) && (s.rsKeys a n).any s.wordPoisoned

/-- The words of a unit that `n` bytes from `a` cover in part. -/
def partKeys (s : State) (a n : Nat) : List Nat :=
  ((if a % 8 = 0 ∧ 8 ≤ n then [] else s.rsKeys a 1) ++ (if (a + n) % 8 = 0 then [] else s.rsKeys (a + n - 1) 1)).eraseDups

/-- R348: a write within one 64-byte unit: a word covered in part is read first; where it is poisoned the whole unit is
refused. Words covered whole lose their errors and poison. -/
def State.rsUnit (s : State) (a : Nat) (bs : List Byte) : State :=
  let n := bs.length
  let part := partKeys s a n
  let s := part.foldl State.readWord s
  match part.find? s.wordPoisoned with
  | some k =>
    let src := k / 2 ^ 40
    let u := wordAt src (k % 2 ^ 40)
    let syn := synByte 64 (s.wordPat k)
    let s := ((s.cnt (PWR_REFUSE_CNT src)).raise ECC_INT_PWR_REFUSE).journal u.2.2 0x0A02 src (eccBody u.1 syn u.2.1)
    s.eccLog src 1 u.1 syn u.2.1 u.2.2
  | none =>
    let s := (s.rsKeys a n).foldl (fun s k => s.wordWritten (k / 2 ^ 40) (k % 2 ^ 40)) (s.rsPut a bs)
    s.pageWritten (1 + s.stkOf a) (s.rsPage a)

/-- Bytes written unit by unit; at most `n` units. -/
def State.rsUnits (s : State) : Nat → Nat → List Byte → State
  | 0, _, _ => s
  | n + 1, a, bs =>
    if bs.isEmpty then s
    else
      let m := 64 - a % 64
      State.rsUnits (s.rsUnit a (bs.take m)) n (a + m) (bs.drop m)

/-- Bytes written to the Root store. -/
def State.rsWrite (s : State) (a : Nat) (bs : List Byte) : State :=
  if s.ecc.diff.isEmpty && s.ecc.poison.isEmpty && !s.on ECC_INJ_CFG_ARM then s.rsPut a bs
  else s.rsUnits (bs.length / 64 + 2) a bs

/-- Whether a write of `n` bytes at `a` would be refused in part (R348). -/
def State.rsRefused (s : State) (a n : Nat) : Bool :=
  let s' := (partKeys s a n).foldl (fun s k => if s.wordPoisoned k then s else s.readWord k) s
  !(s.ecc.diff.isEmpty && s.ecc.poison.isEmpty) && n != 0 && (partKeys s a n).any s'.wordPoisoned

/-! ### Canopy words (R346) -/

/-- The codes of a line's words met by a read: CEs counted; whether one is uncorrectable. -/
def State.lineScan (s : State) (l : Nat) : Bool × State :=
  if s.ecc.diff.isEmpty then (false, s)
  else
    (List.range 17).foldl (fun (x : Bool × State) i =>
      match classify 64 (x.2.ecc.diff.get 0 (eccKey 0 (canopyWord l i))) with
      | .ok => x
      | .ce => (x.1, x.2.ceCount 0 (islGroup (l / 16384 / 32)))
      | .ue => (true, x.2.cnt (UE_CNT 0))
      | .poison => (true, x.2.cnt (POISON_RD_CNT 0))) (false, s)

/-- The hot block of a line and its state word written: their words' errors go, an injection may enter. -/
def State.hotWritten (s : State) (l : Nat) : State :=
  if s.ecc.diff.isEmpty && !s.on ECC_INJ_CFG_ARM then s
  else (([8, 9, 10, 11, 12, 13, 14, 15, 16] : List Nat).foldl (fun s i => s.wordWritten 0 (canopyWord l i)) s).pageWritten 0 (l / 16)

/-- A line written: its words' errors go, an injection may enter. -/
def State.lineWritten (s : State) (l : Nat) : State :=
  if s.ecc.diff.isEmpty && !s.on ECC_INJ_CFG_ARM then s
  else ((List.range 17).foldl (fun s i => s.wordWritten 0 (canopyWord l i)) s).pageWritten 0 (l / 16)

end Sys2Proof.Machine
end

