-- ==== Sys2Proof/Machine/RootAccess.lean ====
section
/-!
DEFINITION. How an access reaches its Root store controller (chapter 09): the shares of the request table (R268), the
accesses a request is performed as (R253), banks and rows (R260), what an issued access counts (R264), and the accesses
that the device's own engines make.
-/
namespace Sys2Proof.Machine

/-- A controller replaced. -/
def State.putRts (s : State) (c : Nat) (x : RtsSt) : State := if c = 0 then { s with rts0 := x } else { s with rts1 := x }

/-- Requester classes (R264). -/
def clsMiss : Nat := 0
def clsMaint : Nat := 1
def clsTwig : Nat := 2
def clsHost : Nat := 3
def clsJrn : Nat := 4
def clsExp : Nat := 5
def clsScrub : Nat := 6
def clsOb : Nat := 7

/-- Reserved entries of a class (R268). -/
def rtsRsv (cls : Nat) : Nat :=
  match cls with | 0 => 1536 | 1 => 1024 | 2 => 256 | 3 => 256 | 4 => 256 | 5 => 256 | 6 => 64 | _ => 0

/-- Whether a class finds an entry: a reserved one, else one of the 448 shared. -/
def rtsRoom (l : List RtsReq) (cls : Nat) : Bool :=
  let held (k : Nat) : Nat := (l.filter (fun r => r.cls == k)).length
  decide (held cls < rtsRsv cls)
    || decide ((List.range 8).foldl (fun n k => n + (held k - rtsRsv k)) 0 < 448)

/-- RTS_REQ_STS of a controller. -/
def State.rtsShow (s : State) (c : Nat) : State :=
  let n := (s.rts c).reqs.length
  (s.wr (RTS_REQ_STS_IN_USE c) n).wr (RTS_REQ_STS_HWM c) (max n (s.rd (RTS_REQ_STS_HWM c)))

/-- An access of 64, 128 or 256 bytes aligned to its size (R253). -/
def rtsWhole (a n : Nat) : Bool := decide ((n = 64 ∨ n = 128 ∨ n = 256) ∧ a % n = 0)

/-- The accesses that a request of `n` bytes is performed as (R253): itself when whole, else one for each 64-byte unit that
it touches. -/
def rtsParts (a n : Nat) : List (Nat × Nat) :=
  if rtsWhole a n then [(a, n)]
  else
    (List.range ((a + n + 63) / 64 - a / 64)).map (fun i =>
      let lo := max a (64 * (a / 64 + i))
      (lo, min (a + n) (64 * (a / 64 + i + 1)) - lo))

/-- The bank of an address, as (pseudo-channel * 3 + SID) * 16 + bank. -/
def State.bankNo (s : State) (a : Nat) : Nat := (s.pcOf a * 3 + a / 2 ^ 34) * 16 + s.baOf a

/-- A bank after an access to a row, and whether it was a row hit (R260). -/
def bankAccess (policy : Nat) (b : BankSt) (row now : Nat) : Bool × BankSt :=
  let hit := b.isOpen && b.row == row
  let c := if b.row = row then min 3 (b.c + 1) else b.c - 1
  match policy with
  | 1 => (hit, { b with isOpen := false, row := row, at_ := now })
  | 2 => (hit, { b with isOpen := true, row := row, at_ := now })
  | _ => (hit, ⟨hit || decide (2 ≤ c), row, c, now⟩)

/-- The bytes an access moves each way: the 64-byte units that cover it (R253). -/
def rtsBytes (r : RtsReq) : Nat := 64 * ((r.addr + r.len + 63) / 64 - r.addr / 64)

/-- An access leaves for its stack: its bank, the last 1 µs of its class, and the counts of R264. -/
def State.rtsMove (s : State) (c : Nat) (r : RtsReq) : State :=
  let x := s.rts c
  let k := s.bankNo r.addr
  let (hit, b) := bankAccess (s.rd RTS_PAGE_CFG_POLICY) (x.banks.get {} k) (getBits r.addr 20 14) s.time.mono
  let n := rtsBytes r
  let s := s.putRts c { x with
    banks := x.banks.set {} k b
    recent := (x.recent.filter (fun e => decide (s.time.mono < e.1 + 8000))) ++ [(s.time.mono, r.cls, n)] }
  let s := if hit then s.cnt (RTS_ROW_HIT_CNT c) else (s.cnt (RTS_ROW_MISS_CNT c)).pmuEv 0x32 c
  let s := if !r.write || r.rmw then s.cnt (RTS_RD_BYTES_CNT c) n else s
  let s := if r.write then s.cnt (RTS_WR_BYTES_CNT c) n else s
  let s := s.cnt (RTS_CLS_BYTES_CNT c r.cls) n
  if r.cls = clsOb then s.cnt (RTS_OB_BYTES_CNT c) n else s

/-! ### Accesses of the device's own engines -/

/-- R268: whether the next access of a class finds an entry at the controller of an address. -/
def State.rtsHas (s : State) (cls a : Nat) : Bool :=
  let x := s.rts (s.stkOf a)
  x.held.all (fun q => q.cls != cls) && rtsRoom x.reqs cls

/-- R268: a requester is held back by credit at the controller of an address. -/
def State.rtsHeldBack (s : State) (a : Nat) : State :=
  (s.cnt (RTS_BACKPRESS_CNT (s.stkOf a))).raise (RTS_INT_BACKPRESS (s.stkOf a))

/-- One access of an engine: accepted, issued and completed within the row that makes it; while it is held the table holds
one entry more. -/
def State.rtsTake (s : State) (r : RtsReq) : State :=
  let c := s.stkOf r.addr
  let x := s.rts c
  let overlaps (q : RtsReq) : Bool := q.write && decide (q.addr < r.addr + r.len) && decide (r.addr < q.addr + q.len)
  let s := if !r.write && x.reqs.any overlaps then s.cnt (RTS_RAW_FWD_CNT c) else s
  let s := (s.pmuEv 0x30 c).wr (RTS_REQ_STS_HWM c) (max (x.reqs.length + 1) (s.rd (RTS_REQ_STS_HWM c)))
  (if r.cls = 0 then s.pmuEv 0x33 c else s).rtsMove c r

/-- An access of `n` bytes of a class by one of the device's own requesters (R253, R264): what it counts; its bytes are
read or written by the operation beside it. -/
def State.rtsUse (s : State) (cls a n : Nat) (write : Bool) : State :=
  (rtsParts a n).foldl (fun s p => s.rtsTake ⟨0, cls, p.1, p.2, write, true, [], write && !rtsWhole a n⟩) s

/-- Bytes at given addresses written as one change: each 8-byte word they cover whole is written whole, others in part
(R348). When a part meets poison the change is refused, and nothing changes. -/
def State.rsBytes (s : State) (l : List (Nat × Byte)) : Bool × State :=
  let t := l.foldl (fun (t : Tab Byte) x => Tab.insert t x.1 x.2) []
  let words := (t.map (fun x => x.1 / 8)).eraseDups
  let mine (w : Nat) : List Byte := (t.filter (fun x => x.1 / 8 == w)).map (·.2)
  match words.find? (fun w => decide ((mine w).length < 8) && s.rsRefused (8 * w) 1) with
  | some w => (false, s.rsWrite (8 * w) (s.rsRead (8 * w) 1))
  | none => (true, words.foldl (fun s w =>
      if (mine w).length = 8 then s.rsWrite (8 * w) (mine w)
      else (t.filter (fun x => x.1 / 8 == w)).foldl (fun s x => s.rsWrite x.1 [x.2]) s) s)

/-- An access by the directory engine of stack `e`: one to the other stack crosses the controller link (R257). -/
def State.rtsUseFrom (s : State) (e cls a n : Nat) (write : Bool) : State :=
  let s := if s.stkOf a = e then s else s.cnt (RTS_XSTK_CNT (s.stkOf a))
  s.rtsUse cls a n write

end Sys2Proof.Machine
end

