-- ==== Sys2Proof/Machine/Line.lean ====
section
/-!
DEFINITION. Ports, lanes and line supervision (chapter 02): modes, alignment lock, link status, FEC statistics, errored
seconds, the peer trace's state, transmit equalisation and PRBS checking.
-/
namespace Sys2Proof.Machine

/-- What a port keeps outside its registers. -/
def State.port (s : State) (p : Nat) : PortSt := s.ports.get {} p

/-- A port's supervision state changed. -/
def State.modPort (s : State) (p : Nat) (f : PortSt → PortSt) : State :=
  { s with ports := s.ports.modify {} p f }

/-! ### Modes (R43) -/

/-- Lanes of a port in a mode; 0 for a disabled group. -/
def modeLanes (m : Nat) : Nat :=
  match m with | 1 => 4 | 2 => 2 | 3 => 1 | 4 => 1 | 5 => 4 | 6 => 2 | 7 => 2 | _ => 0

/-- Data rate of a port in a mode, Gb/s. -/
def modeRate (m : Nat) : Nat :=
  match m with | 1 => 800 | 2 => 400 | 3 => 200 | 4 => 100 | 5 => 400 | 6 => 200 | 7 => 100 | _ => 0

/-- Fixed receive time in half nanoseconds (R27, R44). -/
def modeTrx (m : Nat) : Nat :=
  match m with | 1 => 115 | 2 => 129 | 3 => 156 | 4 => 208 | 5 => 132 | 6 => 160 | 7 => 212 | _ => 0

/-- Fixed transmit time in half nanoseconds (R27, R44). -/
def modeTtx (m : Nat) : Nat :=
  match m with | 1 => 44 | 2 => 50 | 3 => 60 | 4 => 80 | 5 => 51 | 6 => 61 | 7 => 81 | _ => 0

/-- PCS lanes of a port in a mode (PRESUMED: IEEE 802.3's numbers for each PCS). -/
def modePcsLanes (m : Nat) : Nat :=
  match modeRate m with | 800 => 32 | 400 => 16 | 200 => 8 | 100 => 20 | _ => 0

/-- The mode in effect for a port. -/
def State.portMode (s : State) (p : Nat) : Nat := s.rd (PRT_GRP_STS_MODE_ACT (p / 8))

/-- The lanes of a port. -/
def State.portLanes (s : State) (p : Nat) : List Nat := (List.range (modeLanes (s.portMode p))).map (p + ·)

/-- Whether a number is a port of its group's active mode (R43, R45). -/
def State.isPort (s : State) (p : Nat) : Bool :=
  let n := modeLanes (s.portMode p)
  decide (n ≠ 0) && decide (p % n = 0)

/-- Whether a lane carries port traffic: its PRBS is off (3 acts as 0). -/
def State.laneTraffic (s : State) (l : Nat) : Bool :=
  let v := s.rd (PRT_LN_CFG_PRBS l)
  v == 0 || v == 3

/-- The port's line works: it is a port and every lane of it carries traffic. -/
def State.lineOn (s : State) (p : Nat) : Bool := s.isPort p && (s.portLanes p).all s.laneTraffic

/-- Whether the port forwards frames: enabled, after boot (R428). -/
def State.portOn (s : State) (p : Nat) : Bool := s.isPort p && s.on (PRT_CFG_EN p) && s.on GLB_BOOT_STS_DONE

/-- The DL5100 accepts a MODE write only while every port of the group is disabled and drained (R45). -/
def State.modeWrite (s : State) (g m : Nat) : State :=
  if ((List.range 8).map (8 * g + ·)).all (fun p => !s.isPort p || (!s.on (PRT_CFG_EN p) && s.on (PRT_STS_DRAINED p))) then
    (s.wr (PRT_GRP_CFG_MODE g) m).modPort (8 * g) ({ · with modePend := true })
  else s.wr (PRT_GRP_STS_MODE_REJ_STK g) 1

def execModeWrite (g : Fin 32) (mode : BitVec 3) (s : State) : Out :=
  onBar0 (PRT_GRP_CFG g.val) s (·.modeWrite g.val mode.toNat)

/-! ### Errored seconds (R56 to R60) -/

/-- An SES condition of R57 that holds now: a PCS lane out of lock, a fault, LINK_UP = 0. -/
def State.sesNow (s : State) (p : Nat) : Bool :=
  !s.on (PRT_STS_ALIGNED p) || s.on (PRT_STS_LOCAL_FAULT p) || s.on (PRT_STS_REMOTE_FAULT p) || !s.on (PRT_STS_LINK_UP p)

/-- The current second has seen an SES condition, while the port is classified. -/
def State.secFlag (s : State) (p : Nat) : State :=
  if s.on (PRT_CFG_EN p) && s.sesNow p then s.modPort p ({ · with secSes := true }) else s

/-- A new second starts at `t`. -/
def State.secBegin (s : State) (p t : Nat) : State :=
  let bad := s.sesNow p
  s.modPort p (fun q => { q with
    secStart := t, secStep := s.cntAt STEP_CNT, secSes := bad, secUcw := 0, secErr := 0, secLock := 0 })

/-- The class of the current second (R57): 2 SES, 1 ES, 0 error-free. A limit of 0 acts as 1. -/
def State.secClass (s : State) (p : Nat) : Nat :=
  let q := s.port p
  if q.secSes || s.sesNow p || decide (max 1 (s.rd (PRT_ES_CFG_SES_UCW p)) ≤ q.secUcw)
      || decide (max 1 (s.rd (PRT_ES_CFG_SES_FCS p)) ≤ q.secErr) then 2
  else if q.secUcw ≠ 0 ∨ q.secErr ≠ 0 ∨ q.secLock ≠ 0 then 1 else 0

/-- One second counted: unavailable seconds in UAS_CNT only, others in ES_CNT and SES_CNT (R58). -/
def State.secCommit (s : State) (p : Nat) (x : Second) : State :=
  if x.unav then s.cnt (UAS_CNT p)
  else
    let s := if x.cls ≠ 0 then s.cnt (ES_CNT p) else s
    if x.cls = 2 then s.cnt (SES_CNT p) else s

/-- The last 10 seconds when they are all SES (`bad`) or all not SES. -/
def runOfTen (l : List Second) (bad : Bool) : Bool :=
  let last := l.drop (l.length - 10)
  decide (10 ≤ l.length) && last.all (fun x => (x.cls == 2) == bad)

/-- The last 10 seconds marked in or out of an unavailable period. -/
def markTen (l : List Second) (u : Bool) : List Second :=
  l.take (l.length - 10) ++ (l.drop (l.length - 10)).map (fun x => { x with unav := u })

/-- A classified second joins those that await commitment; a run of 10 changes the availability from its first second
(R58, R59). -/
def State.secClassify (s : State) (p : Nat) : State :=
  let q := s.port p
  let u := s.on (PRT_STS_UAS p)
  let l := q.secs ++ [⟨q.secStart, s.secClass p, u⟩]
  if runOfTen l (!u) then
    let l := markTen l (!u)
    let from_ := match (l.drop (l.length - 10)) with | x :: _ => x.start | [] => 0
    let s := (s.modPort p ({ · with secs := l })).wrB (PRT_STS_UAS p) (!u)
    (s.raise (PRT_INT_UAS_CHG p)).journal (portQuad p) 0x0102 p (natLe 8 from_ ++ natLe 1 (b2n !u))
  else s.modPort p ({ · with secs := l })

/-- The seconds that ended 10 seconds ago are counted (R59). -/
def State.secSettle (s : State) (p : Nat) : State :=
  match (s.port p).secs with
  | x :: r => if 10 ≤ r.length then (s.secCommit p x).modPort p ({ · with secs := r }) else s
  | [] => s

/-- R56: the second ends at the next whole second, or at the step of device time applied since it began. -/
def State.secondEnd (s : State) (p : Nat) : State :=
  if !s.portOn p then s
  else
    let q := s.port p
    let stepped := s.cntAt STEP_CNT != q.secStep
    let due := (q.secStart / 1000000000 + 1) * 1000000000
    let s := if stepped then s else s.waitIsl (portQuad p) due
    let t := if stepped then s.time.lastStepEnd.getD due else due
    ((s.secClassify p).secSettle p).secBegin p t

def execSecondEnd (p : Fin 256) (s : State) : Out := onIsl (portQuad p.val) s (·.secondEnd p.val)

/-- R60: the current second ends now and every pending second is committed. -/
def State.secsClose (s : State) (p : Nat) : State :=
  let s := s.secClassify p
  let l := (s.port p).secs
  (l.foldl (fun s x => s.secCommit p x) s).modPort p ({ · with secs := [] })

/-- R60: a port starts; classification restarts in the available state. -/
def State.portStart (s : State) (p : Nat) : State :=
  let s := (s.wr (PRT_STS_DRAINED p) 0).wr (PRT_STS_UAS p) 0
  (s.modPort p ({ · with secs := [] })).secBegin p (s.now (portQuad p))

/-! ### Auto-negotiation and training (R47, R48) -/

def State.anFail (s : State) (p : Nat) : State :=
  ((s.wr (PRT_STS_AN_DONE p) 0).cnt (AN_FAIL_CNT p)).raise (PRT_INT_AN_FAIL p)

/-- R47: negotiation resolves; any other ability than the advertised one is a failure and it restarts. -/
def State.anDone (s : State) (p : Nat) (agreed : Bool) : State :=
  if !s.lineOn p || !s.on (PRT_CFG_AN_EN p) then s
  else if agreed then s.wr (PRT_STS_AN_DONE p) 1 else s.anFail p

def execAnDone (p : Fin 256) (agreed : Bool) (s : State) : Out := onIsl (portQuad p.val) s (·.anDone p.val agreed)

def execAnFail (p : Fin 256) (s : State) : Out := onIsl (portQuad p.val) s (fun s =>
  if !s.lineOn p.val || !s.on (PRT_CFG_AN_EN p.val) || s.on (PRT_STS_AN_DONE p.val) then s else s.anFail p.val)

/-- Whether auto-negotiation, where enabled, has completed. -/
def State.anOk (s : State) (p : Nat) : Bool := !s.on (PRT_CFG_AN_EN p) || s.on (PRT_STS_AN_DONE p)

/-- R48: every lane's training has completed, after auto-negotiation if that is enabled. -/
def State.ltDone (s : State) (p : Nat) : State :=
  if !s.lineOn p || !s.on (PRT_CFG_LT_EN p) || !s.anOk p then s else s.wr (PRT_STS_LT_DONE p) 1

def execLtDone (p : Fin 256) (s : State) : Out := onIsl (portQuad p.val) s (·.ltDone p.val)

/-- R48: a lane's training has exceeded the maximum wait; the port's training restarts. -/
def State.ltFail (s : State) (p : Nat) : State :=
  if !s.lineOn p || !s.on (PRT_CFG_LT_EN p) then s
  else (s.wr (PRT_STS_LT_DONE p) 0).raise (PRT_INT_LT_FAIL p)

def execLtFail (p : Fin 256) (s : State) : Out := onIsl (portQuad p.val) s (·.ltFail p.val)

/-! ### Alignment-marker lock (R49 to R54) -/

/-- N in effect, 2 to 8 (R52). -/
def State.amN (s : State) (p : Nat) : Nat := max 2 (min 8 (s.rd (PRT_AM_CFG_N p)))
/-- M in effect, 1 to 8 (R52). -/
def State.amM (s : State) (p : Nat) : Nat := max 1 (min 8 (s.rd (PRT_AM_CFG_M p)))

/-- The PCS lane `ln` of port `p`. -/
def State.pcsLane (s : State) (p ln : Nat) : PcsLane := (s.port p).pcs.get {} ln

def State.setPcs (s : State) (p ln : Nat) (x : PcsLane) : State :=
  s.modPort p (fun q => { q with pcs := q.pcs.set {} ln x })

/-- A signal is there: the lanes of the port show it. -/
def State.sigDetect (s : State) (p : Nat) (v : Bool) : State :=
  (s.portLanes p).foldl (fun s l => (s.wrB (PRT_LN_STS_SIG_DET l) v).wrB (PRT_LN_STS_CDR_LOCK l) v) s

/-- R49: a marker at a position no open candidate expects opens a candidate, or is dropped when 4 are open. -/
def State.amMatch (s : State) (p ln pos mk : Nat) : State :=
  let x := s.pcsLane p ln
  if !s.lineOn p || decide (modePcsLanes (s.portMode p) ≤ ln) || x.lock.isSome || x.cands.any (·.pos == pos) then s
  else
    let s := s.sigDetect p true
    if 4 ≤ x.cands.length then s.cnt (AM_CAND_DROP_CNT p)
    else s.setPcs p ln { x with cands := x.cands ++ [⟨pos, mk, 1⟩] }

def execAmMatch (p : Fin 256) (ln : Fin 32) (pos : Nat) (mk : Fin 32) (s : State) : Out :=
  onIsl (portQuad p.val) s (·.amMatch p.val ln.val pos mk.val)

/-- ALIGNED is 1 while every PCS lane of the port is in lock; deskew follows lock (R54). -/
def State.alignCheck (s : State) (p : Nat) : State :=
  let n := modePcsLanes (s.portMode p)
  s.wrB (PRT_STS_ALIGNED p) (decide (n ≠ 0) && (List.range n).all (fun l => (s.pcsLane p l).lock.isSome))

/-- R50: a candidate's expected position is tested; it counts, locks the lane at N, or closes as a mimic. -/
def State.amCandCheck (s : State) (p ln pos : Nat) (mk : Option Nat) : State :=
  let x := s.pcsLane p ln
  match x.cands.find? (·.pos == pos) with
  | none => s
  | some c =>
    if !s.lineOn p then s
    else if mk = some c.lane then
      if s.amN p ≤ c.count + 1 then
        (s.setPcs p ln { cands := [], lock := some (pos, c.lane), run := 0 }).alignCheck p
      else s.setPcs p ln { x with
        cands := x.cands.map (fun d => if d.pos = pos then { d with count := d.count + 1 } else d) }
    else (s.setPcs p ln { x with cands := x.cands.filter (·.pos != pos) }).cnt (AM_MIMIC_CNT p)

def execAmCandCheck (p : Fin 256) (ln : Fin 32) (pos : Nat) (mk : Option (Fin 32)) (s : State) : Out :=
  onIsl (portQuad p.val) s (·.amCandCheck p.val ln.val pos (mk.map (·.val)))

/-- R51: a PCS lane leaves lock and resumes the search. -/
def State.amLockLose (s : State) (p ln : Nat) : State :=
  let s := ((s.setPcs p ln {}).cnt (AM_LOCK_LOSS_CNT p)).raise (PRT_INT_LOCK_LOSS p)
  let s := (s.modPort p (fun q => { q with secLock := q.secLock + 1 })).alignCheck p
  s.secFlag p

/-- R51: a locked lane tests its expected marker; the M-th errored one in a row loses the lock. On a lane that carries a
PRBS no marker is valid (R54). -/
def State.amLockCheck (s : State) (p ln : Nat) (valid : Bool) : State :=
  let x := s.pcsLane p ln
  if !s.isPort p || x.lock.isNone then s
  else if valid && s.lineOn p then s.setPcs p ln { x with run := 0 }
  else if x.run + 1 < s.amM p then s.setPcs p ln { x with run := x.run + 1 }
  else s.amLockLose p ln

/-- Loss of signal: each lane in lock meets errored markers until the M-th, and leaves lock (DEDUCED from R51 and R54,
assumption 76). -/
def State.amLoseAll (s : State) (p : Nat) : State :=
  (List.range (modePcsLanes (s.portMode p))).foldl (fun s ln =>
    if (s.pcsLane p ln).lock.isSome then s.amLockLose p ln else s.setPcs p ln {}) s

def execAmLockCheck (p : Fin 256) (ln : Fin 32) (valid : Bool) (s : State) : Out :=
  onIsl (portQuad p.val) s (·.amLockCheck p.val ln.val valid)

/-- The conditions of LINK_UP (R54). -/
def State.linkCond (s : State) (p : Nat) : Bool :=
  s.on (PRT_STS_ALIGNED p) && !s.on (PRT_STS_LOCAL_FAULT p) && !s.on (PRT_STS_REMOTE_FAULT p)
    && s.anOk p && (!s.on (PRT_CFG_LT_EN p) || s.on (PRT_STS_LT_DONE p))

/-- R54: no fault is detected any more; LINK_UP rises when every condition holds. -/
def State.linkUp (s : State) (p : Nat) : State :=
  if !s.lineOn p then s
  else
    let s := (s.wr (PRT_STS_LOCAL_FAULT p) 0).wr (PRT_STS_REMOTE_FAULT p) 0
    if s.on (PRT_STS_LINK_UP p) || !s.linkCond p then s
    else (s.wr (PRT_STS_LINK_UP p) 1).raise (PRT_INT_LINK p)

def execLinkUp (p : Fin 256) (s : State) : Out := onIsl (portQuad p.val) s (·.linkUp p.val)

/-! ### FEC statistics (R55) -/

/-- R55: a codeword is counted while EN = 1 and ALIGNED = 1. -/
def State.fecCodeword (s : State) (p : Nat) (ucw : Bool) (syms : List Nat) : State :=
  if !s.lineOn p || !s.on (PRT_CFG_EN p) || !s.on (PRT_STS_ALIGNED p) then s
  else
    let s := s.cnt (FEC_CW_CNT p)
    if ucw then (s.cnt (FEC_UCW_CNT p)).modPort p (fun q => { q with secUcw := q.secUcw + 1 })
    else
      let k := syms.length
      let s := (s.cnt (FEC_HIST_CNT p k)).cnt (FEC_CORR_SYM_CNT p) k
      let s := if k = 0 then s else s.cnt (FEC_CORR_CW_CNT p)
      syms.foldl (fun s l => s.cnt (PRT_LN_SYM_ERR_CNT (p + l))) s

def execFecCodeword (p : Fin 256) (ucw : Bool) (syms : List (Fin 4)) (s : State) : Out :=
  onIsl (portQuad p.val) s (·.fecCodeword p.val ucw ((syms.take 15).map (·.val)))

/-! ### Peer trace states (R61 to R63) -/

/-- The trace state of a port changes: shown, interrupted. -/
def State.traceSet (s : State) (p st : Nat) : State :=
  if s.rd (PRT_STS_TRACE p) = st then s
  else (s.wr (PRT_STS_TRACE p) st).raise (PRT_INT_TRACE_CHG p)

/-- A change of trace state with its journal event (R63). -/
def State.traceMove (s : State) (p st : Nat) : State :=
  let old := s.rd (PRT_STS_TRACE p)
  if old = st then s
  else (s.traceSet p st).journal (portQuad p) 0x0103 p (natLe 1 old ++ natLe 1 st)

/-- R63: no valid reception for TMO seconds moves any state but UNKNOWN to ABSENT. -/
def State.traceTimeout (s : State) (p : Nat) : State :=
  let tmo := s.rd (PRT_TRC_CFG_TMO p)
  if !s.isPort p || tmo = 0 || s.rd (PRT_STS_TRACE p) = 0 then s
  else
    let s := s.waitIsl (portQuad p) ((s.port p).lastRx + tmo * 1000000000)
    s.traceMove p 3

def execTraceTimeout (p : Fin 256) (s : State) : Out := onIsl (portQuad p.val) s (·.traceTimeout p.val)

/-- A string register file: byte 4i + j in register i. -/
def State.trcBytes (s : State) (base : Nat) : List Byte :=
  (List.range 8).flatMap (fun i => natLe 4 (s.reg (base + 4 * i)))

/-- The first bytes of a received string stored in its registers (R62); the registers' bytes beyond a shorter string keep
what they held (DESIGN CHOICE, assumption 94). -/
def State.trcStore (s : State) (base : Nat) (str : List Byte) : State :=
  let new := splice (s.trcBytes base) 0 (str.take 32)
  (List.range 8).foldl (fun s i => s.setReg (base + 4 * i) (leAt new (4 * i) 4)) s

/-- R62: a received string matches when the lengths and the first min(length, 32) bytes are equal. -/
def State.trcMatch (s : State) (base len : Nat) (str : List Byte) : Bool :=
  decide (str.length = len) && decide (str.take 32 = (s.trcBytes base).take (min len 32))

/-- R62, R63: a valid LLDP reception at the peer trace. -/
def State.traceRx (s : State) (p : Nat) (chs prt : List Byte) : State :=
  let q := s.port p
  let run := if q.chs = chs ∧ q.prt = prt then q.run + 1 else 1
  let s := s.modPort p (fun q => { q with chs := chs, prt := prt, run := run, lastRx := s.now (portQuad p) })
  let s := ((s.trcStore (PRT_TRC_RCV_CHS p 0) chs).trcStore (PRT_TRC_RCV_PRT p 0) prt)
  let s := (s.wr (PRT_TRC_RCV_LEN_CHS_LEN p) chs.length).wr (PRT_TRC_RCV_LEN_PRT_LEN p) prt.length
  if run < 3 then s
  else
    let mc := !s.on (PRT_TRC_CFG_CMP_CHS_EN p) || s.trcMatch (PRT_TRC_EXP_CHS p 0) (s.rd (PRT_TRC_EXP_LEN_CHS_LEN p)) chs
    let mp := !s.on (PRT_TRC_CFG_CMP_PRT_EN p) || s.trcMatch (PRT_TRC_EXP_PRT p 0) (s.rd (PRT_TRC_EXP_LEN_PRT_LEN p)) prt
    s.traceMove p (if mc && mp then 1 else 2)

/-- One TLV of an LLDP data unit: (type, information string, rest), when it lies within the bytes. -/
def lldpTlv (bs : List Byte) : Option (Nat × List Byte × List Byte) :=
  if bs.length < 2 then none
  else
    let h := beAt bs 0 2
    let n := h % 512
    if bs.length < 2 + n then none else some (h / 512, slice bs 2 n, bs.drop (2 + n))

/-- The chassis and port strings of a data unit whose first three TLVs are Chassis ID, Port ID and Time To Live, in that
order and well formed (R61): each ID string 2 to 256 bytes, the time at least 2. -/
def lldpIds (bs : List Byte) : Option (List Byte × List Byte) :=
  match lldpTlv bs with
  | some (1, c, r) =>
    match lldpTlv r with
    | some (2, p, r) =>
      match lldpTlv r with
      | some (3, t, _) =>
        if 2 ≤ c.length ∧ c.length ≤ 256 ∧ 2 ≤ p.length ∧ p.length ≤ 256 ∧ 2 ≤ t.length then some (c, p) else none
      | _ => none
    | _ => none
  | _ => none

/-- R63: a write of an expected-string register restarts the run at 0 and keeps the state. -/
def State.traceExpWrite (s : State) (p a v : Nat) : State :=
  (s.hostWrite a v).modPort p ({ · with run := 0 })

def execTraceExpWrite (p : Fin 256) (i : Fin 17) (v : Word) (s : State) : Out :=
  let a := PRT_TRC_EXP_CHS p.val i.val
  onBar0 a s (·.traceExpWrite p.val a v.toNat)

/-! ### Lanes -/

/-- The absolute tap values of a TXEQ word: four signed 6-bit taps and the unsigned main tap (R76). -/
def txeqSum (v : Nat) : Nat :=
  (toSigned 6 (getBits v 0 6)).natAbs + (toSigned 6 (getBits v 6 6)).natAbs + (toSigned 6 (getBits v 12 6)).natAbs
    + getBits v 18 6 + (toSigned 6 (getBits v 24 6)).natAbs

/-- R76: a write whose taps sum above 63 is ignored. -/
def State.txeqWrite (s : State) (p v : Nat) : State :=
  if 63 < txeqSum v then s else s.hostWrite (PRT_LN_TXEQ p) v

def execTxeqWrite (p : Fin 256) (v : Word) (s : State) : Out :=
  onBar0 (PRT_LN_TXEQ p.val) s (·.txeqWrite p.val v.toNat)

/-- Whether a lane carries a lane of any port of its group (R45). -/
def State.laneUsed (s : State) (l : Nat) : Bool :=
  ((List.range 8).map (8 * (l / 8) + ·)).any (fun p => s.isPort p && (s.portLanes p).contains l)

/-- R389 and the lane registers: a lane in PRBS mode gains or loses lock, and counts errors while locked. -/
def State.prbsCheck (s : State) (p : Nat) (lock : Bool) (errs : Nat) : State :=
  if s.laneTraffic p || !s.laneUsed p then s
  else
    let s := s.wrB (PRT_LN_STS_PRBS_LOCK p) lock
    if lock then s.cnt (PRT_LN_PRBS_ERR_CNT p) errs else s

def execPrbsCheck (p : Fin 256) (lock : Bool) (errs : BitVec 48) (s : State) : Out :=
  onIsl (portQuad p.val) s (·.prbsCheck p.val lock errs.toNat)

/-! ### Bark tags (R31) -/

/-- R31: HWM_CLR sets the high-water mark to IN_USE. -/
def State.tagHwmClr (s : State) (b v : Nat) : State :=
  let s := s.hostWrite (BGH_TAG_CFG b) v
  s.wr (BGH_TAG_STS_HWM b) (s.rd (BGH_TAG_STS_IN_USE b))

def execTagHwmClr (b : Fin 32) (v : Word) (s : State) : Out :=
  onBar0 (BGH_TAG_CFG b.val) s (·.tagHwmClr b.val v.toNat)

end Sys2Proof.Machine
end

