-- ==== Sys2Proof/Machine/Parser.lean ====
section
/-!
DEFINITION. The parser (chapter 03): the parse graph, header sets, exceptions, the fragment table, key profiles, the
flow key and its hash.
-/
namespace Sys2Proof.Machine

/-! ### Hashes (R102) -/

/-- One bit of the hash register, most significant bit first. -/
def khashBit (poly c : Nat) : Nat := if 2 ^ 31 ≤ c then (c * 2 % 2 ^ 32) ^^^ poly else c * 2

/-- One byte enters at the top. -/
def khashByte (poly c : Nat) (b : Byte) : Nat :=
  let k := khashBit poly
  k (k (k (k (k (k (k (k (c ^^^ (b.toNat * 2 ^ 24)))))))))

/-- R102's hash: most significant bit first, no reflection, no final inversion. -/
def khash (poly seed : Nat) (bs : List Byte) : Nat := bs.foldl (khashByte poly) seed

/-- The CRC-32C polynomial and that of IEEE 802.3. -/
def polyA : Nat := 0x1EDC6F41
def polyB : Nat := 0x04C11DB7

/-! ### One header (R82, R83) -/

/-- The L3 header that checks refer to: where its IP payload ends, and whether it is a fragment and its first. -/
structure L3Ctx where
  payEnd : Nat
  isFrag : Bool
  first : Bool
  deriving DecidableEq, Repr

/-- A decoded header: length, next value, exceptions it raises, tunnel identifier, whether an MPLS entry is the bottom of
its stack, fragment fields, whether it ends parsing as a non-first fragment or as a terminal kind, the L3 context from
here on, the frame length it requires, and the end of the bytes it used. -/
structure Hdr where
  len : Nat
  next : Option Nat := none
  excs : List Nat := []
  tun : Nat := 0
  bos : Bool := false
  frag : Option FragInfo := none
  nonfirst : Bool := false
  terminal : Bool := false
  ctx : Option L3Ctx := none
  need : Nat := 0
  used : Nat := 0
  deriving DecidableEq, Repr

/-- What the parser reads: the window, LEN when the frame's end has arrived, and the exception that a header past the
window raises (1 PARSE_DEEP when the frame continues beyond it, 2 PARSE_LEN when the frame ends within it). -/
structure PWin where
  win : List Byte
  flen : Option Nat
  deep : Nat
  deriving DecidableEq, Repr

/-- `n` bytes at `a` as a network-order number, when they lie within the window. -/
def PWin.rd (w : PWin) (a n : Nat) : Option Nat := if a + n ≤ w.win.length then some (beAt w.win a n) else none

/-- The kinds of R82 and the generic one; every other acts as unused. -/
def kindKnown (k : Nat) : Bool := (decide (1 ≤ k) && decide (k ≤ 0x15)) || k == 0x80

/-- The kinds of an L3 header, of a chain's extension headers, and of an L4 header (R87). -/
def kindL3 (k : Nat) : Bool := k == 5 || k == 6 || k == 0x14 || k == 0x15
def kindExt (k : Nat) : Bool := k == 7 || k == 8
def kindL4 (k : Nat) : Bool := k == 0x0A || k == 0x0B || k == 0x0C || k == 0x0D || k == 0x10 || k == 0x11

/-- Whether the ones-complement sum of a header's 16-bit words is all ones. -/
def csumOk (bs : List Byte) : Bool :=
  csumFold ((List.range (bs.length / 2)).foldl (fun a i => a + beAt bs (2 * i) 2) 0) == 0xFFFF

/-- IPv4 (R82): IHL ≥ 5, total length ≥ IHL × 4, frame long enough, header checksum. -/
def decIpv4 (w : PWin) (off : Nat) : Except Nat Hdr :=
  match w.rd off 1, w.rd (off + 2) 2, w.rd (off + 4) 2, w.rd (off + 6) 2, w.rd (off + 9) 1 with
  | some vi, some tot, some id, some fo, some pr =>
    let ihl := vi % 16
    if ihl < 5 then .error 2
    else if w.win.length < off + ihl * 4 then .error w.deep
    else
      let need := off + tot + 4
      let short := match w.flen with | some l => decide (l < need) | none => false
      let bad := decide (tot < ihl * 4) || short
      let cs := csumOk (slice w.win off (ihl * 4))
      let o := fo % 8192 * 8
      let mf := bit fo 13
      let isF := mf || o != 0
      .ok { len := ihl * 4, next := some pr, excs := (if bad then [2] else []) ++ (if cs then [] else [4]),
            frag := if isF then some ⟨o, mf, id, tot - ihl * 4⟩ else none,
            nonfirst := o != 0, ctx := some ⟨off + tot, isF, o == 0⟩, need := need }
  | _, _, _, _, _ => .error w.deep

/-- IPv6 (R82). -/
def decIpv6 (w : PWin) (off : Nat) : Except Nat Hdr :=
  match w.rd (off + 4) 2, w.rd (off + 6) 1, w.rd off 40 with
  | some pl, some nh, some _ =>
    let need := off + 40 + pl + 4
    let short := match w.flen with | some l => decide (l < need) | none => false
    .ok { len := 40, next := some nh, excs := if short then [2] else [],
          ctx := some ⟨off + 40 + pl, false, false⟩, need := need }
  | _, _, _ => .error w.deep

/-- A header of a kind whose length and next value come first; the L4 checks of R82 follow in `l4Check`. A generic node's
next-value word that leaves the window gives no next value, and bytes of its tunnel-identifier word beyond the window read
as 0 (DESIGN CHOICE, assumption 95). -/
def decKind (w : PWin) (nd kind off : Nat) (ctx : Option L3Ctx) : Except Nat Hdr :=
  let d := w.deep
  match kind with
  | 0x01 => match w.rd (off + 12) 2 with
    | some e => .ok { len := 14, next := some e, ctx := ctx } | none => .error d
  | 0x02 | 0x03 => match w.rd (off + 2) 2 with
    | some e => .ok { len := 4, next := some e, ctx := ctx } | none => .error d
  | 0x04 => match w.rd off 4 with
    | some e =>
      let lab := e / 4096
      if !bit e 8 then .ok { len := 4, next := some 0, ctx := ctx }
      else match w.rd (off + 4) 1 with
        | some b => .ok { len := 4, next := some (0x100 + b / 16), tun := lab, bos := true, ctx := ctx, used := off + 5 }
        | none => .ok { len := 4, excs := if d = 1 then [1] else [], tun := lab, bos := true, ctx := ctx }
    | none => .error d
  | 0x05 | 0x14 => decIpv4 w off
  | 0x06 | 0x15 => decIpv6 w off
  | 0x07 => match w.rd off 2 with
    | some e => .ok { len := (e % 256 + 1) * 8, next := some (e / 256), ctx := ctx } | none => .error d
  | 0x08 => match w.rd off 1, w.rd (off + 2) 2, w.rd (off + 4) 4 with
    | some nh, some fo, some id =>
      let o := fo / 8 * 8
      let m := bit fo 0
      let isF := m || o != 0
      let pe := match ctx with | some c => c.payEnd | none => off + 8
      .ok { len := 8, next := some nh, frag := if isF then some ⟨o, m, id, pe - (off + 8)⟩ else none,
            nonfirst := o != 0, ctx := some ⟨pe, isF, o == 0⟩ }
    | _, _, _ => .error d
  | 0x09 => match w.rd off 4 with
    | some e =>
      let fl := e / 65536
      let c := b2n (bit fl 15)
      let k := bit fl 13
      let n := 4 + 4 * c + 4 * b2n k + 4 * b2n (bit fl 12)
      .ok { len := n, next := some (e % 65536), excs := if fl % 8 = 0 then [] else [5],
            tun := if k then beAt w.win (off + 4 + 4 * c) 4 % 2 ^ 24 else 0, ctx := ctx }
    | none => .error d
  | 0x0A => match w.rd (off + 2) 2, w.rd (off + 4) 2 with
    | some dp, some l => .ok { len := 8, next := some dp, excs := if l < 8 then [2] else [], ctx := ctx, need := l }
    | _, _ => .error d
  | 0x0B => match w.rd (off + 12) 1 with
    | some x => if x / 16 < 5 then .error 2 else .ok { len := x / 16 * 4, ctx := ctx } | none => .error d
  | 0x0C | 0x0D => .ok { len := 8, ctx := ctx }
  | 0x0E => match w.rd off 8 with
    | some e => .ok { len := 8, next := some 0, excs := if bit e 59 then [] else [5], tun := e / 256 % 2 ^ 24, ctx := ctx }
    | none => .error d
  | 0x0F => match w.rd off 8 with
    | some e => .ok { len := 8 + e / 2 ^ 56 % 64 * 4, next := some (e / 2 ^ 32 % 65536),
                      excs := if e / 2 ^ 62 = 0 then [] else [5], tun := e / 256 % 2 ^ 24, ctx := ctx }
    | none => .error d
  | 0x10 => .ok { len := 8, terminal := true, ctx := ctx }
  | 0x11 => match w.rd off 2 with
    | some e => .ok { len := (e % 256 + 2) * 4, next := some (e / 256), ctx := ctx } | none => .error d
  | 0x12 => .ok { len := 28, terminal := true, ctx := ctx }
  | 0x13 => .ok { len := 0, terminal := true, ctx := ctx }
  | _ =>
    -- generic (R83)
    let lm := fget nd ND_LEN_MASK
    let lw := if lm = 0 then some 0 else w.rd (off + fget nd ND_LEN_OFF) 2
    match lw with
    | none => .error d
    | some x =>
      let len := (x &&& lm) / 2 ^ fget nd ND_LEN_SHR * 2 ^ fget nd ND_LEN_MUL + fget nd ND_LEN_ADD
      if len = 0 then .error 2
      else
        let nm := fget nd ND_NXT_MASK
        let nx := if nm = 0 then none else (w.rd (off + fget nd ND_NXT_OFF) 2).map (· &&& nm)
        let tw := beAt w.win (off + fget nd ND_TUN_OFF) 3
        let u1 := if nx.isNone then 0 else off + fget nd ND_NXT_OFF + 2
        let u2 := if lm = 0 then 0 else off + fget nd ND_LEN_OFF + 2
        let u3 := if fon nd ND_TERM then min w.win.length (off + fget nd ND_TUN_OFF + 3) else 0
        .ok { len := len, next := nx, tun := tw / 2 ^ fget nd ND_TUN_SHR % 2 ^ 24, ctx := ctx, used := max (max u1 u2) u3 }

/-- The checks of an L4 header against the payload of the IP header before it (R82, R90): of UDP and TCP wherever they are
decoded, of the other kinds as the L4 header of a chain. -/
def l4Check (kind off : Nat) (h : Hdr) (inChain : Bool) : Except Nat Hdr :=
  match h.ctx with
  | none => .ok { h with need := 0 }
  | some c =>
    if !(kindL4 kind && (inChain || kind == 0x0A || kind == 0x0B)) then .ok h
    else if c.isFrag && c.first then
      if c.payEnd < off + h.len then .error 2 else .ok { h with need := 0 }
    else if kind = 0x0A then
      let e := if c.payEnd < off + h.need && h.excs.isEmpty then [2] else h.excs
      .ok { h with excs := e, need := 0 }
    else if kind = 0x0B then
      .ok (if c.payEnd < off + h.len then { h with excs := [2] } else h)
    else .ok h

/-- A header decoded, checked, and found to lie within the window (R90: otherwise it is not entered). -/
def decHdr (w : PWin) (nd kind off : Nat) (ctx : Option L3Ctx) (inChain : Bool) : Except Nat Hdr :=
  match decKind w nd kind off ctx with
  | .error e => .error e
  | .ok h =>
    match l4Check kind off h inChain with
    | .error e => .error e
    | .ok h => if w.win.length < off + h.len then .error w.deep else .ok h

/-! ### The walk (R84 to R90) -/

/-- The parser's work in progress. -/
structure PWork where
  node : Nat := 0
  off : Nat := 0
  stack : List (Nat × Nat) := []
  outer : HdrSet := {}
  inner : HdrSet := {}
  openO : Bool := false
  openI : Bool := false
  ctx : Option L3Ctx := none
  tun : Bool := false
  tunId : Nat := 0
  mpls : Bool := false
  prof : Option Nat := none
  user : Option Nat := none
  vid : Option Nat := none
  eth0 : Bool := false
  /-- the last EtherType decoded -/
  etype : Nat := 0
  raised : List Nat := []
  used : Nat := 0
  need : Nat := 0
  deriving DecidableEq, Repr

/-- The kinds whose next value is an EtherType (R82): Ethernet II, tags, GRE, Geneve. -/
def kindEtype (k : Nat) : Bool := k == 1 || k == 2 || k == 3 || k == 9 || k == 0x0F

/-- A decoded header placed in a set (R87): the set, and whether its L3 chain stays open. `et` is the last EtherType decoded,
which a set without L3 shows, of several the last (R107; for R99 DESIGN CHOICE, assumption 96). -/
def placeHdr (st : HdrSet) (op : Bool) (kind off et : Nat) (term : Bool) (h : Hdr) : HdrSet × Bool :=
  let st := if kind = 1 ∧ st.l2 = none then { st with l2 := some off } else st
  match st.l3 with
  | none =>
    let st := { st with etype := et, mplsTerm := if kind = 4 then term else st.mplsTerm }
    if kindL3 kind then
      ({ st with l3 := some off, ver := if kind = 5 ∨ kind = 0x14 then 4 else 6, proto := h.next.getD 0,
                 frag := h.frag }, true)
    else (st, false)
  | some _ =>
    if !op then (st, false)
    else if kindExt kind then
      ({ st with proto := h.next.getD 0, frag := if h.frag.isSome then h.frag else st.frag }, true)
    else if kindL4 kind then ({ st with l4 := some off, l4k := kind }, false)
    else (st, false)

/-- The user field a node supplies: 0 when any byte lies beyond the window or the frame (R99); and its end. -/
def userField (w : PWin) (nd off : Nat) : Nat × Nat :=
  let n := fget nd ND_USR_W
  let n := if n = 0 ∨ 5 ≤ n then 4 else n
  let a := off + fget nd ND_USR_OFF
  match w.rd a n with
  | some v => (v, a + n)
  | none => (0, 0)

/-- The parse graph a generation's packets use: nodes and transitions, in table order. -/
structure PGraph where
  nodes : List Nat
  trans : List Nat
  deriving DecidableEq, Repr

/-- The copies of a generation (R80). -/
def State.pgraph (s : State) (copy : Nat) : PGraph :=
  { nodes := if s.tblTouched 0x10 copy || !s.ecc.repairDue.isEmpty then (List.range 128).map (s.ent 0x10 copy) else dfltKinds
    trans := if s.tblTouched 0x11 copy || !s.ecc.repairDue.isEmpty then (List.range 1024).map (s.ent 0x11 copy)
             else dfltTrans }

/-- The entries that a walk has read: its nodes, and the transitions from them. -/
def graphRead (g : PGraph) (copy : Nat) (nodes : List Nat) : List (Nat × Nat × Nat) :=
  nodes.map (fun n => (0x10, copy, n))
    ++ (g.trans.zipIdx.filter (fun t => fon t.1 TR_V && nodes.contains (fget t.1 TR_FROM))).map (fun t => (0x11, copy, t.2))

/-- The lowest-numbered transition that matches (R84): VXLAN's is the one with VALUE 0 and MASK 0 (R82). -/
def pickTrans (g : PGraph) (node kind x : Nat) : Option Nat :=
  g.trans.find? (fun t => fon t TR_V && fget t TR_FROM == node &&
    (if kind = 0x0E then fget t TR_VALUE == 0 && fget t TR_MASK == 0
     else (x &&& fget t TR_MASK) == (fget t TR_VALUE &&& fget t TR_MASK)))

/-- The kind of a node, 0 where it acts as unused. -/
def nodeKind (g : PGraph) (n : Nat) : Nat :=
  let k := fget (nth g.nodes n 0) ND_KIND
  if kindKnown k then k else 0

/-- A header entered in the stack and the sets, its node's profile and user field noted, its tunnel terminated. -/
def enterHdr (w : PWin) (nd kind : Nat) (h : Hdr) (p : PWork) : PWork :=
  let et := if kindEtype kind then h.next.getD p.etype else p.etype
  let term := fon nd ND_TERM
  let (o, oo) := placeHdr p.outer p.openO kind p.off et term h
  let (i, io) := placeHdr p.inner p.openI kind p.off et term h
  let tagged := (kind = 2 ∨ kind = 3) ∧ p.stack.length = 1 ∧ p.eth0 = true
  let (uv, ue) := userField w nd p.off
  { p with
    stack := p.stack ++ [(p.node, p.off)]
    outer := o, openO := oo
    inner := if term then { etype := et, mplsTerm := kind == 4 } else i
    openI := if term then false else io
    ctx := h.ctx
    etype := et
    eth0 := p.eth0 || (kind == 1 && p.off == 0)
    vid := if tagged then some (beAt w.win p.off 2 % 4096) else p.vid
    prof := if fon nd ND_PROF_V then some (fget nd ND_PROF) else p.prof
    user := if fon nd ND_USR_V then some uv else p.user
    tun := p.tun || term
    tunId := if term then (if kind = 4 ∧ h.bos = false then 0 else h.tun)
             else if p.mpls ∧ kind = 4 ∧ h.bos = true then h.tun else p.tunId
    mpls := (term || p.mpls) && kind == 4 && !h.bos
    raised := p.raised ++ h.excs
    used := max (max p.used (p.off + h.len)) (max h.used (if fon nd ND_USR_V then ue else 0))
    need := max p.need h.need }

/-- A header's exceptions with PARSE_UNK among them, in ascending order (R90): `old` what was raised before the header. -/
def withUnk (old excs : List Nat) : List Nat := old ++ excs.filter (· < 3) ++ [3] ++ excs.filter (3 < ·)

/-- Parsing from a node on; `stops c` says that exception `c` ends parsing (R90). At most 16 headers. -/
def walk (g : PGraph) (w : PWin) (stops : Nat → Bool) : Nat → PWork → PWork
  | 0, p => p
  | fuel + 1, p =>
    let kind := nodeKind g p.node
    let nd := nth g.nodes p.node 0
    if kind = 0 then p
    else if p.stack.length = 16 then { p with raised := p.raised ++ [1] }
    else
      match decHdr w nd kind p.off p.ctx (p.openO || p.openI) with
      | .error c => { p with raised := p.raised ++ [c] }
      | .ok h =>
        let old := p.raised
        let p := enterHdr w nd kind h p
        if h.excs.any stops || h.nonfirst then p
        else
          let unk := if fon nd ND_REQ_NEXT then { p with raised := withUnk old h.excs } else p
          if h.terminal then unk else
          match h.next with
          | none => unk
          | some x =>
            match pickTrans g p.node kind x with
            | none => unk
            | some t => if fon t TR_STOP then p else walk g w stops fuel { p with node := fget t TR_TO, off := p.off + h.len }

/-! ### Fields of a header set (R99, R107) -/

/-- Source and destination address of a set, 16 bytes each: IPv6, or IPv4 in the last four, or 0. -/
def setSrc (win : List Byte) (st : HdrSet) : List Byte :=
  match st.l3 with
  | none => List.replicate 16 0
  | some a => if st.ver = 4 then List.replicate 12 0 ++ slice0 win (a + 12) 4 else slice0 win (a + 8) 16

def setDst (win : List Byte) (st : HdrSet) : List Byte :=
  match st.l3 with
  | none => List.replicate 16 0
  | some a => if st.ver = 4 then List.replicate 12 0 ++ slice0 win (a + 16) 4 else slice0 win (a + 24) 16

/-- Source L4 port: TCP or UDP; what the fragment table gave where it did (R96). -/
def setSport (win : List Byte) (st : HdrSet) : Nat :=
  if st.fhit then st.fsp else
  match st.l4 with
  | none => 0
  | some a => if st.l4k = 0x0A ∨ st.l4k = 0x0B then beAt win a 2 else 0

/-- Destination L4 port; ICMP or ICMPv6 type × 256 + code. -/
def setDport (win : List Byte) (st : HdrSet) : Nat :=
  if st.fhit then st.fdp else
  match st.l4 with
  | none => 0
  | some a =>
    if st.l4k = 0x0A ∨ st.l4k = 0x0B then beAt win (a + 2) 2
    else if st.l4k = 0x0C ∨ st.l4k = 0x0D then beAt win a 2 else 0

/-- Key extension of an IP set (R99): echo identifier, or ESP or AH SPI. -/
def setExt (win : List Byte) (st : HdrSet) : Nat :=
  if st.fhit then st.fext else
  match st.l4 with
  | none => 0
  | some a =>
    let ty := beAt win a 1
    if (st.l4k = 0x0C ∧ (ty = 0 ∨ ty = 8)) ∨ (st.l4k = 0x0D ∧ (ty = 128 ∨ ty = 129)) then beAt win (a + 4) 2 * 65536
    else if st.l4k = 0x10 then beAt win a 4
    else if st.l4k = 0x11 then beAt win (a + 4) 4 else 0

/-- Destination and source MAC of a set's L2 header, 6 bytes each. -/
def setDmac (win : List Byte) (st : HdrSet) : List Byte :=
  match st.l2 with | some a => slice0 win a 6 | none => List.replicate 6 0
def setSmac (win : List Byte) (st : HdrSet) : List Byte :=
  match st.l2 with | some a => slice0 win (a + 6) 6 | none => List.replicate 6 0

/-- The non-IP class of R99: 1 ARP, 2 MPLS not terminated, 3 other. -/
def setClass (st : HdrSet) : Nat :=
  if st.etype = 0x0806 then 1 else if (st.etype = 0x8847 ∨ st.etype = 0x8848) ∧ st.mplsTerm = false then 2 else 3

/-- The flow key before masking (R99). -/
def flowKeyRaw (win : List Byte) (p : ParseRes) (zone port extSel : Nat) (outerSel : Bool) : List Byte :=
  let st := if outerSel then p.outer else p.inner
  let tun := if outerSel || !p.tun then 0 else p.tunId
  let ip := st.l3.isSome
  let auto := if ip then setExt win st else if setClass st = 3 then st.etype else 0
  let ext := match extSel with | 1 => p.user.getD 0 | 2 => 0 | _ => auto
  natBe 1 zone ++ natBe 1 port ++ natBe 2 (p.vid.getD 0) ++ natBe 3 tun
    ++ natBe 1 (if ip then st.ver * 16 else setClass st) ++ natBe 1 (if ip then st.proto else 0) ++ [0, 0, 0]
    ++ (if ip then setSrc win st else List.replicate 10 0 ++ setSmac win st)
    ++ (if ip then setDst win st else List.replicate 10 0 ++ setDmac win st)
    ++ natBe 2 (if ip then setSport win st else 0) ++ natBe 2 (if ip then setDport win st else 0) ++ natBe 4 ext

/-- Every byte whose mask bit is 0 set to 0. -/
def maskKey (m : Nat) (k : List Byte) : List Byte := k.mapIdx (fun i b => if bit m i then b else 0)

/-- The flow key of a parsed packet under its key profile's entry, from the outer set when `outer` (R99 to R101). -/
def profKey (kpe port : Nat) (r : ParseRes) (outer : Bool) : List Byte :=
  maskKey (fget kpe KP_MASK) (flowKeyRaw r.win r r.zone port (fget kpe KP_EXT_SEL) outer)

/-! ### The fragment table (R94 to R98) -/

/-- The 40-byte datagram identity (R94). -/
def fragIdent (win : List Byte) (st : HdrSet) (zone : Nat) (f : FragInfo) : List Byte :=
  natBe 1 zone ++ natBe 1 st.ver ++ natBe 1 st.proto ++ [0] ++ setSrc win st ++ setDst win st ++ natBe 4 f.ident

/-- The set of an identity. -/
def State.fragSet (s : State) (id : List Byte) : Nat := khash polyA (s.reg GRV_HASH_SEED_A) id % 4096

/-- The entry of a set with an identity. -/
def State.fragFind (s : State) (fs : Nat) (id : List Byte) : Option (Nat × FragEnt) :=
  (List.range 4).findSome? (fun w => match s.frags.find? (4 * fs + w) with
    | some e => if e.ident = id then some (4 * fs + w, e) else none
    | none => none)

/-- BRG_FRAG_STS after a change. -/
def State.fragShow (s : State) : State :=
  let n := s.frags.length
  let s := s.wr BRG_FRAG_STS_IN_USE n
  s.wr BRG_FRAG_STS_HWM (max n (s.rd BRG_FRAG_STS_HWM))

/-- R97: the entry is freed when its total is known and reached. -/
def State.fragPut (s : State) (k : Nat) (e : FragEnt) : State :=
  match e.total with
  | some t => if t ≤ e.seen then ({ s with frags := s.frags.erase k }.cnt FRAG_DONE_CNT).fragShow
              else { s with frags := s.frags.insert k e }.fragShow
  | none => { s with frags := s.frags.insert k e }.fragShow

/-- R95: a first fragment installs or overwrites its entry, or raises FRAG_FULL (`true`). -/
def State.fragInstall (s : State) (id : List Byte) (e : FragEnt) : Bool × State :=
  let fs := s.fragSet id
  match s.fragFind fs id with
  | some (k, o) =>
    (false, (s.cnt FRAG_INSTALL_CNT).fragPut k { o with sp := e.sp, dp := e.dp, ext := e.ext, seen := e.seen, inst := e.inst })
  | none =>
    match (List.range 4).find? (fun w => (s.frags.find? (4 * fs + w)).isNone) with
    | some w => (false, (s.cnt FRAG_INSTALL_CNT).fragPut (4 * fs + w) e)
    | none => (true, s.cnt FRAG_FULL_CNT)

/-- R96: a non-first fragment's lookup: the entry's L4 fields, or `none`. -/
def State.fragLookup (s : State) (id : List Byte) (f : FragInfo) : Option FragEnt × State :=
  match s.fragFind (s.fragSet id) id with
  | none => (none, s.cnt FRAG_MISS_CNT)
  | some (k, e) =>
    let e' := { e with seen := e.seen + f.pay, total := if f.more then e.total else some (f.off + f.pay) }
    (some e, (s.cnt FRAG_HIT_CNT).fragPut k e')

/-- R97: an entry's lifetime ends. -/
def State.fragTimeout (s : State) (k : Nat) : State :=
  match s.frags.find? k with
  | none => s
  | some e =>
    let s := s.waitIsl islMgmt (e.inst + max 1 (s.rd BRG_FRAG_CFG_TMO) * 1000000)
    ({ s with frags := s.frags.erase k }.cnt FRAG_TMO_CNT).fragShow

def execFragTimeout (fs : BitVec 12) (way : Fin 4) (s : State) : Out :=
  onIsl islMgmt s (·.fragTimeout (4 * fs.toNat + way.val))

/-- R94 and BRG_FRAG_CFG: EN = 0 frees every entry without counting. -/
def State.fragDisable (s : State) (v : Nat) : State :=
  { (s.hostWrite BRG_FRAG_CFG v).wr BRG_FRAG_CFG_EN 0 with frags := [] }.fragShow

def execFragTableDisable (v : Word) (s : State) : Out := onBar0 BRG_FRAG_CFG s (·.fragDisable v.toNat)

/-! ### The whole parse -/

/-- The action of exception `n` in force (R89, R91): 5 to 7 act as DROP. -/
def State.excAct (s : State) (n : Nat) : Nat := min 5 (s.rd (GRF_EXC_CFG_ACT n))

/-- Whether an action is BRIDGE or BRIDGE_COPY. -/
def actBridges (a : Nat) : Bool := a == 1 || a == 4

/-- EXC: the first exception whose action is not CONTINUE, or the first raised (R90). -/
def State.excOf (s : State) (raised : List Nat) : Nat :=
  match raised.find? (fun c => s.excAct c != 0) with
  | some c => c
  | none => raised.headD 0

/-- R93: each raised exception counts, and where JRN_EN says so is journaled with the bark's EXC. -/
def State.excCount (s : State) (b : Bark) (raised : List Nat) : State :=
  raised.foldl (fun s c =>
    let s := s.cnt (BGH_EXC_CNT b.bough c)
    if s.on (GRF_EXC_CFG_JRN_EN c) then s.journalPkt (islBough b.bough) 0x0201 b.bough b (natLe 1 b.exc) else s) s

/-- The parse window of a frame (R77): `flen` its LEN when the end has arrived. -/
def pwinOf (bytes : List Byte) (ended : Bool) : PWin :=
  if ended then
    let n := bytes.length - 4
    { win := bytes.take (min 256 n), flen := some bytes.length, deep := if n ≤ 256 then 2 else 1 }
  else { win := bytes.take 256, flen := none, deep := 1 }

/-- The walk's findings as a parse result. -/
def parseOf (p : PWork) : ParseRes :=
  { stack := p.stack, outer := p.outer, inner := if p.tun then p.inner else p.outer, raised := p.raised,
    tun := p.tun, tunId := p.tunId, user := p.user, vid := p.vid, eth0 := p.eth0, used := p.used, need := p.need }

/-- The L4 fields of a fragment's datagram given to both sets (R96). -/
def giveFrag (e : FragEnt) (r : ParseRes) : ParseRes :=
  { r with outer := { r.outer with fhit := true, fsp := e.sp, fdp := e.dp, fext := e.ext }
           inner := { r.inner with fhit := true, fsp := e.sp, fdp := e.dp, fext := e.ext } }

/-- The fragment table's part of a parse (R94 to R96): the result, and the exceptions it raises. -/
def State.fragStep (s : State) (win : List Byte) (r : ParseRes) (cfg : Nat) (outerSel : Bool) : ParseRes × State :=
  let st := if outerSel then r.outer else r.inner
  match st.frag with
  | none => (r, s)
  | some f =>
    if !bit cfg 12 || !s.on BRG_FRAG_CFG_EN then (r, s)
    else
      let id := fragIdent win st (cfg % 256) f
      if f.off = 0 then
        if st.l4.isNone then (r, s)
        else
          let (full, s) := s.fragInstall id
            ⟨id, setSport win st, setDport win st, setExt win st, f.pay, none, s.now islMgmt⟩
          (if full then { r with raised := r.raised ++ [7] } else r, s)
      else
        match s.fragLookup id f with
        | (some e, s) => (giveFrag e r, s)
        | (none, s) => ({ r with raised := r.raised ++ [6] }, s)

/-- Codes of the parse tables met by a bough's walk (R345), until every entry it reads has been met; at most `n` times. -/
def State.meetWalk (s : State) (unit copy : Nat) (w : PWin) : Nat → State
  | 0 => s
  | n + 1 =>
    let g := s.pgraph copy
    let t := s.meetEnts unit (graphRead g copy ((walk g w (fun c => s.excAct c != 0) 17 {}).stack.map (·.1)).eraseDups)
    if t.ecc.repairDue.length = s.ecc.repairDue.length then t else State.meetWalk t unit copy w n

/-- R77 to R101: a packet parsed under the tables of generation `gen`. Of several exceptions raised, NO_FLOW is that of the
one in EXC (DESIGN CHOICE, assumption 97). -/
def State.parse (s : State) (bytes : List Byte) (ended : Bool) (port gen : Nat) : ParseRes × State :=
  let copy := gen % 2
  let w := pwinOf bytes ended
  let s := if s.ecc.diff.isEmpty then s else s.meetWalk (portBough port) copy w 17
  let p := walk (s.pgraph copy) w (fun c => s.excAct c != 0) 17 {}
  let r := parseOf p
  let cfg := s.reg (BGH_PKEY_CFG (portBough port) (port % 8))
  let kp := p.prof.getD (getBits cfg 8 4)
  let s := s.meetEnt (portBough port) 0x12 copy kp
  let kpe := s.ent 0x12 copy kp
  let forced := r.raised.any (fun c => actBridges (s.excAct c))
  let (r, s) := s.fragStep w.win r cfg (forced || fon kpe KP_HDR_SEL)
  let exc := s.excOf r.raised
  let act := if exc = 0 then 0 else s.excAct exc
  let forced := r.raised.any (fun c => actBridges (s.excAct c))
  let outerSel := forced || fon kpe KP_HDR_SEL
  let r := { r with win := w.win, zone := cfg % 256 }
  ({ r with exc := exc, act := act, prof := kp, key := profKey kpe port r outerSel, osel := outerSel
            lateAct := s.excAct 2, lateCh := s.rd (GRF_EXC_CFG_HOST_CH 2), lateNoFlow := s.on (GRF_EXC_CFG_NO_FLOW 2)
            flowEn := fon kpe KP_EN && !(exc != 0 && s.on (GRF_EXC_CFG_NO_FLOW exc))
            excCh := if exc = 0 then 0 else s.rd (GRF_EXC_CFG_HOST_CH exc) }, s)

/-- The 53-byte hash input (R102). -/
def hashInput (key : List Byte) (prof : Nat) : List Byte := key ++ [BitVec.ofNat 8 (prof % 16)]

end Sys2Proof.Machine
end

