-- ==== Sys2Proof/Machine/Packets.lean ====
section
/-!
DEFINITION. Packets in flight: bark tags (R30 to R33), generation counts (R125), ingress-store buffers (R269 to R278),
ordered slots (R235 to R239), drops (R392), and the release of what a packet holds.
-/
namespace Sys2Proof.Machine

/-- The key of a bark tag of a bough. -/
def pkey (b t : Nat) : Nat := 8192 * b + t

/-- The packet under a key. -/
def State.pkt? (s : State) (k : Nat) : Option Pkt := s.pkts.find? k

/-- A packet stored. -/
def State.putPkt (s : State) (k : Nat) (p : Pkt) : State := { s with pkts := s.pkts.insert k p }

/-- A packet changed, where there is one. -/
def State.modPkt (s : State) (k : Nat) (f : Pkt → Pkt) : State :=
  match s.pkt? k with
  | some p => s.putPkt k (f p)
  | none => s

/-- A row that acts on the packet of a bark tag, in the bough's island, when its state is one the row speaks of. -/
def State.withPkt (s : State) (b t : Nat) (f : Pkt → State) : State :=
  match s.pkt? (pkey b t) with
  | some p => f p
  | none => s

/-! ### Generation counts (R125) -/

/-- BGH_GEN_CNT.CNT0 and CNT1. -/
def genCnt (b i : Nat) : RFld := ⟨BGH_GEN_CNT b, 16 * (i % 2), 14⟩

/-- The current generation of a bough (R124): G, or G + 1 once the bough has flipped in FLIP_WAIT. -/
def State.boughGen (s : State) (b : Nat) : Nat :=
  let g := s.rd GRF_GEN_CUR_GEN
  if s.rd GRF_GRAFT_STS_STATE = 3 ∧ bit s.gr.flipped b = true then (g + 1) % 65536 else g

/-- The bough writes GEN and counts the tag. -/
def State.genTake (s : State) (b : Nat) : State :=
  let f := genCnt b (s.boughGen b)
  s.wr f (s.rd f + 1)

/-! ### Ordered slots (R235 to R239) -/

/-- Window use of a cluster shown. -/
def State.winAdd (s : State) (k : Nat) : State := s.wr (TWG_CLU_STS_WIN_USE k) (s.rd (TWG_CLU_STS_WIN_USE k) + 1)
def State.winSub (s : State) (k : Nat) : State := s.wr (TWG_CLU_STS_WIN_USE k) (s.rd (TWG_CLU_STS_WIN_USE k) - 1)

/-- The packet of a released slot goes on to admission, when it waited for that. -/
def State.slotGo (s : State) (o : OrdSlot) : State :=
  if o.live then
    (s.winSub o.win).modPkt o.pkt (fun p => { p with slot := none, stage := if p.stage = .ordered then .toAdmit else p.stage })
  else s.winSub o.win

/-- Slots released from the head of a port's chain while they are ready (R238). -/
def State.slotChain (s : State) (port : Nat) : List OrdSlot → List OrdSlot → State
  | acc, [] => { s with twig.slots := acc.reverse }
  | acc, o :: r =>
    if o.port = port then
      if o.ready then State.slotChain (s.slotGo o) port acc r
      else { s with twig.slots := acc.reverse ++ o :: r }
    else State.slotChain s port (o :: acc) r

/-- Slot number `id` becomes ready; it is released with its ready successors when no slot stands before it. HOLD = 0
releases a slot at once (R237 to R239). -/
def State.slotReady (s : State) (id : Nat) : State :=
  match s.twig.slots.find? (fun o => o.id == id && !o.ready) with
  | none => s
  | some o =>
    let s := { s with twig.slots := s.twig.slots.map (fun (x : OrdSlot) =>
      if x.id = id then { x with ready := true, readyAt := s.time.mono } else x) }
    if s.rd TWG_CFG_HOLD = 0 then
      let skipped := s.twig.slots.any (fun (x : OrdSlot) => x.port == o.port && !x.ready)
        && (s.twig.slots.find? (fun (x : OrdSlot) => x.port == o.port)).any (fun x => x.id != id)
      let s := { s with twig.slots := s.twig.slots.filter (fun (x : OrdSlot) => x.id != id) }
      let s := if skipped then (s.cnt TWG_ORD_SKIP_CNT).raise TWG_INT_ORD_SKIP else s
      s.slotGo o
    else s.slotChain o.port [] s.twig.slots

/-! ### Bark tags (R30 to R33) -/

/-- BGH_TAG_STS after a tag is taken (R32). -/
def State.tagShow (s : State) (b n : Nat) : State :=
  let old := s.rd (BGH_TAG_STS_IN_USE b)
  let thr := s.rd (BGH_TAG_THR_THR b)
  let s := s.wr (BGH_TAG_STS_IN_USE b) n
  let s := s.wr (BGH_TAG_STS_HWM b) (max n (s.rd (BGH_TAG_STS_HWM b)))
  if old < thr ∧ thr ≤ n then s.raise (BGH_TAG_INT_HIGH b) else s

/-- Tags reserved for host-injected packets: values above 1,024 act as 1,024. -/
def State.hostRsv (s : State) (b : Nat) : Nat := min 1024 (s.rd (BGH_TAG_CFG_HOST_RSV b))

/-- Tags of a bough that line frames hold. -/
def State.lineTags (s : State) (b : Nat) : Nat :=
  (s.pkts.filter (fun e => e.1 / 8192 == b && !e.2.host)).length

/-- A DRAIN switch withholds every tag (R442). -/
def State.tagsHeld (s : State) : Bool := match s.sw with | some w => w.drain | none => false

/-- Whether an instant lies in the present cycle of a bough (625 ps, R14). -/
def State.thisCycle (s : State) (at_ : Nat) : Bool := at_ / 5 == s.time.mono / 5

/-- Tags of a bough freed in its present cycle: an SFD cannot take them before the next (R33). -/
def State.tagsJustFreed (s : State) (b : Nat) : List (Nat × Bool × Nat) :=
  s.freedTags.filter (fun e => e.1 / 8192 == b && s.thisCycle e.2.2)

/-- Whether a tag is free for a line frame (R31) or for a host-injected packet; a tag freed in this cycle is not yet
(R33). -/
def State.tagFree (s : State) (b : Nat) (host : Bool) : Bool :=
  !s.tagsHeld && decide (s.rd (BGH_TAG_STS_IN_USE b) + (s.tagsJustFreed b).length < 8192)
    && (host || decide (s.lineTags b + ((s.tagsJustFreed b).filter (fun (e : Nat × Bool × Nat) => !e.2.1)).length < 8192 - s.hostRsv b))

/-- The free tag of a bough at or cyclically after `t` (the spec leaves the number open: DESIGN CHOICE). -/
def State.tagFrom (s : State) (b : Nat) : Nat → Nat → Option Nat
  | 0, _ => none
  | n + 1, t =>
    if (s.pkts.find? (pkey b t)).isNone && !(s.tagsJustFreed b).any (fun e => e.1 == pkey b t) then some t
    else State.tagFrom s b n ((t + 1) % 8192)

/-- A tag taken for a packet. -/
def State.takeTag (s : State) (b t : Nat) (p : Pkt) : State :=
  (s.putPkt (pkey b t) p).tagShow b (s.rd (BGH_TAG_STS_IN_USE b) + 1)

/-- A port's receive side. -/
def State.rxPort (s : State) (p : Nat) : RxPort := s.rx.get {} p
def State.setRx (s : State) (p : Nat) (x : RxPort) : State := { s with rx := s.rx.set {} p x }

/-- What the MAC does on a port next. -/
def State.setCur (s : State) (p : Nat) (c : RxCur) : State := s.setRx p { s.rxPort p with cur := c }

/-- A frame's bytes have left the FIFO. -/
def State.fifoOut (s : State) (p t : Nat) : State := s.setRx p { s.rxPort p with fifo := (s.rxPort p).fifo.erase t }

/-- A packet whose tag is freed while its frame still arrives: its bytes no longer enter the FIFO, and the MAC keeps what
it needs at their end. -/
def State.rxLoosen (s : State) (k : Nat) (p : Pkt) : State :=
  if p.host || p.ended || (s.rxPort p.bark.ingPort).cur != .frame (k % 8192) then s
  else (s.fifoOut p.bark.ingPort (k % 8192)).setCur p.bark.ingPort (.loose p)

/-- The slot of a packet that ends has no packet any more; it becomes ready (R237). -/
def State.slotOrphan (s : State) (id : Nat) : State :=
  ({ s with twig.slots := s.twig.slots.map (fun (x : OrdSlot) => if x.id = id then { x with live := false } else x) } : State).slotReady id

/-- R30: the tag is freed; the generation count falls; an ordered slot becomes ready (R237). -/
def State.freeTag (s : State) (k : Nat) : State :=
  match s.pkt? k with
  | none => s
  | some p =>
    let b := k / 8192
    let s := if p.genHeld then s.wr (genCnt b p.bark.gen) (s.rd (genCnt b p.bark.gen) - 1) else s
    let s := s.wr (BGH_TAG_STS_IN_USE b) (s.rd (BGH_TAG_STS_IN_USE b) - 1)
    let s := match p.slot with | some id => s.slotOrphan id | none => s
    let s := s.rxLoosen k p
    { s with pkts := s.pkts.erase k
             freedTags := s.freedTags.filter (fun (e : Nat × Bool × Nat) => s.thisCycle e.2.2) ++ [(k, p.host, s.time.mono)] }

/-! ### Ingress-store buffers (R269 to R278) -/

/-- Units of a buffer of a pool. -/
def poolSize (q : Nat) : Nat := match q with | 0 => 1 | 1 => 4 | 2 => 10 | _ => 40

/-- The first unit of a pool. -/
def State.poolBase (s : State) (b q : Nat) : Nat :=
  ((List.range q).map (fun j => s.rd (CRN_POOL_CFG_COUNT b j) * poolSize j)).foldl (· + ·) 0

/-- The owner a packet's buffer is charged to: the port within the bough, or 8 for host-injected packets (R272). -/
def ownerOf (p : Pkt) : Nat := if p.host then 8 else p.bark.ingPort % 8

/-- An owner whose reserve counts: the host, or an enabled port of the active mode (R272). -/
def State.ownerCounts (s : State) (b o : Nat) : Bool :=
  o == 8 || (s.isPort (8 * b + o) && s.on (PRT_CFG_EN (8 * b + o)))

/-- The unused counted reserves of a pool. -/
def State.unusedRsv (s : State) (b q : Nat) : Nat :=
  ((List.range 9).map (fun o => if s.ownerCounts b o then s.rd (CRN_RSV_CFG_RSV b o q) - s.rd (CRN_USE_USE b o q) else 0)).foldl
    (· + ·) 0

/-- The smallest pool whose buffer holds `est` bytes; 4 when none does. -/
def firstFit (est : Nat) : Nat := ((List.range 4).find? (fun q => decide (est ≤ 256 * poolSize q))).getD 4

/-- Buffers of a pool that have been freed in the bough's present cycle: not yet to be allocated (R273). -/
def State.bufsJustFreed (s : State) (b q : Nat) : List (Nat × Nat × Nat) :=
  s.freedBufs.filter (fun e => e.1 / 8192 == b && e.2.1 == q && s.thisCycle e.2.2)

/-- Whether owner `o` may take a buffer of pool `q` now (R272, R273). -/
def State.poolOk (s : State) (b o q : Nat) : Bool :=
  let use := s.rd (CRN_USE_USE b o q)
  let free := s.rd (CRN_POOL_STS_FREE b q) - (s.bufsJustFreed b q).length
  if use < s.rd (CRN_RSV_CFG_RSV b o q) then decide (0 < free)
  else decide (use < min (s.rd (CRN_RSV_CFG_MAX b o q)) (s.rd (CRN_POOL_CFG_COUNT b q))) && decide (s.unusedRsv b q < free)

/-- The pool that an allocation takes, from `q` up while spilling is on. -/
def State.allocPool (s : State) (b o : Nat) : Nat → Nat → Option Nat
  | 0, _ => none
  | n + 1, q =>
    if 4 ≤ q then none
    else if s.poolOk b o q then some q
    else if s.on (CRN_STORE_CFG_SPILL b) then State.allocPool s b o n (q + 1) else none

/-- The lowest-numbered free buffer of a pool, as its start unit (R273). -/
def State.lowestBuf (s : State) (b q : Nat) : Nat :=
  let base := s.poolBase b q
  let sz := poolSize q
  ((List.range (s.rd (CRN_POOL_CFG_COUNT b q))).find?
    (fun j => (s.bufs.find? (pkey b (base + j * sz))).isNone
      && !(s.bufsJustFreed b q).any (fun e => e.1 == pkey b (base + j * sz)))).map (base + · * sz) |>.getD base

/-- R272: a buffer taken for owner `o`: start unit and pool, with the counts shown; `none` when none may be taken. -/
def State.bufAlloc (s : State) (b o est tag : Nat) : Option (Nat × Nat × State) :=
  match s.allocPool b o 4 (firstFit est) with
  | none => none
  | some q =>
    let u := s.lowestBuf b q
    let free := s.rd (CRN_POOL_STS_FREE b q) - 1
    let used := s.rd (CRN_POOL_CFG_COUNT b q) - free
    let s := { s with bufs := s.bufs.insert (pkey b u) ⟨tag, q, o, s.time.mono⟩ }
    let s := (s.wr (CRN_USE_USE b o q) (s.rd (CRN_USE_USE b o q) + 1)).wr (CRN_POOL_STS_FREE b q) free
    let s := s.wr (CRN_POOL_STS_HWM b q) (max used (s.rd (CRN_POOL_STS_HWM b q)))
    let s := (s.wr (CRN_STORE_STS_IDLE b) 0).cnt (CRN_ALLOC_CNT b)
    let s := if q = firstFit est then s else s.cnt (CRN_SPILL_CNT b)
    some (u, q, s.pmuEv 0x09 b)

/-- R278: whether a unit is the start of a buffer of a pool. -/
def State.bufPlaced (s : State) (b u q : Nat) : Bool :=
  let base := s.poolBase b q
  decide (base ≤ u) && (u - base) % poolSize q == 0 && decide ((u - base) / poolSize q < s.rd (CRN_POOL_CFG_COUNT b q))

/-- A free that fails a check (R278): 0 placement, 1 state, 2 owner. -/
def State.badFree (s : State) (b u q tag check : Nat) : State :=
  let s := s.cnt (if check = 1 then CRN_DBL_FREE_CNT b else CRN_FOREIGN_FREE_CNT b)
  (s.journal (islBough b) 0x0701 b (natLe 2 u ++ natLe 1 q ++ [0] ++ natLe 2 tag ++ natLe 1 check)).raise CRN_INT_BAD_FREE

/-- R277, R278: a free request with its checks. -/
def State.bufFree (s : State) (b u q tag : Nat) : State :=
  if !s.bufPlaced b u q then s.badFree b u q tag 0
  else
    match s.bufs.find? (pkey b u) with
    | none => s.badFree b u q tag 1
    | some x =>
      if x.tag ≠ tag then s.badFree b u q tag 2
      else
        let s := { s with bufs := s.bufs.erase (pkey b u)
                          freedBufs := s.freedBufs.filter (fun (e : Nat × Nat × Nat) => s.thisCycle e.2.2) ++ [(pkey b u, q, s.time.mono)] }
        let s := (s.wr (CRN_USE_USE b x.owner q) (s.rd (CRN_USE_USE b x.owner q) - 1)).wr (CRN_POOL_STS_FREE b q)
          (s.rd (CRN_POOL_STS_FREE b q) + 1)
        s.wrB (CRN_STORE_STS_IDLE b) (!s.bufs.any (fun e => e.1 / 8192 == b))

/-- A packet's buffer is freed, when it holds one. -/
def State.dropBuf (s : State) (k : Nat) : State :=
  match s.pkt? k with
  | none => s
  | some p =>
    if !p.hasBuf then s
    else (s.modPkt k ({ · with hasBuf := false })).bufFree (k / 8192) p.bark.buf p.bark.pool (k % 8192)

/-- Everything a packet holds is released. -/
def State.release (s : State) (k : Nat) : State := (s.dropBuf k).freeTag k

/-! ### Copies to the host and the end of a packet (R30, R277) -/

/-- The copies of a packet that are in the traffic manager or the Crown. -/
def State.copiesOf (s : State) (k : Nat) : Tab Copy := s.copies.filter (fun e => pkey e.2.bough e.2.tag == k)

/-- Whether a copy still needs the ingress store. -/
def copyNeedsStore (c : Copy) : Bool := c.stage = .queued || c.stage = .ordered

/-- R277 and R30 after a change: the buffer is freed once no copy needs the store and no copy to the host is pending, the
tag once the last copy is done. -/
def State.settle (s : State) (k : Nat) : State :=
  match s.pkt? k with
  | none => s
  | some p =>
    if p.stage ≠ .sent then s
    else
      let cs := s.copiesOf k
      if !p.hostCopies.isEmpty then s
      else
        let s := if cs.any (fun e => copyNeedsStore e.2 || !p.ended) then s else s.dropBuf k
        if cs.isEmpty then s.freeTag k else s

/-- A copy to the host asked for (R374): it waits for its frame's end and is given up at once on a channel that is not a
RECEIVE channel in STATE 1. A bad cut-through frame has none (R292). -/
def State.askHost (s : State) (k ch info : Nat) : State :=
  s.modPkt k (fun p => { p with hostCopies := if p.bark.bad then p.hostCopies else p.hostCopies ++ [⟨ch, info, s.time.mono⟩]
                                bark := { p.bark with copy := true } })

/-- A drop cause counted at the ingress port (R392). -/
def State.rxDrop (s : State) (port k : Nat) : State := s.cnt (RX_CAUSE_CNT port k)

/-- `n` words of a packet written into a memory of source `src`: an armed injection may make them uncorrectable (R354). -/
def State.injMem (s : State) (k src n unit isl : Nat) : State :=
  let (ue, s) := s.injPacket src n unit isl
  if ue then s.modPkt k ({ · with memUe := true }) else s

/-- R345: a packet whose bark, queue entry, park entry or Twig frame cannot be read is dropped, and its bark tag freed. -/
def State.memDrop (s : State) (k : Nat) (p : Pkt) : State :=
  (((s.cnt ECC_PKT_DROP_CNT).rxDrop p.bark.ingPort 6).modPkt k ({ · with stage := .sent })).settle k

/-- A dropped packet: it is counted, and released, or kept for its copies to the host (R112). -/
def State.dropPkt (s : State) (k cause : Nat) : State :=
  match s.pkt? k with
  | none => s
  | some p =>
    let s := s.rxDrop p.bark.ingPort cause
    (s.modPkt k ({ · with stage := .sent })).settle k

/-- A packet reaches step 9 of its path: its slot must become ready first when it holds one (R237). -/
def State.toAdmission (s : State) (k : Nat) : State :=
  s.modPkt k (fun p => { p with stage := if p.slot.isSome then .ordered else .toAdmit })

end Sys2Proof.Machine
end

