-- ==== Sys2Proof/Machine/Rules.lean ====
section
/-!
DEFINITION. Rules and actions (chapter 04): rule keys and lookup, the action record, the VIP search (R150), and the
bridging lookup and learn requests of the decision pipeline (R135 to R141).
-/
namespace Sys2Proof.Machine

/-! ### Rule key (R107, R108, R117) -/

/-- The header set that HDR_SEL of the rule key configuration selects. -/
def State.ruleOuter (s : State) (copy : Nat) : Bool := fon (s.ent 0x22 copy 0) RK_HDR_SEL

/-- A UDF: 4 bytes of the first decoded header of its node, or 0. -/
def udf (cfg n : Nat) (ps : ParseRes) : List Byte :=
  let zero := List.replicate 4 0
  if !fon cfg (RK_UDF_V n) then zero
  else
    match ps.stack.find? (fun h => h.1 == fget cfg (RK_UDF_NODE n)) with
    | none => zero
    | some h =>
      let a := h.2 + fget cfg (RK_UDF_OFF n)
      if ps.win.length < a + 4 then zero else slice ps.win a 4

/-- The DSCP and ECN byte of a set, and its TTL or hop limit; 0 without an L3 header. -/
def setTos (win : List Byte) (st : HdrSet) : Nat :=
  match st.l3 with
  | none => 0
  | some a => if st.ver = 4 then beAt win (a + 1) 1 else beAt win a 2 / 16 % 256
def setTtl (win : List Byte) (st : HdrSet) : Nat :=
  match st.l3 with
  | none => 0
  | some a => if st.ver = 4 then beAt win (a + 8) 1 else beAt win (a + 7) 1

/-- Byte 13 of the TCP header of a set; 0 when its L4 header is not TCP. -/
def setTcp (win : List Byte) (st : HdrSet) : Nat :=
  match st.l4 with
  | some a => if st.l4k = 0x0B then beAt win (a + 13) 1 else 0
  | none => 0

/-- Bytes 2 and 3 of the rule keys. -/
def ruleFlags (ps : ParseRes) (st : HdrSet) (pass : Bool) : Nat :=
  b2n pass * 32768 + b2n ps.tun * 16384 + b2n st.frag.isSome * 8192 + ps.vid.getD 0

/-- The rule key of a packet at its end of parse (R107 with WIDTH 0, R108 with WIDTH 1); `act` and `cls` are the first
pass's on a second pass and 0 on a first. -/
def State.ruleKey (s : State) (ps : ParseRes) (port copy : Nat) (pass : Bool) (act cls : Nat) : List Byte :=
  let cfg := s.ent 0x22 copy 0
  let outer := fon cfg RK_HDR_SEL
  let st := if outer then ps.outer else ps.inner
  let zone := ps.zone
  let ip := st.l3.isSome
  let tun := if outer || !ps.tun then 0 else ps.tunId
  let src := if ip then setSrc ps.win st else List.replicate 16 0
  let dst := if ip then setDst ps.win st else List.replicate 16 0
  let sp := if ip then setSport ps.win st else 0
  let dp := if ip then setDport ps.win st else 0
  let head := natBe 1 zone ++ natBe 1 port ++ natBe 2 (ruleFlags ps st pass) ++ natBe 2 st.etype ++ natBe 1 st.proto
    ++ natBe 1 (setTos ps.win st)
  if s.rd GRF_RS_CFG_WIDTH = 0 then
    head ++ natBe 1 (setTtl ps.win st) ++ natBe 1 (setTcp ps.win st) ++ natBe 3 tun ++ natBe 1 (ps.exc % 64) ++ natBe 2 act
      ++ src ++ dst ++ natBe 2 sp ++ natBe 2 dp ++ natBe 4 (if ip then setExt ps.win st else 0)
      ++ setDmac ps.win st ++ setSmac ps.win st ++ udf cfg 0 ps ++ udf cfg 1 ps
      ++ natBe 1 (cls + ps.prof * 16) ++ [0, 0, 0]
  else
    let half (a : List Byte) := if st.ver = 6 then a.take 8 else a.drop 8
    head ++ natBe 1 (setTcp ps.win st) ++ natBe 1 (ps.exc % 64) ++ natBe 2 act ++ half src ++ half dst ++ natBe 2 sp
      ++ natBe 2 dp ++ udf cfg 0 ps ++ natBe 3 tun ++ natBe 1 cls

/-- Whether a rule entry matches a key (R109). -/
def ruleHit (width key e : Nat) : Bool :=
  let n := ruleBits width
  let m := getBits e n n
  fon e (RU_V width) && (key &&& m) == (e % 2 ^ n &&& m)

/-- A rule as a rule store holds it: errors in the slices of its KEY and MASK decide packets until the scrubber finds them
(R345). -/
def State.ruleStored (s : State) (unit copy idx e : Nat) : Nat :=
  if s.ecc.diff.isEmpty then e
  else
    let n := ruleBits (s.rd GRF_RS_CFG_WIDTH)
    (List.range 16).foldl (fun e j =>
      if n / 80 ≤ j % 8 then e
      else e ^^^ (s.ecc.diff.get 0 (eccKey 7 (tblWord unit (0x40 + copy) idx j)) % 2 ^ 80 * 2 ^ (j / 8 * n + 80 * (j % 8)))) e

/-- R109: the ACT_IDX of the lowest-numbered valid matching entry of the store of a group of 4 boughs, or 0. -/
def State.ruleLookup (s : State) (unit copy : Nat) (key : List Byte) : Nat :=
  let w := s.rd GRF_RS_CFG_WIDTH
  let k := leNat key
  match s.tbl.first (fun e => e.1 / 2 ^ 32 == 0x20 * 2 + copy && !s.repairing e.1
      && ruleHit w k (s.ruleStored unit copy (e.1 % 2 ^ 32) e.2)) with
  | some e => fget e.2 (RU_ACT w)
  | none => 0

/-- A VIP search, or a search of a bough's copy of the bridging table, reads the entry it finds (R345). -/
def State.meetFound (s : State) (unit id : Nat) (found : State → Option (Nat × Nat)) : State :=
  if s.ecc.diff.isEmpty then s
  else match found s with | some (i, _) => s.meetEnt unit id 0 i | none => s

/-- The action record of a generation (R110). -/
def State.actRec (s : State) (gen idx : Nat) : Nat := s.ent 0x21 (gen % 2) idx

/-! ### VIP search (R150) -/

/-- How well an entry matches: 0 not, 1 + PLEN a prefix, 1,000 exactly. -/
def vipScore (zone ver proto dport : Nat) (dst : Nat) (e : Nat) : Nat :=
  let v6 := fon e VP_VER6
  let bits := if v6 then 128 else 32
  let a := beNat (natLe 16 e) % 2 ^ bits
  let d := dst % 2 ^ bits
  if !fon e VP_V || fget e VP_ZONE != zone || v6 != (ver == 6) then 0
  else if fon e VP_EXACT then
    if fget e VP_PROTO = proto ∧ fget e VP_PORT = dport ∧ a = d then 1000 else 0
  else
    let n := min bits (fget e VP_PLEN)
    if a / 2 ^ (bits - n) = d / 2 ^ (bits - n) then 1 + n else 0

/-- The best entry: exact before prefix, longer before shorter, lowest index among equals. -/
def vipBest (score : Nat → Nat) (l : Tab Nat) : Option (Nat × Nat) :=
  (l.foldl (fun (best : Nat × Option (Nat × Nat)) e =>
    let sc := score e.2
    if best.1 < sc then (sc, some (e.1 % 2 ^ 32, e.2)) else best) (0, none)).2

/-- R150: the VIP entry of an IP packet: index and contents. -/
def State.vipFind (s : State) (ps : ParseRes) (port : Nat) (outer : Bool) : Option (Nat × Nat) :=
  let st := if outer then ps.outer else ps.inner
  if st.l3.isNone then none
  else
    vipBest (vipScore (s.rd (BGH_PKEY_CFG_ZONE (portBough port) (port % 8))) st.ver st.proto (setDport ps.win st)
      (beNat (setDst ps.win st))) (s.tbl.filter (fun e => e.1 / 2 ^ 32 == 0x32 * 2 && !s.repairing e.1))

/-! ### Bridging (R131 to R141) -/

/-- The bridging entry of a key: index and contents. -/
def State.brgFind (s : State) (vid mac : Nat) : Option (Nat × Nat) :=
  (s.tbl.first (fun e => e.1 / 2 ^ 32 == 0x30 * 2 && fon e.2 BR_V && fget e.2 BR_VID == vid && brMac e.2 == mac
    && !s.repairing e.1)).map
    (fun e => (e.1 % 2 ^ 32, e.2))

/-- The VID of the bridging key (R135). -/
def State.brgVid (s : State) (ps : ParseRes) (port : Nat) : Nat :=
  match ps.vid with
  | some v => if v = 0 then s.rd (BRG_PORT_CFG_PVID port) else v
  | none => s.rd (BRG_PORT_CFG_PVID port)

/-- The table is full (R137). -/
def State.brgFull (s : State) : Bool := s.rd BRG_STS_IN_USE == 32768

/-- Whether learning is enabled for a frame (R140). -/
def State.learnOn (s : State) (port vid : Nat) (src : List Byte) : Bool :=
  let vl := s.ent 0x31 0 vid
  s.on (BRG_PORT_CFG_LEARN_EN port) && fon vl VL_V && fon vl VL_LEARN_EN && beNat (src.take 1) % 2 == 0

/-- The bridging result: where the packet goes, and the entry that matched. -/
structure BrgRes where
  eg : Egress
  hit : Option Nat := none
  /-- counted in LEARN_FAIL_CNT: it makes no learn request -/
  fail : Bool := false

/-- R137: the result at C7, first condition that holds, with its counter. -/
def State.brgResult (s : State) (vid port : Nat) (dst src : List Byte) (line : Bool) : BrgRes × State :=
  let vl := s.ent 0x31 0 vid
  let mem := fget vl VL_MEMBER
  let flood := Egress.flood (fget vl VL_FLOOD_GRP) mem
  if !fon vl VL_V then ({ eg := .none }, s.cnt BRG_VLAN_DROP_CNT)
  else if fon vl VL_ING_FILT && !bit mem port then ({ eg := .none }, s.cnt BRG_VLAN_DROP_CNT)
  else if line && (s.brgFind vid (beNat src)).isNone && s.learnOn port vid src && s.brgFull then
    ({ eg := flood, fail := true }, (s.cnt LEARN_FAIL_CNT).raise BRG_INT_LEARN_FAIL)
  else
    match s.brgFind vid (beNat dst) with
    | some (i, e) =>
      if !fon e BR_MCAST && fget e BR_EGR == port then ({ eg := .none }, s.cnt BRG_SAME_PORT_CNT)
      else ({ eg := if fon e BR_MCAST then .group (fget e BR_EGR) else .port (fget e BR_EGR), hit := some i }, s)
    | none => ({ eg := flood }, s.cnt BRG_FLOOD_CNT)

/-- The source search sets the HIT bit of its bough's copy on a unicast entry of the ingress port (R135). -/
def State.brgSource (s : State) (vid port : Nat) (src : List Byte) : State :=
  match s.brgFind vid (beNat src) with
  | some (i, e) =>
    if !fon e BR_MCAST && fget e BR_EGR == port then
      { s with brg.hit := s.brg.hit.modify 0 i (fun m => m ||| 2 ^ portBough port) }
    else s
  | none => s

/-- Requests of a bough that are pending (R141). -/
def State.learnPending (s : State) (b : Nat) : Nat := (s.brg.learn.filter (fun r => r.port / 8 == b)).length

/-- R139, R141: a first-pass line frame's learn request; a cut-through frame's is held until its end. -/
def State.learnAsk (s : State) (vid port ts seq : Nat) (src : List Byte) (ended : Bool) : State :=
  let mac := beNat src
  let ask : Option Bool :=
    match s.brgFind vid mac with
    | none => some false
    | some (_, e) =>
      if fon e BR_MCAST || fget e BR_EGR != port then some false
      else if fon e BR_AGE then some true else none
  match ask with
  | none => s
  | some refresh =>
    if !s.learnOn port vid src then s
    else if s.brg.learn.any (fun r => r.vid == vid && r.mac == mac && r.port == port) then s
    else if 64 ≤ s.learnPending (portBough port) then (s.cnt LEARN_Q_DROP_CNT).raise BRG_INT_LQ_DROP
    else
      ({ s with brg.learn := s.brg.learn ++ [(⟨vid, mac, port, ts, seq, refresh, false, if ended then none else some port⟩ : LearnReq)] } : State).pmuEv
        0x06 (portBough port)

/-- R139: at the end of the cut-through frame on a port its request is let go, or discarded when the frame is bad. -/
def State.learnEnd (s : State) (port : Nat) (bad : Bool) : State :=
  if bad then { s with brg.learn := s.brg.learn.filter (fun r => r.hold != some port) }
  else { s with brg.learn := s.brg.learn.map (fun r => if r.hold = some port then { r with hold := none } else r) }

/-! ### Egress of a record (R111) -/

/-- The egress that OP gives; `flow` what a flow action returned, `brg` the bridging result. -/
def opEgress (rec_ : Nat) (brg : Egress) (flow : Option Egress) : Egress :=
  match fget rec_ AR_OP with
  | 0 => brg
  | 1 => .port (fget rec_ AR_EGR)
  | 2 => .group (fget rec_ AR_EGR)
  | 4 => flow.getD brg
  | _ => .none

/-- The bark fields EGR and MCAST of an egress (a port or group beyond its field's width stays as the record gives it). -/
def egrBark (e : Egress) (b : Bark) : Bark :=
  match e with
  | .none => { b with egr := 0, mcast := false }
  | .port p => { b with egr := p, mcast := false }
  | .group g => { b with egr := g, mcast := true }
  | .flood g _ => { b with egr := g, mcast := true }

/-- DEADLINE from ARR_TS and the bound of a class (R302); 2^31 or more acts as 2^31 − 1. -/
def State.deadline (s : State) (arrTs cls : Nat) : Nat :=
  (arrTs + min (2 ^ 31 - 1) (s.rd (TMG_CLS_CFG_BOUND cls))) % 2 ^ 32

/-! ### Meters (R195, R315) -/

/-- A meter's result: colour (0 green, 1 yellow, 2 red) and both buckets. -/
def meter (d cir pir cbs pbs mode inCol b c p : Nat) : Nat × Nat × Nat :=
  let d := if 2 ^ 47 ≤ d then 0 else d
  let c := min cbs (c + d * cir / 8000000)
  let p := min pbs (p + d * pir / 8000000)
  if mode = 0 then
    if inCol = 2 ∨ p < b then (2, c, p)
    else if inCol = 1 ∨ c < b then (1, c, p - b)
    else (0, c - b, p - b)
  else if inCol = 0 ∧ b ≤ c then (0, c - b, p)
  else if inCol ≠ 2 ∧ b ≤ p then (1, c, p - b)
  else (2, c, p)

/-- A counter of BAR4's pages increased (R322). -/
def State.page (s : State) (off : Nat) (n : Nat := 1) : State :=
  { s with obs.pages := s.obs.pages.modify 0 (off / 8) (fun v => (v + n) % 2 ^ 48) }

/-- R314 to R316: the ingress policer of a record at C8: colour (3 not metered), whether the packet is dropped. -/
def State.police (s : State) (rec_ bough arrTs len : Nat) : Nat × Bool × State :=
  let m := fget rec_ AR_POL_IDX
  if !fon rec_ AR_POL_V then (3, false, s)
  else if m / 1024 ≠ bough / 4 then (3, false, s.cnt TMG_POL_FOREIGN_CNT)
  else
    let s := s.meetEnt 0 0x70 0 m
    let e := s.ent 0x70 0 m
    if !fon e PO_V then (3, false, s)
    else
      let t := arrTs % 2 ^ 48
      let d := (t + 2 ^ 48 - fget e PO_LAST) % 2 ^ 48
      let (col, c, p) := meter d (fget e PO_CIR) (fget e PO_PIR) (fget e PO_CBS) (fget e PO_PBS) (fget e PO_MODE) 0 len
        (fget e PO_C) (fget e PO_P)
      let e := fset (fset e PO_C c) PO_P p
      let e := if 2 ^ 47 ≤ d then e else fset e PO_LAST t
      let s := ((s.setEnt 0x70 0 m e).entWritten 0x70 0 m).page (0xC0000 + 32 * m + 8 * col)
      let drop := (col == 2 && fon e PO_RED_DROP) || (col == 1 && fon e PO_YEL_DROP)
      if drop then (col, true, (s.page (0xC0000 + 32 * m + 24)).cnt TMG_POL_DROP_CNT) else (col, false, s)

/-- COLOUR: the more severe of both meters' results, 3 when neither ran (R112). -/
def worse (a b : Nat) : Nat := if a = 3 then b else if b = 3 then a else max a b

end Sys2Proof.Machine
end

