-- ==== Sys2Proof/Machine/Records.lean ====
section
/-!
DEFINITION. Flow records (chapter 06): the blocks of a
record (R153 to R155), the hash directory (R157 to R162), Canopy lines (R156, R159, R163), export records (R413 to
R418), and the deletion of a flow (R180).
-/
namespace Sys2Proof.Machine

/-! ### The hot block (R154), as the number its 64 bytes spell, and the cold block (R155) likewise from byte 128 -/

def HB_PKTS : Fld := ⟨0, 40⟩
def HB_BYTES : Fld := ⟨40, 48⟩
def HB_LAST_SEEN : Fld := ⟨88, 48⟩
def HB_MTR_C : Fld := ⟨136, 24⟩
def HB_MTR_P : Fld := ⟨160, 24⟩
def HB_MTR_PROF : Fld := ⟨184, 14⟩
def HB_MTR_CA : Fld := ⟨198, 1⟩
def HB_MTR_V : Fld := ⟨199, 1⟩
def HB_ACT_IDX : Fld := ⟨200, 20⟩
def HB_STATE : Fld := ⟨220, 4⟩
def HB_NPORT : Fld := ⟨224, 16⟩
def HB_KIND : Fld := ⟨240, 3⟩
def HB_LB_MEMBER : Fld := ⟨248, 16⟩
def HB_TCP_FLAGS : Fld := ⟨264, 8⟩
def HB_GEN_LAST : Fld := ⟨272, 16⟩
def HB_TWIG_SCR : Fld := ⟨288, 64⟩
def HB_BAD_PKTS : Fld := ⟨352, 16⟩
def HB_LAST_PORT : Fld := ⟨368, 8⟩
def HB_NO_AGE : Fld := ⟨376, 1⟩

/-- A hot block's number from its bytes and back. -/
def hotNat (h : List Byte) : Nat := leNat (h.take 64)
def hotBytes (x : Nat) : List Byte := natLe 64 x

def CB_FIRST_SEEN : Fld := ⟨0, 64⟩
def CB_NAT_PROTO : Fld := ⟨352, 8⟩
def CB_NAT_V : Fld := ⟨360, 1⟩
def CB_NAT_SRC_EN : Fld := ⟨361, 1⟩
def CB_NAT_DST_EN : Fld := ⟨362, 1⟩
def CB_LB_GRP : Fld := ⟨368, 16⟩
def CB_LB_PIN : Fld := ⟨384, 16⟩
def CB_PIN_V : Fld := ⟨400, 1⟩
def CB_EXP_TMPL : Fld := ⟨408, 8⟩
def CB_EXP_INT : Fld := ⟨416, 16⟩
def CB_EXP_NEXT : Fld := ⟨432, 48⟩
def CB_EXP_PKTS : Fld := ⟨480, 40⟩
def CB_EXP_BYTES : Fld := ⟨520, 48⟩

/-! ### The directory (R157 to R162) -/

/-- R103: the fingerprint of a key. -/
def fpOf (hA hB : Nat) : Nat := hB / 2 ^ 24 % 256 * 256 + hA / 2 ^ 24 % 256

/-- R160: the alternate bucket, which is its own inverse. -/
def altBucket (b f : Nat) : Nat :=
  let d := f * 0x93e5 % 2 ^ 24
  b ^^^ (if d = 0 then 1 else d)

/-- Addresses of a directory way and of a record slot. -/
def wayAddr (idx : Nat) : Nat := 0x400000000 + idx * 64
def slotAddr (idx : Nat) : Nat := idx * 256

/-- A directory way: the key block of flow `idx`. -/
def State.way (s : State) (idx : Nat) : List Byte := s.rsRead (wayAddr idx) 64

/-- The meta bytes of a key block, as the number they spell (R153). -/
def kbMeta (k : List Byte) : Nat := leNat (slice0 k 52 12)
def KM_V : Fld := ⟨0, 1⟩
def KM_PROF : Fld := ⟨1, 4⟩
def KM_ALT : Fld := ⟨5, 1⟩
def KM_FP : Fld := ⟨8, 16⟩
def KM_IDX : Fld := ⟨24, 26⟩
def KM_PAIR_IDX : Fld := ⟨56, 26⟩
def KM_PAIR_V : Fld := ⟨82, 1⟩
def KM_OVF : Fld := ⟨88, 4⟩

/-- A field of a way changed. -/
def State.setMeta (s : State) (idx : Nat) (f : Fld) (v : Nat) : State :=
  let m := fset (kbMeta (s.way idx)) f v
  s.rsWrite (wayAddr idx + 52) (natLe 12 m)

/-- Whether a way holds a flow. -/
def State.wayUsed (s : State) (idx : Nat) : Bool := fon (kbMeta (s.way idx)) KM_V

/-- The OVF count of a bucket; a poisoned way 0 gives 15 (R347). -/
def State.ovf (s : State) (b : Nat) : Nat :=
  if s.gv.quarantine.contains (4 * b) then 15 else fget (kbMeta (s.way (4 * b))) KM_OVF

/-- R162: the way of a bucket that matches a key, as a flow index. -/
def State.matchWay (s : State) (b : Nat) (key : List Byte) (prof : Nat) (alt : Bool) : Option Nat :=
  ((List.range 4).find? (fun w =>
    let k := s.way (4 * b + w)
    let m := kbMeta k
    !s.gv.quarantine.contains (4 * b + w) && fon m KM_V && fget m KM_PROF == prof && fon m KM_ALT == alt
      && decide (k.take 52 = key))).map (4 * b + ·)

/-- Ways held for FINDs (R257). -/
def State.heldWays (s : State) : List Nat := s.gv.pends.filterMap (fun e => e.2.heldWay)

/-- R161: the lowest-numbered free way of a bucket: not way 0 of bucket 0, not held, not quarantined. -/
def State.freeWay (s : State) (b : Nat) : Option Nat :=
  ((List.range 4).find? (fun w =>
    let i := 4 * b + w
    i != 0 && !s.wayUsed i && !s.heldWays.contains i && !s.gv.quarantine.contains i)).map (4 * b + ·)

/-- The owner of a bucket: the engine of the stack that holds it (R257). -/
def State.bucketStack (s : State) (b : Nat) : Nat := s.stkOf (wayAddr (4 * b))

/-- The key block of a flow placed at `idx`; OVF of way 0 stands beside it and is kept. -/
def State.writeWay (s : State) (idx : Nat) (key : List Byte) (prof fp : Nat) (alt : Bool) : State :=
  let ovf := fget (kbMeta (s.way idx)) KM_OVF
  let m := 1 + prof % 16 * 2 + b2n alt * 32 + fp % 65536 * 2 ^ 8 + idx * 2 ^ 24 + ovf * 2 ^ 88
  (s.rsWrite (wayAddr idx) (key.take 52 ++ natLe 12 m)).wr GRV_DIR_STS_FLOWS (s.rd GRV_DIR_STS_FLOWS + 1)

/-- R161: the primary bucket's OVF increases by 1, up to 15, where it stays; a write of way 0 by a requester class (R176). -/
def State.ovfUp (s : State) (cls b : Nat) : State :=
  let o := s.ovf b
  if o = 15 then s.cnt GRV_OVF_SAT_CNT
  else
    let s := (s.rtsUse cls (wayAddr (4 * b)) 64 true).setMeta (4 * b) KM_OVF (o + 1)
    if o + 1 = 15 then s.raise GRV_INT_OVF_SAT else s

/-- R162: it decreases by 1 unless it is 15. -/
def State.ovfDown (s : State) (cls b : Nat) : State :=
  let o := s.ovf b
  if o = 15 ∨ o = 0 then s else (s.rtsUse cls (wayAddr (4 * b)) 64 true).setMeta (4 * b) KM_OVF (o - 1)

/-! ### Canopy lines (R156, R159, R163) -/

/-- The bank, set and preferred way of a key, and its bank group. -/
def bankOf (hA : Nat) : Nat := hA % 512
def setOf (hA : Nat) : Nat := hA / 2 ^ 11 % 4096
def prefOf (hA : Nat) : Nat := hA / 512 % 4
def groupOf (hA : Nat) : Nat := bankOf hA / 32

/-- The number of a line: 16,384 × bank + 4 × set + way. -/
def lineNo (hA w : Nat) : Nat := 16384 * bankOf hA + 4 * setOf hA + w

/-- A line. -/
def State.line (s : State) (l : Nat) : CLine := s.gv.lines.get {} l

/-- A line replaced. -/
def State.setLine (s : State) (l : Nat) (x : CLine) : State :=
  { s with gv.lines := s.gv.lines.set {} l x }

/-- Packets that joined a line which is taken from them before they were served have missed (R484). -/
def State.joinsLost (s : State) (l : Nat) : State :=
  { s with pkts := s.pkts.map (fun e =>
      if e.2.flow.joinLine = some l then (e.1, { e.2 with flow := { e.2.flow with joinLost := true } }) else e) }

/-- A line invalidated. -/
def State.dropLine (s : State) (l : Nat) : State := (s.setLine l {}).joinsLost l

/-- The hot block of a line. -/
def CLine.hot (x : CLine) : List Byte := slice0 x.data 64 64

/-- The hot block of a line written: DIRTY := 1 (R164). -/
def State.putHot (s : State) (l : Nat) (h : List Byte) : State :=
  let x := s.line l
  (s.setLine l { x with data := splice x.data 64 h, dirty := true }).hotWritten l

/-- The flow index that a line's key block names. -/
def CLine.idx (x : CLine) : Nat := fget (kbMeta x.data) KM_IDX

/-- The way of a set whose state word has a fingerprint. -/
def State.wayByFp (s : State) (hA fp : Nat) : Option Nat :=
  ((List.range 4).find? (fun w => let x := s.line (lineNo hA w); x.v && x.fp == fp)).map (lineNo hA)

/-- R163: the line that a key hits. -/
def State.lineHit (s : State) (hA fp : Nat) (key : List Byte) (prof : Nat) : Option Nat :=
  match s.wayByFp hA fp with
  | none => none
  | some l =>
    let x := s.line l
    let m := kbMeta x.data
    if fon m KM_V ∧ fget m KM_PROF = prof ∧ x.data.take 52 = key then some l else none

/-- The line in which a flow is resident. -/
def State.lineOf (s : State) (idx : Nat) : Option Nat :=
  (s.gv.lines.first (fun e => e.2.v && fon (kbMeta e.2.data) KM_V && e.2.idx == idx)).map (·.1)

/-- A line is free for a host write, a commit, a deletion (R166). -/
def State.lineFree (s : State) (l : Nat) : Bool := let x := s.line l; !x.wbp && !x.pend

/-- The hot block a bough sees for a line: the newest block it has still on its way to the bank (R164), or the line's. -/
def State.seenHot (s : State) (b l : Nat) : List Byte :=
  let mine := (s.gv.wbq.get [] b).filterMap (fun x => if x.1 = l then x.2 else none)
  mine.getLast?.getD (s.line l).hot

/-- The 256-byte record of a flow as a host read returns it (R187): way, the resident line's hot block, cold block. -/
def State.record (s : State) (idx : Nat) : List Byte :=
  let hot := match s.lineOf idx with
    | some l => (s.line l).hot
    | none => s.rsRead (slotAddr idx + 64) 64
  s.way idx ++ hot ++ s.rsRead (slotAddr idx + 128) 128

/-! ### Export records (R413 to R418) -/

/-- NTP time of a device time (R414). -/
def State.ntp (s : State) (t : Nat) : Nat :=
  (s.rd OBS_EXP_UNIX0_UNIX0 + t / 1000000000 + 2208988800) % 2 ^ 32 * 2 ^ 32 + t % 1000000000 * 2 ^ 32 / 1000000000

/-- A 48-bit time of a record extended (R414). -/
def extTime (now x : Nat) : Nat := now - (now % 2 ^ 48 + 2 ^ 48 - x) % 2 ^ 48

/-- The lengths R416 allows an information element; empty for one not in the table. -/
def ieLens (ie : Nat) : List Nat :=
  if ie = 2 ∨ ie = 352 then [8, 4] else if ie = 86 ∨ ie = 353 then [8] else if ie = 4 then [1]
  else if ie = 7 ∨ ie = 11 then [2] else if ie = 8 ∨ ie = 12 then [4] else if ie = 27 ∨ ie = 28 then [16]
  else if ie = 10 then [4] else if ie = 58 then [2] else if ie = 351 then [8] else if ie = 6 then [2, 1]
  else if ie = 148 then [8] else if ie = 156 ∨ ie = 157 then [8] else if ie = 136 then [1]
  else if ie = 225 ∨ ie = 226 then [4] else if ie = 281 ∨ ie = 282 then [16] else if ie = 227 ∨ ie = 228 then [2]
  else []

/-- The value of an information element of a record (R416), as its network-order number. -/
def State.ieVal (s : State) (rec_ : List Byte) (now reason ie : Nat) : Nat :=
  let hot := hotNat (slice0 rec_ 64 64)
  let cold := leNat (slice0 rec_ 128 128)
  let v4 := beAt rec_ 7 1 / 16 == 4
  let v6 := beAt rec_ 7 1 / 16 == 6
  let natv := fon cold CB_NAT_V
  match ie with
  | 2 => (fget hot HB_PKTS + 2 ^ 40 - fget cold CB_EXP_PKTS) % 2 ^ 40
  | 352 => (fget hot HB_BYTES + 2 ^ 48 - fget cold CB_EXP_BYTES) % 2 ^ 48
  | 86 => fget hot HB_PKTS
  | 353 => fget hot HB_BYTES
  | 4 => beAt rec_ 8 1
  | 7 => beAt rec_ 44 2
  | 11 => beAt rec_ 46 2
  | 8 => if v4 then beAt rec_ 24 4 else 0
  | 12 => if v4 then beAt rec_ 40 4 else 0
  | 27 => if v6 then beAt rec_ 12 16 else 0
  | 28 => if v6 then beAt rec_ 28 16 else 0
  | 10 => fget hot HB_LAST_PORT + 1
  | 58 => beAt rec_ 2 2 % 4096
  | 351 => beAt rec_ 4 3
  | 6 => fget hot HB_TCP_FLAGS
  | 148 => fget (kbMeta rec_) KM_IDX
  | 156 => s.ntp (fget cold CB_FIRST_SEEN)
  | 157 => s.ntp (extTime now (fget hot HB_LAST_SEEN))
  | 136 => reason
  | 225 => if natv && v4 then beAt rec_ 148 4 else 0
  | 226 => if natv && v4 then beAt rec_ 164 4 else 0
  | 281 => if natv && v6 then beAt rec_ 136 16 else 0
  | 282 => if natv && v6 then beAt rec_ 152 16 else 0
  | 227 => if natv then beAt rec_ 168 2 else 0
  | 228 => if natv then beAt rec_ 170 2 else 0
  | _ => 0

/-- A template as loaded, when it is valid (R415). -/
def State.tmplOf (s : State) (n : Nat) : Option FlowTmpl := s.obs.tmpl.find? n

/-- The Root store address of a slot of Export staging: 16,384 slots of 512 bytes from its start (R252, R420; the
layout is a DESIGN CHOICE, assumption 104). -/
def expAddr (n : Nat) : Nat := 0x700000000 + 512 * (n % 16384)

/-- A data record handed to the exporter, which stages it in the Root store (R264), or lost (R420). -/
def State.expPut (s : State) (r : ExpRec) : State :=
  if !s.on OBS_EXP_CFG_EN then s
  else if 16384 ≤ s.obs.expRecs.length then
    let at_ := if s.obs.expLostSec = 0 then s.now islMgmt / 1000000000 * 1000000000 else s.obs.expLostAt
    { (s.cnt OBS_EXP_LOST_CNT).raise OBS_INT_EXP_LOST with obs.expLostSec := s.obs.expLostSec + 1, obs.expLostAt := at_ }
  else
    let a := expAddr s.obs.expSlot
    let s := (s.rtsUse clsExp a r.bytes.length true).rsWrite a r.bytes
    { s with obs.expRecs := s.obs.expRecs ++ [{ r with at_ := a }], obs.expSlot := s.obs.expSlot + 1 }

/-- The export of a record under its template (R413 to R418). -/
def State.expFlow (s : State) (rec_ : List Byte) (reason : Nat) : State :=
  let n := beAt rec_ 179 1
  if n = 0 || !s.on OBS_EXP_CFG_EN then s
  else
    match s.tmplOf n with
    | none => s.cnt OBS_EXP_NOTMPL_CNT
    | some t =>
      s.expPut { tmpl := t.id, bytes := t.fields.flatMap (fun f => natBe f.2 (s.ieVal rec_ (s.now islMgmt) reason f.1)) }

/-! ### Deletion (R180, R182, R209) -/

/-- The final export's reason: 1 idle, 3 closed idle, 4 host. The journal's event and cause. -/
structure DelWhy where
  event : Nat := 0x0401
  cause : Nat := 1
  reason : Nat := 4
  export_ : Bool := true
  /-- the class of its Root store accesses (R264) -/
  cls : Nat := clsHost
  deriving DecidableEq, Repr

/-- The directory way of a flow cleared, its OVF kept in way 0, OVF of its primary bucket corrected (R162, R180). -/
def State.clearWay (s : State) (cls idx : Nat) : State :=
  let m := kbMeta (s.way idx)
  let s' := (s.rtsUse cls (wayAddr idx) 64 true).rsWrite (wayAddr idx) (List.replicate 52 0 ++ natLe 12 (fget m KM_OVF * 2 ^ 88))
  let s' := if fon m KM_ALT then s'.ovfDown cls (altBucket (idx / 4) (fget m KM_FP)) else s'
  s'.wr GRV_DIR_STS_FLOWS (s'.rd GRV_DIR_STS_FLOWS - 1)

/-- A word of a line that no code of its own corrects: uncorrectable, or with the syndrome of poison. -/
def State.lineWordBad (s : State) (l i : Nat) : Bool :=
  match classify 64 (s.ecc.diff.get 0 (eccKey 0 (canopyWord l i))) with
  | .ok => false
  | .ce => false
  | _ => true

/-- The hot block of a flow cannot be read: FLOW_POISON then carries counts of 0 (R412). -/
def State.hotUnread (s : State) (idx : Nat) : Bool :=
  match s.lineOf idx with
  | some l => (List.range 8).any (fun i => s.lineWordBad l (8 + i))
  | none => s.rsPoisoned (slotAddr idx + 64) 64

/-- The commits of a flow that wait for its line, and the number of the microwords that made them. -/
def State.waitingHot (s : State) (idx : Nat) : List HotCommit :=
  s.twig.commits.filter (fun (c : HotCommit) => c.flow == idx && c.applied.isNone)
def State.waitingOps (s : State) (idx : Nat) : Nat := ((s.waitingHot idx).map (fun (c : HotCommit) => c.op)).eraseDups.length

/-- R228: the waiting commits of a flow that no longer exists are discarded and counted. -/
def State.dropCommits (s : State) (idx : Nat) : State :=
  if (s.waitingHot idx).isEmpty then s
  else
    { s.cnt TWG_COMMIT_LOST_CNT (s.waitingOps idx) with
      twig.commits := s.twig.commits.filter (fun (c : HotCommit) => !(c.flow == idx && c.applied.isNone)) }

/-- One flow removed: line invalidated without write-back, way cleared, event, export, count; its waiting commits are
lost (R228). -/
def State.dropFlow (s : State) (idx : Nat) (w : DelWhy) : State :=
  let s := s.rtsUseFrom (s.bucketStack (idx / 4)) w.cls (slotAddr idx + 128) 128 false
  let s := if (s.lineOf idx).isSome then s else s.rtsUseFrom (s.bucketStack (idx / 4)) w.cls (slotAddr idx + 64) 64 false
  let r := s.record idx
  let hot := if s.hotUnread idx then 0 else hotNat (slice0 r 64 64)
  let stack := s.bucketStack (idx / 4)
  let s := match s.lineOf idx with | some l => s.dropLine l | none => s
  let s := if w.export_ then s.expFlow r w.reason else s
  let s := (s.clearWay w.cls idx).dropCommits idx
  let s := s.journal (islRts stack) w.event stack (natLe 4 idx ++ natLe 5 (fget hot HB_PKTS) ++ natLe 6 (fget hot HB_BYTES)
    ++ natLe 1 (fget (kbMeta r) KM_PROF + w.cause * 16))
  if w.event = 0x0402 then s.cnt GRV_EXPIRE_CNT else s.cnt GRV_DEL_CNT

/-- PAIR_IDX and PAIR_V of a flow, in its way and its line when resident (R179). -/
def State.setPair (s : State) (cls idx : Nat) (p : Option Nat) : State :=
  let m := fset (fset (kbMeta (s.way idx)) KM_PAIR_IDX (p.getD 0)) KM_PAIR_V (b2n p.isSome)
  let s := (s.rtsUse cls (wayAddr idx) 64 true).rsWrite (wayAddr idx + 52) (natLe 12 m)
  match s.lineOf idx with
  | some l =>
    let x := s.line l
    s.setLine l { x with data := splice x.data 52 (natLe 11 (m % 2 ^ 88)) }
  | none => s

/-- The paired flow of a flow. -/
def State.pairOf (s : State) (idx : Nat) : Option Nat :=
  let m := kbMeta (s.way idx)
  if fon m KM_PAIR_V then some (fget m KM_PAIR_IDX) else none

/-- KIND of a record. -/
def recKind (r : List Byte) : Nat := fget (hotNat (slice0 r 64 64)) HB_KIND

/-- Whether a flow and its partner go together (R209): a pair of KIND 1 to 4. -/
def State.pairBound (s : State) (idx : Nat) : Bool :=
  let k := recKind (s.record idx)
  decide (1 ≤ k) && decide (k ≤ 4)

/-- A FIND has taken the flow's key and its line is not installed yet: between two of its steps the engine starts no other
operation on that key (R169, R182, R257). -/
def State.flowTaken (s : State) (idx : Nat) : Bool :=
  s.gv.pends.any (fun e => match e.2.fs with
    | .line i _ => i == idx && e.2.ph != .release
    | .ovf _ i => i == idx
    | .sent => false
    | .none _ => false
    | _ => decide (e.2.key = (s.way idx).take 52) && e.2.prof == fget (kbMeta (s.way idx)) KM_PROF)

/-- A flow's line, if resident, lets a change pass, and no FIND has taken the flow (R166, R182). -/
def State.flowFree (s : State) (idx : Nat) : Bool :=
  !s.flowTaken idx && (match s.lineOf idx with | some l => s.lineFree l | none => true)

/-- R180: a flow deleted; its partner goes with it when the pair is bound (R209), and is unpaired otherwise. `pw` is the
partner's event. -/
def State.delFlow (s : State) (idx : Nat) (w pw : DelWhy) : State :=
  match s.pairOf idx with
  | none => s.dropFlow idx w
  | some q =>
    if s.pairBound idx then (s.dropFlow idx w).dropFlow q pw
    else (s.setPair w.cls q none).dropFlow idx w

/-- A deletion can be applied now to a flow and to the partner that goes with it. -/
def State.delReady (s : State) (idx : Nat) : Bool :=
  s.flowFree idx && (match s.pairOf idx with
    | some q => s.flowFree q
    | none => true)

end Sys2Proof.Machine
end

