-- ==== Sys2Proof/Machine/FlowActs.lean ====
section
/-!
DEFINITION. Fixed flow actions (chapter 07): the six steps of the action stage (R189), the initial contents of a record
(R199), source translation (R200, R201) and load balancing (R203 to R206).
-/
namespace Sys2Proof.Machine

/-! ### What the key profile's set holds -/

/-- The header set that the packet's key profile selects (R101). -/
def keySet (ps : ParseRes) : HdrSet := if ps.osel then ps.outer else ps.inner

/-- Byte 13 of the TCP header of that set, when its L4 header is TCP (R191). -/
def keyTcp (ps : ParseRes) : Option Nat :=
  match (keySet ps).l4 with
  | some a => if (keySet ps).l4k = 0x0B then some (beAt ps.win (a + 13) 1) else none
  | none => none

/-! ### Counting, TCP tracking and metering: steps 1 to 3 -/

/-- R191, R192: step 1 on a hot block. -/
def countHot (h : Nat) (b : Bark) (tcp : Option Nat) : Nat :=
  let t := b.arrTs % 2 ^ 48
  let d := (t + 2 ^ 48 - fget h HB_LAST_SEEN) % 2 ^ 48
  let h1 := fset (fset h HB_PKTS (fget h HB_PKTS + 1)) HB_BYTES (fget h HB_BYTES + b.len)
  let h2 := if 2 ^ 47 ≤ d then h1 else fset h1 HB_LAST_SEEN t
  let h3 := fset (fset h2 HB_LAST_PORT b.ingPort) HB_GEN_LAST b.gen
  let h4 := match tcp with | some f => fset h3 HB_TCP_FLAGS (fget h HB_TCP_FLAGS ||| f) | none => h3
  if b.bad then fset h4 HB_BAD_PKTS (min 0xFFFF (fget h HB_BAD_PKTS + 1)) else h4

/-- R193: the state after a TCP packet with flags `f` (FIN 0, SYN 1, RST 2, ACK 4). -/
def tcpNext (st f : Nat) : Nat :=
  if bit f 2 then 4
  else if (st = 0 ∨ st = 4) ∧ bit f 1 = true then 1
  else if st = 0 then 2
  else if st = 1 ∧ bit f 1 = false ∧ bit f 4 = true then 2
  else if (st = 1 ∨ st = 2) ∧ bit f 0 = true then 3
  else st

/-- R193: step 2 on a hot block. -/
def trackHot (h : Nat) (tcp : Option Nat) : Nat :=
  match tcp with
  | none => h
  | some f =>
    let st := fget h HB_STATE
    if 5 ≤ st || fget h HB_KIND == 7 then h else fset h HB_STATE (tcpNext st f)

/-- R195, R196: step 3: the metered hot block, the colour (3 when not metered), the counters. -/
def State.meterHot (s : State) (h0 h : Nat) (b : Bark) (pol : Nat) : Nat × Nat × State :=
  let s := if fon h HB_MTR_V then s.meetEnt b.bough 0x42 0 (fget h HB_MTR_PROF) else s
  let e := s.ent 0x42 0 (fget h HB_MTR_PROF)
  if !fon h HB_MTR_V || !fon e MP_V then (h, 3, s)
  else
    let d := (b.arrTs % 2 ^ 48 + 2 ^ 48 - fget h0 HB_LAST_SEEN) % 2 ^ 48
    let inCol := if fon h HB_MTR_CA && pol != 3 then pol else 0
    let (col, c, p) := meter d (fget e MP_CIR) (fget e MP_PIR) (fget e MP_CBS) (fget e MP_PBS) (fget e MP_MODE) inCol b.len
      (fget h HB_MTR_C) (fget h HB_MTR_P)
    (fset (fset h HB_MTR_C c) HB_MTR_P p, col,
      s.cnt (if col = 0 then FA_MTR_GREEN_CNT else if col = 1 then FA_MTR_YELLOW_CNT else FA_MTR_RED_CNT))

/-- Steps 1 to 3 of set `fa` on a hot block: the new block, the meter's colour (R189). -/
def State.steps123 (s : State) (p : Pkt) (fa h : Nat) : Nat × Nat × State :=
  let tcp := keyTcp p.ps
  let h1 := countHot h p.bark tcp
  let h2 := if s.on (GRV_FA_CTL_TCP_EN fa) then trackHot h1 tcp else h1
  if s.on (GRV_FA_CTL_MTR_EN fa) then s.meterHot h h2 p.bark p.dec.pol else (h2, 3, s)

/-! ### Source translation (R200, R201) -/

/-- A usable pool entry. -/
def npValid (e : Nat) : Bool := fon e NP_V && decide (8 ≤ fget e NP_IN_LEN) && decide (fget e NP_IN_LEN ≤ 32)

/-- BLK, the ports of an inside address. -/
def npBlk (e : Nat) : Nat := (65536 - npPortLo e) / 2 ^ fget e NP_SHARE

/-- The public address and the first port of an inside address, when it lies inside the pool. -/
def npOut (e p : Nat) : Option (Nat × Nat) :=
  let i := p - npInBase e
  if npInBase e ≤ p ∧ i < 2 ^ (32 - fget e NP_IN_LEN) then
    let sh := fget e NP_SHARE
    some ((npOutBase e + i / 2 ^ sh) % 2 ^ 32, npPortLo e + i % 2 ^ sh * npBlk e)
  else none

/-- The inside address of a public address and port, where the arithmetic gives one. -/
def npIn (e a q : Nat) : Option Nat :=
  if q < npPortLo e ∨ npBlk e = 0 then none
  else
    let b := (q - npPortLo e) / npBlk e
    some ((npInBase e + ((a + 2 ^ 32 - npOutBase e) % 2 ^ 32 * 2 ^ fget e NP_SHARE + b)) % 2 ^ 32)

/-- An IPv4 address placed as in the flow key. -/
def placeV4 (a : Nat) : List Byte := List.replicate 12 0 ++ natBe 4 a

/-- A reverse key (R201): an IP flow key built under R99 and masked by a profile's BYTE_MASK. -/
def revKey (mask zone ver proto : Nat) (src dst : List Byte) (sp dp : Nat) : List Byte :=
  maskKey mask (natBe 1 zone ++ List.replicate 6 0 ++ natBe 1 (ver * 16) ++ natBe 1 proto ++ [0, 0, 0]
    ++ src ++ dst ++ natBe 2 sp ++ natBe 2 dp ++ List.replicate 4 0)

/-! ### Load balancing (R203 to R206) -/

/-- A member entry is ACTIVE, valid and of a group. -/
def State.lbActive (s : State) (g m : Nat) : Bool :=
  let e := s.ent 0x46 0 m
  fon e LM_V && fget e LM_GRP == g && fget e LM_STATE == 0

/-- R204: the member of a group for a hash. -/
def State.lbPick (s : State) (g hA : Nat) : Option Nat :=
  let e := s.ent 0x44 0 g
  let k := min 16 (fget e LG_SLOT_LOG2)
  let x := hA / 2 ^ (32 - k)
  ((List.range 8).map (fun i => s.ent 0x45 0 ((fget e LG_SLOT_BASE + (x + i) % 2 ^ k) % 2 ^ 20))).find? (s.lbActive g)

/-- A bound member serves (R206): ACTIVE or DRAIN. -/
def State.lbServes (s : State) (m : Nat) : Bool :=
  let e := s.ent 0x46 0 m
  fon e LM_V && decide (fget e LM_STATE ≤ 1)

/-- The egress towards a member. -/
def State.lbEgress (s : State) (m : Nat) : Egress :=
  let e := s.ent 0x46 0 m
  if fon e LM_MCAST then .group (fget e LM_EGR) else .port (fget e LM_EGR)

/-! ### Verdict, binding and hand-over: steps 4 to 6 -/

/-- R197: step 4. -/
def State.verdict (s : State) (p : Pkt) (fa h : Nat) : Pkt × State :=
  let ai := fget h HB_ACT_IDX
  if s.on (GRV_FA_CTL_VERDICT_EN fa) && bit ai 16 then
    let a := ai % 65536
    let r := s.actRec p.bark.gen a
    let cls := fget r AR_CLASS
    let b := { p.bark with action := a, cls := cls, mirror := fget r AR_MIRROR, copy := fon r AR_COPY
                           deadline := if cls = p.bark.cls then p.bark.deadline else s.deadline p.bark.arrTs cls }
    ({ p with bark := b, dec := { p.dec with act := r, actInfo := 5 } }, s.cnt FA_VERDICT_CNT)
  else (p, s)

/-- BIND of a set; 3 acts as 0. -/
def State.faBind (s : State) (fa : Nat) : Nat := let b := s.rd (GRV_FA_CTL_BIND fa); if b = 3 then 0 else b

/-- The outcome of step 5: egress, translation record, a drop for want of a binding or pool, a drop at a member that is
down. -/
structure BindRes where
  eg : Option Egress := none
  xl : Option Xlat := none
  noBind : Bool := false
  noPool : Bool := false
  down : Bool := false

/-- The NAT pool entry of a packet's VIP result, when it may be used (R210). -/
def State.natPool (s : State) (p : Pkt) : Option Nat :=
  let e := s.ent 0x43 0 (fget p.dec.vip VP_NAT_POOL)
  if p.bark.vipHit && fon p.dec.vip VP_NAT_V && npValid e then some e else none

/-- The slots of a group that a pick for a hash reads, from its first to the member it finds (R204). -/
def State.lbSlots (s : State) (g hA : Nat) : List (Nat × Nat × Nat) :=
  let e := s.ent 0x44 0 g
  let k := min 16 (fget e LG_SLOT_LOG2)
  (List.range 8).flatMap (fun i =>
    let n := (fget e LG_SLOT_BASE + (hA / 2 ^ (32 - k) + i) % 2 ^ k) % 2 ^ 20
    [(0x45, 0, n), (0x46, 0, s.ent 0x45 0 n)])

/-- The entries that step 5 reads for a flow of a KIND (R206, R210), their codes met (R345). -/
def State.meetBind (s : State) (p : Pkt) (h : Nat) : State :=
  if s.ecc.diff.isEmpty then s
  else
    let m := fget h HB_LB_MEMBER
    let u := p.bark.bough
    let kind := fget h HB_KIND
    if kind = 1 ∨ kind = 2 then
      if p.bark.vipHit && fon p.dec.vip VP_NAT_V then s.meetEnt u 0x43 0 (fget p.dec.vip VP_NAT_POOL) else s
    else if 3 ≤ kind ∧ kind ≤ 5 then
      let s := s.meetEnt u 0x46 0 m
      let g := fget (s.ent 0x46 0 m) LM_GRP
      if kind = 4 then s.meetEnt u 0x44 0 g
      else if kind = 5 ∧ s.lbServes m = false then
        let s := s.meetEnt u 0x44 0 g
        s.meetEnts u (s.lbSlots g p.flow.hA)
      else s
    else s

/-- R206, R209, R210: step 5. -/
def State.bindStep (s : State) (p : Pkt) (h : Nat) : BindRes × State :=
  let s := s.meetBind p h
  let m := fget h HB_LB_MEMBER
  let nport := fget h HB_NPORT
  let st := keySet p.ps
  match fget h HB_KIND with
  | 1 =>
    match s.natPool p with
    | none => ({ noPool := true }, s)
    | some e =>
      match npOut e (beNat (setSrc p.ps.win st) % 2 ^ 32) with
      | some (a, _) => ({ xl := some ⟨true, placeV4 a, some nport⟩ }, s)
      | none => let (n, s) := s.fresh; ({ xl := some ⟨true, placeV4 (Config.natAddr n), some nport⟩ }, s)
  | 2 =>
    match s.natPool p with
    | none => ({ noPool := true }, s)
    | some e =>
      match npIn e (beNat (setDst p.ps.win st) % 2 ^ 32) (setDport p.ps.win st) with
      | some a => ({ xl := some ⟨false, placeV4 a, some nport⟩ }, s)
      | none => let (n, s) := s.fresh; ({ xl := some ⟨false, placeV4 (Config.natAddr n), some nport⟩ }, s)
  | 3 =>
    if !s.lbServes m then ({ down := true }, s)
    else
      let e := s.ent 0x46 0 m
      ({ eg := some (s.lbEgress m), xl := some ⟨false, lbAddr e, if lbPort e = 0 then none else some (lbPort e)⟩ }, s)
  | 4 =>
    if !s.lbServes m then ({ down := true }, s)
    else
      let g := s.ent 0x44 0 (fget (s.ent 0x46 0 m) LM_GRP)
      ({ xl := some ⟨true, lbAddr g, if lbPort g = 0 then none else some (lbPort g)⟩ }, s)
  | 5 =>
    if s.lbServes m then ({ eg := some (s.lbEgress m) }, s)
    else
      let s := s.cnt FA_LB_REPIN_CNT
      ({ eg := (s.lbPick (fget (s.ent 0x46 0 m) LM_GRP) p.flow.hA).map s.lbEgress }, s)
  | 7 => ({ noBind := true }, s)
  | _ => ({}, s)

/-- R213: the causes under which a set hands a packet over (bit 0 HO_ALL to bit 5 HO_NOBIND). -/
def State.hoCauses (s : State) (p : Pkt) (fa h : Nat) (want : Bool) : Nat :=
  let ctl := match keyTcp p.ps with | some f => f % 8 != 0 | none => false
  let st := fget h HB_STATE
  b2n (s.on (GRV_FA_HO_HO_ALL fa))
    + 2 * b2n (s.on (GRV_FA_HO_HO_NEW fa) && p.bark.flowNew)
    + 4 * b2n (s.on (GRV_FA_HO_HO_TCPCTL fa) && ctl)
    + 8 * b2n (s.on (GRV_FA_HO_HO_STATE fa) && decide (5 ≤ st) && decide (st ≤ 14))
    + 16 * b2n (s.on (GRV_FA_HO_HO_RED fa) && p.dec.mtr == 2)
    + 32 * b2n (s.on (GRV_FA_HO_HO_NOBIND fa) && want)

/-- R196: whether the meter's colour drops the packet; a set that hands red packets over does not drop them (R213). -/
def State.meterDrops (s : State) (p : Pkt) (fa : Nat) (handOver : Bool) : Bool :=
  (p.dec.mtr == 2 && s.on (GRV_FA_CTL_RED_DROP fa) && !(handOver && s.on (GRV_FA_HO_HO_RED fa)))
    || (p.dec.mtr == 1 && s.on (GRV_FA_CTL_YEL_DROP fa))

/-- A drop by the action stage: RX_FLOW_DROP counts it (R392). -/
def flowDrop (p : Pkt) : Pkt := { p with dec := { p.dec with drop := some 4 } }

/-- Steps 4 to 6 of set `fa` with the hot block after step 3, and the drop of R196 (R189, R197, R207, R209, R213). -/
def State.steps456 (s : State) (p : Pkt) (fa h : Nat) : Pkt × State :=
  let (p, s) := s.verdict p fa h
  if s.meterDrops p fa true then (flowDrop p, s.cnt FA_MTR_DROP_CNT)
  else
    let (r, s) := s.bindStep p h
    let want := r.noBind || r.noPool
    let p := { p with dec := { p.dec with flowEg := r.eg, xl := r.xl } }
    if r.down then (flowDrop p, s.cnt FA_LB_DOWN_CNT)
    else if want && !s.on (GRV_FA_HO_HO_NOBIND fa) then
      (flowDrop p, s.cnt (if r.noPool then FA_NAT_NOPOOL_CNT
        else if s.faBind fa = 2 then FA_LB_NOMEMBER_CNT else FA_NAT_NOBIND_CNT))
    else
      let c := s.hoCauses p fa h want
      if c = 0 then (p, s)
      else
        let rt := match p.dec.rt with | some r => r | none => s.rd (GRV_FA_HO_HO_RT fa)
        ({ p with bark := { p.bark with twig := true }
                  dec := { p.dec with causes := if p.dec.rt.isSome then 0 else c, rt := some rt } },
          s.cnt FA_HANDOVER_CNT)

/-- The part of steps 4 to 6 that runs under an exception action BRIDGE or BRIDGE_COPY: the verdict and the meter's drop, no
translation, load balancing or Twig (R91). -/
def State.stepsBridged (s : State) (p : Pkt) (fa h : Nat) : Pkt × State :=
  let (p, s) := s.verdict p fa h
  if s.meterDrops p fa false then (flowDrop p, s.cnt FA_MTR_DROP_CNT) else (p, s)

/-- The action stage's part in the bough (R190). -/
def State.actionStage (s : State) (p : Pkt) (fa h : Nat) : Pkt × State :=
  if actBridges p.ps.act then s.stepsBridged p fa h else s.steps456 p fa h

/-! ### A record's first contents (R199) -/

/-- What a FIND carries for set `fa`, computed at the C8 that issues it; no binding under BRIDGE or BRIDGE_COPY (R91). -/
def State.createReq (s : State) (p : Pkt) (fa : Nat) : CreateReq :=
  let men := s.on (GRV_FA_CTL_MTR_EN fa)
  let prof := s.rd (GRV_FA_MTR_MTR_PROF fa)
  let e := s.ent 0x42 0 prof
  let h := fset 0 HB_LAST_SEEN (p.bark.arrTs % 2 ^ 48)
  let h := fset (fset (fset h HB_MTR_V (b2n men)) HB_MTR_CA (s.rd (GRV_FA_CTL_MTR_CA fa))) HB_MTR_PROF prof
  let h := if men then fset (fset h HB_MTR_C (fget e MP_CBS)) HB_MTR_P (fget e MP_PBS) else h
  let st := keySet p.ps
  { hot := h, tmpl := s.rd (GRV_FA_EXP_EXP_TMPL fa), expInt := s.rd (GRV_FA_EXP_EXP_INT fa), arrTs := p.bark.arrTs
    bind := if actBridges p.ps.act then 0 else s.faBind fa, probes := s.rd (GRV_FA_CTL_PROBES fa), vip := p.dec.vip, vipHit := p.bark.vipHit
    ver := if st.l3.isSome then st.ver else 0, proto := if st.l3.isSome then st.proto else 0
    src := setSrc p.ps.win st, dst := setDst p.ps.win st, sport := setSport p.ps.win st, dport := setDport p.ps.win st
    gen := p.bark.gen }

/-- The entries that a creation reads (R199, R201, R205), their codes met in the bough whose C8 issues it (R345). -/
def State.meetCreate (s : State) (p : Pkt) (fa : Nat) : State :=
  if s.ecc.diff.isEmpty then s
  else
    let u := p.bark.bough
    let s := if s.on (GRV_FA_CTL_MTR_EN fa) then s.meetEnt u 0x42 0 (s.rd (GRV_FA_MTR_MTR_PROF fa)) else s
    if !p.bark.vipHit || actBridges p.ps.act then s
    else if s.faBind fa = 1 ∧ fon p.dec.vip VP_NAT_V = true then s.meetEnt u 0x43 0 (fget p.dec.vip VP_NAT_POOL)
    else if s.faBind fa = 2 ∧ fon p.dec.vip VP_LB_V = true then
      let g := fget p.dec.vip VP_LB_GRP
      let s := s.meetEnt u 0x44 0 g
      s.meetEnts u (s.lbSlots g p.flow.hA)
    else s

/-- The cold block of a created record before any binding: FIRST_SEEN and the export fields (R199). -/
def CreateReq.cold (c : CreateReq) : Nat :=
  fset c.arrTs CB_EXP_TMPL c.tmpl + c.expInt * 2 ^ 416
    + (if c.expInt = 0 then 0 else (c.arrTs + c.expInt * 1000000000) % 2 ^ 48) * 2 ^ 432

/-- A binding: KIND, NPORT and LB_MEMBER of the hot block, the cold block's binding fields, and the key, profile and hot
fields of a reverse flow. -/
structure Binding where
  kind : Nat := 0
  nport : Nat := 0
  member : Nat := 0
  cold : Nat := 0
  rev : Option (List Byte × Nat) := none
  revKind : Nat := 0
  revPort : Nat := 0

/-- Binding fields of the cold block: translated source or destination, ports, protocol, member (R155). -/
def coldNat (src : Bool) (addr : List Byte) (port proto : Nat) : Nat :=
  (if src then leNat addr * 2 ^ 64 + leNat (natBe 2 port) * 2 ^ 320 + 2 ^ 361
   else leNat addr * 2 ^ 192 + leNat (natBe 2 port) * 2 ^ 336 + 2 ^ 362) + proto * 2 ^ 352 + 2 ^ 360
def coldPin (g m : Nat) : Nat := g * 2 ^ 368 + m * 2 ^ 384 + 2 ^ 400

/-- R207: a flow that could not be bound. -/
def unbound : Binding := { kind := 7 }

/-- TCP or UDP. -/
def isTcpUdp (proto : Nat) : Bool := proto == 6 || proto == 17

/-- The candidates of R201 for a creation: the pool entry, the public address and the ports in order; none where no
binding can be made. -/
def State.natCandidates (s : State) (c : CreateReq) (hA : Nat) : Option (Nat × Nat × List Nat) :=
  let e := s.ent 0x43 0 (fget c.vip VP_NAT_POOL)
  if c.ver = 4 ∧ isTcpUdp c.proto = true ∧ c.vipHit = true ∧ fon c.vip VP_NAT_V = true ∧ npValid e = true then
    match npOut e (beNat c.src % 2 ^ 32) with
    | none => none
    | some (a, lo) =>
      let blk := npBlk e
      if blk = 0 then none
      else
        let first := hA % 65536 % blk
        some (e, a, (List.range (min (c.probes + 1) blk)).map (fun i => lo + (first + i) % blk))
  else none

/-- The reverse key of a NAT candidate: profile and key. -/
def State.natRev (s : State) (c : CreateReq) (e a q : Nat) : List Byte × Nat :=
  let prof := fget e NP_REV_PROF
  (revKey (fget (s.ent 0x12 (c.gen % 2) prof) KP_MASK) (fget e NP_REV_ZONE) c.ver c.proto c.dst (placeV4 a) c.dport q, prof)

/-- The NAT binding made with candidate `q` (R201). -/
def State.natBinding (s : State) (c : CreateReq) (e a q : Nat) : Binding :=
  { kind := 1, nport := q, cold := coldNat true (placeV4 a) q c.proto, rev := some (s.natRev c e a q)
    revKind := 2, revPort := c.sport }

/-- R205: the load-balancing binding of a creation. -/
def State.lbBinding (s : State) (c : CreateReq) (hA : Nat) : Binding :=
  let g := fget c.vip VP_LB_GRP
  let e := s.ent 0x44 0 g
  if !(c.vipHit && fon c.vip VP_LB_V && decide (g < 16384) && fon e LG_V) then unbound
  else
    match s.lbPick g hA with
    | none => unbound
    | some m =>
      let me := s.ent 0x46 0 m
      if !fon e LG_DNAT then { kind := 5, member := m, cold := coldPin g m }
      else
        let v6 := c.ver == 6
        if !isTcpUdp c.proto || fon e LG_VER6 != v6 || fon me LM_VER6 != v6 || (c.ver != 4 && c.ver != 6) then unbound
        else
          let port := if lbPort me = 0 then c.dport else lbPort me
          let prof := fget e LG_REV_PROF
          { kind := 3, member := m, cold := coldNat false (lbAddr me) port c.proto + coldPin g m
            rev := some (revKey (fget (s.ent 0x12 (c.gen % 2) prof) KP_MASK) (fget e LG_REV_ZONE) c.ver c.proto (lbAddr me)
              c.src port c.sport, prof)
            revKind := 4 }

/-- The hot block of a created record (R199): its binding fields and STATE. -/
def CreateReq.hotWith (c : CreateReq) (b : Binding) : Nat :=
  fset (fset (fset (fset c.hot HB_KIND b.kind) HB_NPORT b.nport) HB_LB_MEMBER b.member) HB_STATE (if b.kind = 7 then 4 else 0)

/-- The hot block of a reverse flow: unmetered, KIND, NPORT, LB_MEMBER and LAST_SEEN (R201, R205). -/
def CreateReq.revHot (c : CreateReq) (b : Binding) : Nat :=
  fset (fset (fset (fset 0 HB_LAST_SEEN (fget c.hot HB_LAST_SEEN)) HB_KIND b.revKind) HB_NPORT b.revPort) HB_LB_MEMBER b.member

end Sys2Proof.Machine
end

