-- ==== Sys2Proof/Machine/Grove.lean ====
section
/-!
DEFINITION. The Grove (chapter 06): the miss park and its pending entries, the directory engines with the miss budget,
installation and release of Canopy lines, ageing, enabling and flushing.
-/
namespace Sys2Proof.Machine

/-! ### Seeds and hashes (R102 to R104) -/

/-- The seeds in use: those latched at the enable, or the registers' while the Grove is not enabled. -/
def State.seeds (s : State) : Nat × Nat :=
  if s.on GRV_CFG_EN then (s.gv.seedA, s.gv.seedB) else (s.reg GRV_HASH_SEED_A, s.reg GRV_HASH_SEED_B)

/-- H_A and H_B of a key. -/
def State.hashes (s : State) (key : List Byte) (prof : Nat) : Nat × Nat :=
  let i := hashInput key prof
  (khash polyA s.seeds.1 i, khash polyB s.seeds.2 i)

/-! ### Twig hot-block commits that wait (R166, R228) -/

/-- The hot-block commits of a flow that have not reached it are applied, in the order of their microwords, once its line
lets them; those of a flow that no longer exists are discarded and counted. -/
def State.applyHot (s : State) (idx : Nat) : State :=
  let mine := s.waitingHot idx
  if mine.isEmpty || !s.flowFree idx then s
  else if !s.wayUsed idx then s.dropCommits idx
  else
    let put (h : List Byte) := mine.foldl (fun h (c : HotCommit) => splice h c.off [c.val]) h
    let (ok, s) := match s.lineOf idx with
      | some l => (true, s.putHot l (put (s.line l).hot))
      | none => (s.rtsUseFrom (s.bucketStack (idx / 4)) clsTwig (slotAddr idx + 64) mine.length true).rsBytes
          (mine.map (fun (c : HotCommit) => (slotAddr idx + 64 + c.off, c.val)))
    if !ok then s.dropCommits idx else
    { s with twig.commits := s.twig.commits.map (fun (c : HotCommit) =>
        if c.flow = idx ∧ c.applied = none then { c with applied := some s.time.mono } else c) }

/-! ### The unstated action (R177) -/

/-- The cause counter: 0 NOBUDGET, 1 DIR_FULL, 2 PARK_FULL, 3 PEND_FULL, 4 PARK_CAP, 5 PARK_TMO, 6 OFF; 7 is a poisoned
record, which has none (R347). -/
def causeCnt (c : Nat) : Option Nat :=
  match c with
  | 0 => some GRV_NOBUDGET_CNT | 1 => some GRV_DIR_FULL_CNT | 2 => some GRV_PARK_FULL_CNT | 3 => some GRV_PEND_FULL_CNT
  | 4 => some GRV_PARK_CAP_CNT | 5 => some GRV_PARK_TMO_CNT | 6 => some GRV_OFF_CNT | _ => none

/-- A refusal counted for the once-a-second event of a unit: (start of its second, count). A count of an earlier second
that has not been written is written first. -/
def secAdd (s : State) (t : Tab (Nat × Nat)) (u now : Nat) (write : State → Nat → Nat → State) : State × Tab (Nat × Nat) :=
  let sec := now / 1000000000 * 1000000000
  let e := t.get (0, 0) u
  if e.2 = 0 then (s, t.set (0, 0) u (sec, 1))
  else if e.1 = sec then (s, t.set (0, 0) u (sec, e.2 + 1))
  else (write s e.1 e.2, t.set (0, 0) u (sec, 1))

/-- The GRV_DIR_FULL event of a stack, and the GRV_PARK_TMO event of a bank group (R412). -/
def State.dirFullEvent (s : State) (c sec n : Nat) : State := s.journalAt (islRts c) sec 0x0404 c (natLe 4 n)
def State.parkTmoEvent (s : State) (g sec n : Nat) : State := s.journalAt (islGroup g) sec 0x0405 g (natLe 4 n)

/-- The count and interrupt of a cause, and its once-a-second account. -/
def State.causeCount (s : State) (c grp hB : Nat) : State :=
  let s := match causeCnt c with | some a => s.cnt a | none => s
  match c with
  | 1 =>
    let u := s.bucketStack (hB % 2 ^ 24)
    let (s, t) := secAdd s s.gv.dirFull u (s.now (islRts u)) (fun s a n => s.dirFullEvent u a n)
    ({ s with gv.dirFull := t } : State).raise GRV_INT_DIR_FULL
  | 2 => s.raise GRV_INT_PARK_FULL
  | 3 => s.raise GRV_INT_PARK_FULL
  | 5 =>
    let (s, t) := secAdd s s.gv.parkTmo grp (s.now (islGroup grp)) (fun s a n => s.parkTmoEvent grp a n)
    ({ s with gv.parkTmo := t } : State).raise GRV_INT_PARK_TMO
  | _ => s

/-- R177: a packet takes the unstated action of its class; ACT and a copy to the host as the register holds them now. -/
def State.unstated (s : State) (k cause : Nat) : State :=
  match s.pkt? k with
  | none => s
  | some p =>
    let cls := p.bark.cls
    let act := s.rd (GRV_UNS_CFG_ACT cls)
    let s := (s.cnt GRV_UNSTATED_CNT).cnt (GRV_UNSTATED_CLS_CNT cls)
    let s := (s.causeCount cause (groupOf p.flow.hA) p.flow.hB).raise GRV_INT_UNSTATED
    let s := s.modPkt k (fun p => { p with
      bark := { p.bark with flowIdx := 0, flowNew := false, colour := 3 }
      flow := { p.flow with unst := some act, line := none } })
    if 2 ≤ act then s.askHost k (s.rd (GRV_UNS_CFG_HOST_CH cls)) 3 else s

/-! ### The park and the pending entries (R167, R168) -/

/-- Packets parked in a bank group, and device-wide. -/
def State.parkedIn (s : State) (g : Nat) : Nat :=
  (s.pkts.filter (fun e => e.2.stage = .parked && e.2.flow.grp == g)).length
def State.parkedAll (s : State) : Nat := (s.pkts.filter (fun e => e.2.stage = .parked)).length

/-- GRV_PARK_STS, GRV_PARK_HWM and GRV_PEND_STS shown. -/
def State.parkShow (s : State) : State :=
  let n := s.parkedAll
  let m := s.gv.pends.length
  let s := (s.wr GRV_PARK_STS_IN_USE n).wr GRV_PARK_HWM_HWM (max n (s.rd GRV_PARK_HWM_HWM))
  (s.wr GRV_PEND_STS_IN_USE m).wr GRV_PEND_STS_HWM (max m (s.rd GRV_PEND_STS_HWM))

/-- Key of a pending entry: bank group and number within it. -/
def pendKey (g e : Nat) : Nat := 512 * g + e

/-- A pending entry stored or freed. -/
def State.putPend (s : State) (k : Nat) (e : PendEnt) : State := { s with gv.pends := s.gv.pends.insert k e }
def State.freePend (s : State) (k : Nat) : State := ({ s with gv.pends := s.gv.pends.erase k } : State).parkShow

/-- The pending entry of a group that fetches a key. -/
def State.pendOf (s : State) (g : Nat) (key : List Byte) (prof : Nat) : Option (Nat × PendEnt) :=
  s.gv.pends.first (fun e => e.1 / 512 == g && e.2.prof == prof && decide (e.2.key = key))

/-- The pending entry that holds a line's release. -/
def State.pendOfLine (s : State) (l : Nat) : Option (Nat × PendEnt) :=
  s.gv.pends.first (fun e => e.2.line == some l)

/-- Packets an entry may hold (R167). -/
def State.perFlow (s : State) : Nat := max 1 (s.rd GRV_PARK_CFG_PER_FLOW)

/-- TMAX in ns (R173). -/
def State.parkTmax (s : State) : Nat := max 500 (min 2000 (s.rd GRV_PARK_CFG_TMAX))

/-- A packet enters the park of its group, with its release deadline (R173). -/
def State.parkIn (s : State) (k : Nat) : State :=
  let due := s.time.mono + (s.parkTmax - 5) * 8
  let grp := match s.pkt? k with | some p => groupOf p.flow.hA | none => 0
  let s := (s.injMem k 6 8 grp (islGroup grp)).modPkt k (fun p => { p with
    stage := .parked, bark := { p.bark with parked := true }
    flow := { p.flow with grp := groupOf p.flow.hA, due := due, entry := none, joinLine := none, joinLost := false } })
  (s.parkShow).pmuEv 0x04 (k / 8192)

/-- A packet joins an entry's list. -/
def State.joinPend (s : State) (k ek : Nat) (e : PendEnt) : State :=
  let s := s.putPend ek { e with pkts := e.pkts ++ [k] }
  s.modPkt k (fun p => { p with flow := { p.flow with entry := some ek, joinLine := none, joinLost := false } })

/-- A new entry is allocated for a parked packet's key and its FIND is issued (R168). -/
def State.newPend (s : State) (k ek : Nat) (p : Pkt) : State :=
  let s := s.meetCreate p p.dec.fa
  let e : PendEnt := { key := p.ps.key, prof := p.ps.prof, hA := p.flow.hA, hB := p.flow.hB, pkts := [k]
                       cr := s.createReq p p.dec.fa, crPkt := k }
  let s := (s.putPend ek e).cnt GRV_FIND_CNT
  (s.modPkt k (fun p => { p with flow := { p.flow with entry := some ek, joinLine := none, joinLost := false } })).parkShow

/-- What a miss meets (R167): an entry to join, a free entry number, or the cause of the unstated action. -/
inductive MissAt where
  | join (ek : Nat) (e : PendEnt)
  | fresh (ek : Nat)
  | refuse (cause : Nat)

/-- Where a missing packet goes, the park's own room aside. -/
def State.missAt (s : State) (p : Pkt) : MissAt :=
  let g := groupOf p.flow.hA
  match s.pendOf g p.ps.key p.ps.prof with
  | some (ek, e) => if s.perFlow ≤ e.pkts.length then .refuse 4 else .join ek e
  | none =>
    match firstIdx 512 (fun i => (s.gv.pends.find? (pendKey g i)).isNone) with
    | some i => .fresh (pendKey g i)
    | none => .refuse 3

/-- A packet leaves the park for its bough. -/
def State.unpark (s : State) (k : Nat) : State :=
  (s.modPkt k (fun p => { p with
    stage := .returned, flow := { p.flow with entry := none, joinLine := none, joinLost := false } })).parkShow

/-- R484: a parked packet whose joined line was taken misses, keeping its slot and its deadline: it joins its key's entry
or allocates one, or takes the unstated action under R167's cause. -/
def State.joinMiss (s : State) (k : Nat) : State :=
  match s.pkt? k with
  | none => s
  | some p =>
    if p.stage ≠ .parked || !p.flow.joinLost then s
    else if p.dec.fa = 0 then s.unpark k
    else
      match s.missAt p with
      | .refuse c => (s.unpark k).unstated k c
      | .join ek e => (s.joinPend k ek e).cnt GRV_JOIN_CNT
      | .fresh ek => s.newPend k ek p

/-- R484: every packet whose joined line has just been taken misses now, in the order of their deadlines. -/
def State.joinMisses (s : State) : State :=
  let l := s.pkts.filter (fun e => e.2.flow.joinLost)
  let sorted := l.foldl (fun acc e => acc.takeWhile (fun x => x.2.flow.due ≤ e.2.flow.due) ++ e
    :: acc.dropWhile (fun x => x.2.flow.due ≤ e.2.flow.due)) []
  sorted.foldl (fun s e => s.joinMiss e.1) s

/-- R163, R167: a packet parks at C8, after a miss or on the line it joins; `false`: it took the unstated action. -/
def State.park (s : State) (k : Nat) (join : Option Nat) : Bool × State :=
  match s.pkt? k with
  | none => (true, s)
  | some p =>
    let g := groupOf p.flow.hA
    let s := s.modPkt k (fun p => { p with bark := { p.bark with flowHit := join.isSome } })
    if 4096 ≤ s.parkedIn g then (false, s.unstated k 2)
    else
      match join with
      | some l =>
        let s := s.pmuEv 0x43 g
        if (s.line l).pend then
          match s.pendOfLine l with
          | some (ek, e) =>
            if s.perFlow ≤ e.pkts.length then (false, s.unstated k 4)
            else (true, ((s.parkIn k).joinPend k ek e).cnt GRV_JOIN_CNT)
          | none => (true, (s.parkIn k).modPkt k (fun p => { p with flow := { p.flow with joinLine := some l } }))
        else
          let s := (s.parkIn k).modPkt k (fun p => { p with flow := { p.flow with joinLine := some l } })
          (true, s.cnt GRV_WB_WAIT_CNT)
      | none =>
        match s.missAt p with
        | .refuse c => (false, s.unstated k c)
        | .join ek e => (true, ((((s.parkIn k).joinPend k ek e).cnt GRV_JOIN_CNT).cnt GRV_MISS_CNT).pmuEv 0x43 g)
        | .fresh ek => (true, ((s.parkIn k).newPend k ek p).cnt GRV_MISS_CNT)

/-! ### The miss budget (R174) -/

/-- BURST and RATE in force. -/
def State.missBurst (s : State) : Nat := max 1 (s.rd GRV_MISS_CFG_BURST)
def State.missRate (s : State) : Nat := min 500 (s.rd GRV_MISS_CFG_RATE)

/-- A token taken from an engine's bucket, when there is one. -/
def State.takeToken (s : State) (c : Nat) : Bool × State :=
  let u := s.gv.tokUsed.get 0 c
  if u + 1000 ≤ s.missBurst * 1000 then (true, { s with gv.tokUsed := s.gv.tokUsed.set 0 c (u + 1000) }) else (false, s)

/-- Each engine's bucket fills at RATE tokens per µs: RATE thousandths of a token a ns. -/
def State.missRefill (s : State) (c : Nat) : State :=
  let ns := s.time.mono / 8
  let add := s.missRate * (ns - s.gv.tokAt.get 0 c)
  { s with gv.tokUsed := s.gv.tokUsed.set 0 c (s.gv.tokUsed.get 0 c - add), gv.tokAt := s.gv.tokAt.set 0 c ns }

/-- A write of GRV_MISS_CFG: each bucket has filled at the old RATE until now, and keeps its tokens up to the new BURST. -/
def State.missCfgWrite (s : State) (v : Nat) : State :=
  let s := (s.missRefill 0).missRefill 1
  let old := s.missBurst * 1000
  let s := s.hostWrite GRV_MISS_CFG v
  let new := s.missBurst * 1000
  let used (c : Nat) : Nat := new - min new (old - s.gv.tokUsed.get 0 c)
  { s with gv.tokUsed := (s.gv.tokUsed.set 0 0 (used 0)).set 0 1 (used 1) }

def execMissTokenRefill (c : Fin 2) (s : State) : Out := onIsl (islRts c.val) s (·.missRefill c.val)

/-! ### Poison in the Root store (R347) -/

/-- A flow deleted because its record is poisoned: event FLOW_POISON, no final export. -/
def poisonWhy : DelWhy := { event := 0x0403, cause := 0, export_ := false, cls := clsMiss }
def poisonPartner : DelWhy := { poisonWhy with cause := 2 }

/-- R180, R484: a deletion, and the misses of the packets that waited on its line. -/
def State.flowGone (s : State) (idx : Nat) (w pw : DelWhy) : State := (s.delFlow idx w pw).joinMisses

/-- A deletion that waits until its flow's line is clear (R166). -/
def State.delLater (s : State) (idx : Nat) (partner : Bool) : State :=
  if s.gv.delWait.contains (idx, partner) then s else { s with gv.delWait := s.gv.delWait ++ [(idx, partner)] }

/-- R346, R347: a flow is deleted now; a partner that goes with it (R209) once its own line is clear (R166). -/
def State.flowPoison (s : State) (idx : Nat) : State :=
  let s := s.cnt ECC_FLOW_POISON_CNT
  match s.pairOf idx with
  | some q =>
    if s.pairBound idx && !s.flowFree q then ((s.dropFlow idx poisonWhy).delLater q true).joinMisses
    else s.flowGone idx poisonWhy poisonPartner
  | none => s.flowGone idx poisonWhy poisonPartner

/-- R347, R166: a flow whose record is poisoned is deleted once its line is clear. -/
def State.flowPoisonWait (s : State) (idx : Nat) : State :=
  if s.flowFree idx then s.flowPoison idx else s.delLater idx false

/-- A line is clear again, or a FIND has ended: what waited for the flow is applied, a deletion first (R166). -/
def State.lineClear (s : State) (idx : Nat) : State :=
  if !s.flowFree idx then s
  else
    match s.gv.delWait.find? (fun x => x.1 == idx) with
    | none => s.applyHot idx
    | some x =>
      let s := { s with gv.delWait := s.gv.delWait.filter (fun y => y.1 != idx) }
      if !s.wayUsed idx then s.applyHot idx
      else if x.2 then (s.dropFlow idx poisonPartner).joinMisses else s.flowPoison idx

/-- The number that stands for no line in a bough's queue of write-backs. -/
def noLine : Nat := 2 ^ 23

/-- R346: a line is lost: its flow is deleted when its key block is readable; a pending entry whose line it was returns
to FIND; write-backs on their way to it will be discarded; packets that waited on it miss. -/
def State.loseLine (s : State) (l : Nat) : State :=
  let x := s.line l
  let keyBad := (List.range 8).any (fun i => s.lineWordBad l i)
  let pe := s.pendOfLine l
  let s := if !x.v then s
    else
      let s := s.cnt ECC_LINE_LOST_CNT
      if keyBad then s.cnt ECC_LINE_ORPHAN_CNT else s.flowPoison x.idx
  let s := { (s.dropLine l) with
    ecc.diff := s.ecc.diff.filter (fun e => !(e.1 / 2 ^ 40 == 0 && e.1 / 32 == l))
    gv.wbq := s.gv.wbq.map (fun (q : Nat × List (Nat × Option (List Byte))) =>
      (q.1, q.2.map (fun (w : Nat × Option (List Byte)) => if w.1 = l then (noLine, none) else w))) }
  let s := match pe with
    | some (ek, e) => (s.putPend ek { e with ph := .find, fs := .sent, line := none, isNew := false }).cnt GRV_FIND_CNT
    | none => s
  (s.joinMisses).lineClear x.idx

/-- R344 to R346: a Canopy page is corrected, or the lines that hold its failed words are lost. A state word is in no
page; poison is not corrected. -/
def State.fixCanopy (s : State) (page : Nat) : State :=
  let bad := (s.failedWords 0).filter (fun w => w / 512 == page && decide (w % 32 < 16))
  let s := if bad.isEmpty || !s.pageOk 0 page then s
    else
      s.pageFixed 0 page bad
  let lost := (List.range 16).filter (fun i => (List.range 17).any (fun j => s.lineWordBad (16 * page + i) j))
  match lost with
  | [] => s
  | i :: _ =>
    let l := 16 * page + i
    let j := ((List.range 17).find? (fun j => s.lineWordBad l j)).getD 0
    let w := canopyWord l j
    let u := wordAt 0 w
    let s := s.pageFail 0 u.1 (synByte 64 (s.ecc.diff.get 0 (eccKey 0 w))) u.2.1 u.2.2
    let s := lost.foldl (fun s i => s.loseLine (16 * page + i)) s
    s.symForget 0 page

/-- A read of a line meets its codes (R345); whether a word of it was uncorrectable. -/
def State.lineRead (s : State) (l : Nat) : Bool × State :=
  let (bad, s) := s.lineScan l
  if bad then (true, s.fixCanopy (l / 16)) else (false, s)

/-! ### The directory engines (R169, R201, R205, R257) -/

/-- A directory engine's read of a bucket, 256 bytes of a class, meets its codes; a poisoned way is quarantined (R176,
R347). -/
def State.bucketScan (s : State) (cls b : Nat) : State :=
  let s := s.rtsUse cls (wayAddr (4 * b)) 256 false
  if s.ecc.diff.isEmpty && s.ecc.poison.isEmpty then s
  else
    (List.range 4).foldl (fun s w =>
      let i := 4 * b + w
      let s := s.rsScan (wayAddr i) 64
      if s.rsPoisoned (wayAddr i) 64 && !s.gv.quarantine.contains i then
        { s with gv.quarantine := s.gv.quarantine ++ [i] }.cnt ECC_QUARANTINE_CNT
      else s) s

/-- The step that an engine sends to the owner of another bucket crosses the controller link (R257). -/
def State.toOwner (s : State) (from_ b : Nat) : State :=
  if s.bucketStack b = from_ then s else s.cnt (RTS_XSTK_CNT (s.bucketStack b))

/-- A directory read of another key within a step: the flow found, `none` inside `some` when absent; `none` for want of a
token. -/
def State.dirRead (s : State) (c b fp : Nat) (key : List Byte) (prof : Nat) : Option (Option Nat) × State :=
  let (ok, s) := s.takeToken c
  if !ok then (none, s)
  else
    let s := (s.toOwner c b).bucketScan clsMiss b
    match s.matchWay b key prof false with
    | some i => (some (some i), s)
    | none =>
      if s.ovf b = 0 then (some none, s)
      else
        let s := s.cnt GRV_ALT_READ_CNT
        let (ok, s) := s.takeToken c
        if !ok then (none, s)
        else
          let s := (s.toOwner (s.bucketStack b) (altBucket b fp)).bucketScan clsMiss (altBucket b fp)
          (some (s.matchWay (altBucket b fp) key prof true), s)

/-- A reverse key with its bucket and fingerprint. -/
def State.keyHome (s : State) (k : List Byte × Nat) : Nat × Nat :=
  let (a, b) := s.hashes k.1 k.2
  (b % 2 ^ 24, fpOf a b)

/-- R201: the candidates read together: each present one counts, the first absent one is taken. `none` for want of a
token; `some none` when the range is exhausted. -/
def State.natProbe (s : State) (c : Nat) (cr : CreateReq) (e a : Nat) : List Nat → Option (Option Nat) × State
  | [] => (some none, s)
  | q :: qs =>
    let k := s.natRev cr e a q
    let (b, f) := s.keyHome k
    let (r, s) := s.dirRead c b f k.1 k.2
    match r with
    | none => (none, s)
    | some found =>
      let s := if found.isSome then s.cnt FA_NAT_PROBE_CNT else s
      let (r, s) := State.natProbe s c cr e a qs
      match r with
      | none => (none, s)
      | some later => (some (if found.isNone then some q else later), s)

/-- The binding of a creation (R201, R205, R207); `none` for want of a token. -/
def State.bindingOf (s : State) (c : Nat) (cr : CreateReq) (hA : Nat) : Option Binding × State :=
  match cr.bind with
  | 1 =>
    match s.natCandidates cr hA with
    | none => (some unbound, s)
    | some (e, a, qs) =>
      let (r, s) := s.natProbe c cr e a qs
      match r with
      | none => (none, s)
      | some none => (some unbound, s)
      | some (some q) => (some (s.natBinding cr e a q), s)
  | 2 =>
    let b := s.lbBinding cr hA
    if b.kind = 7 then (some b, s)
    else
      match b.rev with
      | none => (some b, s)
      | some k =>
        let (bu, f) := s.keyHome k
        let (r, s) := s.dirRead c bu f k.1 k.2
        match r with
        | none => (none, s)
        | some found =>
          if found.isSome then (some { b with rev := none }, s.cnt FA_PAIR_CLASH_CNT) else (some b, s)
  | _ => (some {}, s)

/-- Where a new key is placed (R161): the way and whether in the alternate bucket; the engine's second token for a
directory that was not read for the match. -/
def State.placeAt (s : State) (c b fp : Nat) : Option (Nat × Bool) × Nat × State :=
  match s.freeWay b with
  | some i => (some (i, false), 0, s)
  | none =>
    let (ok, s) := if s.ovf b = 0 then (s.cnt GRV_ALT_READ_CNT).takeToken c else (true, s)
    if !ok then (none, 0, s)
    else
      let s := (s.toOwner (s.bucketStack b) (altBucket b fp)).bucketScan clsMiss (altBucket b fp)
      match s.freeWay (altBucket b fp) with
      | some i => (some (i, true), 0, s)
      | none => (none, 1, s)

/-- The way, cold block and count of a created record (R161, R169). -/
def State.writeRecord (s : State) (cls idx : Nat) (key : List Byte) (prof fp : Nat) (alt : Bool) (cold : Nat) : State :=
  let s := (s.rtsUse cls (wayAddr idx) 64 true).rtsUseFrom (s.bucketStack (idx / 4)) cls (slotAddr idx + 128) 128 true
  ((s.writeWay idx key prof fp alt).rsWrite (slotAddr idx + 128) (natLe 128 cold)).cnt GRV_CREATE_CNT

/-- A binding made (R201, R205). -/
def State.bindCount (s : State) (b : Binding) : State :=
  if b.kind = 1 then s.cnt FA_NAT_BIND_CNT else if b.kind = 3 ∨ b.kind = 5 then s.cnt FA_LB_BIND_CNT else s

/-- R201, R205: the flow of an entry is created at `idx`, with its binding and any reverse flow; OVF increases of their
primary buckets are given back, to be made in steps of their own (R257). On a failure the cause is given and nothing is
created. -/
def State.createAt (s : State) (ek c : Nat) (e : PendEnt) (idx : Nat) (alt : Bool) : Except Nat (List Nat) × State :=
  let fp := fpOf e.hA e.hB
  let (r, s) := s.bindingOf c e.cr e.hA
  match r with
  | none => (.error 0, s)
  | some b =>
    let cold := e.cr.cold + b.cold
    let own := if alt then [e.hB % 2 ^ 24] else []
    let s0 := s.writeRecord clsMiss idx e.key e.prof fp alt cold
    let s0 := s0.putPend ek { e with hot := hotBytes (e.cr.hotWith b), isNew := true, heldWay := none }
    match b.rev with
    | none => (.ok own, s0.bindCount b)
    | some k =>
      let (bu, f) := s0.keyHome k
      let (at_, cause, s1) := s0.placeAt c bu f
      match at_ with
      | none => (.error cause, { s with gv.tokUsed := s1.gv.tokUsed })
      | some (j, jalt) =>
        let s := (s1.bindCount b).writeRecord clsMiss j k.1 k.2 f jalt cold
        let s := (s.rtsUseFrom (s.bucketStack (j / 4)) clsMiss (slotAddr j + 64) 64 true).rsWrite (slotAddr j + 64)
          (hotBytes (e.cr.revHot b))
        (.ok (own ++ if jalt then [bu] else []), (s.setPair clsMiss idx (some j)).setPair clsMiss j (some idx))

/-- An earlier FIND of a key is between two of its steps: the engine starts nothing else on that key (R257). -/
def State.keyAhead (s : State) (k : List Byte × Nat) (t : Nat) : Bool :=
  s.gv.pends.any (fun e => e.2.key == k.1 && e.2.prof == k.2 && decide (e.2.taken < t) && (match e.2.fs with
    | .alt => true | .prim _ => true | .ovf _ _ => true | _ => false))

/-- A creation whose reverse key, or a candidate for it, waits for an earlier FIND of that key (R257). -/
def State.revWaits (s : State) (e : PendEnt) : Bool :=
  match e.cr.bind with
  | 1 => (match s.natCandidates e.cr e.hA with
    | none => false
    | some (x, a, qs) => qs.any (fun q => s.keyAhead (s.natRev e.cr x a q) e.taken))
  | 2 => (s.lbBinding e.cr e.hA).rev.any (fun k => s.keyAhead k e.taken)
  | _ => false

/-- A FIND's state changed. -/
def State.setFind (s : State) (ek : Nat) (f : FindSt) : State :=
  match s.gv.pends.find? ek with
  | some e => s.putPend ek { e with fs := f, heldWay := match f with | .alt => e.heldWay | .prim none => e.heldWay | _ => none }
  | none => s

/-- The FIND goes out of budget, counted once (R174). -/
def State.findOb (s : State) (ek : Nat) : State :=
  match s.gv.pends.find? ek with
  | some e =>
    if e.counted then s else (s.putPend ek { e with inBudget := false, counted := true }).cnt GRV_FIND_OB_CNT
  | none => s

/-- A flow found, its hot block read (R176): poisoned, it is deleted and the FIND replies NONE (R347); else the reply names it. -/
def State.findHit (s : State) (ek idx : Nat) : State :=
  let cls := (s.gv.pends.find? ek).elim clsOb (fun e => if e.inBudget then clsMiss else clsOb)
  let s := (s.rtsUseFrom (s.bucketStack (idx / 4)) cls (slotAddr idx + 64) 64 false).rsScan (slotAddr idx + 64) 64
  if s.rsPoisoned (slotAddr idx + 64) 64 then (s.flowPoison idx).setFind ek (.none 7) else s.setFind ek (.line idx false)

/-- A creation at `idx`; when it fails, NONE with its cause. -/
def State.findCreate (s : State) (ek c idx : Nat) (alt : Bool) : State :=
  match s.gv.pends.find? ek with
  | none => s
  | some e =>
    match s.createAt ek c e idx alt with
    | (.ok [], s) => s.setFind ek (.line idx true)
    | (.ok bs, s) => s.setFind ek (.ovf bs idx)
    | (.error 0, s) => (s.findOb ek).setFind ek (.none 0)
    | (.error x, s) => s.setFind ek (.none x)

/-- A second token for the alternate bucket; without one the FIND goes on out of budget. -/
def State.secondToken (s : State) (ek c : Nat) : Bool × State :=
  let (ok, s) := s.takeToken c
  if ok then (true, s) else (false, s.findOb ek)

/-- The class of a FIND's requests by budget (R264). -/
def findCls (inBudget : Bool) : Nat := if inBudget then clsMiss else clsOb

/-- R169, R257: the FIND's step on its primary bucket. With no room in the stack's request table it waits in its group
(R167); a creation waits for an earlier FIND of its reverse key. -/
def State.find (s : State) (ek : Nat) : State :=
  match s.gv.pends.find? ek with
  | none => s
  | some e =>
    let b := e.hB % 2 ^ 24
    if e.ph ≠ .find ∨ e.fs ≠ .sent then s
    else if !s.rtsHas (findCls (s.takeToken (s.bucketStack b)).1) (wayAddr (4 * b)) then s.rtsHeldBack (wayAddr (4 * b))
    else
      let was := s
      let c := s.bucketStack b
      let (tok, s) := s.takeToken c
      let s := s.bucketScan (findCls tok) b
      let e := { e with inBudget := tok, taken := s.gv.nextTake }
      let s := { s.putPend ek e with gv.nextTake := s.gv.nextTake + 1 }
      let s := if tok then s else s.findOb ek
      match s.matchWay b e.key e.prof false with
      | some i => s.findHit ek i
      | none =>
        if s.ovf b = 0 then
          if !tok then s.setFind ek (.none 0)
          else
            match s.freeWay b with
            | some i => if was.revWaits e then was else s.findCreate ek c i false
            | none =>
              let (ok, s) := s.secondToken ek c
              if ok then (s.cnt GRV_ALT_READ_CNT).setFind ek .alt else s.setFind ek (.none 0)
        else
          let (ok, s) := if tok then s.secondToken ek c else (false, s)
          match s.gv.pends.find? ek with
          | some e => (s.putPend ek { e with heldWay := if ok then s.freeWay b else none, fs := .alt }).cnt GRV_ALT_READ_CNT
          | none => s

/-- The bank group of a pending entry, and its FIND, when Grove and device run. -/
def onPend (g : Fin 16) (e : Fin 512) (s : State) (f : State → Nat → State) : Out :=
  onIsl (islGroup g.val) s (fun s => f s (pendKey g.val e.val))

def execFind (g : Fin 16) (e : Fin 512) (s : State) : Out := onPend g e s State.find

/-- R257: the step at the owner of the alternate bucket. -/
def State.findAlt (s : State) (ek : Nat) : State :=
  match s.gv.pends.find? ek with
  | none => s
  | some e =>
    let b := e.hB % 2 ^ 24
    let a := altBucket b (fpOf e.hA e.hB)
    if e.ph ≠ .find ∨ e.fs ≠ .alt then s
    else if !s.rtsHas (findCls e.inBudget) (wayAddr (4 * a)) then s.rtsHeldBack (wayAddr (4 * a))
    else
      let was := s
      let c := s.bucketStack b
      let s := (s.toOwner c a).bucketScan (findCls e.inBudget) a
      match s.matchWay a e.key e.prof true with
      | some i => if e.heldWay.isSome then s.setFind ek (.prim (some i)) else s.findHit ek i
      | none =>
        if !e.inBudget then s.setFind ek (.none 0)
        else if e.heldWay.isSome then s.setFind ek (.prim none)
        else
          match s.freeWay a with
          | some i => if was.revWaits e then was else s.findCreate ek c i true
          | none => s.setFind ek (.none 1)

def execDirAltStep (g : Fin 16) (e : Fin 512) (s : State) : Out := onPend g e s State.findAlt

/-- R257: the further step on the primary bucket: the held way is released or takes the flow, or an OVF increases. -/
def State.findPrim (s : State) (ek : Nat) : State :=
  match s.gv.pends.find? ek with
  | none => s
  | some e =>
    let b := e.hB % 2 ^ 24
    match e.ph, e.fs with
    | .find, .prim (some i) => s.findHit ek i
    | .find, .ovf (o :: os) j =>
      (s.ovfUp clsMiss o).setFind ek (if os.isEmpty then .line j true else .ovf os j)
    | .find, .prim none =>
      match e.heldWay with
      | some i => if s.revWaits e then s else s.findCreate ek (s.bucketStack b) i false
      | none => s.setFind ek (.none 0)
    | _, _ => s

def execDirPrimaryStep (g : Fin 16) (e : Fin 512) (s : State) : Out := onPend g e s State.findPrim

/-- R168: the FIND's reply reaches the bank group. -/
def State.findReply (s : State) (ek : Nat) : State :=
  match s.gv.pends.find? ek with
  | none => s
  | some e =>
    match e.ph, e.fs with
    | .find, .line _ _ => s.putPend ek { e with ph := .install }
    | .find, .none _ => if e.pkts.isEmpty then s.freePend ek else s.putPend ek { e with ph := .release }
    | _, _ => s

def execFindReply (g : Fin 16) (e : Fin 512) (s : State) : Out := onPend g e s State.findReply

/-! ### Installation (R170, R171) -/

/-- The clock of R170 over the ways of a set from the preferred way: the victim, and the state with REF bits cleared. -/
def State.clockVictim (s : State) (hA : Nat) : Nat → Nat → Option Nat × State
  | 0, _ => (none, s)
  | n + 1, i =>
    let l := lineNo hA ((prefOf hA + i) % 4)
    let x := s.line l
    if x.wbp || x.pend then State.clockVictim s hA n (i + 1)
    else if !x.ref then (some l, s)
    else State.clockVictim (s.setLine l { x with ref := false }) hA n (i + 1)

/-- R170: the victim way of a key's set. -/
def State.victim (s : State) (hA fp : Nat) : Option Nat × State :=
  match s.wayByFp hA fp with
  | some l => if s.lineFree l then (some l, s.cnt GRV_FP_EVICT_CNT) else (none, s)
  | none =>
    match (List.range 4).find? (fun i => !(s.line (lineNo hA ((prefOf hA + i) % 4))).v) with
    | some i => (some (lineNo hA ((prefOf hA + i) % 4)), s)
    | none => s.clockVictim hA 8 0

/-- A line's hot block written back to its slot, by a requester class (R264). -/
def State.writeBack (s : State) (cls : Nat) (x : CLine) : State := ((s.rtsUse cls (slotAddr x.idx + 64) 64 true).rsWrite (slotAddr x.idx + 64) x.hot).cnt GRV_WB_CNT

/-- R170, R258: a victim's write-back waits in its group's buffer of 512 lines until the controller accepts it. -/
def State.bufferWb (s : State) (l : Nat) : State :=
  let g := l / 16384 / 32
  let q := s.gv.wbuf.get [] g
  let s := s.rtsHeldBack (slotAddr (s.line l).idx + 64)
  if q.contains l || 512 ≤ q.length then s else { s with gv.wbuf := s.gv.wbuf.set [] g (q ++ [l]) }

/-- R171: a valid victim is evicted; a dirty one has been written back first. -/
def State.evict (s : State) (l : Nat) : State :=
  let x := s.line l
  if !x.v then s
  else
    let g := l / 16384 / 32
    let s := if x.dirty then s.writeBack clsMiss x else s
    let s := { s with gv.wbuf := s.gv.wbuf.set [] g ((s.gv.wbuf.get [] g).filter (· != l)) }
    (((s.cnt GRV_EVICT_CNT).dropLine l).pmuEv 0x42 g).joinMisses

/-- The entry is freed once every parked packet is released; PEND := 0 (R168, R171). -/
def State.pendEnd (s : State) (ek : Nat) : State :=
  match s.gv.pends.find? ek with
  | none => s
  | some e =>
    if e.ph ≠ .release ∨ !e.pkts.isEmpty then s
    else
      let s := s.freePend ek
      match e.line with
      | some l => (s.setLine l { s.line l with pend := false }).lineClear (s.line l).idx
      | none => s

/-- R170, R171: the line of a found or created flow is installed, when a way is free and the controller has accepted a
dirty victim's write-back. -/
def State.install (s : State) (ek : Nat) : State :=
  match s.gv.pends.find? ek with
  | none => s
  | some e =>
    match e.ph, e.fs with
    | .install, .line idx new =>
      let fp := fpOf e.hA e.hB
      let (v, s) := s.victim e.hA fp
      match v with
      | none => s
      | some l =>
        if (s.line l).v && (s.line l).dirty && !s.rtsHas clsMiss (slotAddr (s.line l).idx + 64) then s.bufferWb l
        else
        let s := s.evict l
        let kb := splice (s.way idx) 63 [0]
        let hot := if new then e.hot else s.rsRead (slotAddr idx + 64) 64
        let x : CLine := { fp := fp, v := true, ref := true, pend := true, dirty := new, data := kb ++ hot }
        (((s.setLine l x).lineWritten l).putPend ek { e with ph := .release, line := some l }).pendEnd ek
    | _, _ => s

def execLineInstall (g : Fin 16) (e : Fin 512) (s : State) : Out := onPend g e s State.install

/-! ### Release (R172, R173, R484) -/

/-- R172, R190: the flow part of C8 on an installed line: steps 1 to 3 when the packet has a flow action. -/
def State.serveOn (s : State) (k l : Nat) (isNew : Bool) : State :=
  match s.pkt? k with
  | none => s
  | some p =>
    let x := s.line l
    let p := { p with bark := { p.bark with flowIdx := x.idx, flowNew := isNew }, flow := { p.flow with line := some l } }
    if p.dec.fa = 0 then (s.putPkt k { p with dec := { p.dec with hot := x.hot } }).unpark k
    else
      let (h, col, s) := s.steps123 p p.dec.fa (hotNat x.hot)
      let s := (s.setLine l { x with ref := true }).putHot l (hotBytes h)
      let p := { p with
        bark := { p.bark with colour := worse p.dec.pol col }
        dec := { p.dec with mtr := col, hot := hotBytes h }
        flow := { p.flow with counted := if p.ended then p.flow.counted else p.flow.counted ++ [(l, x.idx, p.bark.len)] } }
      ((s.putPkt k p).unpark k).pmuEv 0x40 (groupOf p.flow.hA)

/-- The deadline of an entry's first packet. -/
def State.headDue (s : State) (e : PendEnt) : Nat := ((e.pkts.head?.bind s.pkt?).map (fun p => p.flow.due)).getD 0

/-- The entry whose head is released next in a group: earliest deadline (R172). -/
def State.nextRelease (s : State) (g : Nat) : Option (Nat × PendEnt) :=
  ((s.gv.pends.filter (fun e => e.1 / 512 == g && e.2.ph = .release && !e.2.pkts.isEmpty)).foldl
    (fun (best : Option (Nat × Nat × PendEnt)) e =>
      let due := s.headDue e.2
      match best with
      | some (d, _) => if due < d then some (due, e) else best
      | none => some (due, e)) none).map (·.2)

/-- A packet that joined a WBP line which is clear again, and is still its own (R484). -/
def State.joinReady (s : State) (p : Pkt) : Bool :=
  decide (p.stage = .parked) && !p.flow.joinLost && p.flow.joinLine.any s.lineFree

/-- The joined packet of a group that is served next: earliest deadline. -/
def State.nextJoin (s : State) (g : Nat) : Option (Nat × Pkt) :=
  (s.pkts.filter (fun e => e.2.flow.grp == g && s.joinReady e.2)).foldl (fun (b : Option (Nat × Pkt)) e =>
    match b with
    | some x => if e.2.flow.due < x.2.flow.due then some e else b
    | none => some e) none

/-- What a group's release unit takes next: an entry's head, or a joined packet, earliest deadline first (R172, R484). -/
inductive NextOut where
  | entry (ek : Nat) (e : PendEnt)
  | join (k : Nat) (p : Pkt)
  | idle
  deriving DecidableEq, Repr

/-- The release unit's choice. -/
def State.nextOut (s : State) (g : Nat) : NextOut :=
  match s.nextRelease g, s.nextJoin g with
  | some (ek, e), some (k, p) => if p.flow.due < s.headDue e then .join k p else .entry ek e
  | some (ek, e), none => .entry ek e
  | none, some (k, p) => .join k p
  | none, none => .idle

/-- R172: the release unit serves the head of an entry; a line read meets its codes first, and one that is lost returns
the entry to FIND (R345, R346). -/
def State.releaseHead (s : State) (ek : Nat) (e : PendEnt) : State :=
  match e.pkts with
  | [] => s
  | k :: ks =>
    match e.line, e.fs with
    | some l, _ =>
      let s := (s.lineRead l).2
      if (s.gv.pends.find? ek).any (fun x => x.line == some l) then
        ((s.putPend ek { e with pkts := ks }).serveOn k l (e.isNew && e.crPkt == k)).pendEnd ek
      else s
    | none, .none c => (((s.putPend ek { e with pkts := ks }).unpark k).unstated k c).pendEnd ek
    | none, _ => ((s.putPend ek { e with pkts := ks }).unpark k).pendEnd ek

/-- R484: a joined packet is served from its line, whose read meets its codes first. -/
def State.releaseJoin (s : State) (k l : Nat) : State :=
  let s := (s.lineRead l).2
  if (s.pkt? k).any s.joinReady then s.serveOn k l false else s

/-- R172: the release unit of a group releases one packet. -/
def State.parkRelease (s : State) (g : Nat) : State :=
  match s.nextOut g with
  | .entry ek e => s.releaseHead ek e
  | .join k p => s.releaseJoin k (p.flow.joinLine.getD 0)
  | .idle => s

def execParkRelease (g : Fin 16) (s : State) : Out := onIsl (islGroup g.val) s (·.parkRelease g.val)

/-- R173: a packet still parked at its deadline is released with the unstated action; its entry stays. -/
def State.parkTimeout (s : State) (k : Nat) : State :=
  match s.pkt? k with
  | none => s
  | some p =>
    if p.stage ≠ .parked then s
    else
      let s := s.waitMono p.flow.due
      let s := match p.flow.entry with
        | some ek =>
          match s.gv.pends.find? ek with
          | some e => (s.putPend ek { e with pkts := e.pkts.filter (· != k) }).pendEnd ek
          | none => s
        | none => s
      (s.unpark k).unstated k 5

def execParkTimeout (b : Fin 32) (t : BitVec 13) (s : State) : Out :=
  onIsl (islBough b.val) s (·.parkTimeout (pkey b.val t.toNat))

/-- R484, R172: a packet that joined a WBP line is served once WBP has cleared, in its turn at the release unit. -/
def State.joinServe (s : State) (k : Nat) : State :=
  match s.pkt? k with
  | none => s
  | some p =>
    match s.nextOut p.flow.grp with
    | .join k' p' => if k' = k then s.releaseJoin k (p'.flow.joinLine.getD 0) else s
    | _ => s

def execJoinServe (b : Fin 32) (t : BitVec 13) (s : State) : Out :=
  onIsl (islBough b.val) s (·.joinServe (pkey b.val t.toNat))

/-! ### Write-back of a served hit, and frame-end corrections (R164, R166, R192) -/

/-- R164: the oldest write-back of a bough reaches its bank: hot block or release; WBP clears after the bough's last for
the line. One to a line that was invalidated is discarded (R346). -/
def State.hotWriteback (s : State) (b : Nat) : State :=
  match s.gv.wbq.get [] b with
  | [] => s
  | (l, h) :: r =>
    let s := { s with gv.wbq := s.gv.wbq.set [] b r }
    let x := s.line l
    if !(x.v && x.wbp && x.own == b) then s
    else
      let s := match h with | some h => s.putHot l h | none => s
      ((s.setLine l { s.line l with wbp := r.any (fun e => e.1 == l) }).lineClear x.idx).pmuEv 0x40 (l / 16384 / 32)

def execHotBlockWriteback (b : Fin 32) (s : State) : Out := onIsl (islBough b.val) s (·.hotWriteback b.val)

/-- R192: a frame-end correction applied to the flow's line. -/
def State.applyCorr (s : State) (c : Corr) : State :=
  let x := s.line c.line
  let h := hotNat x.hot
  let h := fset h HB_BYTES (fget h HB_BYTES + c.delta)
  let h := if c.bad then fset h HB_BAD_PKTS (min 0xFFFF (fget h HB_BAD_PKTS + 1)) else h
  (s.putHot c.line (hotBytes h)).cnt FA_CORR_CNT

/-- Whether a correction's flow has left its line. -/
def State.corrGone (s : State) (c : Corr) : Bool := let x := s.line c.line; !(x.v && x.idx == c.flow)

/-- R192, R166: a bough's oldest correction that need not wait is applied, or discarded and counted when the flow is no
longer resident in that line; one whose line has WBP or PEND set waits. -/
def State.frameCorrection (s : State) (b : Nat) : State :=
  match s.gv.corrs.find? (fun c => c.bough == b && (s.corrGone c || s.lineFree c.line)) with
  | none => s
  | some c =>
    let s := { s with gv.corrs := s.gv.corrs.erase c }
    if s.corrGone c then s.cnt FA_CORR_LOST_CNT else s.applyCorr c

def execFrameEndCorrection (b : Fin 32) (s : State) : Out := onIsl (islBough b.val) s (·.frameCorrection b.val)

/-! ### The flow sweep (R181 to R183) -/

/-- The timeout of a flow in seconds and whether it is CLOSED_IDLE's; 0 never expires. -/
def State.ageOf (s : State) (r : List Byte) : Nat × Bool :=
  let h := hotNat (slice0 r 64 64)
  let k := fget (kbMeta r) KM_PROF
  let ci := s.rd (GRV_AGE_CFG_CLOSED_IDLE k)
  if fon h HB_NO_AGE then (0, false)
  else if fget h HB_STATE = 4 ∧ ci ≠ 0 then (ci, true) else (s.rd (GRV_AGE_CFG_IDLE k), false)

/-- Whether a record is idle at a device time (R181). -/
def State.flowIdle (s : State) (r : List Byte) (now : Nat) : Bool :=
  let a := s.ageOf r
  a.1 != 0 && decide (a.1 * 1000000000 ≤ (now + 2 ^ 48 - fget (hotNat (slice0 r 64 64)) HB_LAST_SEEN) % 2 ^ 48)

/-- A way that holds a flow and is not quarantined. -/
def State.isLive (s : State) (idx : Nat) : Bool := s.wayUsed idx && !s.gv.quarantine.contains idx

/-- R181, R182, R209: one flow is tested, and expired with its partner where they go together. -/
def State.sweepFlow (s : State) (c idx : Nat) : State :=
  if !s.isLive idx then s
  else if (s.lineOf idx).isNone && s.rsPoisoned (slotAddr idx + 64) 64 then s.flowPoisonWait idx
  else
    let r := s.record idx
    let now := s.now (islRts c) % 2 ^ 48
    let cl := (s.ageOf r).2
    let w : DelWhy := { event := 0x0402, cause := if cl then 2 else 1, reason := if cl then 3 else 1, cls := clsMaint }
    let pw : DelWhy := { w with cause := 3 }
    if !s.flowIdle r now || !s.flowFree idx then s
    else
      match s.pairOf idx with
      | none => s.dropFlow idx w
      | some q =>
        if s.pairBound idx || s.on (GRV_AGE_CFG_PAIR_JOINT (fget (kbMeta r) KM_PROF)) then
          if s.flowIdle (s.record q) now && s.flowFree q then (s.dropFlow idx w).dropFlow q pw else s
        else if s.flowFree q then (s.setPair clsMaint q none).dropFlow idx w else s

/-- The first bucket from `b` on that an engine owns; the spread of R255 leaves one in every 16. -/
def State.ownedFrom (s : State) (c : Nat) : Nat → Nat → Nat
  | 0, b => b % 2 ^ 24
  | n + 1, b => if s.bucketStack (b % 2 ^ 24) = c then b % 2 ^ 24 else State.ownedFrom s c n (b + 1)

/-- The hot block of a valid flow as the sweep reads it (R181, R183): its line, or 64 bytes of its slot; both meet their
codes. -/
def State.sweepRead (s : State) (c idx : Nat) : State :=
  if !s.isLive idx then s
  else
    match s.lineOf idx with
    | some l => (s.lineRead l).2
    | none => (s.rtsUseFrom c clsMaint (slotAddr idx + 64) 64 false).rsScan (slotAddr idx + 64) 64

/-- R181: an engine's next bucket is visited, at the even pace of PERIOD; PERIOD = 0 stops the sweep. -/
def State.sweepStep (s : State) (c : Nat) : State :=
  let per := s.rd GRV_PRUNE_CFG_PERIOD
  if per = 0 || !s.on GRV_STS_READY then s
  else
    let s := s.waitMono (s.gv.sweepTm.get 0 c)
    let b := s.ownedFrom c 16 (s.gv.sweepAt.get 0 c)
    if !s.rtsHas clsMaint (wayAddr (4 * b)) then s.rtsHeldBack (wayAddr (4 * b))
    else
    let s := { s with gv.sweepAt := s.gv.sweepAt.set 0 c ((b + 1) % 2 ^ 24)
                      gv.sweepTm := s.gv.sweepTm.set 0 c (s.time.mono + per * 8000000000 / 2 ^ 23) }
    ((List.range 4).foldl (fun s w => (s.sweepRead c (4 * b + w)).sweepFlow c (4 * b + w)) (s.bucketScan clsMaint b)).joinMisses

def execFlowSweepStep (c : Fin 2) (s : State) : Out := onIsl (islRts c.val) s (·.sweepStep c.val)

/-! ### Enabling and flushing (R184 to R186) -/

/-- Both stacks are READY. -/
def State.rtsReady (s : State) : Bool := s.rd RTS_STS_READY == 3

/-- The Grove's initialisation starts: the directory is zeroed unless it is kept (R184, R185); READY within 25 ms, or
100 µs when kept. A zeroed word is a word written whole: it loses its errors and its poison. -/
def State.groveStart (s : State) : State :=
  let keep := s.gv.keep && s.on GRV_STS_KEEP_OK
  let s := if s.gv.keep && !keep then s.wr GRV_STS_KEEP_REJ_STK 1 else s
  let s := { s with gv.heldEn := false, gv.initEnd := some (s.time.mono + if keep then 800000 else 200000000) }
  if keep then s
  else
    let kept (k : Nat) : Bool := k / 2 ^ 40 != 1 && k / 2 ^ 40 != 2 || decide (k % 2 ^ 40 < 0x80000000) || decide (0xA0000000 ≤ k % 2 ^ 40)
    { s with rs := s.rs.filter (fun e => e.1 < 0x400000000 || 0x500000000 ≤ e.1), gv.quarantine := []
             ecc.diff := s.ecc.diff.filter (fun e => kept e.1)
             ecc.poison := s.ecc.poison.filter kept }.wr GRV_DIR_STS_FLOWS 0

/-- R184: an accepted write of EN = 1 clears the line states, latches the seeds and fills the token buckets. -/
def State.groveEnable (s : State) (keep : Bool) : State :=
  let s := { s with gv.lines := [], gv.wbuf := [], gv.delWait := [], gv.seedA := s.reg GRV_HASH_SEED_A, gv.seedB := s.reg GRV_HASH_SEED_B, gv.keep := keep
                    gv.tokUsed := [], gv.tokAt := [(0, s.time.mono / 8), (1, s.time.mono / 8)] }
  let s := (s.wr GRV_CFG_EN 1).wr GRV_STS_INIT_BUSY 1
  if s.rtsReady then s.groveStart else { s with gv.heldEn := true }

/-- R186: the lines dirty now are to be written back. -/
def State.groveFlush (s : State) : State :=
  let dirty := (s.gv.lines.filter (fun e => e.2.v && e.2.dirty)).map (·.1)
  { s with gv.flushLeft := s.gv.flushLeft ++ dirty.filter (fun l => !s.gv.flushLeft.contains l) }.wr GRV_STS_FLUSH_BUSY 1

/-- R184 to R186: a write of GRV_CFG. -/
def State.grvCfgWrite (s : State) (v : Nat) : State :=
  let s := if bit v 2 then s.groveFlush else s
  let was := s.on GRV_CFG_EN
  let s := s.wr GRV_CFG_KEEP (getBits v 1 1)
  if bit v 0 then (if was then s else s.groveEnable (bit v 1))
  else if was then s.wr GRV_STS_CFG_REJ_STK 1 else s

def execGroveEnable (keep flush : Bool) (s : State) : Out :=
  onBar0 GRV_CFG s (·.grvCfgWrite (1 + 2 * b2n keep + 4 * b2n flush))

def execGroveFlush (v : Word) (s : State) : Out := onBar0 GRV_CFG s (·.grvCfgWrite (v.toNat ||| 4))

/-- R184: the initialisation ends. -/
def State.groveReady (s : State) : State :=
  match s.gv.initEnd with
  | none => s
  | some e =>
    let s := s.waitMono e
    let s := { s with gv.initEnd := none, gv.everReady := true }
    ((s.wr GRV_STS_READY 1).wr GRV_STS_INIT_BUSY 0).raise GRV_INT_READY

def execGroveReady (s : State) : Out := onIsl islMgmt s (·.groveReady)

/-- One line of a flush written back; DIRTY := 0 (R186). -/
def State.flushLine (s : State) (l : Nat) : State :=
  let x := s.line l
  if x.v && x.dirty then (s.writeBack clsMaint x).setLine l { x with dirty := false } else s

/-- R186: every line that was dirty at the write has been written, once the controllers accept the writes (R268). -/
def State.flushDone (s : State) : State :=
  if !s.on GRV_STS_FLUSH_BUSY then s
  else
    match s.gv.flushLeft.find? (fun l => (s.line l).v && (s.line l).dirty && !s.rtsHas clsMaint (slotAddr (s.line l).idx + 64)) with
    | some l => s.rtsHeldBack (slotAddr (s.line l).idx + 64)
    | none =>
    let s := s.gv.flushLeft.foldl State.flushLine s
    ({ s with gv.flushLeft := [] }.wr GRV_STS_FLUSH_BUSY 0).raise GRV_INT_FLUSH_DONE

def execFlushDone (s : State) : Out := onIsl islMgmt s (·.flushDone)

/-! ### Once-a-second events (R161, R173) -/

/-- The refusals of a stack in the second that ended. -/
def State.dirFullSecond (s : State) (c : Nat) : State :=
  let e := s.gv.dirFull.get (0, 0) c
  if e.2 = 0 then s
  else
    let s := s.waitIsl (islRts c) (e.1 + 1000000000)
    ({ s with gv.dirFull := s.gv.dirFull.erase c } : State).dirFullEvent c e.1 e.2

def execGrvDirFull (c : Fin 2) (s : State) : Out := onIsl (islRts c.val) s (·.dirFullSecond c.val)

/-- The timeouts of a bank group in the second that ended. -/
def State.parkTmoSecond (s : State) (g : Nat) : State :=
  let e := s.gv.parkTmo.get (0, 0) g
  if e.2 = 0 then s
  else
    let s := s.waitIsl (islGroup g) (e.1 + 1000000000)
    ({ s with gv.parkTmo := s.gv.parkTmo.erase g } : State).parkTmoEvent g e.1 e.2

def execGrvParkTmo (g : Fin 16) (s : State) : Out := onIsl (islGroup g.val) s (·.parkTmoSecond g.val)

end Sys2Proof.Machine
end

