-- ==== Sys2Proof/Machine/Samples.lean ====
section
/-!
DEFINITION. The bark as the host sees it (R23), sampling sequences (R406), and packet samples (R405, R407, R419).
-/
namespace Sys2Proof.Machine

/-- The 48 bytes of a bark (R23). -/
def barkBytes (b : Bark) : List Byte :=
  natLe 8 b.arrTs ++ natLe 4 b.seq ++ natLe 4 b.deadline ++ natLe 2 b.gen ++ natLe 2 b.action ++ natLe 1 b.ingPort
    ++ natLe 1 (b.bough % 32 + 32 * b2n b.pass + 64 * b2n b.copy + 128 * b2n b.twig)
    ++ natLe 4 (b.flowIdx % 2 ^ 26 + 2 ^ 26 * b2n b.flowHit + 2 ^ 27 * b2n b.flowNew + 2 ^ 28 * b2n b.parked
      + 2 ^ 29 * b2n b.ct + 2 ^ 30 * (b.colour % 4))
    ++ natLe 2 (b.egr % 4096 + 4096 * (b.cls % 16))
    ++ natLe 2 (b.len % 2 ^ 14 + 2 ^ 14 * b2n b.mcast + 2 ^ 15 * b2n b.bad)
    ++ natLe 1 (b.exc % 64 + 64 * b2n b.vipHit + 128 * b2n b.inj)
    ++ natLe 1 (b.mirror % 16 + 16 * (b.keyProf % 16)) ++ natLe 2 (b.tag % 2 ^ 13)
    ++ natLe 2 (b.buf % 2 ^ 13 + 2 ^ 13 * (b.pool % 4)) ++ natLe 2 b.vipIdx
    ++ natLe 2 (b.brgIdx % 2 ^ 15 + 2 ^ 15 * b2n b.brgHit) ++ natLe 4 b.hash ++ natLe 4 b.predDep

/-- R406: one step of a sampling sequence. -/
def seqStep (x : Nat) : Nat := (x / 2) ^^^ (if x % 2 = 1 then 0x80200003 else 0)

/-- A sequence's starting value; 0 acts as 1 (R406). -/
def seqStart (seed n : Nat) : Nat := let v := (seed + n) % 2 ^ 32; if v = 0 then 1 else v

/-- The PSAMP record of a sample (R419). -/
def State.psampRec (s : State) (x : PktSample) : ExpRec :=
  let b := x.bark
  let n := x.bytes.length
  let lenField := if n < 255 then natBe 1 n else natBe 1 255 ++ natBe 2 n
  { tmpl := max 256 (s.rd OBS_PSMP_TMPL_TID)
    bytes := natBe 4 (b.ingPort + 1) ++ natBe 8 (s.ntp b.arrTs) ++ natBe 4 (b.ingPort + 1)
    ++ natBe 4 (if b.mcast then 0 else b.egr + 1) ++ natBe 1 (if x.dropped then 128 else 64) ++ natBe 2 b.len
      ++ lenField ++ x.bytes }

/-- R405, R407: a first-pass line frame at C8 advances its port's sequence and may be sampled. -/
def State.packetSample (s : State) (p : Pkt) : State :=
  let port := p.bark.ingPort
  let n := s.rd (OBS_PSMP_CFG_N port)
  if n = 0 || p.host || p.bark.pass || (s.on (OBS_PSMP_CFG_GATE port) && !s.sampOpen (islBough p.bark.bough)) then s
  else
    let v := seqStep (s.obs.psmpSeq.get 0 port)
    let s := { s with obs.psmpSeq := s.obs.psmpSeq.set 0 port v }
    if 2 ^ 32 / n ≤ v then s
    else
      let snap := max 1 (min 4 (s.rd (OBS_PSMP_CFG_SNAP port)))
      let x : PktSample := ⟨p.bark, p.dec.drop.isSome || p.dec.eg = .none, p.ps.win.take (min p.bark.len (snap * 64))⟩
      let bough := p.bark.bough
      let q := s.obs.psmpQ.get [] bough
      if 64 ≤ q.length then s.cnt OBS_PSMP_LOST_CNT
      else
        let s := s.cnt OBS_PSMP_CNT
        let s := if s.on (OBS_PSMP_CFG_EXPORT port) then s.expPut (s.psampRec x) else s
        if s.on (OBS_PSMP_CFG_EVENT port) then { s with obs.psmpQ := s.obs.psmpQ.set [] bough (q ++ [x]) } else s

end Sys2Proof.Machine
end

