-- ==== Sys2Proof/Machine/Decide.lean ====
section
/-!
DEFINITION. The decision pipeline of a bough (chapters 01 and 04): C1 to C8, the resolution of R112, ordered slots
(R235), the creation of Twig work items (R216, R241) and the fallback (R243), recirculation (R128 to R130), and a
parked packet's return (R190).
-/
namespace Sys2Proof.Machine

/-! ### Resolution (R91, R111 to R114, R177) -/

/-- The mirror session of a number, as the bough holds it now: DST, CLASS, TRUNC; none when it yields no copy (R114). -/
def State.mirOf (s : State) (n : Nat) : Option (Nat × Nat × Nat) :=
  if n = 0 || !s.on (GRF_MIR_CFG_EN n) || !s.isPort (s.rd (GRF_MIR_CFG_DST n)) then none
  else some (s.rd (GRF_MIR_CFG_DST n), s.rd (GRF_MIR_CFG_CLASS n), s.rd (GRF_MIR_CFG_TRUNC n))

/-- The set whose L3 header DSCP_V and TTL_DEC act on (R113). -/
def State.editSet (s : State) (p : Pkt) : HdrSet := if s.ruleOuter (p.bark.gen % 2) then p.ps.outer else p.ps.inner

/-- R113: the TTL drop of a record; none under an exception action BRIDGE or BRIDGE_COPY. -/
def State.ttlDrop (s : State) (p : Pkt) : Bool :=
  let st := s.editSet p
  fon p.dec.act AR_TTL_DEC && !actBridges p.ps.act && st.l3.isSome && decide (setTtl p.ps.win st ≤ 1)

/-- OP DROP, and the values that act as it (R111). -/
def opDrops (op : Nat) : Bool := decide (op = 3) || decide (5 ≤ op)

/-- The egress and hard drop of a packet: R91, then OP, the unstated action, the bridging result. A hard drop ends the
packet whatever Twig or recirculation its record asks for; OP DROP does not. -/
def resolved (p : Pkt) : Egress × Option Nat :=
  let xa := p.ps.act
  let op := fget p.dec.act AR_OP
  if p.dec.drop.isSome then (.none, p.dec.drop)
  else if xa = 2 ∨ xa = 3 ∨ 5 ≤ xa then (.none, some 1)
  else if opDrops op then (.none, none)
  else if p.flow.unst = some 1 ∨ p.flow.unst = some 3 then (.none, some 4)
  else if actBridges xa then (p.dec.brg, none)
  else (opEgress p.dec.act p.dec.brg (if p.flow.unst.isSome then none else p.dec.flowEg), none)

/-- R112, R113: the packet's egress, bark EGR and MCAST, mirror session, and the TTL drop: whatever the egress, unless the
packet is dropped already (DEDUCED, assumption 52). -/
def State.resolveEg (s : State) (p : Pkt) : Pkt × State :=
  let (eg, drop) := resolved p
  let ttl := drop.isNone && s.ttlDrop p
  let s := if ttl then s.cnt (BGH_TTL_DROP_CNT p.bark.bough) else s
  let eg := if ttl then .none else eg
  ({ p with bark := egrBark eg p.bark
            dec := { p.dec with eg := eg, drop := if ttl then some 2 else drop, mir := nth p.dec.mirs p.bark.mirror none } }, s)

/-- A record put in force by a verdict, a Twig commit or a fallback (R197, R230). -/
def State.withRecord (s : State) (p : Pkt) (a : Nat) : Pkt :=
  let r := s.actRec p.bark.gen a
  { p with bark := { p.bark with action := a, cls := fget r AR_CLASS, mirror := fget r AR_MIRROR, copy := fon r AR_COPY }
           dec := { p.dec with act := r, actInfo := 5 } }

/-- DEADLINE rewritten when CLASS changed (R24). -/
def State.reDeadline (s : State) (old : Nat) (p : Pkt) : Pkt :=
  if p.bark.cls = old then p else { p with bark := { p.bark with deadline := s.deadline p.bark.arrTs p.bark.cls } }

/-! ### The end of the decision: copies to the host, drops, admission (R112, R374) -/

/-- The copies to the host that the record and the exception ask for (R91, R112). -/
def State.askCopies (s : State) (k : Nat) (p : Pkt) : State :=
  let s := if fon p.dec.act AR_COPY then s.askHost k (fget p.dec.act AR_HOST_CH) p.dec.actInfo else s
  if p.ps.act = 3 ∨ p.ps.act = 4 then s.askHost k p.ps.excCh 2 else s

/-- A drop's counter of R392; a drop by a Twig routine has none. -/
def State.dropCount (s : State) (p : Pkt) : State :=
  match p.dec.drop with
  | some c => if c < 7 then s.rxDrop p.bark.ingPort c else s
  | none => if p.dec.eg = .none then s.rxDrop p.bark.ingPort 2 else s

/-- R112: the packet goes to admission; a packet dropped yields its copies to the host and its mirror copy, and is
released at once when it has none. -/
def State.goAdmit (s : State) (k : Nat) : State :=
  match s.pkt? k with
  | none => s
  | some p =>
    let s := (s.dropCount p).askCopies k p
    let dropped := p.dec.eg = .none
    let s := if dropped then s.pmuEv 0x0D (k / 8192) else s
    match s.pkt? k with
    | none => s
    | some p =>
      if dropped && p.dec.mir.isNone && p.hostCopies.isEmpty then (s.putPkt k { p with stage := .sent }).settle k
      else s.toAdmission k

/-- BGH_RECIRC_STS of a bough. -/
def State.recircShow (s : State) (b : Nat) : State :=
  let n := (s.recircQ.get [] b).length
  (s.wr (BGH_RECIRC_STS_IN_USE b) n).wr (BGH_RECIRC_STS_HWM b) (max n (s.rd (BGH_RECIRC_STS_HWM b)))

/-- R128: the packet enters its bough's recirculation queue, or is dropped when it is full. -/
def State.recircEnter (s : State) (k : Nat) : State :=
  let b := k / 8192
  let q := s.recircQ.get [] b
  if 1024 ≤ q.length then
    ((s.cnt (BGH_RECIRC_FULL_CNT b)).modPkt k ({ · with stage := .sent })).settle k
  else
    let s := { s with recircQ := s.recircQ.set [] b (q ++ [k]) }
    let s := s.injMem k 4 8 b (islBough b)
    ((s.cnt (BGH_RECIRC_CNT b)).modPkt k ({ · with stage := .recirc })).recircShow b

/-- What follows step 4 of R112: a second pass, or admission. A packet that takes a second pass makes no copy to the host
and no mirror copy from its first (DESIGN CHOICE, assumption 91). -/
def State.afterTwig (s : State) (k : Nat) : State :=
  match s.pkt? k with
  | none => s
  | some p =>
    if p.dec.drop.isSome then s.goAdmit k
    else if p.dec.recirc && !p.bark.pass then s.recircEnter k else s.goAdmit k

/-! ### Work items: creation, refusal and fallback (R216, R217, R230, R236, R241, R243) -/

/-- A byte of committed bark bytes over what stood there. -/
def byteOver (bs : List (Nat × Byte)) (off old : Nat) : Nat :=
  match bs.find? (fun x => x.1 == off) with | some x => x.2.toNat | none => old % 256

/-- R230: the packet resolved again under its committed bark bytes. -/
def State.twigResolve (s : State) (p : Pkt) (bs : List (Nat × Byte)) : Pkt × State :=
  let old := p.bark
  let a := byteOver bs 18 old.action + 256 * byteOver bs 19 (old.action / 256)
  let p := if a = old.action then p else s.withRecord p a
  let (p, s) := s.resolveEg p
  let b := p.bark
  let w := b.egr % 4096 + 4096 * b.cls
  let w' := byteOver bs 26 w + 256 * byteOver bs 27 (w / 256)
  let mc := match bs.find? (fun x => x.1 == 29) with | some x => bit x.2.toNat 6 | none => b.mcast
  let egr := w' % 4096
  let wrote := bs.any (fun x => x.1 == 26 || x.1 == 27 || x.1 == 29)
  let eg : Egress :=
    if p.dec.drop.isSome || opDrops (fget p.dec.act AR_OP) then .none
    else if !wrote || (egr == b.egr % 4096 && mc == b.mcast && p.dec.eg != .none) then p.dec.eg
    else if mc then .group egr else .port egr
  (s.reDeadline old.cls { p with bark := { b with egr := egr, mcast := mc, cls := w' / 4096 }, dec := { p.dec with eg := eg } }, s)

/-- R243: the fallback of a routine: a made BARK commit stands; else FB_ACT, or a drop. -/
def State.twigFallback (s : State) (k : Nat) (rt epoch : Nat) (bs : List (Nat × Byte)) : State :=
  match s.pkt? k with
  | none => s
  | some p =>
    let s := s.cnt TWG_FALLBACK_CNT
    let e := s.ent 0x51 (epoch % 2) rt
    if !bs.isEmpty then
      let (p, s) := s.twigResolve p bs
      (s.putPkt k p).afterTwig k
    else if fon e RT_FB_V then
      let (q, s) := s.resolveEg (s.withRecord p (fget e RT_FB_ACT))
      (s.putPkt k (s.reDeadline p.bark.cls q)).afterTwig k
    else (s.putPkt k { p with dec := { p.dec with drop := some 7, eg := .none } }).afterTwig k

/-- The frame of a work item (R217), its cold region 0. -/
def State.itemFrame (s : State) (p : Pkt) (rt : Nat) : List Byte :=
  let vip := if p.bark.vipHit then p.dec.vip else 0
  barkBytes p.bark ++ (if p.bark.flowIdx = 0 then List.replicate 64 0 else slice0 p.dec.hot 0 64) ++ List.replicate 128 0
    ++ natLe 2 (fget vip VP_LB_GRP) ++ natLe 2 (fget vip VP_NAT_POOL + 32768 * fget vip VP_NAT_V)
    ++ natLe 1 p.dec.causes ++ natLe 1 ((keyTcp p.ps).getD 0) ++ natLe 2 rt ++ natLe 8 (s.now (islBough p.bark.bough))
    ++ slice0 p.bytes 0 256

/-- A refusal under R241: the packet is handled under R243. -/
def State.twigRefuse (s : State) (k rt : Nat) (counter : Nat) : State :=
  ((s.cnt counter).raise TWG_INT_WIN_FULL).twigFallback k rt (s.rd TWG_EPOCH_CUR) []

/-- R216, R236: the bough creates the packet's work item, when a window slot can be had. -/
def State.twigCreate (s : State) (k rt : Nat) : State :=
  match s.pkt? k with
  | none => s
  | some p =>
    let c := p.flow.hA / 2 ^ 28 % 16
    if p.slot.isNone && decide (2048 ≤ s.rd (TWG_CLU_STS_WIN_USE c)) then s.twigRefuse k rt TWG_WIN_FULL_CNT
    else
      let e := s.ent 0x51 (s.rd TWG_EPOCH_CUR % 2) rt
      let it : Item := { pkt := k, cluster := c, aff := if p.bark.flowIdx = 0 then p.bark.hash else p.bark.flowIdx
                         flow := p.bark.flowIdx, rt := rt, createdAt := s.time.mono, img := s.itemFrame p rt
                         cold := if fon e RT_COLD && p.bark.flowIdx != 0 then .wanted else .unneeded
                         ownSlot := p.slot.isNone }
      let s := if p.slot.isSome then s else s.winAdd c
      let s := s.injMem k 6 64 c (islCluster c)
      let s := { s with twig.items := s.twig.items.insert s.twig.nextItem it, twig.nextItem := s.twig.nextItem + 1 }
      ((s.cnt TWG_ITEM_CNT).modPkt k ({ · with stage := .twig })).pmuEv 0x05 (k / 8192)

/-- What follows a packet's action stage (R112, R216): resolution, then its work item, its second pass or admission. -/
def State.afterAction (s : State) (k : Nat) : State :=
  match s.pkt? k with
  | none => s
  | some p =>
    let (p, s) := s.resolveEg p
    let s := s.putPkt k p
    if p.dec.drop.isSome then s.goAdmit k
    else
      match p.dec.rt with
      | some rt => if actBridges p.ps.act then s.afterTwig k else s.twigCreate k rt
      | none => s.afterTwig k

/-! ### Ordered slots (R235, R241) -/

/-- Whether a set has any hand-over bit. -/
def State.anyHo (s : State) (fa : Nat) : Bool := s.reg (GRV_FA_HO fa) / 4096 % 64 != 0

/-- A bit of a 256-port register array. -/
def State.portBit (s : State) (a : Nat → Nat) (p : Nat) : Bool := bit (s.reg (a (p / 32))) (p % 32)

/-- R235, R241: a first-pass packet of an ordered port takes a slot at C8, when the window has room. -/
def State.ordReserve (s : State) (k : Nat) (p : Pkt) (rec_ : Nat) : State :=
  let port := p.bark.ingPort
  let fa := p.dec.fa
  let wants := s.portBit TWG_ORD_EN port && !p.bark.pass
    && (s.portBit TWG_ORD_ALL port || fon rec_ AR_TWIG_V || (fa != 0 && s.anyHo fa))
  if !wants then s
  else
    let w := p.bark.bough % 16
    if 2048 ≤ s.rd (TWG_CLU_STS_WIN_USE w) then (s.cnt TWG_ORD_FULL_CNT).raise TWG_INT_WIN_FULL
    else
      let id := s.twig.nextSlot
      let s := { s with twig.slots := s.twig.slots ++ [({ id := id, pkt := k, win := w, port := port } : OrdSlot)], twig.nextSlot := id + 1 }
      (s.winAdd w).modPkt k ({ · with slot := some id })

/-! ### C1 to C8 -/

/-- The flow lookup of a packet (R163): not made, Grove not ready, hit, join, miss. -/
inductive C4 where
  | noAccess
  | off
  | hit (l : Nat)
  | join (l : Nat)
  | miss

/-- C3 and C4: REF is set on every hit. A packet whose line met a page correction parks as on a join (R345). -/
def State.c4 (s : State) (p : Pkt) : C4 × State :=
  if !p.ps.flowEn then (.noAccess, s)
  else if !s.on GRV_STS_READY then (.off, s)
  else
    let s := s.pmuEv 0x40 (groupOf p.flow.hA)
    let bad := match s.wayByFp p.flow.hA (fpOf p.flow.hA p.flow.hB) with | some l => s.lineRead l | none => (false, s)
    let s := bad.2
    match s.lineHit p.flow.hA (fpOf p.flow.hA p.flow.hB) p.ps.key p.ps.prof with
    | none => (.miss, s)
    | some l =>
      let x := { s.line l with ref := true }
      let s := s.setLine l x
      if bad.1 || x.pend || (x.wbp && x.own != p.bark.bough) then (.join l, s) else (.hit l, s)

/-- The bark and the decision at C8, before any flow action (R24, R112): rule, VIP and bridging results, policer. -/
def State.merge (s : State) (k : Nat) (p : Pkt) : Pkt × State :=
  let b := k / 8192
  let port := p.bark.ingPort
  let pass := p.bark.pass
  let gen := p.bark.gen
  let a := s.ruleLookup (b / 4) (gen % 2) p.ps.rkey
  let s := s.meetEnt b 0x21 (gen % 2) a
  let r := s.actRec gen a
  let loop := pass && fon r AR_RECIRC
  let s := if loop then s.cnt (BGH_RECIRC_LOOP_CNT b) else s
  let s := s.meetFound b 0x32 (·.vipFind p.ps port p.ps.osel)
  let vip := s.vipFind p.ps port p.ps.osel
  let s := if vip.isSome then s.cnt VIP_HIT_CNT else s
  let vid := s.brgVid p.ps port
  let dst := slice0 p.bytes 0 6
  let src := slice0 p.bytes 6 6
  let line := !p.host && !pass
  let s := s.meetEnt b 0x31 0 vid
  let s := (s.meetFound b 0x30 (·.brgFind vid (beNat src))).meetFound b 0x30 (·.brgFind vid (beNat dst))
  let (br, s) := s.brgResult vid port dst src line
  let s := if line && !br.fail && !p.bark.bad then s.learnAsk vid port p.bark.arrTs p.bark.seq src p.ended else s
  let s := s.brgSource vid port src
  let (pol, polDrop, s) := s.police r b p.bark.arrTs p.bark.len
  let cls := fget r AR_CLASS
  let bark := { p.bark with
    action := a, cls := cls, mirror := fget r AR_MIRROR, copy := fon r AR_COPY
    twig := fon r AR_TWIG_V && !actBridges p.ps.act, colour := pol
    flowIdx := 0, flowHit := false, flowNew := false, vipHit := vip.isSome, vipIdx := (vip.map (·.1)).getD 0
    brgHit := br.hit.isSome, brgIdx := br.hit.getD 0
    deadline := if pass && cls == p.bark.cls then p.bark.deadline else s.deadline p.bark.arrTs cls }
  let dec : DecRes :=
    { act := r, fa := if polDrop then 0 else fget r AR_FA_SEL, recirc := fon r AR_RECIRC && !pass, brg := br.eg
      pol := pol, drop := if polDrop then some 3 else none, vip := (vip.map (·.2)).getD 0
      rt := if fon r AR_TWIG_V then some (fget r AR_TWIG_RT) else none, xl := p.dec.xl
      mirs := (List.range 16).map s.mirOf }
  ({ p with bark := bark, dec := dec, flow := { p.flow with unst := none, line := none } }, s)

/-- C8 of a served hit (R164, R190): the action stage, or a release, and the write-back on its way to the bank. -/
def State.c8Hit (s : State) (k l : Nat) (p : Pkt) : State :=
  let b := k / 8192
  let x := s.line l
  let s := (s.setLine l { x with wbp := true, own := b }).cnt GRV_HIT_CNT
  let s := s.pmuEv 0x03 b
  let p := { p with bark := { p.bark with flowIdx := x.idx, flowHit := true }, flow := { p.flow with line := some l } }
  let push (s : State) (h : Option (List Byte)) : State :=
    { s with gv.wbq := s.gv.wbq.modify [] b (· ++ [(l, h)]) }
  if p.dec.fa = 0 then
    (push (s.putPkt k { p with dec := { p.dec with hot := s.seenHot b l } }) none).afterAction k
  else
    let (h, col, s) := s.steps123 p p.dec.fa (hotNat (s.seenHot b l))
    let s := push s (some (hotBytes h))
    let p := { p with
      bark := { p.bark with colour := worse p.dec.pol col }
      dec := { p.dec with mtr := col, hot := hotBytes h }
      flow := { p.flow with counted := if p.ended then p.flow.counted else p.flow.counted ++ [(l, x.idx, p.bark.len)] } }
    let (p, s) := s.actionStage p p.dec.fa h
    (s.putPkt k p).afterAction k

/-- C8 (R112, R163, R167, R184). -/
def State.c8 (s : State) (k : Nat) (p : Pkt) (c4 : C4) : State :=
  match c4 with
  | .noAccess => s.afterAction k
  | .off => if p.dec.fa = 0 then s.afterAction k else (s.unstated k 6).afterAction k
  | .hit l => s.c8Hit k l p
  | .join l =>
    if p.dec.drop.isSome then s.afterAction k
    else
      match s.park k (some l) with
      | (true, s) => s
      | (false, s) => s.afterAction k
  | .miss =>
    if p.dec.fa = 0 then s.afterAction k
    else
      match s.park k none with
      | (true, s) => s
      | (false, s) => s.afterAction k

/-- C1 to C8 of a parsed packet. -/
def State.decidePkt (s : State) (k : Nat) : State :=
  match s.pkt? k with
  | none => s
  | some p =>
    let b := k / 8192
    let (hA, hB) := s.hashes p.ps.key p.ps.prof
    let p := { p with bark := { p.bark with hash := hA }, flow := { p.flow with hA := hA, hB := hB } }
    let s := s.pmuEv 0x01 b
    let s := if !p.host && !p.bark.pass then s.pmuEv 0x02 b else s
    let (c4, s) := s.c4 p
    let (p, s) := s.merge k p
    let s := (s.putPkt k p).injMem k 4 8 b (islBough b)
    let s := s.ordReserve k p p.dec.act
    let s := match s.pkt? k with
      | some p => let (q, _) := s.resolveEg p; s.packetSample q
      | none => s
    match s.pkt? k with
    | some p => s.c8 k p c4
    | none => s

/-- The packet of a bough that is first, by its parse-window release, among the line frames (`host` false) or the injected
packets that await a decision slot (R19, R165). -/
def State.slotFirst (s : State) (b : Nat) (host : Bool) : Option Nat :=
  (s.pkts.foldl (fun (x : Option (Nat × Nat)) e =>
    if e.1 / 8192 = b ∧ e.2.stage = .parsed ∧ e.2.host = host then
      match x with
      | some y => if e.2.rel < y.2 then some (e.1, e.2.rel) else x
      | none => some (e.1, e.2.rel)
    else x) none).map (·.1)

/-- R19: line frames take slots first; recirculated (0) and injected packets (1) share the others in round robin. -/
def State.slotMay (s : State) (b i : Nat) : Bool :=
  (s.slotFirst b false).isNone && s.rrPick (rrSlots b) 2
    (fun j => if j = 0 then !(s.recircQ.get [] b).isEmpty else (s.slotFirst b true).isSome) == some i

/-- R112: DECISION, of a packet whose turn for a decision slot it is. -/
def State.decision (s : State) (k : Nat) : State :=
  match s.pkt? k with
  | some p =>
    let b := k / 8192
    if p.stage ≠ .parsed || s.slotFirst b p.host != some k then s
    else if !p.host then s.decidePkt k
    else if s.slotMay b 1 then (s.rrServed (rrSlots b) 2 1).decidePkt k else s
  | none => s

def execDecision (b : Fin 32) (t : BitVec 13) (s : State) : Out :=
  onIsl (islBough b.val) s (·.decision (pkey b.val t.toNat))

/-- The parse of a packet (R78): what it found and its EXC and KEY_PROF. -/
def State.parsePkt (s : State) (k : Nat) (p : Pkt) : State :=
  let (r, s) := s.parse p.bytes p.ended p.bark.ingPort p.bark.gen
  let s := s.meetEnt p.bark.bough 0x22 (p.bark.gen % 2) 0
  let pass := p.bark.pass
  let r := { r with rkey := s.ruleKey r p.bark.ingPort (p.bark.gen % 2) pass (if pass then p.bark.action else 0)
                              (if pass then p.bark.cls else 0) }
  let p := { p with ps := r, bark := { p.bark with exc := r.exc, keyProf := r.prof }, stage := .parsed }
  (s.putPkt k p).excCount p.bark r.raised

/-- R128 to R130: the head of a bough's recirculation queue takes a slot and is parsed and decided with PASS = 1. The
window of a frame whose end has come is formed from its true LEN (DESIGN CHOICE, assumption 92). -/
def State.recircPass (s : State) (b : Nat) : State :=
  match s.recircQ.get [] b with
  | [] => s
  | k :: q =>
    if !s.slotMay b 0 then s
    else
    let s := s.rrServed (rrSlots b) 2 0
    let s := ({ s with recircQ := s.recircQ.set [] b q } : State).recircShow b
    match s.pkt? k with
    | none => s
    | some p =>
      if p.memUe then s.memDrop k p
      else (s.parsePkt k { p with bark := { p.bark with pass := true, parked := false } }).decidePkt k

def execRecircPass (b : Fin 32) (s : State) : Out := onIsl (islBough b.val) s (·.recircPass b.val)

/-- R190: a released packet is back in its bough: steps 4 to 6, then the next step of its path. -/
def State.parkReturn (s : State) (k : Nat) : State :=
  match s.pkt? k with
  | none => s
  | some p =>
    if p.stage ≠ .returned then s
    else if p.memUe then s.memDrop k p
    else if p.flow.unst.isNone && p.dec.fa != 0 && p.flow.line.isSome then
      let (p, s) := s.actionStage p p.dec.fa (hotNat p.dec.hot)
      (s.putPkt k p).afterAction k
    else s.afterAction k

def execParkReturn (b : Fin 32) (t : BitVec 13) (s : State) : Out :=
  onIsl (islBough b.val) s (·.parkReturn (pkey b.val t.toNat))

end Sys2Proof.Machine
end

