-- ==== Sys2Proof/Machine/Operands.lean ====
section
/-!
DEFINITION. Operands of the Twig engines: operand and destination selects (R220), frame loads and stores with the
writable bytes and staging mask (R217, R222), and the fields of a microword (R219).
-/
namespace Sys2Proof.Machine

/-! ### Registers (R215, R220) -/

/-- Register Xi. -/
def EngSt.xr (e : EngSt) (i : Nat) : BitVec 64 := nth e.x i 0

/-- The operand of a select, with the microword's immediate and the device time at its start. -/
def EngSt.operand (e : EngSt) (sel : Nat) (imm : BitVec 64) (now : Nat) : BitVec 64 :=
  if sel < 48 then e.xr sel
  else match sel with
    | 49 => imm
    | 50 => BitVec.ofNat 64 now
    | 51 => e.flags.setWidth 64
    | _ => 0

/-- A result written to a destination select; 48 to 63 discard it. -/
def EngSt.writeSel (e : EngSt) (sel : Nat) (v : BitVec 64) : EngSt :=
  if sel < 48 then { e with x := setNth e.x sel v } else e

/-! ### The frame (R217, R222) -/

/-- The bits of a frame byte that a routine can change: all, none, or MCAST alone in byte 29. -/
def writable (a : Nat) : Byte :=
  if (a = 18 ∨ a = 19) ∨ (a = 26 ∨ a = 27) then 0xFF
  else if a = 29 then 0x40
  else if (71 ≤ a ∧ a ≤ 80) ∨ (84 ≤ a ∧ a ≤ 91) ∨ (208 ≤ a ∧ a ≤ 239) ∨ (256 ≤ a ∧ a ≤ 511) then 0xFF
  else 0

/-- Bytes of a width code: 1, 2, 4 or 8. -/
def widthBytes (w : Nat) : Nat := 2 ^ (w % 4)

/-- The address of a plain or an indexed form (R222). -/
def EngSt.memAddr (e : EngSt) (indexed : Bool) (off : Nat) : Nat :=
  if indexed then (off + (e.xr 47).toNat % 512) % 512 else off

/-- A load: `n` bytes from `a`, bytes beyond 511 reading 0, zero-extended. -/
def EngSt.load (e : EngSt) (a n : Nat) (net : Bool) : BitVec 64 :=
  let bs := slice0 (e.frame.take 512) a n
  BitVec.ofNat 64 (if net then beNat bs else leNat bs)

/-- One byte stored: bits that are not writable and bytes beyond 511 are ignored; the staging mask bit is set. -/
def EngSt.store1 (e : EngSt) (a : Nat) (v : Byte) : EngSt :=
  let m := writable a
  if 512 ≤ a ∨ m = 0 then e
  else
    let old := nth e.frame a 0
    { e with frame := splice e.frame a [(v &&& m) ||| (old &&& ~~~m)], mask := e.mask ||| 2 ^ a }

/-- A store of the low `n` bytes of a value. -/
def EngSt.store (e : EngSt) (a n : Nat) (v : BitVec 64) (net : Bool) : EngSt :=
  let bs := if net then natBe n v.toNat else natLe n v.toNat
  (bs.foldl (fun (x : EngSt × Nat) b => (x.1.store1 x.2 b, x.2 + 1)) (e, a)).1

/-- A memory operation (R222) on the engine `r` at the start of the microword, with its immediate and device time, its
effect made on `e`; `none`: BAD_OP. -/
def EngSt.memOp (e r : EngSt) (op reg off w : Nat) (imm : BitVec 64) (now : Nat) : Option EngSt :=
  let n := widthBytes w
  let plain := r.memAddr false off
  let idx := r.memAddr true off
  match op with
  | 0 => some e
  | 1 => some (e.writeSel reg (r.load plain n false))
  | 2 => some (e.writeSel reg (r.load plain n true))
  | 3 => some (e.store plain n (r.operand reg imm now) false)
  | 4 => some (e.store plain n (r.operand reg imm now) true)
  | 5 => some (e.writeSel reg (r.load idx n false))
  | 6 => some (e.writeSel reg (r.load idx n true))
  | 7 => some (e.store idx n (r.operand reg imm now) false)
  | 8 => some (e.store idx n (r.operand reg imm now) true)
  | _ => none

/-! ### The microword (R219) -/

def MW_SEQ : Fld := ⟨156, 4⟩
def MW_COND : Fld := ⟨152, 4⟩
def MW_TARGET : Fld := ⟨138, 14⟩
def MW_A_OP : Fld := ⟨133, 5⟩
def MW_A_DST : Fld := ⟨127, 6⟩
def MW_A_SRC1 : Fld := ⟨121, 6⟩
def MW_A_SRC2 : Fld := ⟨115, 6⟩
def MW_B_OP : Fld := ⟨110, 5⟩
def MW_B_DST : Fld := ⟨104, 6⟩
def MW_B_SRC1 : Fld := ⟨98, 6⟩
def MW_B_SRC2 : Fld := ⟨92, 6⟩
def MW_M_OP : Fld := ⟨88, 4⟩
def MW_M_REG : Fld := ⟨82, 6⟩
def MW_M_OFF : Fld := ⟨73, 9⟩
def MW_M_W : Fld := ⟨71, 2⟩
def MW_C_OP : Fld := ⟨67, 4⟩
def MW_SAMP : Fld := ⟨66, 1⟩
def MW_IMM : Fld := ⟨0, 64⟩

end Sys2Proof.Machine
end

