-- ==== Sys2Proof/Machine/Flags.lean ====
section
/-!
DEFINITION. Flags of the Twig engines: the results and flags of the ALU operations (R221) and the branch conditions
(R224). Flags are Z, N, C, V from bit 3 down (R220).
-/
namespace Sys2Proof.Machine

/-- Four flags as a word. -/
def flagWord (z n c v : Bool) : BitVec 4 := BitVec.ofNat 4 (8 * b2n z + 4 * b2n n + 2 * b2n c + b2n v)

def flagZ (f : BitVec 4) : Bool := f.getLsbD 3
def flagN (f : BitVec 4) : Bool := f.getLsbD 2
def flagC (f : BitVec 4) : Bool := f.getLsbD 1
def flagV (f : BitVec 4) : Bool := f.getLsbD 0

/-- Z and N of a result, C and V 0. -/
def flagsZN (r : BitVec 64) : BitVec 4 := flagWord (r == 0) r.msb false false

/-- Flags of S1 + S2: carry, and signed overflow. -/
def flagsAdd (a b : BitVec 64) : BitVec 4 :=
  let r := a + b
  flagWord (r == 0) r.msb (decide (2 ^ 64 ≤ a.toNat + b.toNat)) (a.msb == b.msb && r.msb != a.msb)

/-- Flags of S1 − S2: borrow, and signed overflow. -/
def flagsSub (a b : BitVec 64) : BitVec 4 :=
  let r := a - b
  flagWord (r == 0) r.msb (decide (a.toNat < b.toNat)) (a.msb != b.msb && r.msb != a.msb)

/-- The four 16-bit lanes of an operand added. -/
def lanes16 (a : Nat) : Nat := a % 65536 + a / 2 ^ 16 % 65536 + a / 2 ^ 32 % 65536 + a / 2 ^ 48 % 65536

/-- CSUM16: the ones-complement sum of the lanes of both operands, folded to 16 bits. -/
def csum16 (a b : BitVec 64) : BitVec 64 := BitVec.ofNat 64 (csumFold (lanes16 a.toNat + lanes16 b.toNat))

/-- EXT: a bit field of S1 at S2[5:0], of S2[13:8] + 1 bits. -/
def extField (a b : BitVec 64) : BitVec 64 :=
  let sh := b.toNat % 64
  let m := b.toNat / 256 % 64
  if m < 63 then BitVec.ofNat 64 (a.toNat / 2 ^ sh % 2 ^ (m + 1)) else a >>> sh

/-- BSWAP: the 8 bytes reversed. -/
def bswap64 (a : BitVec 64) : BitVec 64 := BitVec.ofNat 64 (beNat (natLe 8 a.toNat))

/-- An ALU operation (R221): the result it writes, if any, and the flags ALU A takes (`none`: unchanged); `none`: BAD_OP. -/
def alu (op : Nat) (a b : BitVec 64) : Option (Option (BitVec 64) × Option (BitVec 4)) :=
  let zn (r : BitVec 64) : Option (Option (BitVec 64) × Option (BitVec 4)) := some (some r, some (flagsZN r))
  match op with
  | 0 => some (none, none)
  | 1 => some (some (a + b), some (flagsAdd a b))
  | 2 => some (some (a - b), some (flagsSub a b))
  | 3 => zn (a &&& b)
  | 4 => zn (a ||| b)
  | 5 => zn (a ^^^ b)
  | 6 => zn (a <<< (b.toNat % 64))
  | 7 => zn (a >>> (b.toNat % 64))
  | 8 => zn (a.sshiftRight (b.toNat % 64))
  | 9 => zn a
  | 10 => some (none, some (flagsSub a b))
  | 11 => some (none, some (flagsZN (a &&& b)))
  | 12 => zn (if a.toNat ≤ b.toNat then a else b)
  | 13 => zn (if a.toNat ≤ b.toNat then b else a)
  | 14 => zn (extField a b)
  | 15 => let r := csum16 a b; some (some r, some (flagWord (r == 0) false false false))
  | 16 => zn (bswap64 a)
  | 17 => zn (BitVec.ofNat 64 (a.toNat % 2 ^ 32 * (b.toNat % 2 ^ 32)))
  | _ => none

/-- A branch condition (R224). -/
def condHolds (c : Nat) (f : BitVec 4) : Bool :=
  match c with
  | 0 => true
  | 1 => flagZ f
  | 2 => !flagZ f
  | 3 => flagN f
  | 4 => !flagN f
  | 5 => flagC f
  | 6 => !flagC f
  | 7 => flagV f
  | 8 => !flagV f
  | 9 => flagN f != flagV f
  | 10 => flagN f == flagV f
  | _ => false

/-- An ALU slot: the operation on operands of `r` (the engine at the start of the microword), made on `e`; only ALU A
sets the flags (R221, R223). `none`: BAD_OP. -/
def EngSt.aluOp (e r : EngSt) (isA : Bool) (op dst s1 s2 : Nat) (imm : BitVec 64) (now : Nat) : Option EngSt :=
  match alu op (r.operand s1 imm now) (r.operand s2 imm now) with
  | none => none
  | some (res, fl) =>
    let e := match res with | some v => e.writeSel dst v | none => e
    some (match fl with | some f => if isA then { e with flags := f } else e | none => e)

/-- What comes after a microword (R224): an address, the end, or a trap's cause. -/
inductive NextPc where
  | at_ (a : Nat)
  | ended
  | trap (cause : Nat)
  deriving DecidableEq, Repr

/-- R224: the next address and the return stack, by the flags and operands at the start of the microword. -/
def EngSt.seqOp (r : EngSt) (op cond target src1 : Nat) (imm : BitVec 64) (now : Nat) : NextPc × List Nat :=
  let nxt := (r.pc + 1) % 2 ^ 14
  match op with
  | 0 => (.at_ nxt, r.stack)
  | 1 => (.at_ target, r.stack)
  | 2 => (.at_ (if condHolds cond r.flags then target else nxt), r.stack)
  | 3 => if 4 ≤ r.stack.length then (.trap 3, r.stack) else (.at_ target, nxt :: r.stack)
  | 4 =>
    match r.stack with
    | [] => (.trap 3, [])
    | a :: st => (.at_ a, st)
  | 5 => (.at_ ((target + (r.operand src1 imm now).toNat % 16) % 2 ^ 14), r.stack)
  | 6 => (.ended, r.stack)
  | _ => (.trap 2, r.stack)

end Sys2Proof.Machine
end

