-- ==== Sys2Proof/Machine/Channels.lean ====
section
/-!
DEFINITION. Sirvan channels and knots as other blocks reach them: a channel's state, bytes the device writes to host
memory, the end of a command in flight (R366), the freeing and abandoning of knots (R376 to R378), the channel table and its
cache (R359, R361), and halts (R382).
-/
namespace Sys2Proof.Machine

/-- A channel. -/
def State.chan (s : State) (c : Nat) : ChSt := s.svn.ch.get {} c

/-- A channel stored. -/
def State.putChan (s : State) (c : Nat) (x : ChSt) : State := { s with svn.ch := s.svn.ch.set {} c x }

/-- Bytes the device writes to host memory. -/
def State.hostPut (s : State) (a : Nat) (bs : List Byte) : State :=
  { s with svn.mem := (bs.foldl (fun (x : Tab Byte × Nat) b => (x.1.set 0 (x.2 % 2 ^ 64) b, x.2 + 1)) (s.svn.mem, a)).1 }

/-- A command in flight ends with a status and a result. -/
def State.cmdEnd (s : State) (c idx st res : Nat) : State :=
  let x := s.chan c
  s.putChan c { x with flight := x.flight.map (fun (m : Cmd) =>
    if m.idx = idx && m.fin.isNone then { m with fin := some (st, res % 2 ^ 32) } else m) }

/-! ### Knots -/

/-- A knot is no longer held; its staged writes go with it. -/
def State.knotFree (s : State) (k : Nat) : State :=
  let s := { s with svn.knots := s.svn.knots.erase k }
  let held := s.rd SVN_KNOT_STS_HELD
  let s := s.wr SVN_KNOT_STS_HELD (if bit held k then held - 2 ^ k else held)
  s.setReg (SVN_KNOT_OWN k) 0

/-- The knot that a channel holds. -/
def State.knotOf (s : State) (c : Nat) : Option Nat := (s.svn.knots.first (fun e => e.2.ch == c)).map (·.1)

/-- R378: a knot is abandoned: nothing is applied; counted, flagged and journaled with its cause. For knot 0 the graft
log is discarded and the graft returns to IDLE (R120). -/
def State.knotAbandon (s : State) (k cause : Nat) : State :=
  match s.svn.knots.find? k with
  | none => s
  | some x =>
    let s := s.knotFree k
    let s := if k = 0 && s.rd GRF_GRAFT_STS_STATE = 1 then
        ({ s with gr.log := [] } : State).wr GRF_GRAFT_STS_STATE 0 |>.wr GRF_LOG_STS_STAGED 0
      else s
    ((s.cnt KNOT_ABANDON_CNT).raise SVN_INT_KNOT_ABANDON).journal islMgmt 0x0B01 k (natLe 2 x.ch ++ natLe 1 cause)

/-- The knot of a channel is abandoned, when it holds one. -/
def State.chanKnotGone (s : State) (c cause : Nat) : State :=
  match s.knotOf c with
  | some k => s.knotAbandon k cause
  | none => s

/-! ### The channel table (R359) -/

/-- Whether bytes 0 to 31 of an entry hold no invalid field. -/
def entryOk (e : List Byte) : Bool :=
  let t := leAt e 17 1 % 8
  leAt e 0 8 % 4096 == 0 && leAt e 8 8 % 4096 == 0 && decide (leAt e 16 1 % 16 ≤ 12) && decide (leAt e 16 1 / 16 ≤ 12)
    && decide (1 ≤ t) && decide (t ≤ 4) && (decide (t < 3) || leAt e 22 2 != 0)

/-- The fields that REFRESH reads. -/
def ChSt.refresh (x : ChSt) (e : List Byte) : ChSt :=
  { x with vec := leAt e 18 1 % 64, irqEn := bit (leAt e 18 1) 7, irqCnt := leAt e 19 1, holdoff := leAt e 20 2 }

/-- The host-owned fields of an entry. -/
def ChSt.load (x : ChSt) (e : List Byte) : ChSt :=
  { x with sqBase := leAt e 0 8, cqBase := leAt e 8 8, sqLog := leAt e 16 1 % 16, cqLog := leAt e 16 1 / 16
           typ := leAt e 17 1 % 8, bufUnits := leAt e 22 2, evSel := leAt e 24 4 }.refresh e

/-- Ring sizes. -/
def ChSt.sqSize (x : ChSt) : Nat := 2 ^ (x.sqLog + 4)
def ChSt.cqSize (x : ChSt) : Nat := 2 ^ (x.cqLog + 4)
/-- R365: no slot is free for another completion: the channel takes no copy and no event until CQ_HEAD frees one. -/
def ChSt.cqFull (x : ChSt) : Bool := decide (x.cqSize ≤ x.cqOut + x.comps.length)

/-- Bytes 32 to 63 of an entry. -/
def ChSt.devBytes (x : ChSt) : List Byte :=
  natLe 2 x.sqHead ++ natLe 2 x.cqTail ++ natLe 1 (b2n x.phase) ++ natLe 1 x.st ++ natLe 1 x.cause ++ natLe 1 (b2n x.lastV)
    ++ natLe 4 x.lastTag ++ natLe 2 x.lastStatus ++ [0, 0] ++ natLe 4 x.lastResult ++ List.replicate 12 0

/-- Whether the function may issue DMA (R358). -/
def State.dmaOk (s : State) : Bool := s.msi.bme && !s.msi.d3

/-- Bytes that a channel's DMA writes; none while it may issue none. -/
def State.dmaPut (s : State) (a : Nat) (bs : List Byte) : State := if s.dmaOk then s.hostPut a bs else s

/-- The device-owned bytes of a channel's entry written. -/
def State.chWb (s : State) (c : Nat) : State := s.dmaPut (s.rd64 SVN_CHT_BASE + 64 * c + 32) (s.chan c).devBytes

/-- The bit of a channel in SVN_CH_HALTi. -/
def State.haltBit (s : State) (c : Nat) (v : Bool) : State := s.wrB ⟨SVN_CH_HALT (c / 32), c % 32, 1⟩ v

/-! ### The cache (R361) -/

/-- A channel with commands in flight, posted buffers among them, or completions to post. -/
def State.chBusy (s : State) (c : Nat) : Bool :=
  let x := s.chan c
  !x.flight.isEmpty || !x.bufs.isEmpty || !x.comps.isEmpty || x.disabling

/-- An entry that is not cached finds room: the least recently used idle one is evicted, its device bytes written back.
False while every cached entry is in use. -/
def State.cacheRoom (s : State) : Bool × State :=
  if s.svn.cache.length < 64 then (true, s)
  else
    match s.svn.cache.find? (fun v => !s.chBusy v) with
    | some v => let s := s.chWb v; (true, { s with svn.cache := s.svn.cache.erase v })
    | none => (false, s)

/-- An entry has been used. -/
def State.touch (s : State) (c : Nat) : State := { s with svn.cache := s.svn.cache.erase c ++ [c] }

/-- Whether a channel's entry is cached. -/
def State.cached (s : State) (c : Nat) : Bool := s.svn.cache.contains c

/-! ### Halts (R382) -/

/-- Whether a command has started. -/
def Cmd.begun (m : Cmd) : Bool := m.started || m.fin.isSome

/-- A channel halts: what it has not started is dropped, its state written, and the halt reported. -/
def State.chHalt (s : State) (c cause : Nat) : State :=
  let x := s.chan c
  if x.st ≠ 1 then s
  else
    let head := match x.flight.find? (fun m => !m.begun) with | some m => m.idx | none => x.sqHead
    let s := s.putChan c { x with st := 2, cause := cause, sqHead := head, flight := x.flight.filter Cmd.begun }
    let s := (s.chWb c).haltBit c true
    let s := ((s.raise SVN_INT_CH_HALT).journal islMgmt 0x0B02 0 (natLe 2 c ++ natLe 1 cause)).cnt SVN_HALT_CNT
    s.chanKnotGone c 3

end Sys2Proof.Machine
end

