-- ==== Sys2Proof/Machine/Twig.lean ====
section
/-!
DEFINITION. The Twig engines (chapter 08): dispatch, cold reads, the start of an item, one microword, commits, traps,
completion, timeouts, ordered release, halting, and the patch epochs; and the operations of a microword slot by slot.
-/
namespace Sys2Proof.Machine

/-! ### Items -/

/-- The item of a packet. -/
def State.itemOf (s : State) (pk : Nat) : Option (Nat × Item) := s.twig.items.first (fun e => e.2.pkt == pk)

/-- An item stored. -/
def State.putItem (s : State) (i : Nat) (it : Item) : State := { s with twig.items := s.twig.items.insert i it }

/-- An item of a cluster that is in its dispatch queue, and one that has an engine's attention. -/
def Item.waits (it : Item) (k : Nat) : Bool := it.cluster == k && it.entered && decide (it.ph = .queued)
def Item.active (it : Item) : Bool := it.entered && (decide (it.ph = .queued) || decide (it.ph = .running) || decide (it.ph = .stopped))
def Item.onEngine (it : Item) (k e : Nat) : Bool :=
  it.cluster == k && it.engine == e && (decide (it.ph = .running) || decide (it.ph = .stopped))

/-- TWG_CLU_STS.DISP_USE of a cluster. -/
def State.dispShow (s : State) (k : Nat) : State :=
  s.wr (TWG_CLU_STS_DISP_USE k) (s.twig.items.filter (fun e => e.2.waits k)).length

/-- An item leaves: its own window slot is released (R236). -/
def State.endItem (s : State) (i : Nat) (it : Item) : State :=
  let s := { s with twig.items := s.twig.items.erase i }
  (if it.ownSlot then s.winSub it.cluster else s).dispShow it.cluster

/-- Bytes of a frame replaced at given offsets. -/
def patched (f : List Byte) (base : Nat) (l : List (Nat × Byte)) : List Byte :=
  l.foldl (fun f x => splice f (base + x.1) [x.2]) f

/-- The hot-block commits a cluster keeps of a flow: those not applied, or applied within the last 32 cycles (R218). -/
def State.keptCommits (s : State) (k flow : Nat) : List (Nat × Byte) :=
  (s.twig.commits.filter (fun (c : HotCommit) => c.cluster == k && c.flow == flow
    && (match c.applied with | none => true | some t => decide (s.time.mono ≤ t + 160)))).map (fun c => (c.off, c.val))

/-- Commits whose 32 cycles are over are forgotten. -/
def State.pruneCommits (s : State) : State :=
  { s with twig.commits := s.twig.commits.filter (fun (c : HotCommit) =>
      match c.applied with | none => true | some t => decide (s.time.mono ≤ t + 160)) }

/-- The engine for a new item (R231): that of an earlier item of its key, else the one with the fewest. -/
def State.engineFor (s : State) (k aff : Nat) : Nat :=
  let mine := s.twig.items.filter (fun e => e.2.cluster == k && e.2.active)
  match mine.find? (fun e => e.2.aff == aff) with
  | some e => e.2.engine
  | none =>
    let load := fun (e : Nat) => (mine.filter (fun x => x.2.engine == e)).length
    (List.range 32).foldl (fun best e => if load e < load best then e else best) 0

/-- R231, R241: an item arrives at its cluster. -/
def State.twigDispatch (s : State) (pk : Nat) : State :=
  match s.itemOf pk with
  | none => s
  | some (i, it) =>
    let k := it.cluster
    if it.entered || !s.alive (islCluster k) then s
    else if 2048 ≤ (s.twig.items.filter (fun e => e.2.waits k)).length then
      (s.endItem i it).twigRefuse pk it.rt TWG_DISP_FULL_CNT
    else
      let s := s.pruneCommits
      let img := if it.flow = 0 then it.img else patched it.img 48 (s.keptCommits k it.flow)
      let it := { it with engine := s.engineFor k it.aff, entered := true, enteredAt := s.time.mono, img := img }
      let n := s.twig.nextItem
      ({ s with twig.items := (s.twig.items.erase i).insert n it, twig.nextItem := n + 1 } : State).dispShow k

def execTwigDispatch (b : Fin 32) (t : BitVec 13) (s : State) : Out := whenUp s (·.twigDispatch (pkey b.val t.toNat))

/-! ### Cold reads (R232) -/

/-- RATE of the cold-read buckets. -/
def State.coldRate (s : State) : Nat := max 1 (s.rd TWG_COLD_CFG_RATE)

/-- R232: a cluster's bucket gains tokens: RATE a µs, thousandths a ns. -/
def State.coldRefill (s : State) (k : Nat) : State :=
  let ns := s.time.mono / 8
  let add := s.coldRate * (ns - s.twig.coldAt.get 0 k)
  { s with twig.coldUsed := s.twig.coldUsed.set 0 k (s.twig.coldUsed.get 0 k - add), twig.coldAt := s.twig.coldAt.set 0 k ns }

/-- A write of TWG_COLD_CFG: every bucket has filled at the old RATE until now. -/
def State.coldCfgWrite (s : State) (v : Nat) : State := ((List.range 16).foldl State.coldRefill s).hostWrite TWG_COLD_CFG v

def execColdReadTokenRefill (k : Fin 16) (s : State) : Out := onIsl (islCluster k.val) s (·.coldRefill k.val)

/-- R232, R347: the cold read of an item takes its token and its record's cold block; a poisoned one ends the item. -/
def State.twigColdRead (s : State) (pk : Nat) : State :=
  match s.itemOf pk with
  | none => s
  | some (i, it) =>
    let k := it.cluster
    let earlier := s.twig.items.any (fun e => decide (e.1 < i) && e.2.cluster == k && e.2.aff == it.aff && e.2.active)
    let used := s.twig.coldUsed.get 0 k
    let a := slotAddr it.flow + 128
    if !it.entered || it.cold ≠ .wanted || it.ph ≠ .queued || earlier || 64000 < used + 1000 || !s.alive (islCluster k) then s
    else if !s.rtsHas clsTwig a then s.rtsHeldBack a
    else
      let s := { s with twig.coldUsed := s.twig.coldUsed.set 0 k (used + 1000) }
      let s := ((s.cnt TWG_COLD_CNT).rtsUseFrom (s.bucketStack (it.flow / 4)) clsTwig a 128 false).rsScan a 128
      if s.rsPoisoned a 128 then
        let s := s.putItem i { it with cold := .read, ph := .failed }
        (if s.wayUsed it.flow then s.flowPoisonWait it.flow else s).dispShow k
      else
        s.putItem i { it with cold := .read, coldWait := (s.time.mono - it.enteredAt) / 5
                              img := splice it.img 112 (s.rsRead a 128) }

def execTwigColdRead (b : Fin 32) (t : BitVec 13) (s : State) : Out := whenUp s (·.twigColdRead (pkey b.val t.toNat))

/-! ### The start of an item (R218, R247) -/

/-- A routine-table entry as a cluster reads it: invalid while a word of it is uncorrectable (R345). -/
def State.rtEntry (s : State) (k copy rt : Nat) : Nat :=
  let e := s.entHeld 0x51 copy rt
  if s.ecc.repairDue.contains (512 * k + 2 * 0x51 + copy, rt) || (List.range 2).any (fun w => match classify 64 (s.ecc.diff.get 0 (eccKey 3 (rtWord k copy rt w))) with
      | .ok => false | .ce => false | _ => true) then fset e RT_V 0 else e

/-- A routine-table entry read by a cluster meets its codes (R345): a correctable word counts; an uncorrectable one counts
and leaves the entry invalid until its repair. -/
def State.rtRead (s : State) (k copy rt : Nat) : Nat × State :=
  let t := if s.ecc.diff.isEmpty then s else (List.range 2).foldl (fun s w => s.meetTbl 3 (rtWord k copy rt w)) s
  (s.rtEntry k copy rt, t)

/-- The engine's state at the start of a run: everything 0 but the frame (R215). -/
def runStart (it : Item) (e : Nat) : EngSt := { pc := fget e RT_BASE, frame := it.img }

/-- An engine starts its next item, or ends one whose routine has V = 0 (R243). The entry it is to run under tells whether
it needs its flow's cold block first (R232): an item that lacks it waits for the read. -/
def State.twigItemStart (s : State) (k e : Nat) : State :=
  if bit (s.rd TWG_HALT_HALT_REQ) k || s.twig.items.any (fun x => x.2.onEngine k e) then s
  else
    match s.twig.items.first (fun x => x.2.waits k && x.2.engine == e) with
    | none => s
    | some (i, it) =>
      let ep := s.rd TWG_EPOCH_CUR
      let (ent, s) := s.rtRead k (ep % 2) it.rt
      if (s.pkt? it.pkt).any (·.memUe) then
        match s.pkt? it.pkt with
        | some p => (s.endItem i it).memDrop it.pkt p
        | none => s
      else if fon ent RT_V && fon ent RT_COLD && it.flow != 0 && it.cold ≠ .read then s.putItem i { it with cold := .wanted }
      else
        let it := { it with epoch := ep, startedAt := s.time.mono }
        if fon ent RT_V then
          ((s.putItem i { it with ph := .running, eng := runStart it ent }).dispShow k).pmuEv 0x21 k
        else (s.putItem i { it with ph := .failed }).dispShow k

def execTwigItemStart (k : Fin 16) (e : Fin 32) (s : State) : Out := onIsl (islCluster k.val) s (·.twigItemStart k.val e.val)

/-! ### Traps (R242, R243) -/

/-- A trap: logged, journaled, counted; the item runs once more, or is to take the fallback. -/
def State.twigTrap (s : State) (i : Nat) (it : Item) (cause addr : Nat) : State :=
  let ent := s.rtEntry it.cluster (it.epoch % 2) it.rt
  let retry := cause = 0 && !it.committed && !it.retried && fon ent RT_RETRY_EN
  let s := (s.cnt TWG_TRAP_CNT).raise TWG_INT_TRAP
  let s := if s.on TWG_TRAP_LOG0_VALID then s
    else (s.setReg TWG_TRAP_LOG0 (addr + 2 ^ 14 + 2 ^ 16 * it.cluster + 2 ^ 20 * it.engine + 2 ^ 25 * cause)).setReg
      TWG_TRAP_LOG1 it.rt
  let s := s.journal (islCluster it.cluster) 0x0501 it.cluster (natLe 1 it.engine ++ natLe 1 cause ++ natLe 2 addr
    ++ natLe 2 it.rt ++ natLe 1 (b2n retry) ++ [0] ++ natLe 4 it.flow)
  if retry then (s.cnt TWG_RETRY_CNT).putItem i { it with retried := true, run := 0, eng := runStart it ent }
  else s.putItem i { it with ph := .failed }

/-! ### Commits (R226 to R230) -/

/-- The frame bytes of a region: 1 BARK, 2 HOT, 3 COLD, 4 HDR. -/
def regionOf (r : Nat) : List Nat :=
  match r with
  | 1 => [18, 19, 26, 27, 29]
  | 2 => (List.range 10).map (71 + ·) ++ (List.range 8).map (84 + ·)
  | 3 => (List.range 32).map (208 + ·)
  | 4 => (List.range 256).map (256 + ·)
  | _ => []

/-- The staged bytes of a region. -/
def EngSt.staged (e : EngSt) (r : Nat) : List (Nat × Byte) :=
  ((regionOf r).filter (fun a => bit e.mask a)).map (fun a => (a, nth e.frame a 0))

/-- The mask without a region's bits. -/
def EngSt.unstage (e : EngSt) (r : Nat) : EngSt :=
  { e with mask := (regionOf r).foldl (fun m a => if bit m a then m - 2 ^ a else m) e.mask }

/-- Staged bytes over earlier ones. -/
def overBytes (old new : List (Nat × Byte)) : List (Nat × Byte) :=
  old.filter (fun x => !new.any (fun y => y.1 == x.1)) ++ new

/-- The regions of a commit operation; `none`: BAD_OP. -/
def commitRegions (op : Nat) : Option (List Nat) :=
  match op with
  | 0 => some []
  | 1 => some [1]
  | 2 => some [2]
  | 3 => some [3]
  | 4 => some [4]
  | 5 => some [1, 2, 3, 4]
  | 6 => some [1, 2, 3, 4]
  | _ => none

/-- HOT: the staged bytes go to the flow, now or once its line lets them, and to later items of the flow (R218, R228).
Reserved bits of the block stay 0. -/
def State.commitHot (s : State) (it : Item) (l : List (Nat × Byte)) : State :=
  if l.isEmpty then s
  else
    let l := l.map (fun x => (x.1 - 48, if x.1 = 78 then x.2 &&& 0x07 else if x.1 = 75 then x.2 &&& 0xF1 else x.2))
    let cs := l.map (fun x => (⟨s.twig.nextCommit, it.cluster, it.flow, x.1, x.2, none⟩ : HotCommit))
    let s := ({ s with twig.commits := s.twig.commits ++ cs, twig.nextCommit := s.twig.nextCommit + 1 } : State).applyHot it.flow
    { s with twig.items := s.twig.items.map (fun x =>
        if x.2.waits it.cluster && x.2.flow == it.flow then (x.1, { x.2 with img := patched x.2.img 48 l }) else x) }

/-- COLD: the staged bytes of USER go to the record slot as one write of the 8-byte words they touch, whole ones and parts;
discarded and counted when the flow is gone or a part meets poison (R228, R348). -/
def State.commitCold (s : State) (it : Item) (l : List (Nat × Byte)) : State :=
  if l.isEmpty then s
  else if !s.wayUsed it.flow then s.cnt TWG_COMMIT_LOST_CNT
  else
    let at_ := slotAddr it.flow + 16
    let (ok, s) := (s.rtsUseFrom (s.bucketStack (it.flow / 4)) clsTwig (at_ + (l.headD (0, 0)).1) l.length true).rsBytes
      (l.map (fun x => (at_ + x.1, x.2)))
    if ok then s else s.cnt TWG_COMMIT_LOST_CNT

/-- A commit operation on an item (R227 to R229); `none`: the header patch would pass 64 bytes. -/
def State.twigCommit (s : State) (i : Nat) (it : Item) (op : Nat) (rs : List Nat) : Option State :=
  let st (r : Nat) := if rs.contains r then it.eng.staged r else []
  let patch := overBytes it.patch ((st 4).map (fun x => (x.1 - 256, x.2)))
  if 64 < patch.length then none
  else
    let any := rs.any (fun r => !(it.eng.staged r).isEmpty) || op == 6
    let it' := { it with
      eng := rs.foldl EngSt.unstage it.eng, bark := overBytes it.bark (st 1), patch := patch
      drop := it.drop || op == 6, committed := it.committed || any }
    let s := s.putItem i it'
    let s := if any then s.cnt TWG_COMMIT_CNT else s
    some ((s.commitHot it (st 2)).commitCold it (st 3))

/-! ### Sampling (R402 to R404) -/

/-- The next countdown of a cluster and the sequence after it. -/
def State.psReload (s : State) (k : Nat) : State :=
  let r := seqStep (s.obs.psSeq.get 0 k)
  { s with obs.psSeq := s.obs.psSeq.set 0 k r
           obs.psCount := s.obs.psCount.set 0 k (s.rd OBS_PS_CFG_PERIOD + r % 2 ^ s.rd OBS_PS_CFG_JITTER) }

/-- A sample enters the buffer, or is lost when it is full. -/
def State.psPut (s : State) (r : List Byte) : State :=
  let n := s.obs.psBuf.length
  if 4096 ≤ n then (s.cnt OBS_PS_LOST_CNT).raise OBS_INT_PS_LOST
  else
    let s := ({ s with obs.psBuf := s.obs.psBuf ++ [r] } : State).cnt OBS_PS_CNT
    let s := (s.wr OBS_PS_STS_USE (n + 1)).wr OBS_PS_STS_HWM (max (n + 1) (s.rd OBS_PS_STS_HWM))
    if n + 1 = s.rd OBS_PS_THR_THR then s.raise OBS_INT_PS_THR else s

/-- A microword executed by an item: `it` as it stood before it; KIND 3 a trap, 2 END, 1 a commit. -/
def State.psample (s : State) (it : Item) (samp : Bool) (kind : Nat) (now : Nat) : State :=
  let k := it.cluster
  if s.rd OBS_PS_CFG_PERIOD = 0 || !(samp || s.on OBS_PS_CFG_MODE) || (s.on OBS_PS_CFG_GATE && !s.sampOpen (islCluster it.cluster)) then s
  else
    let s := if s.obs.psCount.get 0 k = 0 then s.psReload k else s
    let c := s.obs.psCount.get 0 k - 1
    if c ≠ 0 then { s with obs.psCount := s.obs.psCount.set 0 k c }
    else
      let cyc (a b n : Nat) : List Byte := natLe n (min (256 ^ n - 1) ((b - a) / 5))
      let r := natLe 8 now ++ natLe 2 (it.eng.pc + kind * 2 ^ 14) ++ natLe 2 (it.rt + k * 2 ^ 12)
        ++ natLe 1 (it.engine + 32 * b2n it.retried) ++ [0] ++ natLe 2 it.run ++ natLe 4 it.flow
        ++ cyc it.enteredAt s.time.mono 4 ++ cyc it.enteredAt it.startedAt 2 ++ natLe 2 (min 65535 it.coldWait)
        ++ natLe 2 it.epoch ++ [0, 0]
      (s.psPut r).psReload k

/-! ### The microword fetch (R225, R242, R345) -/

/-- The error patterns of a microword's two halves. -/
def State.ctlDiff (s : State) (k a h : Nat) : Nat := s.ecc.diff.get 0 (eccKey 3 (ctlWord k a h))

/-- A half that no word code corrects. -/
def State.ctlBad (s : State) (k a h : Nat) : Bool :=
  match classify 80 (s.ctlDiff k a h) with | .ok => false | .ce => false | _ => true

/-- A page of the control store of a cluster corrected; or failed, and then it awaits its repair (R345). -/
def State.fixCtlPage (s : State) (k a h page : Nat) : State :=
  let bad := (s.failedWords 3).filter (fun w => (s.pageBytes 3 w).any (fun x => x.1 == page))
  if s.ecc.pageDue.contains (3, page) then s
  else if s.pageOk 3 page then
    s.pageFixed 3 page bad
  else
    let s := { s with ecc.pageDue := s.ecc.pageDue ++ [(3, page)] }
    s.pageFail 3 k (synByte 80 (s.ctlDiff k a h)) a (islCluster k)

/-- A microword fetched: its 160 bits, or a trap UE. A correctable half is rewritten. -/
def State.ctlFetch (s : State) (k a : Nat) : Option Nat × State :=
  let word := fget (s.ent 0x50 0 a) ⟨0, 160⟩
  if s.ecc.diff.isEmpty then (some word, s)
  else
    let half (s : State) (h : Nat) : State :=
      match classify 80 (s.ctlDiff k a h) with
      | .ce => { s with ecc.diff := s.ecc.diff.set 0 (eccKey 3 (ctlWord k a h)) (afterCorrection 80 (s.ctlDiff k a h)) }.ceCount 3
                 (islCluster k)
      | .ue => s.cnt (UE_CNT 3)
      | .poison => s.cnt (POISON_RD_CNT 3)
      | .ok => s
    let s := half (half s 0) 1
    match [0, 1].find? (s.ctlBad k a) with
    | some h => (none, (ctlPages k a).foldl (fun s p => s.fixCtlPage k a h p) s)
    | none => (some (word ^^^ (s.ctlDiff k a 0 % 2 ^ 80 + s.ctlDiff k a 1 % 2 ^ 80 * 2 ^ 80)), s)

/-! ### One microword (R219 to R229) -/

/-- The three slots and the next address of a microword on an engine: the engine after it, or a trap's cause. -/
def EngSt.slots (r : EngSt) (w now : Nat) : Except Nat (EngSt × NextPc) :=
  let imm := BitVec.ofNat 64 (fget w MW_IMM)
  match r.aluOp r true (fget w MW_A_OP) (fget w MW_A_DST) (fget w MW_A_SRC1) (fget w MW_A_SRC2) imm now with
  | none => .error 2
  | some e =>
    match e.aluOp r false (fget w MW_B_OP) (fget w MW_B_DST) (fget w MW_B_SRC1) (fget w MW_B_SRC2) imm now with
    | none => .error 2
    | some e =>
      match e.memOp r (fget w MW_M_OP) (fget w MW_M_REG) (fget w MW_M_OFF) (fget w MW_M_W) imm now with
      | none => .error 2
      | some e =>
        match r.seqOp (fget w MW_SEQ) (fget w MW_COND) (fget w MW_TARGET) (fget w MW_A_SRC1) imm now with
        | (.trap c, _) => .error c
        | (n, st) => .ok ({ e with stack := st }, n)

/-- The end of a microword: the next address, the routine's end with uncommitted stores counted (R229), or the stop of a
halting cluster's routine after a commit (R244). -/
def State.twigNext (s : State) (i : Nat) (n : NextPc) (commits : Bool) : State :=
  match s.twig.items.find? i with
  | none => s
  | some it =>
    match n with
    | .at_ a =>
      let halt := commits && bit (s.rd TWG_HALT_HALT_REQ) it.cluster
      s.putItem i { it with eng := { it.eng with pc := a }, ph := if halt then .stopped else .running }
    | .ended =>
      let s := if it.eng.mask = 0 then s else s.cnt TWG_UNCOMMIT_CNT
      s.putItem i { it with ph := .ended }
    | .trap c => s.twigTrap i it c it.eng.pc

/-- R223: an engine executes one microword. -/
def State.twigStep (s : State) (i : Nat) (it : Item) : State :=
  let k := it.cluster
  let ent := s.rtEntry k (it.epoch % 2) it.rt
  let pc := it.eng.pc
  let base := fget ent RT_BASE
  if pc < base ∨ base + fget ent RT_LEN ≤ pc then s.twigTrap i it 1 pc
  else if max 1 (fget ent RT_MAXW) ≤ it.run then s.twigTrap i it 5 pc
  else
    match s.ctlFetch k pc with
    | (none, s) => s.twigTrap i it 0 pc
    | (some w, s) =>
      let now := s.now (islCluster k)
      let s := (s.cnt TWG_UWORD_CNT).pmuEv 0x20 k
      let samp := fon w MW_SAMP
      let op := fget w MW_C_OP
      let it' := { it with run := it.run + 1 }
      match commitRegions op, it.eng.slots w now with
      | some rs, .ok (e, n) =>
        match s.twigCommit i { it' with eng := e } op rs with
        | none => (s.psample it samp 3 now).twigTrap i it' 4 pc
        | some s' =>
          let commits := op != 0
          let kind := match n with | .ended => 2 | _ => if commits then 1 else 0
          (s'.psample it samp kind now).twigNext i n commits
      | _, .error c => (s.psample it samp 3 now).twigTrap i it' c pc
      | none, _ => (s.psample it samp 3 now).twigTrap i it' 2 pc

/-- The item that runs on an engine. -/
def State.runningOn (s : State) (k e : Nat) : Option (Nat × Item) :=
  s.twig.items.first (fun x => x.2.cluster == k && x.2.engine == e && decide (x.2.ph = .running))

/-- A row of an engine that runs a routine. -/
def State.onEngine (s : State) (k e : Nat) (f : Nat → Item → State) : State :=
  match s.runningOn k e with | some (i, it) => f i it | none => s

def execTwigMicroword (k : Fin 16) (e : Fin 32) (s : State) : Out :=
  onIsl (islCluster k.val) s (fun s => s.onEngine k.val e.val s.twigStep)

/-! ### Slot by slot: the same operations with explicit fields, on the engine's state as it stands -/

/-- Operands of an ALU slot: whether it is ALU A, destination and source selects, immediate. -/
def State.aluRow (s : State) (k e op : Nat) (isA : Bool) (dst s1 s2 : Nat) (imm : BitVec 64) : State :=
  s.onEngine k e (fun i it =>
    match it.eng.aluOp it.eng isA op dst s1 s2 imm (s.now (islCluster k)) with
    | some en => s.putItem i { it with eng := en }
    | none => s.twigTrap i it 2 it.eng.pc)

def aluCmd (k : Fin 16) (e : Fin 32) (op : Nat) (isA : Bool) (dst s1 s2 : BitVec 6) (imm : BitVec 64) (s : State) : Out :=
  onIsl (islCluster k.val) s (·.aluRow k.val e.val op isA dst.toNat s1.toNat s2.toNat imm)

def execAluNop (k : Fin 16) (e : Fin 32) (isA : Bool) (dst s1 s2 : BitVec 6) (imm : BitVec 64) (s : State) : Out := aluCmd k e 0 isA dst s1 s2 imm s
def execAluAdd (k : Fin 16) (e : Fin 32) (isA : Bool) (dst s1 s2 : BitVec 6) (imm : BitVec 64) (s : State) : Out := aluCmd k e 1 isA dst s1 s2 imm s
def execAluSub (k : Fin 16) (e : Fin 32) (isA : Bool) (dst s1 s2 : BitVec 6) (imm : BitVec 64) (s : State) : Out := aluCmd k e 2 isA dst s1 s2 imm s
def execAluAnd (k : Fin 16) (e : Fin 32) (isA : Bool) (dst s1 s2 : BitVec 6) (imm : BitVec 64) (s : State) : Out := aluCmd k e 3 isA dst s1 s2 imm s
def execAluOr (k : Fin 16) (e : Fin 32) (isA : Bool) (dst s1 s2 : BitVec 6) (imm : BitVec 64) (s : State) : Out := aluCmd k e 4 isA dst s1 s2 imm s
def execAluXor (k : Fin 16) (e : Fin 32) (isA : Bool) (dst s1 s2 : BitVec 6) (imm : BitVec 64) (s : State) : Out := aluCmd k e 5 isA dst s1 s2 imm s
def execAluShl (k : Fin 16) (e : Fin 32) (isA : Bool) (dst s1 s2 : BitVec 6) (imm : BitVec 64) (s : State) : Out := aluCmd k e 6 isA dst s1 s2 imm s
def execAluShr (k : Fin 16) (e : Fin 32) (isA : Bool) (dst s1 s2 : BitVec 6) (imm : BitVec 64) (s : State) : Out := aluCmd k e 7 isA dst s1 s2 imm s
def execAluSar (k : Fin 16) (e : Fin 32) (isA : Bool) (dst s1 s2 : BitVec 6) (imm : BitVec 64) (s : State) : Out := aluCmd k e 8 isA dst s1 s2 imm s
def execAluMov (k : Fin 16) (e : Fin 32) (isA : Bool) (dst s1 s2 : BitVec 6) (imm : BitVec 64) (s : State) : Out := aluCmd k e 9 isA dst s1 s2 imm s
def execAluCmp (k : Fin 16) (e : Fin 32) (isA : Bool) (dst s1 s2 : BitVec 6) (imm : BitVec 64) (s : State) : Out := aluCmd k e 10 isA dst s1 s2 imm s
def execAluTst (k : Fin 16) (e : Fin 32) (isA : Bool) (dst s1 s2 : BitVec 6) (imm : BitVec 64) (s : State) : Out := aluCmd k e 11 isA dst s1 s2 imm s
def execAluMinu (k : Fin 16) (e : Fin 32) (isA : Bool) (dst s1 s2 : BitVec 6) (imm : BitVec 64) (s : State) : Out := aluCmd k e 12 isA dst s1 s2 imm s
def execAluMaxu (k : Fin 16) (e : Fin 32) (isA : Bool) (dst s1 s2 : BitVec 6) (imm : BitVec 64) (s : State) : Out := aluCmd k e 13 isA dst s1 s2 imm s
def execAluExt (k : Fin 16) (e : Fin 32) (isA : Bool) (dst s1 s2 : BitVec 6) (imm : BitVec 64) (s : State) : Out := aluCmd k e 14 isA dst s1 s2 imm s
def execAluCsum16 (k : Fin 16) (e : Fin 32) (isA : Bool) (dst s1 s2 : BitVec 6) (imm : BitVec 64) (s : State) : Out := aluCmd k e 15 isA dst s1 s2 imm s
def execAluBswap (k : Fin 16) (e : Fin 32) (isA : Bool) (dst s1 s2 : BitVec 6) (imm : BitVec 64) (s : State) : Out := aluCmd k e 16 isA dst s1 s2 imm s
def execAluMul32 (k : Fin 16) (e : Fin 32) (isA : Bool) (dst s1 s2 : BitVec 6) (imm : BitVec 64) (s : State) : Out := aluCmd k e 17 isA dst s1 s2 imm s

/-- A memory slot: M_REG, M_OFF, the width code and the immediate. -/
def State.memRow (s : State) (k e op reg off w : Nat) (imm : BitVec 64) : State :=
  s.onEngine k e (fun i it =>
    match it.eng.memOp it.eng op reg off w imm (s.now (islCluster k)) with
    | some en => s.putItem i { it with eng := en }
    | none => s.twigTrap i it 2 it.eng.pc)

def memCmd (k : Fin 16) (e : Fin 32) (op : Nat) (reg : BitVec 6) (off : BitVec 9) (w : BitVec 2) (imm : BitVec 64)
    (s : State) : Out :=
  onIsl (islCluster k.val) s (·.memRow k.val e.val op reg.toNat off.toNat w.toNat imm)

def execMemNop (k : Fin 16) (e : Fin 32) (reg : BitVec 6) (off : BitVec 9) (w : BitVec 2) (s : State) : Out := memCmd k e 0 reg off w 0 s
def execMemLd (k : Fin 16) (e : Fin 32) (reg : BitVec 6) (off : BitVec 9) (w : BitVec 2) (s : State) : Out := memCmd k e 1 reg off w 0 s
def execMemLdn (k : Fin 16) (e : Fin 32) (reg : BitVec 6) (off : BitVec 9) (w : BitVec 2) (s : State) : Out := memCmd k e 2 reg off w 0 s
def execMemSt (k : Fin 16) (e : Fin 32) (src : StoreSrc) (off : BitVec 9) (w : BitVec 2) (s : State) : Out := memCmd k e 3 src.reg off w src.imm s
def execMemStn (k : Fin 16) (e : Fin 32) (src : StoreSrc) (off : BitVec 9) (w : BitVec 2) (s : State) : Out := memCmd k e 4 src.reg off w src.imm s
def execMemLdi (k : Fin 16) (e : Fin 32) (reg : BitVec 6) (off : BitVec 9) (w : BitVec 2) (s : State) : Out := memCmd k e 5 reg off w 0 s
def execMemLdni (k : Fin 16) (e : Fin 32) (reg : BitVec 6) (off : BitVec 9) (w : BitVec 2) (s : State) : Out := memCmd k e 6 reg off w 0 s
def execMemSti (k : Fin 16) (e : Fin 32) (src : StoreSrc) (off : BitVec 9) (w : BitVec 2) (s : State) : Out := memCmd k e 7 src.reg off w src.imm s
def execMemStni (k : Fin 16) (e : Fin 32) (src : StoreSrc) (off : BitVec 9) (w : BitVec 2) (s : State) : Out := memCmd k e 8 src.reg off w src.imm s

/-- A sequencing slot: COND, TARGET, A_SRC1 and the immediate. -/
def State.seqRow (s : State) (k e op cond target src1 : Nat) (imm : BitVec 64) : State :=
  s.onEngine k e (fun i it =>
    let (n, st) := it.eng.seqOp op cond target src1 imm (s.now (islCluster k))
    (s.putItem i { it with eng := { it.eng with stack := st } }).twigNext i n false)

def seqCmd (k : Fin 16) (e : Fin 32) (op : Nat) (cond : BitVec 4) (target : BitVec 14) (src1 : BitVec 6) (imm : BitVec 64)
    (s : State) : Out :=
  onIsl (islCluster k.val) s (·.seqRow k.val e.val op cond.toNat target.toNat src1.toNat imm)

def execSeqNext (k : Fin 16) (e : Fin 32) (s : State) : Out := seqCmd k e 0 0 0 0 0 s
def execSeqJmp (k : Fin 16) (e : Fin 32) (target : BitVec 14) (s : State) : Out := seqCmd k e 1 0 target 0 0 s
def execSeqBr (k : Fin 16) (e : Fin 32) (cond : BitVec 4) (target : BitVec 14) (s : State) : Out := seqCmd k e 2 cond target 0 0 s
def execSeqCall (k : Fin 16) (e : Fin 32) (target : BitVec 14) (s : State) : Out := seqCmd k e 3 0 target 0 0 s
def execSeqRet (k : Fin 16) (e : Fin 32) (s : State) : Out := seqCmd k e 4 0 0 0 0 s
def execSeqSwitch (k : Fin 16) (e : Fin 32) (target : BitVec 14) (src1 : BitVec 6) (imm : BitVec 64) (s : State) : Out := seqCmd k e 5 0 target src1 imm s
def execSeqEnd (k : Fin 16) (e : Fin 32) (s : State) : Out := seqCmd k e 6 0 0 0 0 s

/-- A commit slot. -/
def State.commitRow (s : State) (k e op : Nat) : State :=
  s.onEngine k e (fun i it =>
    match commitRegions op with
    | none => s.twigTrap i it 2 it.eng.pc
    | some rs =>
      match s.twigCommit i it op rs with
      | none => s.twigTrap i it 4 it.eng.pc
      | some s => s)

def commitCmd (k : Fin 16) (e : Fin 32) (op : Nat) (s : State) : Out :=
  onIsl (islCluster k.val) s (·.commitRow k.val e.val op)

def execCommitNone (k : Fin 16) (e : Fin 32) (s : State) : Out := commitCmd k e 0 s
def execCommitBark (k : Fin 16) (e : Fin 32) (s : State) : Out := commitCmd k e 1 s
def execCommitHot (k : Fin 16) (e : Fin 32) (s : State) : Out := commitCmd k e 2 s
def execCommitCold (k : Fin 16) (e : Fin 32) (s : State) : Out := commitCmd k e 3 s
def execCommitHdr (k : Fin 16) (e : Fin 32) (s : State) : Out := commitCmd k e 4 s
def execCommitAll (k : Fin 16) (e : Fin 32) (s : State) : Out := commitCmd k e 5 s
def execCommitDrop (k : Fin 16) (e : Fin 32) (s : State) : Out := commitCmd k e 6 s

/-! ### Completion, timeout (R230, R240, R243) -/

/-- The header patch an item committed stands for its packet; the last pass that committed one counts (R230). -/
def State.takePatch (s : State) (pk : Nat) (it : Item) : State :=
  if it.patch.isEmpty then s else s.modPkt pk ({ · with patch := it.patch })

/-- The packet of an item that ended goes on: resolved under its committed bark bytes, dropped by DROP. -/
def State.itemDone (s : State) (pk : Nat) (it : Item) : State :=
  match s.pkt? pk with
  | none => s
  | some p =>
    let (p, s) := if it.bark.isEmpty then (p, s) else s.twigResolve p it.bark
    let p := if it.drop then { p with dec := { p.dec with drop := some 7, eg := .none } } else p
    (s.putPkt pk p).afterTwig pk

/-- The packet of an item that was cut short takes the fallback; a DROP already committed stands. -/
def State.itemFailed (s : State) (pk : Nat) (it : Item) : State :=
  if it.drop then (s.cnt TWG_FALLBACK_CNT).itemDone pk it else s.twigFallback pk it.rt it.epoch it.bark

/-- R230: an item retires. -/
def State.twigItemComplete (s : State) (pk : Nat) : State :=
  match s.itemOf pk with
  | none => s
  | some (i, it) =>
    if !s.alive (islCluster it.cluster) then s
    else
      match it.ph with
      | .ended => (((s.endItem i it).cnt TWG_DONE_CNT).takePatch pk it).itemDone pk it
      | .failed => ((s.endItem i it).takePatch pk it).itemFailed pk it
      | _ => s

def execTwigItemComplete (b : Fin 32) (t : BitVec 13) (s : State) : Out := whenUp s (·.twigItemComplete (pkey b.val t.toNat))

/-- R240: an item passes ITEM_TMAX, below 100 ns acting as 100. -/
def State.twigItemTimeout (s : State) (pk : Nat) : State :=
  match s.itemOf pk with
  | none => s
  | some (i, it) =>
    if it.ph = .ended ∨ it.ph = .failed then s
    else
      let s := s.waitMono (it.createdAt + 8 * max 100 (s.rd TWG_CFG_ITEM_TMAX))
      let ep := if it.ph = .queued then s.rd TWG_EPOCH_CUR else it.epoch
      let s := ((s.cnt TWG_TMO_CNT).raise TWG_INT_TMO).endItem i it
      (s.takePatch pk it).itemFailed pk { it with epoch := ep }

def execTwigItemTimeout (b : Fin 32) (t : BitVec 13) (s : State) : Out := whenUp s (·.twigItemTimeout (pkey b.val t.toNat))

/-! ### Ordered release (R238, R239) -/

/-- R237: a packet that has reached step 9 makes its slot ready. -/
def State.ordSlotReady (s : State) (pk : Nat) : State :=
  match s.pkt? pk with
  | some p => match p.stage, p.slot with | .ordered, some id => s.slotReady id | _, _ => s
  | none => s

def execOrdSlotReady (b : Fin 32) (t : BitVec 13) (s : State) : Out := whenUp s (·.ordSlotReady (pkey b.val t.toNat))

/-- R239: a ready slot that has waited HOLD ns is released; its predecessors keep their places. The slot is the oldest
ready one that was taken under the named tag. -/
def State.ordHoldExpire (s : State) (pk : Nat) : State :=
  match s.twig.slots.find? (fun (o : OrdSlot) => o.pkt == pk && o.ready) with
  | none => s
  | some o =>
    let s := s.waitMono (o.readyAt + 8 * s.rd TWG_CFG_HOLD)
    let s := { s with twig.slots := s.twig.slots.filter (fun (x : OrdSlot) => x.id != o.id) }
    ((s.cnt TWG_ORD_SKIP_CNT).raise TWG_INT_ORD_SKIP).slotGo o

def execOrdHoldExpire (b : Fin 32) (t : BitVec 13) (s : State) : Out := whenUp s (·.ordHoldExpire (pkey b.val t.toNat))

/-! ### Halting (R244) -/

/-- A write of TWG_HALT: clusters whose bit is 0 go on. -/
def State.twigHalt (s : State) (v : Nat) : State :=
  let s := s.hostWrite TWG_HALT v
  let req := s.rd TWG_HALT_HALT_REQ
  let s := s.wr TWG_HALT_STS_HALTED (s.rd TWG_HALT_STS_HALTED &&& req)
  { s with twig.items := s.twig.items.map (fun x =>
      if x.2.ph = .stopped && !bit req x.2.cluster then (x.1, { x.2 with ph := .running }) else x) }

def execTwigHaltReq (v : Word) (s : State) : Out := onBar0 TWG_HALT s (·.twigHalt v.toNat)

/-- Every engine of a halting cluster has stopped. -/
def State.twigHalted (s : State) (k : Nat) : State :=
  if !bit (s.rd TWG_HALT_HALT_REQ) k || bit (s.rd TWG_HALT_STS_HALTED) k
      || s.twig.items.any (fun x => x.2.cluster == k && decide (x.2.ph = .running)) then s
  else (s.wr TWG_HALT_STS_HALTED (s.rd TWG_HALT_STS_HALTED + 2 ^ k)).raise TWG_INT_HALTED

def execTwigClusterHalted (k : Fin 16) (s : State) : Out := onIsl (islCluster k.val) s (·.twigHalted k.val)

/-! ### Patching (R247) -/

/-- STATE and BUSY of the patch. -/
def State.setPatch (s : State) (st : Nat) : State := (s.wr TWG_PATCH_STS_STATE st).wr TWG_PATCH_STS_BUSY (b2n (st != 0))

/-- PATCH accepted: T is FLIP_LEAD ns ahead, at least 1,000; `by_` is the command that awaits the flip. -/
def State.patchStart (s : State) (ver : Nat) (by_ : Option (Nat × Nat)) : State :=
  let t := s.now islMgmt + max 1000 (s.rd TWG_PATCH_CFG_FLIP_LEAD)
  ({ s with twig.patchT := t, twig.patchVer := ver, twig.by_ := by_ } : State).setPatch 1

/-- R247: every cluster has reached T; the PATCH command completes with the new epoch (R370). -/
def State.patchFlip (s : State) : State :=
  if s.rd TWG_PATCH_STS_STATE ≠ 1 then s
  else
    let s := (List.range 16).foldl (fun s k => s.waitIsl (islCluster k) s.twig.patchT) s
    let e := (s.rd TWG_EPOCH_CUR + 1) % 65536
    let s := (s.wr TWG_EPOCH_CUR e).wr TWG_EPOCH_PREV_LIVE 1
    let s := (s.wr TWG_IMG_VER_VER s.twig.patchVer).setPatch 2
    let s := (s.raise TWG_INT_FLIPPED).journal islMgmt 0x0502 0 (natLe 2 e ++ [0, 0] ++ natLe 4 s.twig.patchVer)
    let s := { s with sw := s.sw.map (fun (w : ProfSw) => { w with patchDone := true }) }
    match s.twig.by_ with
    | some (c, i) => ({ s with twig.by_ := none } : State).cmdEnd c i 0 e
    | none => s

def execTwigPatchFlip (s : State) : Out := onIsl islMgmt s (·.patchFlip)

/-- R247: no item of the old epoch runs. -/
def State.patchRetire (s : State) : State :=
  let old := (s.rd TWG_EPOCH_CUR + 65535) % 65536
  if s.rd TWG_PATCH_STS_STATE ≠ 2
      || s.twig.items.any (fun x => x.2.epoch == old && (decide (x.2.ph = .running) || decide (x.2.ph = .stopped))) then s
  else
    let s := ((s.wr TWG_EPOCH_PREV_LIVE 0).setPatch 3).raise TWG_INT_RETIRED
    ({ s with twig.syncAt := s.time.mono } : State).journal islMgmt 0x0503 0 (natLe 2 old)

def execTwigPatchRetire (s : State) : Out := onIsl islMgmt s (·.patchRetire)

/-- One copy of a table replaced by the other. -/
def State.tblCopy (s : State) (id from_ dst : Nat) : State :=
  let src := s.tbl.filter (fun e => e.1 / 2 ^ 32 == id * 2 + from_)
  let rest := s.tbl.filter (fun e => e.1 / 2 ^ 32 != id * 2 + dst)
  { s with tbl := src.foldl (fun t e => Tab.insert t (tblKey id dst (e.1 % 2 ^ 32)) e.2) rest }

/-- R247: the new copy has been copied over the other. -/
def State.patchSyncDone (s : State) : State :=
  if s.rd TWG_PATCH_STS_STATE ≠ 3 then s
  else
    let n := s.rd TWG_EPOCH_CUR % 2
    ((s.tblCopy 0x51 n (1 - n)).setPatch 0).cnt TWG_PATCH_CNT

def execTwigPatchSyncDone (s : State) : Out := onIsl islMgmt s (·.patchSyncDone)

/-! ### Repair of a control-store page (R345) -/

/-- The words of source 3 with errors that lie in a control-store page. -/
def State.ctlPageWords (s : State) (page : Nat) : List Nat :=
  ((s.ecc.diff.filter (fun e => e.1 / 2 ^ 40 == 3 && (s.pageBytes 3 (e.1 % 2 ^ 40)).any (fun y => y.1 == page))).map
    (fun e => e.1 % 2 ^ 40))

/-- Whether a cluster's copy of a page can be read: no word of it is uncorrectable. -/
def State.ctlPageGood (s : State) (page : Nat) : Bool :=
  !s.ecc.pageDue.contains (3, page) && (s.ctlPageWords page).all (fun w =>
    match classify 80 (s.ecc.diff.get 0 (eccKey 3 w)) with | .ok => true | .ce => true | _ => false)

/-- R345: the oldest failed page of a cluster's control store is rewritten from another cluster's copy that can be read;
errors which that copy's word codes do not show come with it. -/
def State.ctlRepair (s : State) (k : Nat) : State :=
  match s.ecc.pageDue.find? (fun x => x.1 == 3 && x.2 / 160 == k) with
  | none => s
  | some x =>
    let page := x.2
    match (List.range 16).find? (fun c => c != k && s.ctlPageGood (c * 160 + page % 160)) with
    | none => s
    | some c =>
      let from_ := s.ctlPageWords (c * 160 + page % 160)
      let left (w : Nat) : Nat :=
        let d := s.ecc.diff.get 0 (eccKey 3 w)
        match classify 80 d with | .ce => afterCorrection 80 d | _ => d
      let clean := (s.ctlPageWords page).foldl (fun (t : Tab Nat) w => t.erase (eccKey 3 w)) s.ecc.diff
      let s := { s with
        ecc.pageDue := s.ecc.pageDue.erase x
        ecc.diff := from_.foldl (fun (t : Tab Nat) w => t.set 0 (eccKey 3 (w - c * 32768 + k * 32768)) (left w)) clean
        ecc.pageDiff := s.ecc.pageDiff.erase (eccKey 3 page) }
      s.repaired 3 k 0 (page % 160 * 2048 / 20) (islCluster k)

def execControlStoreRepair (k : Fin 16) (s : State) : Out := onIsl (islCluster k.val) s (·.ctlRepair k.val)

end Sys2Proof.Machine
end

