-- ==== Sys2Proof/Machine/Trunk.lean ====
section
/-!
DEFINITION. The Trunk bus (R383 to R388): requests, arbitration by priority and backoff, transfers and parking. A command
that uses the bus asks for its transfers here; what they carry takes effect within that command.
-/
namespace Sys2Proof.Machine

/-! ### Requesters, by index of TRK_WAIT_MAXr -/

def trkExport : Nat := 2
def trkHost : Nat := 3
def trkGraft : Nat := 4
def trkPrune : Nat := 5
def trkLearn : Nat := 6
def trkScrub : Nat := 7

/-- Phases of a table write or read of an entry of `n` bytes (R384). -/
def entryPhases (n : Nat) : Nat := if n ≤ 64 then 4 else 5

/-- `n` transfers asked for. -/
def State.trunkAsk (s : State) (r phases : Nat) (n : Nat := 1) : State :=
  { s with trk.want := s.trk.want ++ List.replicate n ⟨r, phases, s.time.mono⟩ }

/-- The lsb of a requester's priority in TRK_PRIO_MAP. -/
def prioLsb (r : Nat) : Nat := if 2 ≤ r then 3 * (r - 2) else if r = 1 then 18 else 21

/-- A requester's priority in a map. -/
def prioOf (m r : Nat) : Nat := getBits m (prioLsb r) 3

/-- BACKOFF_MAX in force: a power of 2 from 1 to 256. -/
def State.backoffMax (s : State) : Nat :=
  let v := min 256 (s.rd TRK_CFG_BACKOFF_MAX)
  2 ^ v.log2

/-- SCRUB is paced to one transfer per 200 ns. -/
def State.trkMay (s : State) (r at_ : Nat) : Bool :=
  r != trkScrub || (match s.trk.scrubAt with | some t => decide (t + 1600 ≤ at_) | none => true)

/-- Requesters with a request, at a true time. -/
def State.trkWanting (s : State) (at_ : Nat) : List Nat :=
  (List.range 8).filter (fun r => s.trk.want.any (fun q => q.r == r) && s.trkMay r at_)

/-- The requester of highest priority. -/
def State.trkBest (s : State) (rs : List Nat) : Option Nat :=
  rs.foldl (fun b r => match b with
    | some x => if prioOf (s.reg TRK_PRIO_MAP) x < prioOf (s.reg TRK_PRIO_MAP) r then some r else b
    | none => some r) none

/-- R386: a loser's backoff starts; its next one doubles. The winner's returns to 1. -/
def State.trkSettle (s : State) (asserting : List Nat) (win : Nat) : State :=
  { s with trk.back := asserting.foldl (fun t r =>
      if r = win then t.erase r
      else
        let b := min s.backoffMax (max 1 (t.get (0, 0) r).1)
        t.set (0, 0) r (min s.backoffMax (2 * b), b)) s.trk.back }

/-- The oldest request of a requester is taken. -/
def State.trkTake (s : State) (r : Nat) : Option TrkReq × State :=
  match s.trk.want.find? (fun q => q.r == r) with
  | some q => (some q, { s with trk.want := s.trk.want.erase q })
  | none => (none, s)

/-- A transfer starts at a true time (R384): owner, busy, longest wait, counts. The requester's next transfer is requested
when this one ends. -/
def State.trkStart (s : State) (q : TrkReq) (at_ : Nat) : State :=
  let s := s.waitMono at_
  let s := { s with trk.cur := some (q, at_ + 80 * q.phases), trk.next := none, trk.parked := true
                    trk.want := s.trk.want.map (fun (x : TrkReq) => if x.r = q.r then { x with at_ := max x.at_ (at_ + 80 * q.phases) } else x)
                    trk.scrubAt := if q.r = trkScrub then some at_ else s.trk.scrubAt }
  let s := (s.wr TRK_STS_OWNER q.r).wr TRK_STS_BUSY 1
  let s := s.wr (TRK_WAIT_MAX_WAIT q.r) (max (s.rd (TRK_WAIT_MAX_WAIT q.r)) (min (2 ^ 20 - 1) ((at_ - q.at_) / 8)))
  ((s.cnt (TRK_GRANT_CNT q.r)).cnt (TRK_BUSY_NS_CNT q.r) (10 * q.phases)).pmuEv 0x60 0

/-- Arbitration on an idle bus (R384 to R386): a parked owner starts at once; otherwise everyone asserts and the winner
starts in the next phase. -/
def State.trkIdle (s : State) : State :=
  let owner := s.rd TRK_STS_OWNER
  let wanting := s.trkWanting s.time.mono
  if s.trk.parked && wanting.contains owner then
    match s.trkTake owner with
    | (some q, s) => ({ s with trk.back := s.trk.back.erase owner } : State).trkStart q s.time.mono
    | (none, s) => s
  else
    match s.trkBest wanting with
    | none => s
    | some w =>
      match (s.trkSettle wanting w).trkTake w with
      | (some q, s) => s.trkStart q (s.time.mono + 80)
      | (none, s) => s

/-- Arbitration in the last phase of a transfer (R386): those not backing off assert, the others' phases run down. -/
def State.trkBusy (s : State) (end_ : Nat) : State :=
  let s := s.waitMono (end_ - 80)
  let wanting := s.trkWanting end_
  let out := wanting.filter (fun r => (s.trk.back.get (0, 0) r).2 == 0)
  let s := { s with trk.back := s.trk.back.map (fun (e : Nat × Nat × Nat) => if wanting.contains e.1 then (e.1, (e.2.1, e.2.2 - 1)) else e) }
  match s.trkBest out with
  | none => { s with trk.next := some none }
  | some w =>
    let (q, s) := (s.trkSettle out w).trkTake w
    { s with trk.next := some q }

/-- R384: an arbitration phase. -/
def State.trunkArb (s : State) : State :=
  match s.trk.cur with
  | none => s.trkIdle
  | some (_, e) => if s.trk.next.isSome then s else s.trkBusy e

def execTrunkArbitration (s : State) : Out := onIsl islMgmt s (·.trunkArb)

/-- R384, R385: a transfer ends; the winner of its last phase starts with no idle phase, or the grant stays parked. -/
def State.trunkEnd (s : State) : State :=
  match s.trk.cur with
  | none => s
  | some (_, e) =>
    let s := s.waitMono e
    let nx := s.trk.next
    let s := ({ s with trk.cur := none, trk.next := none } : State).wr TRK_STS_BUSY 0
    match nx with
    | some (some q) => s.trkStart q e
    | _ => s

def execTrunkTransferEnd (s : State) : Out := onIsl islMgmt s (·.trunkEnd)

/-- R387: a write of the priority map. -/
def State.prioMapWrite (s : State) (v : Nat) : State :=
  let ok := (List.range 8).all (fun n => (List.range 8).any (fun r => prioOf v r == n))
  if !ok then (s.wr TRK_STS_MAP_REJ_STK 1).raise TRK_INT_MAP_REJ
  else
    let o := s.rd TRK_STS_OWNER
    let moved := prioOf v o != prioOf (s.reg TRK_PRIO_MAP) o
    let s := s.hostWrite TRK_PRIO_MAP v
    if moved && s.trk.cur.isNone then { s with trk.parked := false } else s

def execTrkPrioMapWrite (v : Word) (s : State) : Out := onBar0 TRK_PRIO_MAP s (·.prioMapWrite v.toNat)

/-- A write of TRK_CFG; WAIT_CLR clears every longest wait. -/
def State.trkCfgWrite (s : State) (v : Nat) : State :=
  let s := s.hostWrite TRK_CFG v
  if bit v 31 then (List.range 8).foldl (fun s r => s.wr (TRK_WAIT_MAX_WAIT r) 0) s else s

def execWaitClr (v : Word) (s : State) : Out := onBar0 TRK_CFG s (·.trkCfgWrite (v.toNat ||| 2 ^ 31))

end Sys2Proof.Machine
end

