-- ==== Sys2Proof/Machine/Bridging.lean ====
section
/-!
DEFINITION. The learn engine, the pruner, flushes and host writes of the bridging table (R133, R142 to R148).
-/
namespace Sys2Proof.Machine

/-- A learned unicast entry's port (BRG_PORT_STS.LEARNED counts them). -/
def brgLearnedPort (e : Nat) : Option Nat :=
  if fon e BR_V && fon e BR_LEARNED && !fon e BR_MCAST then some (fget e BR_EGR % 256) else none

/-- The learned entries of a port change by one. -/
def State.brgPortAdd (s : State) (e : Nat) (up : Bool) : State :=
  match brgLearnedPort e with
  | none => s
  | some p => s.wr (BRG_PORT_STS_LEARNED p) (if up then s.rd (BRG_PORT_STS_LEARNED p) + 1 else s.rd (BRG_PORT_STS_LEARNED p) - 1)

/-- One change of the table, the same in all copies (R133): the entry, its full INST_TS, and the status registers. The
HIT bits of an entry that comes or goes are 0; those of a valid entry that another valid one replaces, be its key another,
stay (DESIGN CHOICE, assumption 73). -/
def State.brgPut (s : State) (i e ts : Nat) : State :=
  let old := s.entHeld 0x30 0 i
  let e := fset e BR_INST_TS ts
  let s := ((s.brgPortAdd old false).setEnt 0x30 0 i (if fon e BR_V then e else 0)).entWritten 0x30 0 i
  let s := s.brgPortAdd e true
  let n := s.rd BRG_STS_IN_USE + b2n (fon e BR_V) - b2n (fon old BR_V)
  let s := { s with
    brg.ts := s.brg.ts.set 0 i (if fon e BR_V then ts else 0)
    brg.hit := if fon e BR_V && fon old BR_V then s.brg.hit else s.brg.hit.erase i }
  let s := (s.wr BRG_STS_IN_USE n).wr BRG_STS_FULL (b2n (n == 32768))
  if n = 32768 && !fon old BR_V then s.raise BRG_INT_FULL else s

/-- An entry removed. -/
def State.brgRemove (s : State) (i : Nat) : State := s.brgPut i 0 0

/-- The lowest-numbered invalid entry. -/
def State.brgFree (s : State) : Option Nat := firstIdx 32768 (fun i => !fon (s.entHeld 0x30 0 i) BR_V)

/-- The key part of an entry. -/
def brgKey (vid mac : Nat) : Nat := leNat (natBe 6 mac) + vid % 4096 * 2 ^ 48

/-- A learned entry on a port. -/
def learnedEntry (vid mac port : Nat) : Nat :=
  fset (fset (fset (brgKey vid mac) BR_EGR port) BR_V 1) BR_LEARNED 1

/-- The requests in the merge buffer shown (R142). -/
def State.mrgShow (s : State) : State := s.wr BRG_STS_MRG_USE (s.brg.learn.filter (·.merged)).length

/-- R142: the oldest request of a bough that waits for nothing moves into the merge buffer. -/
def State.learnMerge (s : State) (b : Nat) : State :=
  match s.brg.learn.find? (fun r => r.port / 8 == b && !r.merged && r.hold.isNone) with
  | none => s
  | some q =>
    ({ s with brg.learn := s.brg.learn.map (fun (r : LearnReq) => if r = q then { r with merged := true } else r) } : State).mrgShow

def execLearnMerge (b : Fin 32) (s : State) : Out := onIsl (islBough b.val) s (·.learnMerge b.val)

/-- SEQ compared as a 32-bit modular difference (R22). -/
def seqBefore (a b : Nat) : Bool := decide (2 ^ 31 ≤ (a + 2 ^ 32 - b % 2 ^ 32) % 2 ^ 32)

/-- Whether a request ranks before another (R22). -/
def LearnReq.before (a b : LearnReq) : Bool :=
  decide (a.ts < b.ts) || (a.ts == b.ts && (decide (a.port < b.port) || (a.port == b.port && seqBefore a.seq b.seq)))

/-- A learn event of a request: MAC, VID with flags, byte 29, entry (R412). -/
def State.learnEvent (s : State) (type : Nat) (q : LearnReq) (vidWord b29 entry : Nat) : State :=
  s.journalPkt islMgmt type (q.port / 8) { arrTs := q.ts, seq := q.seq, ingPort := q.port }
    (natBe 6 q.mac ++ natLe 2 vidWord ++ natLe 1 b29 ++ natLe 2 entry)

/-- A STATION_FLAP event, with the other port. -/
def State.flap (s : State) (q : LearnReq) (static late : Bool) (other i : Nat) : State :=
  (s.learnEvent 0x0303 q (q.vid + 4096 * b2n static + 8192 * b2n late) other i).raise BRG_INT_FLAP

/-- An entry put on the request's port: EGR, MCAST = 0, LEARNED = 1, AGE = 0, INST_TS. -/
def State.learnMove (s : State) (i : Nat) (q : LearnReq) : State :=
  (s.brgPut i (learnedEntry q.vid q.mac q.port) q.ts).trunkAsk trkLearn 4

/-- R143: a released request is decided against the master copy, first rule that fits. Byte 29 of STATION_FLAP and BRG_MOVE
of an entry whose EGR is a multicast group holds the group's number modulo 256 (DESIGN CHOICE, assumption 93). -/
def State.learnApply (s : State) (q : LearnReq) : State :=
  let hold := max 1 (s.rd BRG_LEARN_CFG_HOLD) * 1000000
  match s.brgFind q.vid q.mac with
  | none =>
    match s.brgFree with
    | none => ((s.cnt LEARN_FAIL_CNT).raise BRG_INT_LEARN_FAIL).learnEvent 0x0304 q q.vid 0 0
    | some i =>
      let lim := s.rd (BRG_PORT_CFG_LIMIT q.port)
      if lim ≠ 0 ∧ lim ≤ s.rd (BRG_PORT_STS_LEARNED q.port) then s.cnt LEARN_LIMIT_CNT
      else ((s.learnMove i q).cnt LEARN_CNT).learnEvent 0x0301 q q.vid 0 i
  | some (i, e) =>
    let eg := fget e BR_EGR
    let same := eg == q.port && !fon e BR_MCAST
    let ts := s.brg.ts.get 0 i
    let first := decide (q.ts < ts) || (q.ts == ts && fon e BR_LEARNED && decide (q.port < eg))
    if fon e BR_STATIC && !same then (s.cnt LEARN_STATIC_CNT).flap q true false (eg % 256) i
    else if same then
      if fon e BR_AGE then (s.brgPut i (fset e BR_AGE 0) ts).trunkAsk trkLearn 4 else s
    else if !first then
      if q.ts - ts < hold then (s.cnt FLAP_CNT).flap q false false (eg % 256) i
      else ((s.learnMove i q).cnt MOVE_CNT).learnEvent 0x0302 q q.vid (eg % 256) i
    else if ts - q.ts < hold then
      (((s.learnMove i q).cnt LEARN_LATE_CNT).cnt FLAP_CNT).flap q false true (eg % 256) i
    else s.cnt LEARN_LATE_CNT

/-- R142: the request that ranks first in the merge buffer is released after its settle time. -/
def State.learnRelease (s : State) : State :=
  match (s.brg.learn.filter (·.merged)).foldl (fun (b : Option LearnReq) r => match b with
      | some x => if r.before x then some r else b
      | none => some r) none with
  | none => s
  | some q =>
    let s := s.waitIsl islMgmt (q.ts + max 1 (s.rd BRG_LEARN_CFG_SETTLE) * 1000)
    (({ s with brg.learn := s.brg.learn.erase q } : State).mrgShow).learnApply q

def execLearnRelease (s : State) : Out := onIsl islMgmt s (·.learnRelease)

/-! ### Pruning (R146) -/

/-- The sample of an entry and what follows from it. -/
def State.pruneEntry (s : State) (i : Nat) : State :=
  let e := s.ent 0x30 0 i
  if !fon e BR_V || fon e BR_STATIC then s
  else
    let hit := s.brg.hit.get 0 i != 0
    let s := ({ s with brg.hit := s.brg.hit.erase i } : State).trunkAsk trkPrune 4
    let ts := s.brg.ts.get 0 i
    match hit, fon e BR_AGE with
    | true, false => s
    | true, true => (s.brgPut i (fset e BR_AGE 0) ts).trunkAsk trkLearn 4
    | false, false => (s.brgPut i (fset e BR_AGE 1) ts).trunkAsk trkLearn 4
    | false, true =>
      let s := ((s.brgRemove i).trunkAsk trkLearn 4).cnt AGE_CNT
      s.journal islMgmt 0x0305 0 (natBe 6 (brMac e) ++ natLe 2 (fget e BR_VID) ++ natLe 1 (fget e BR_EGR % 256) ++ [0]
        ++ natLe 2 i)

/-- R146: the next entry is visited, at the even pace of PERIOD. -/
def State.pruneStep (s : State) : State :=
  let per := s.rd BRG_PRUNE_CFG_PERIOD
  if per = 0 then s
  else
    let s := s.waitIsl islMgmt s.brg.pruneAt
    let i := s.brg.pruneIdx
    ({ s with brg.pruneIdx := (i + 1) % 32768, brg.pruneAt := s.now islMgmt + (per * 1000000000 * (i + 1) / 32768 - per * 1000000000 * i / 32768) } : State).pruneEntry i

def execPruneStep (s : State) : Out := onIsl islMgmt s (·.pruneStep)

/-! ### Flushes and host writes (R144, R148) -/

/-- The learned entries that a flush removes. -/
def State.flushSet (s : State) (port vid : Option Nat) : List Nat :=
  (s.tbl.filter (fun e => e.1 / 2 ^ 32 == 0x30 * 2 && fon e.2 BR_V && fon e.2 BR_LEARNED
    && (match port with | some p => fget e.2 BR_EGR == p && !fon e.2 BR_MCAST | none => true)
    && (match vid with | some v => fget e.2 BR_VID == v | none => true))).map (fun e => e.1 % 2 ^ 32)

/-- R148: a flush, its event and counter; the number removed. -/
def State.brgFlush (s : State) (port vid : Option Nat) : Nat × State :=
  let l := s.flushSet port vid
  let s := l.foldl (fun s i => (s.brgRemove i).trunkAsk trkLearn 4) s
  (l.length, (s.cnt FLUSH_CNT l.length).journal islMgmt 0x0306 0 (natLe 1 (port.getD 0)
    ++ natLe 2 (vid.getD 0 + 4096 * b2n port.isSome + 8192 * b2n vid.isSome) ++ [0] ++ natLe 4 l.length))

/-- A host write of a valid entry: LEARNED = 0, AGE = 0, INST_TS = device time (R144). -/
def State.brgHostPut (s : State) (i e : Nat) : State :=
  (s.brgPut i (e &&& tblWritable 0 0x30) (s.now islMgmt)).trunkAsk trkLearn 4

/-- TBL_WRITE of table 0x30: placed at its index; the status of R371. -/
def State.brgIdxWrite (s : State) (i e : Nat) : Nat × State :=
  let e := e &&& tblWritable 0 0x30
  if fon e BR_V then
    match s.brgFind (fget e BR_VID) (brMac e) with
    | some (j, _) => if j = i then (0, s.brgHostPut i e) else (4, s)
    | none => (0, s.brgHostPut i e)
  else (0, (s.brgRemove i).trunkAsk trkLearn 4)

/-- KEY_WRITE of table 0x30: status and index. -/
def State.brgKeyWrite (s : State) (e : Nat) : Nat × Nat × State :=
  let e := e &&& tblWritable 0 0x30
  if !fon e BR_V then (4, 0, s)
  else
    match s.brgFind (fget e BR_VID) (brMac e) with
    | some (j, _) => (0, j, s.brgHostPut j e)
    | none =>
      match s.brgFree with
      | some i => (0, i, s.brgHostPut i e)
      | none => (11, 0, s)

/-- A host delete of an entry by index: status. -/
def State.brgIdxDelete (s : State) (i : Nat) : Nat × State :=
  if fon (s.ent 0x30 0 i) BR_V then (0, (s.brgRemove i).trunkAsk trkLearn 4) else (12, s)

end Sys2Proof.Machine
end

