-- ==== Sys2Proof/Machine/Graft.lean ====
section
/-!
DEFINITION. The graft (R120 to R127): staging, apply, flip, drain, catch-up and resync, and the register writes it
guards (R106, R122).
-/
namespace Sys2Proof.Machine

/-- STATE and BUSY. -/
def State.setGraft (s : State) (st : Nat) : State :=
  (s.wr GRF_GRAFT_STS_STATE st).wr GRF_GRAFT_STS_BUSY (b2n (decide (2 ≤ st)))

/-- The graft's state. -/
def State.graftSt (s : State) : Nat := s.rd GRF_GRAFT_STS_STATE

/-- The log's slots, its region in the user region: start and bytes (GRF_LOG_CFG). -/
def State.logMib (s : State) : Nat := max 1 (min 64 (s.rd GRF_LOG_CFG_SIZE))
def State.logSlots (s : State) : Nat := s.logMib * 4096
def State.logBase (s : State) : Nat := s.rd GRF_LOG_CFG_BASE * 2 ^ 20

/-- The log shown (GRF_LOG_STS). -/
def State.putLog (s : State) (l : List Staged) : State := ({ s with gr.log := l } : State).wr GRF_LOG_STS_STAGED l.length

/-- The user region's base (R252). -/
def userBase : Nat := 0x800000000

/-- One staged write occupies a 256-byte slot, in a form that the spec does not give: an access of class HOST (R264). -/
def State.slotWrite (s : State) (a : Nat) : State :=
  let (k, t) := s.fresh
  (t.rtsUse clsHost a 256 true).rsWrite a ((List.range 256).map (fun i => Config.logByte (256 * k + i)))

/-- The Root store address of slot `n` of the graft log. -/
def State.logSlot (s : State) (n : Nat) : Nat := userBase + s.logBase + 256 * n

/-- Staged writes appended, each in one slot of the log's region. -/
def State.logAppend (s : State) (l : List Staged) : State :=
  let s' := l.foldl (fun (x : State × Nat) _ => (x.1.slotWrite (s.logSlot x.2), x.2 + 1)) (s, s.gr.log.length)
  s'.1.putLog (s.gr.log ++ l)

/-- A staged write appended; false when the log is full, counted (R120). -/
def State.stage (s : State) (w : Staged) : Bool × State :=
  if s.logSlots ≤ s.gr.log.length then (false, s.cnt BATCH_FULL_CNT) else (true, s.logAppend [w])

/-- Every log slot written to one copy, in log order (R121), each entry whole. -/
def State.logApply (s : State) (copy : Nat) : State :=
  s.gr.log.foldl (fun s (w : Staged) => (s.setEnt w.table copy w.idx w.val).entWritten w.table copy w.idx) s

/-- The log's slots read, each an access of class HOST (R264) that meets its codes; whether one is poisoned (R347). -/
def State.logRead (s : State) : Bool × State :=
  (List.range s.gr.log.length).foldl (fun (x : Bool × State) n =>
    let a := s.logSlot n
    let t := (x.2.rtsUse clsHost a 256 false).rsScan a 256
    (x.1 || t.rsPoisoned a 256, t)) (false, s)

/-- The time a phase takes: 50 ns a slot (R123), and its transfers on the Trunk bus. -/
def State.graftPhase (s : State) : State :=
  let n := s.gr.log.length
  ({ s with gr.phaseEnd := s.time.mono + 400 * n } : State).trunkAsk trkGraft 5 n

/-- R120: GRAFT accepted: the batch is committed and the apply starts. `by_` names the command that awaits it, `addr`
where T_flip is written. -/
def State.graftStart (s : State) (by_ : Option (Nat × Nat)) (addr : Nat) : State :=
  (({ s with gr.by_ := by_, gr.tflipAddr := addr } : State).setGraft 2).graftPhase

/-- The waiting command ends. -/
def State.graftReply (s : State) (st res : Nat) : State :=
  match s.gr.by_ with
  | some (c, i) => ({ s with gr.by_ := none } : State).cmdEnd c i st res
  | none => s

/-- R120: the log cannot be read: the graft fails into RESYNC. -/
def State.graftLogUe (s : State) : State :=
  let st := s.graftSt
  if st ≠ 2 && st ≠ 5 then s
  else
    let s := ((s.setGraft 6).cnt GRAFT_FAIL_CNT).raise GRF_GRAFT_INT_FAIL
    let s := s.journal islMgmt 0x0204 0 (natLe 2 (s.rd GRF_GEN_CUR_GEN) ++ natLe 1 st)
    s.graftReply 10 0

/-- R120: the staging copy holds the batch: T_flip is set and its timer starts (R124); a log that cannot be read fails the
graft. -/
def State.graftApplyDone (s : State) : State :=
  if s.graftSt ≠ 2 then s
  else
    let (bad, s) := (s.waitMono s.gr.phaseEnd).logRead
    if bad then s.graftLogUe else
    let s := s.logApply ((s.rd GRF_GEN_CUR_GEN + 1) % 2)
    let lead := max 1000 (s.rd GRF_GRAFT_CFG_FLIP_LEAD)
    let s := s.wr64 GRF_FLIP_TS (s.now islMgmt + lead)
    ({ s with gr.flipped := 0, gr.timerEnd := s.time.mono + (lead + 10000) * 8 } : State).setGraft 3

def execGraftApplyDone (s : State) : Out := onIsl islMgmt s (·.graftApplyDone)

/-- R120: every bough has flipped: the new generation is current and DRAIN begins. Where T_flip is asked for and the function
may issue no DMA, the command ends with DMA_ERR and its channel halts (R358, R382). -/
def State.enterDrain (s : State) : State :=
  let g := (s.rd GRF_GEN_CUR_GEN + 1) % 65536
  let t := s.rd64 GRF_FLIP_TS
  let s := (((s.wr GRF_GEN_CUR_GEN g).wr GRF_GEN_CUR_PREV_LIVE 1).setGraft 4).cnt GRAFT_CNT
  let s := { s with gr.drainAt := s.time.mono, gr.warned := false }
  let s := (s.raise GRF_GRAFT_INT_FLIPPED).journal islMgmt 0x0202 0
    (natLe 2 g ++ [0, 0] ++ natLe 4 s.gr.log.length ++ natLe 8 t)
  let s := { s with sw := s.sw.map (fun (w : ProfSw) => { w with graftDone := true }) }
  match s.gr.by_ with
  | some (c, _) =>
    if s.gr.tflipAddr = 0 then s.graftReply 0 g
    else if s.dmaOk then (s.hostPut s.gr.tflipAddr (natLe 8 t)).graftReply 0 g
    else (s.graftReply 15 0).chHalt c 4
  | none => s

/-- R124: a bough's device time reaches T_flip; the last change enters DRAIN. -/
def State.genFlip (s : State) (b : Nat) : State :=
  if s.graftSt ≠ 3 || bit s.gr.flipped b then s
  else
    let s := s.waitIsl (islBough b) (s.rd64 GRF_FLIP_TS)
    let m := s.gr.flipped ||| 2 ^ b
    let s := { s with gr.flipped := m }
    if m = 2 ^ 32 - 1 then s.enterDrain else s

def execGenFlip (b : Fin 32) (s : State) : Out := onIsl (islBough b.val) s (·.genFlip b.val)

/-- R124: the timer expires: every bough that has not changed changes now. -/
def State.flipTimer (s : State) : State :=
  if s.graftSt ≠ 3 then s
  else
    let s := s.waitMono s.gr.timerEnd
    ({ s with gr.flipped := 2 ^ 32 - 1 } : State).enterDrain

def execFlipTimerExpire (s : State) : Out := onIsl islMgmt s (·.flipTimer)

/-- The boughs that hold tags of a generation. -/
def State.genHolders (s : State) (g : Nat) : List Nat := (List.range 32).filter (fun b => s.rd (genCnt b g) != 0)

/-- R126: no bough holds a tag of G − 1. -/
def State.genRetire (s : State) : State :=
  let old := (s.rd GRF_GEN_CUR_GEN + 65535) % 65536
  if s.graftSt ≠ 4 || !(s.genHolders old).isEmpty then s
  else
    let s := ((s.wr GRF_GEN_CUR_PREV_LIVE 0).setGraft 5).raise GRF_GRAFT_INT_RETIRED
    (s.journal islMgmt 0x0203 0 (natLe 2 old)).graftPhase

def execGenRetire (s : State) : Out := onIsl islMgmt s (·.genRetire)

/-- R126: DRAIN has lasted DRAIN_WARN ms; the event names the generation that drains and the boughs that hold it. -/
def State.drainSlow (s : State) : State :=
  let w := s.rd GRF_GRAFT_CFG_DRAIN_WARN
  if s.graftSt ≠ 4 || w == 0 || s.gr.warned then s
  else
    let s := s.waitMono (s.gr.drainAt + w * 8000000)
    let g := (s.rd GRF_GEN_CUR_GEN + 65535) % 65536
    let m := (s.genHolders g).foldl (fun m b => m + 2 ^ b) 0
    (({ s with gr.warned := true } : State).raise GRF_GRAFT_INT_DRAIN_SLOW).journal islMgmt 0x0205 0
      (natLe 2 g ++ [0, 0] ++ natLe 4 m)

def execDrainSlow (s : State) : Out := onIsl islMgmt s (·.drainSlow)

def execGraftLogUe (s : State) : Out := onIsl islMgmt s (·.graftLogUe)

/-- R120: the retired copy has caught up, unless the log cannot be read. -/
def State.catchupDone (s : State) : State :=
  if s.graftSt ≠ 5 then s
  else
    let (bad, s) := (s.waitMono s.gr.phaseEnd).logRead
    if bad then s.graftLogUe else ((s.logApply ((s.rd GRF_GEN_CUR_GEN + 1) % 2)).putLog []).setGraft 0

def execCatchupDone (s : State) : Out := onIsl islMgmt s (·.catchupDone)

/-- The generation-bound tables (R116). -/
def genTables : List Nat := [0x10, 0x11, 0x12, 0x20, 0x21, 0x22]

/-- The entries that a resync writes: those that either copy lists (an unlisted entry is 0 in both). -/
def State.resyncSize (s : State) : Nat :=
  ((s.tbl.filter (fun e => genTables.contains (e.1 / 2 ^ 32 / 2))).map (fun e => (e.1 / 2 ^ 33, e.1 % 2 ^ 32))).eraseDups.length

/-- R120: every generation-bound table has been copied from the current copy to the other, by GRAFT transfers (R383). -/
def State.resyncDone (s : State) : State :=
  if s.graftSt ≠ 6 then s
  else
    let c := s.rd GRF_GEN_CUR_GEN % 2
    (((genTables.foldl (fun s id => s.tblCopy id c (1 - c)) s).trunkAsk trkGraft 5 s.resyncSize).putLog []).setGraft 0

def execResyncDone (s : State) : Out := onIsl islMgmt s (·.resyncDone)

/-- R122: GRF_LOG_CFG is accepted in IDLE. -/
def State.logCfgWrite (s : State) (v : Nat) : State :=
  if s.graftSt = 0 then s.hostWrite GRF_LOG_CFG v else s.wr GRF_GRAFT_STS_CFG_REJ_STK 1

def execGrfLogCfgWrite (v : Word) (s : State) : Out := onBar0 GRF_LOG_CFG s (·.logCfgWrite v.toNat)

/-- R106: a host write of WIDTH is ignored and flagged. -/
def execGrfRsCfgWrite (_v : Word) (s : State) : Out := onBar0 GRF_RS_CFG s (·.wr GRF_GRAFT_STS_CFG_REJ_STK 1)

end Sys2Proof.Machine
end

