-- ==== Sys2Proof/Machine/Queues.lean ====
section
/-!
DEFINITION. Copies, the egress queues that hold them, shapers and gates, and the Crown's cells and credits (R279 to R281,
R298 to R312): the operations that admission, selection, transfer, discards and configuration writes share.
-/
namespace Sys2Proof.Machine

/-! ### Copies and cells -/

/-- A copy stored. -/
def State.putCopy (s : State) (n : Nat) (c : Copy) : State := { s with copies := s.copies.insert n c }

/-- Header cells of a copy (R280): 3 with a header patch, which a mirror copy never carries. -/
def headCells (p : Pkt) (mirror : Bool) : Nat := if p.patch.isEmpty || mirror then 2 else 3

/-- Cells of a copy of `l` bytes (R280). -/
def copyCells (p : Pkt) (mirror : Bool) (l : Nat) : Nat := headCells p mirror + ceilDiv l 64

/-- The egress bough of a copy, and the traffic manager unit that serves it. -/
def Copy.col (c : Copy) : Nat := portBough c.port
def Copy.tm (c : Copy) : Nat := portTm c.port

/-- The key of a packet's shared transfer to a column (R289). -/
def shareKey (pk col : Nat) : Nat := pk * 32 + col
def Copy.shareKey (c : Copy) : Nat := Machine.shareKey (pkey c.bough c.tag) c.col

/-- Whether a copy takes part in a shared transfer. -/
def Copy.inShare (c : Copy) : Bool := c.shared && !c.detached

/-- Whether a copy's cells are in its crosspoint. -/
def Copy.inXp (c : Copy) : Bool := c.stage = .xp || c.stage = .noticed

/-- A sum over copies. -/
def State.sumCopies (s : State) (f : Copy → Nat) : Nat := s.copies.foldl (fun n e => n + f e.2) 0

/-- Cells that crosspoint (i, c) holds now: of copies with a transfer of their own, and of shared transfers. -/
def State.xpUse (s : State) (i c : Nat) : Nat :=
  s.sumCopies (fun x => if x.bough = i ∧ x.col = c ∧ x.inXp = true ∧ x.inShare = false then x.cells else 0)
    + s.shares.foldl (fun n e => if e.1 % 32 = c ∧ e.1 / 32 / 8192 = i ∧ e.2.present = true then n + e.2.cells else n) 0

/-- Crosspoint credits taken (R281): cells ordered or held. -/
def State.xpTaken (s : State) (i c : Nat) : Nat :=
  s.sumCopies (fun x => if x.bough = i ∧ x.col = c ∧ (x.inXp || decide (x.stage = .ordered)) = true ∧ x.inShare = false then x.cells else 0)
    + s.shares.foldl (fun n e => if e.1 % 32 = c ∧ e.1 / 32 / 8192 = i then n + e.2.cells else n) 0

/-- Cells that one port's copies hold or have ordered in crosspoint (i, c). -/
def State.xpPort (s : State) (i p : Nat) : Nat :=
  s.sumCopies (fun x => if x.bough = i ∧ x.port = p ∧ (x.inXp || decide (x.stage = .ordered)) = true ∧ x.inShare = false then x.cells else 0)

/-- Cells that shared transfers hold or have ordered in crosspoint (i, c). -/
def State.xpShared (s : State) (i c : Nat) : Nat :=
  s.shares.foldl (fun n e => if e.1 % 32 = c ∧ e.1 / 32 / 8192 = i then n + e.2.cells else n) 0

/-- Cells ordered from bough `i` and not yet read (R282), by one unit. -/
def State.rdOut1 (s : State) (t i : Nat) : Nat :=
  s.sumCopies (fun x => if x.bough = i ∧ x.tm = t ∧ x.stage = .ordered then x.cells else 0)

/-- Cells ordered from bough `i` and not yet read. -/
def State.rdOut (s : State) (i : Nat) : Nat :=
  s.sumCopies (fun x => if x.bough = i ∧ x.stage = .ordered then x.cells else 0)

/-- CRN_RD_STS of a bough and CRN_XP_STS of one of its crosspoints as they stand now. -/
def State.crownShow (s : State) (i c : Nat) : State :=
  let r := s.rdOut i
  let u := s.xpUse i c
  let s := (s.wr (CRN_RD_STS_RD_OUT i) r).wr (CRN_RD_STS_HWM i) (max r (s.rd (CRN_RD_STS_HWM i)))
  (s.wr (CRN_XP_STS_USE c i) u).wr (CRN_XP_STS_HWM c i) (max u (s.rd (CRN_XP_STS_HWM c i)))

/-- PORT_MAX and SHARED_MAX: below 163 act as 163, above 512 as 512. -/
def xpLimit (v : Nat) : Nat := max 163 (min 512 v)

/-- R289: a copy that took part in a shared transfer is read out or discarded, or is detached: the reference count falls,
and the cells go when it reaches 0. -/
def State.shareDown (s : State) (k : Nat) : State :=
  match s.shares.find? k with
  | none => s
  | some x =>
    if x.refs ≤ 1 then ({ s with shares := s.shares.erase k } : State).crownShow (k / 32 / 8192) (k % 32)
    else { s with shares := s.shares.insert k { x with refs := x.refs - 1 } }

/-! ### Port data (R43, R303, R312) -/

/-- The rate R_p of a port in Mb/s (R303). -/
def State.portMbps (s : State) (p : Nat) : Nat :=
  let r := modeRate (s.portMode p) * 1000
  if s.on (TMG_PORT_CFG_PSHP_EN p) then min r (max 1 (s.rd (TMG_PSHP_RATE_RATE p))) else r

/-- T_tx of a port in half ns. -/
def State.ttx (s : State) (p : Nat) : Nat := modeTtx (s.portMode p)

/-- MAX_FRAME in effect. -/
def State.maxFrame (s : State) (p : Nat) : Nat := max 1518 (min 10000 (s.rd (PRT_CFG_MAX_FRAME p)))

/-- Line time of `w` bytes at a rate in Mb/s, in ps. -/
def linePs (w mbps : Nat) : Nat := ceilDiv (w * 8000000) mbps

/-- A unit's time in ps. -/
def State.psAt (s : State) (isl : Nat) : Nat := s.localAcc isl * 1000 / 2 ^ 48

/-- Whether a port takes and sends copies: a port of the active mode, EN = 1, LINK_UP = 1. -/
def State.portUp (s : State) (p : Nat) : Bool :=
  decide (p < 256) && s.isPort p && s.on (PRT_CFG_EN p) && s.on (PRT_STS_LINK_UP p)

/-- (int32)(x − DEADLINE) > 0, with x in half ns (R35, R36, R295). -/
def lateBy (x2 deadline : Nat) : Bool :=
  let d := (x2 + 2 ^ 33 - 2 * (deadline % 2 ^ 32)) % 2 ^ 33
  d ≠ 0 && decide (d < 2 ^ 32)

/-! ### Queues (R298 to R304) -/

/-- The key of queue `q` of port `p`. -/
def qkey (p q : Nat) : Nat := 16 * p + q

/-- A queue. -/
def State.q (s : State) (k : Nat) : TmQ := s.qs.get {} k
def State.putQ (s : State) (k : Nat) (x : TmQ) : State :=
  { s with qs := s.qs.set {} k x }.wr (TMG_Q_BACKLOG_Q (k / 16) (k % 16)) x.bytes

/-- A port of the traffic manager. -/
def State.tmPort (s : State) (p : Nat) : TmPort := s.tmPorts.get {} p
def State.putTm (s : State) (p : Nat) (x : TmPort) : State := { s with tmPorts := s.tmPorts.set {} p x }

/-- The share of a queue. -/
def State.share (s : State) (k : Nat) : Nat := s.rd (TMG_Q_SHARE_SHARE (k / 16) (k % 16))

/-- The finish tag that follows a start tag (R304). -/
def State.finish (s : State) (k start w : Nat) : Nat := (start + ceilDiv (w * 65536) (s.share k)) % 2 ^ 48

/-- The head of a queue takes its tags from `start`, and its true time of arrival there. -/
def State.newHead (s : State) (k start : Nat) : State :=
  let x := s.q k
  match x.copies with
  | [] => s
  | n :: _ =>
    match s.copies.find? n with
    | none => s
    | some c =>
      (s.putCopy n { c with headAt := s.time.mono }).putQ k { x with s := start, f := s.finish k start c.w }

/-- Descriptors held by a unit, shown (R300). -/
def State.descAdd (s : State) (t : Nat) : State :=
  let n := s.rd (TMG_DESC_STS_IN_USE t) + 1
  let s := (s.wr (TMG_DESC_STS_IN_USE t) n).wr (TMG_DESC_HWM_HWM t) (max n (s.rd (TMG_DESC_HWM_HWM t)))
  if n = 65536 then s.raise TMG_INT_DESC_FULL else s
def State.descSub (s : State) (t : Nat) : State := s.wr (TMG_DESC_STS_IN_USE t) (s.rd (TMG_DESC_STS_IN_USE t) - 1)

/-- A copy enters its queue (R300, R304). -/
def State.enqueue (s : State) (n : Nat) (c : Copy) : State :=
  let k := qkey c.port c.cls
  let x := s.q k
  let s := ((s.putCopy n c).descAdd c.tm).putQ k { x with copies := x.copies ++ [n], bytes := x.bytes + c.w }
  if x.copies.isEmpty then s.newHead k (s.tmPort c.port).v else s

/-- A copy leaves its queue: its descriptor and backlog go; a head's successor takes its tags (R304). -/
def State.dequeue (s : State) (n : Nat) (c : Copy) : State :=
  let k := qkey c.port c.cls
  let x := s.q k
  if !x.copies.contains n then s
  else
    let wasHead := x.copies.head? == some n
    let s := (s.descSub c.tm).putQ k { x with copies := x.copies.erase n, bytes := x.bytes - c.w }
    if wasHead then s.newHead k x.f else s

/-- A copy is gone: out of its queue, its cells and credits freed, its share lowered, and its packet settled (R277, R30). -/
def State.endCopy (s : State) (n : Nat) : State :=
  match s.copies.find? n with
  | none => s
  | some c =>
    let s := if c.stage = .queued then s.dequeue n c else s
    let s := { s with copies := s.copies.erase n }
    let s := if c.inShare && decide (c.stage ≠ .tx) then s.shareDown c.shareKey else s
    (s.crownShow c.bough c.col).settle (pkey c.bough c.tag)

/-- A slot of a queue's counter set (R322, R393). -/
def State.qcount (s : State) (p q slot : Nat) (n : Nat := 1) : State :=
  if p < 256 then s.page (0x40000 + 128 * qkey p q + 8 * slot) n else s

/-- Whether a queued copy's packet is a bad cut-through frame (R292). -/
def State.copyBad (s : State) (c : Copy) : Bool :=
  match s.pkt? (pkey c.bough c.tag) with | some p => p.bark.bad | none => false

/-- R36, R295, R320: a copy discarded as a BOUND_MISS of its class. `why` 0 at selection, 1 not eligible. -/
def State.boundMiss (s : State) (n : Nat) (c : Copy) (why : Nat) : State :=
  let s := ((s.qcount c.port c.cls 10).cnt (TMG_BOUND_MISS_CNT c.cls)).raise TMG_INT_BOUND_MISS
  let s := match s.pkt? (pkey c.bough c.tag) with
    | some p => s.journalPkt (islTm c.tm) 0x0801 c.tm p.bark (natLe 1 c.port ++ natLe 1 c.cls ++ natLe 1 why
        ++ natLe 4 (s.now (islTm c.tm) - p.bark.arrTs))
    | none => s
  s.endCopy n

/-- R292: a copy of a bad cut-through frame whose transmission has not begun. -/
def State.ctDiscard (s : State) (n : Nat) (c : Copy) : State := (s.cnt (CRN_CT_DISCARD_CNT c.bough)).endCopy n

/-- R321: every copy in a port's queues is discarded; N_p is reset, the shapers keep their credit. -/
def State.portFlush (s : State) (p : Nat) : State :=
  let ns := (List.range 16).flatMap (fun q => (s.q (qkey p q)).copies)
  let s := ns.foldl (fun s n => match s.copies.find? n with
    | some c => ((s.qcount p c.cls 11).cnt TMG_DISC_LINK_CNT).endCopy n
    | none => s) s
  let s := if ns.isEmpty then s else s.raise TMG_INT_LINK_DISC
  s.putTm p { s.tmPort p with free := 0 }

/-! ### Gates (R309 to R312) -/

/-- Whether a port's gate list is in force (R310). -/
def State.gclOn (s : State) (p : Nat) : Bool := s.on (TMG_PORT_CFG_GCL_EN p) && s.on (TMG_GCL_STS_ACTIVE p)

/-- The key of an entry of one of a port's two lists: which of them is active is `side`. -/
def State.gclEnt (s : State) (p : Nat) (side : Bool) (e : Nat) : Nat := s.ent 0x71 (b2n side) (256 * p + e)

/-- Interval of an entry: below 64 acts as 64 (R309). -/
def gclInterval (e : Nat) : Nat := max 64 (fget e GC_INTERVAL)

/-- The entries of a list: (interval in ns, open gates). -/
def State.gclList (s : State) (p : Nat) (side : Bool) (len : Nat) : List (Nat × Nat) :=
  (List.range len).map (fun e => let x := s.gclEnt p side e; (gclInterval x, fget x GC_GATES))

/-- CYCLE of a list. -/
def gclCycle (l : List (Nat × Nat)) : Nat := l.foldl (fun n e => n + e.1) 0

/-- The active list. -/
def State.gclActive (s : State) (p : Nat) : List (Nat × Nat) := let t := s.tmPort p; s.gclList p t.side t.len

/-- Whether a queue is open in every entry. -/
def gclAlways (l : List (Nat × Nat)) (q : Nat) : Bool := l.all (fun e => bit e.2 q)

/-- The length in ns of the run of open entries at the front of a list. -/
def openRun (l : List (Nat × Nat)) (q : Nat) : Nat := ((l.takeWhile (fun e => bit e.2 q)).map (·.1)).foldl (· + ·) 0

/-- The list turned so that it starts after a closed entry, when it has one: no window is then cut in two. -/
def gclTurned (l : List (Nat × Nat)) (q : Nat) : List (Nat × Nat) :=
  match l.findIdx? (fun e => !bit e.2 q) with
  | some i => l.drop (i + 1) ++ l.take (i + 1)
  | none => l

/-- O_q in ps: over the open windows of one cycle, what is left of each after a frame of line time `m` ps. -/
def openTime (q m : Nat) : Nat → List (Nat × Nat) → Nat
  | acc, [] => acc * 1000 - m
  | acc, e :: r => if bit e.2 q then openTime q m (acc + e.1) r else (acc * 1000 - m) + openTime q m 0 r

/-- R312: O_q of every queue of a port computed and shown; 0 shown while every queue is open at all times. -/
def State.gateCalc (s : State) (p : Nat) : State :=
  let l := s.gclActive p
  let m := linePs (s.maxFrame p + 24) (s.portMbps p)
  (List.range 16).foldl (fun s q =>
    let o := if s.gclOn p then openTime q m 0 (gclTurned l q) else 0
    ({ s with qs := s.qs.set {} (qkey p q) { s.q (qkey p q) with open_ := o } } : State).wr (TMG_Q_GATE_OPEN p q) (o / 1000)) s

/-- The window of queue `q` that contains phase `ph` (ps into the cycle): start and end, as ps into a cycle that the run
may leave at its end; `none` where the queue is closed. -/
def gclWindow (l : List (Nat × Nat)) (q ph : Nat) : Option (Int × Int) :=
  let starts := l.foldl (fun (x : List (Nat × Nat × Nat) × Nat) e => (x.1 ++ [(x.2, e.1, e.2)], x.2 + e.1)) ([], 0)
  let i := (starts.1.findIdx? (fun e => decide (ph < (e.1 + e.2.1) * 1000))).getD (l.length - 1)
  let e := nth l i (0, 0)
  let st := (nth starts.1 i (0, 0, 0)).1
  if !bit e.2 q then none
  else
    let before := openRun ((l.take i).reverse ++ (l.drop (i + 1)).reverse) q
    let after := openRun (l.drop i ++ l.take i) q
    some (((st : Int) - before) * 1000, ((st : Int) + after) * 1000)

/-- R311: whether a gate allows a copy of `w` bytes from queue `q` of port `p` at time `t` ps; if so, the opening of its
window in ps of device time. -/
def State.gateOk (s : State) (p q w t : Nat) : Option Nat :=
  if !s.gclOn p then some 0
  else
    let l := s.gclActive p
    if gclAlways l q then some 0
    else
      let at_ := t + 200000 + s.ttx p * 500
      let base := (s.tmPort p).base * 1000
      let cyc := gclCycle l * 1000
      let ph := (((at_ : Int) - base) % (cyc : Int)).toNat
      match gclWindow l q ph with
      | none => none
      | some (a, b) =>
        if (ph : Int) + linePs w (s.portMbps p) ≤ b then some ((at_ : Int) - ph + a).toNat else none

/-! ### Shapers (R307) -/

/-- The signed credit of a shaper's register. -/
def credit (v : Nat) : Int := toSigned 32 v

/-- Whether a queue's and a port's shapers permit a selection. -/
def State.shapersOk (s : State) (p q : Nat) : Bool :=
  (!s.on (TMG_QSHP_RATE_EN p q) || decide (0 ≤ credit (s.rd (TMG_QSHP_CREDIT_CREDIT p q))))
    && (!s.on (TMG_PORT_CFG_PSHP_EN p) || decide (0 ≤ credit (s.rd (TMG_PSHP_CREDIT_CREDIT p))))

/-- A credit after a selection of `w` bytes. -/
def debit (v w : Nat) : Nat := ofSigned 32 (credit v - (w * 64 : Nat))

/-- R307: a selected copy is charged to its shapers. -/
def State.shapersCharge (s : State) (p q w : Nat) : State :=
  let s := if s.on (TMG_QSHP_RATE_EN p q) then s.wr (TMG_QSHP_CREDIT_CREDIT p q) (debit (s.rd (TMG_QSHP_CREDIT_CREDIT p q)) w) else s
  if s.on (TMG_PORT_CFG_PSHP_EN p) then s.wr (TMG_PSHP_CREDIT_CREDIT p) (debit (s.rd (TMG_PSHP_CREDIT_CREDIT p)) w) else s

/-- A credit after a refill: RATE more, capped at BURST; a RATE of 0 acts as 1. -/
def refilled (v rate burst : Nat) : Nat := ofSigned 32 (min (credit v + (max 1 rate : Nat)) ((burst * 64 : Nat) : Int))

/-- R307: a shaper enabled holds BURST × 64, one disabled reads 0; one that stays as it was keeps its credit. -/
def shaperNow (was now : Bool) (burst v : Nat) : Nat :=
  if was == now then v else if now then ofSigned 32 ((burst * 64 : Nat) : Int) else 0

end Sys2Proof.Machine
end

