-- ==== Sys2Proof/Machine/Egress.lean ====
section
/-!
DEFINITION. Egress editing and the transmit MAC: the edits of R113 in the order of R482, translation (R210), padding
(R68), the PTP correction (R332 to R334), the FCS, and the stomped end of R72.
-/
namespace Sys2Proof.Machine

/-! ### The frame check sequence (R65, R68) -/

/-- One bit of the CRC-32 of IEEE 802.3, least significant bit first. -/
def crcBit (c : Nat) : Nat := (c / 2) ^^^ (if c % 2 = 1 then 0xEDB88320 else 0)

/-- One byte of it. -/
def crcByte (c : Nat) (b : Byte) : Nat :=
  let x := c ^^^ b.toNat
  crcBit (crcBit (crcBit (crcBit (crcBit (crcBit (crcBit (crcBit x)))))))

/-- The CRC-32 of bytes. -/
def crc32 (bs : List Byte) : Nat := (bs.foldl crcByte 0xFFFFFFFF) ^^^ 0xFFFFFFFF

/-- A frame with its FCS. -/
def withFcs (f : List Byte) : List Byte := f ++ natLe 4 (crc32 f)

/-- Whether the last four bytes of a frame are its FCS. -/
def fcsOk (f : List Byte) : Bool := f.drop (f.length - 4) == natLe 4 (crc32 (f.take (f.length - 4)))

/-- The stomped end of R72: the bytes sent, then the inverse of their CRC-32. -/
def stomped (f : List Byte) : List Byte := f ++ natLe 4 (crc32 f ^^^ 0xFFFFFFFF)

/-! ### Checksums (RFC 1624) -/

/-- A checksum after 16-bit words `olds` became `news`. -/
def csumUpd (hc : Nat) (olds news : List Nat) : Nat :=
  65535 - csumFold ((65535 - hc) + (olds.map (65535 - ·)).foldl (· + ·) 0 + news.foldl (· + ·) 0)

/-- The 16-bit words of bytes. -/
def words16 (bs : List Byte) : List Nat := (List.range (bs.length / 2)).map (fun i => beAt bs (2 * i) 2)

/-- A checksum field at `a` updated for words that changed. -/
def csumAt (f : List Byte) (a : Nat) (olds news : List Nat) : List Byte := splice f a (natBe 2 (csumUpd (beAt f a 2) olds news))

/-- The 16-bit word at `a` replaced, with the header checksum of the IPv4 header at `l3`. -/
def putV4 (f : List Byte) (l3 a v : Nat) : List Byte :=
  csumAt (splice f a (natBe 2 v)) (l3 + 10) [beAt f a 2] [v]

/-! ### Steps 1 and 2 of R482 -/

/-- The header patch of R230 on the frame as received. -/
def patchFrame (f : List Byte) (l : List (Nat × Byte)) : List Byte := l.foldl (fun f x => splice f x.1 [x.2]) f

/-- The DSCP of the L3 header at `a`. -/
def setDscp (f : List Byte) (ver a d : Nat) : List Byte :=
  let w := beAt f a 2
  if ver = 4 then putV4 f a a (setBits w 2 6 d) else splice f a (natBe 2 (setBits w 6 6 d))

/-- The TTL or hop limit of the L3 header at `a` lowered by 1. -/
def decTtl (f : List Byte) (ver a : Nat) : List Byte :=
  if ver = 4 then putV4 f a (a + 8) ((beAt f (a + 8) 2 + 65280) % 65536) else splice f (a + 7) (natBe 1 ((beAt f (a + 7) 1 + 255) % 256))

/-- DSCP_V and TTL_DEC on a header set (R113). -/
def editL3 (act : Nat) (st : HdrSet) (f : List Byte) : List Byte :=
  match st.l3 with
  | none => f
  | some a =>
    let f := if fon act AR_DSCP_V then setDscp f st.ver a (fget act AR_DSCP) else f
    if fon act AR_TTL_DEC then decTtl f st.ver a else f

/-! ### Step 3: translation (R210) -/

/-- The TCP or UDP checksum of a set updated; a UDP checksum of 0 over IPv4 stays 0, and one that would become 0 is sent
as 0xFFFF (PRESUMED: RFC 768). -/
def l4Csum (st : HdrSet) (f : List Byte) (olds news : List Nat) : List Byte :=
  match st.l4 with
  | none => f
  | some a =>
    if st.l4k = 0x0B then csumAt f (a + 16) olds news
    else if st.l4k = 0x0A then
      if st.ver = 4 ∧ beAt f (a + 6) 2 = 0 then f
      else
        let c := csumUpd (beAt f (a + 6) 2) olds news
        splice f (a + 6) (natBe 2 (if c = 0 then 65535 else c))
    else f

/-- The address part of a translation, with the checksums that cover it. -/
def xlatAddr (st : HdrSet) (x : Xlat) (f : List Byte) : List Byte :=
  match st.l3 with
  | none => f
  | some l3 =>
    let n := if st.ver = 4 then 4 else 16
    let a := if st.ver = 4 then (if x.src then l3 + 12 else l3 + 16) else (if x.src then l3 + 8 else l3 + 24)
    let new := x.addr.drop (16 - n)
    let olds := words16 (slice0 f a n)
    let f := splice f a new
    let f := if st.ver = 4 then csumAt f (l3 + 10) olds (words16 new) else f
    l4Csum st f olds (words16 new)

/-- The port part. -/
def xlatPort (st : HdrSet) (x : Xlat) (f : List Byte) : List Byte :=
  match st.l4, x.port with
  | some l4, some p =>
    if st.l4k = 0x0A ∨ st.l4k = 0x0B then
      let a := if x.src then l4 else l4 + 2
      l4Csum st (splice f a (natBe 2 p)) [beAt f a 2] [p]
    else f
  | _, _ => f

/-- A translation record applied to the set that KEY_PROF selects. -/
def translate (st : HdrSet) (x : Option Xlat) (f : List Byte) : List Byte :=
  match x with
  | some x => xlatPort st x (xlatAddr st x f)
  | none => f

/-! ### Step 4: EDIT_OP -/

/-- The effective EDIT_OP: under BRIDGE and BRIDGE_COPY only 1 to 3 apply (R113). -/
def editOp (p : Pkt) (act : Nat) : Nat :=
  let op := fget act AR_EDIT_OP
  if actBridges p.ps.act ∧ op = 4 then 0 else op

/-- Whether EDIT_OP 4 decapsulates: where the inner L2 header starts. -/
def decapAt (p : Pkt) (op : Nat) : Option Nat := if op = 4 ∧ p.ps.tun = true then p.ps.inner.l2 else none

/-- The bytes after EDIT_OP. -/
def editTag (p : Pkt) (act op : Nat) (f : List Byte) : List Byte :=
  match op with
  | 1 => f.take 12 ++ natBe 2 0x8100 ++ natBe 2 (fget act AR_EDIT_PCP * 2 ^ 13 + fget act AR_EDIT_VID) ++ f.drop 12
  | 2 => if p.ps.vid.isSome then f.take 12 ++ f.drop 16 else f
  | 3 => if p.ps.vid.isSome then splice f 14 (natBe 2 (setBits (beAt f 14 2) 0 12 (fget act AR_EDIT_VID))) else f
  | 4 => match decapAt p op with | some a => f.drop a | none => f
  | _ => f

/-- How far EDIT_OP moves the headers that stay: bytes put in front, bytes taken away. -/
def editShift (p : Pkt) (op : Nat) : Nat × Nat :=
  match op with
  | 1 => (4, 0)
  | 2 => if p.ps.vid.isSome then (0, 4) else (0, 0)
  | 4 => match decapAt p op with | some a => (0, a) | none => (0, 0)
  | _ => (0, 0)

/-- Zero bytes at the end to 60 (R68). -/
def padded (f : List Byte) : List Byte := f ++ List.replicate (60 - f.length) 0

/-! ### PTP (R332 to R334) -/

/-- The L4 header behind the extension headers of an IPv6 datagram (R82), by its next value: none of a fragment. -/
def behindExt (f : List Byte) : Nat → Nat → Nat → Option (Nat × Nat)
  | 0, _, _ => none
  | n + 1, a, nh =>
    if nh = 0 ∨ nh = 43 ∨ nh = 60 then behindExt f n (a + 8 * (beAt f (a + 1) 1 + 1)) (beAt f a 1)
    else if nh = 44 then none else some (a, nh)

/-- The UDP header of a frame that has not been parsed (R373), and its IP version, behind the EtherType at `e`: IPv4 or IPv6,
no fragment. -/
def udpAt (f : List Byte) (e : Nat) : Option (Nat × Nat) :=
  let a := e + 2
  if beAt f e 2 = 0x0800 then
    if beAt f (a + 9) 1 = 17 ∧ beAt f (a + 6) 2 % 2 ^ 14 = 0 then some (a + 4 * (beAt f a 1 % 16), 4) else none
  else if beAt f e 2 = 0x86DD then
    match behindExt f 8 (a + 40) (beAt f (a + 6) 1) with
    | some (u, nh) => if nh = 17 then some (u, 6) else none
    | none => none
  else none

/-- Where a PTP message of the leaving frame starts, and its UDP header when it has one: (offset, UDP offset and IP
version). -/
def ptpAt (p : Pkt) (op : Nat) (f : List Byte) : Option (Nat × Option (Nat × Nat)) :=
  let tag (a : Nat) : Nat := if beAt f a 2 = 0x8100 ∨ beAt f a 2 = 0x88A8 then a + 4 else a
  let e := tag (tag 12)
  let st := if (decapAt p op).isSome then p.ps.inner else p.ps.outer
  if beAt f e 2 = 0x88F7 then some (e + 2, none)
  else
    if p.bark.inj then
      match udpAt f e with
      | some (a, v) => if beAt f (a + 2) 2 = 319 then some (a + 8, some (a, v)) else none
      | none => none
    else
    match st.l4 with
    | none => none
    | some l4 =>
      let a := l4 + (editShift p op).1 - (editShift p op).2
      if st.l4k = 0x0A ∧ st.frag.isNone ∧ beAt f (a + 2) 2 = 319 then some (a + 8, some (a, st.ver)) else none

/-- The residence to add (R334), with a step inside it taken out. -/
def State.residence (s : State) (arr teg : Nat) : Int :=
  let at_ : Int := s.rd64 TIM_STEP_AT
  let d := toSigned 64 (s.rd64 TIM_STEP_DELTA)
  let res : Int := (teg : Int) - arr
  if (arr : Int) < at_ ∧ at_ ≤ (teg : Int) - d then res - d else res

/-- correctionField plus a residence, saturating. -/
def corrField (c : Nat) (res : Int) : Nat :=
  let x := toSigned 64 c + res * 65536
  if (2 ^ 63 - 1 : Nat) < x then 2 ^ 63 - 1 else ofSigned 64 x

/-- The bytes that follow a PTP message rewritten so that the UDP checksum stays valid (R333): words `olds` of the message
became `news`. -/
def fixTail (f : List Byte) (a mlen : Nat) (olds news : List Nat) : List Byte :=
  let t := beAt f (a + mlen) 2
  let sw (x : Nat) : Nat := if mlen % 2 = 0 then x else x % 256 * 256 + x / 256
  let t' := csumFold (sw t + olds.foldl (· + ·) 0 + (news.map (65535 - ·)).foldl (· + ·) 0)
  splice f (a + mlen) (natBe 2 (sw t'))

/-- R332 to R334 on a leaving frame: corrected, or unchanged with the counter that says why. -/
def State.ptpCorrect (s : State) (p : Pkt) (op port teg : Nat) (f : List Byte) : List Byte × State :=
  if !s.on TIM_CFG_TC_EN || !bit (s.rd (TIM_PTP_EN_PORTS (port / 32))) (port % 32) then (f, s)
  else
    match ptpAt p op f with
    | none => (f, s)
    | some (a, udp) =>
      if 256 < a + 34 ∨ f.length < a + 34 then (f, s)
      else if beAt f (a + 1) 1 % 16 ≠ 2 then (f, s.cnt TC_VER_CNT)
      else if 3 < beAt f a 1 % 16 then (f, s)
      else
        let mlen := beAt f (a + 2) 2
        let fix := match udp with
          | some (u, v) => v != 4 && (decide (beAt f (u + 4) 2 < 8 + mlen + 2) || decide (f.length < a + mlen + 2))
          | none => false
        let res := s.residence p.bark.arrTs teg
        if fix then (f, s.cnt TC_NOFIX_CNT)
        else if res < 0 then (f, s.cnt TC_RES_BAD_CNT)
        else
          let new := natBe 8 (corrField (beAt f (a + 8) 8) res)
          let g := splice f (a + 8) new
          let g := match udp with
            | some (u, v) =>
              if v = 4 then (if beAt g (u + 6) 2 = 0 then g else splice g (u + 6) [0, 0])
              else fixTail g a mlen (words16 (slice0 f (a + 8) 8)) (words16 new)
            | none => g
          (g, s.cnt TC_CORR_CNT)

/-! ### What leaves -/

/-- A forwarded copy's bytes without FCS (R113, R482, R68, R333), edited in the egress bough. -/
def State.editCopy (s : State) (p : Pkt) (port teg : Nat) : List Byte × State :=
  let f := p.bytes.take (p.bytes.length - 4)
  if p.bark.inj then s.ptpCorrect p 0 port teg (padded f)
  else
    let act := s.actRec p.bark.gen p.bark.action
    let op := editOp p act
    let f := patchFrame f p.patch
    let f := if actBridges p.ps.act then f else editL3 act (s.editSet p) f
    let f := translate (keySet p.ps) p.dec.xl f
    let s := if op = 4 ∧ (decapAt p op).isNone then s.cnt (BGH_EDIT_SKIP_CNT (portBough port)) else s
    s.ptpCorrect p op port teg (padded (editTag p act op f))

/-- A mirror copy's bytes without FCS (R114). -/
def mirrorBytes (p : Pkt) (len : Nat) : List Byte := p.bytes.take (min (p.bytes.length - 4) (len - 4))

/-! ### The transmit MAC -/

/-- A frame has left a port: counted, and the last one shown. -/
def State.sentFrame (s : State) (p : Nat) (bs : List Byte) (bad : Bool) : State :=
  { s with txLast := s.txLast.insert p (bs, bad) }.cnt (TX_FRAMES_CNT p) |>.cnt (TX_BYTES_CNT p) bs.length

/-- Cells of a copy that left for the crosspoint before its frame's end, `len` of whose bytes came in: those sent on the row
bus, and those read out by a copy whose head has left. -/
def State.openCells (s : State) (c : Copy) (len : Nat) : State :=
  match s.pkt? (pkey c.bough c.tag) with
  | none => s
  | some p =>
    if !c.ct || copyNeedsStore c then s
    else
      let n := copyCells p c.mirror len
      let s := (s.cnt (CRN_XFER_CELL_CNT c.bough) n).pmuEv 0x0A c.bough n
      if c.stage = .tx then s.cnt (CRN_XP_CELL_CNT c.col) n else s

/-- The same, of a copy that ends before its frame. -/
def State.cutCells (s : State) (c : Copy) (got : Nat) : State :=
  match s.pkt? (pkey c.bough c.tag) with
  | some p => if p.ended then s else s.openCells c got
  | none => s

/-- R72: a copy whose head has left is ended: `got` bytes of its `inLen` ingress bytes had come in. -/
def State.cutCopy (s : State) (c : Copy) (got inLen : Nat) : State :=
  let body := c.out.take (c.out.length - 4)
  let cut := body.take (min body.length (got + body.length + 4 - inLen))
  s.sentFrame c.port (stomped cut) true

/-- A copy ended under R72 and counted in TX_STOMP_CNT. -/
def State.stompCopy (s : State) (n : Nat) (c : Copy) (got inLen : Nat) : State :=
  (((s.cutCopy c got inLen).cutCells c (min got inLen)).cnt (TX_STOMP_CNT c.port)).endCopy n

/-- Bytes of a copy that have left by now, by its SFD and the line's rate. -/
def State.leftBytes (s : State) (c : Copy) : Nat :=
  (s.psAt (islQuad (c.port / 4)) - c.teg * 1000) * modeRate (s.portMode c.port) / 8000

/-- R74: a copy that is leaving when LINK_UP falls is ended as in R72 and counted in TX_ABORT_CNT. The spec does not say
when the PCS is still transmitting; the model takes it to be (DESIGN CHOICE, assumption 60). -/
def State.abortCopy (s : State) (n : Nat) (c : Copy) : State :=
  let len := c.out.length
  let got := min len (s.leftBytes c)
  (((s.cutCopy c got len).cutCells c got).cnt (TX_ABORT_CNT c.port)).endCopy n

/-- R292: the copies of a packet that has become a bad cut-through frame, by where they stand; copies not selected are
discarded at selection. -/
def State.badCopies (s : State) (k got inLen : Nat) : State :=
  (s.copiesOf k).foldl (fun s e =>
    match e.2.stage with
    | .tx => s.stompCopy e.1 e.2 got inLen
    | .queued => s
    | _ => (s.cutCells e.2 (min got inLen)).ctDiscard e.1 e.2) s

end Sys2Proof.Machine
end

