-- ==== Sys2Proof/Machine/Frames.lean ====
section
/-!
DEFINITION. Frames at the receive MAC and in the ingress store (chapters 01, 02 and 10): SFD, buffers, overflow, frame end,
the release of the parse window, LLDP, and ports that go down.
-/
namespace Sys2Proof.Machine

/-! ### The MAC's checks (R61, R65, R67) -/

/-- An LLDP frame (R61). -/
def isLldp (f : List Byte) : Bool := beAt f 0 6 == 0x0180C200000E && beAt f 12 2 == 0x88CC

/-- A MAC Control frame (R67). -/
def isMacCtrl (f : List Byte) : Bool := beAt f 12 2 == 0x8808

/-- Why the MAC drops a frame (R65), first cause that applies: 0 runt, 1 code error, 2 FCS, 3 oversize. -/
def macCause (f : List Byte) (codeErr : Bool) (maxf : Nat) : Option Nat :=
  if f.length < 64 then some 0 else if codeErr then some 1 else if !fcsOk f then some 2
  else if maxf < f.length then some 3 else none

/-- A frame counted by the MAC: under its cause, or as good. -/
def State.macCount (s : State) (p : Nat) (f : List Byte) (cause : Option Nat) : State :=
  match cause with
  | some 0 => s.cnt (RX_RUNT_CNT p)
  | some 1 => (s.cnt (RX_CODE_ERR_CNT p)).modPort p (fun q => { q with secErr := q.secErr + 1 })
  | some 2 => (s.cnt (RX_FCS_ERR_CNT p)).modPort p (fun q => { q with secErr := q.secErr + 1 })
  | some _ => s.cnt (RX_OVERSIZE_CNT p)
  | none => (s.cnt (RX_FRAMES_CNT p)).cnt (RX_BYTES_CNT p) f.length

/-! ### SFD (R20, R21, R31, R32, R64) -/

/-- ARR_TS: the sample less the mode's fixed receive delay and RX_ADJ, whole ns (R20, R327). -/
def State.arrTs (s : State) (p : Nat) : Nat :=
  let x : Int := (s.localAcc (portQuad p) * 1000 : Nat)
    - ((modeTrx (s.portMode p) * 500 : Nat) + toSigned 16 (s.rd (TIM_PORT_ADJ_RX_ADJ p))) * (2 ^ 48 : Nat)
  ofSigned 64 (x / (1000 * 2 ^ 48 : Nat))

/-- The next SEQ of a port is used (R21). -/
def State.nextSeq (s : State) (p : Nat) : State := s.modPort p (fun q => { q with seq := (q.seq + 1) % 2 ^ 32 })

/-- The packet of a line frame at its SFD. -/
def State.framePkt (s : State) (p t : Nat) (bytes : List Byte) : Pkt :=
  { bark := { arrTs := s.arrTs p, seq := (s.port p).seq, ingPort := p, bough := portBough p, ct := s.on (PRT_CFG_CT_EN p), tag := t }
    bytes := bytes }

/-- R20, R32, R64: an SFD is recognised; the frame takes a tag, or none of it is stored. -/
def State.frameSfd (s : State) (p t : Nat) (bytes : List Byte) : State :=
  let b := portBough p
  if !s.portOn p || !s.lineOn p || !s.on (PRT_STS_LINK_UP p) || decide ((s.rxPort p).cur ≠ .idle) then s
  else
    let k := s.framePkt p t bytes
    let s := s.nextSeq p
    if s.on (PRT_CFG_TRACE_BLOCK_EN p) && s.rd (PRT_STS_TRACE p) == 2 && !isLldp bytes then
      (s.cnt (RX_TRACE_DROP_CNT p)).setCur p (.skip bytes)
    else if !s.tagFree b false then
      (((s.cnt (BGH_TAG_EXHAUST_CNT b)).rxDrop p 0).raise (BGH_TAG_INT_EXHAUST b)).setCur p (.skip bytes)
    else
      match s.tagFrom b 8192 t with
      | none => s
      | some t =>
        let x := s.rxPort p
        let (ue, s) := s.injPacket 4 (ceilDiv bytes.length 8) b (islBough b)
        (s.takeTag b t { k with bark := { k.bark with tag := t }, ue := ue }).setRx p { cur := .frame t, fifo := x.fifo ++ [t] }

def execFrameSfd (p : Fin 256) (t : Fin 8192) (bytes : List Byte) (s : State) : Out :=
  onIsl (portQuad p.val) s (·.frameSfd p.val t.val bytes)

/-! ### Buffers (R271 to R276) -/

/-- The offset and version of the IP header behind an Ethernet II header and at most two tags (R271). -/
def ethIp (f : List Byte) : Option (Nat × Nat) :=
  let tag (a : Nat) : Nat := if beAt f a 2 = 0x8100 ∨ beAt f a 2 = 0x88A8 then a + 4 else a
  let e := tag (tag 12)
  if beAt f e 2 = 0x0800 then some (e + 2, 4) else if beAt f e 2 = 0x86DD then some (e + 2, 6) else none

/-- Frame length that an IP header at `a` claims, FCS included. -/
def ipClaim (f : List Byte) (a ver : Nat) : Nat := if ver = 4 then beAt f (a + 2) 2 + a + 4 else beAt f (a + 4) 2 + 40 + a + 4

/-- The length estimate E of a frame at its allocation point (R271). -/
def State.estimate (s : State) (p : Pkt) : Nat :=
  if p.ended then p.bytes.length
  else match ethIp p.bytes with
    | some (a, v) => ipClaim p.bytes a v
    | none => s.maxFrame p.bark.ingPort

/-- The allocation point has been reached (R271). -/
def allocPoint (p : Pkt) : Bool := p.ended || decide (256 < p.bytes.length)

/-- R276, R280: the cut-through copies of a promoted frame whose transfer has not begun have the new buffer's capacity as
their L. -/
def State.copiesGrow (s : State) (k q : Nat) (p : Pkt) : State :=
  (s.copiesOf k).foldl (fun s e =>
    if e.2.ct && copyNeedsStore e.2 && !p.ended then
      let l := 256 * poolSize q
      (s.putCopy e.1 { e.2 with len := l, cells := copyCells p e.2.mirror l }).crownShow e.2.bough e.2.col
    else s) s

/-- A granted buffer written into the bark; a promotion frees the old one (R276). -/
def State.bufGrant (s : State) (k u q : Nat) (p : Pkt) : State :=
  let s := if p.promote then
      ((s.cnt (CRN_PROMOTE_CNT (k / 8192))).bufFree (k / 8192) p.bark.buf p.bark.pool (k % 8192)).copiesGrow k q p
    else s
  let s := s.modPkt k (fun p => { p with hasBuf := true, promote := false, bark := { p.bark with buf := u, pool := q } })
  if p.ended then s.fifoOut p.bark.ingPort (k % 8192) else s

/-- What a frame asks for: at its first request it forms E, which it keeps (R271); a promotion asks for MAX_FRAME (R276). -/
def State.wantBytes (s : State) (p : Pkt) : Nat :=
  if p.promote then s.maxFrame p.bark.ingPort else p.est.getD (s.estimate p)

/-- R271, R272, R274: a frame asks for its buffer; the first failure of its first allocation counts. -/
def State.bufAsk (s : State) (k : Nat) (p : Pkt) : State :=
  let est := s.wantBytes p
  let s := if p.promote then s else s.modPkt k ({ · with est := some est })
  match s.bufAlloc (k / 8192) (ownerOf p) est (k % 8192) with
  | some (u, q, s) => s.bufGrant k u q p
  | none => if p.nobuf || p.promote then s else (s.cnt (CRN_NOBUF_CNT (k / 8192))).modPkt k ({ · with nobuf := true })

/-- The frame at the head of a port's FIFO, when it waits for a buffer. -/
def State.wantsBuf (s : State) (p : Nat) : Option (Nat × Pkt) :=
  match (s.rxPort p).fifo with
  | [] => none
  | t :: _ =>
    match s.pkt? (pkey (portBough p) t) with
    | none => none
    | some x =>
      if (x.hasBuf && !x.promote) || !allocPoint x || (x.stage ≠ .rx && x.stage ≠ .lldp && !x.promote) then none
      else some (pkey (portBough p) t, x)

/-- The size of the injected packet that a bough holds back for want of a tag or buffer (R373); 0 when none waits. -/
def State.injHeld (s : State) (b : Nat) : Nat :=
  match (s.svn.ch.flatMap (fun e => e.2.flight)).find? (fun c => c.held && c.fin.isNone && portBough (leAt c.desc 2 1) == b) with
  | some c => leAt c.desc 8 2 + 4
  | none => 0

/-- Whether member `o` of a bough's allocator (ports 0 to 7, owner 8 the injected packet at hand) waits for a buffer that it
may take now. -/
def State.allocWaits (s : State) (b host o : Nat) : Bool :=
  if o = 8 then decide (0 < host) && (s.allocPool b 8 4 (firstFit host)).isSome
  else match s.wantsBuf (8 * b + o) with
    | some (_, x) => (s.allocPool b o 4 (firstFit (s.wantBytes x))).isSome
    | none => false

/-- R273: whether member `o` may allocate now: nothing to be had for it (it is tried and fails), or its turn among those
that can be served. `host` is the size of the injected packet at hand, 0 when none asks. -/
def State.allocMay (s : State) (b host o : Nat) : Bool :=
  !s.allocWaits b host o || s.rrPick (rrAlloc b) 9 (s.allocWaits b host) == some o

/-- R271 to R274: the frame at the head of a port's FIFO asks, in its turn. -/
def State.bufferAlloc (s : State) (p : Nat) : State :=
  let b := portBough p
  match s.wantsBuf p with
  | none => s
  | some (k, x) =>
    let host := s.injHeld b
    if !s.allocMay b host (p % 8) then s
    else
      let s := if s.allocWaits b host (p % 8) then s.rrServed (rrAlloc b) 9 (p % 8) else s
      s.bufAsk k x

def execBufferAlloc (p : Fin 256) (s : State) : Out := onIsl (islBough (portBough p.val)) s (·.bufferAlloc p.val)

/-! ### Bad cut-through frames (R291, R292) -/

/-- R192: the corrections of the lines whose step 1 counted a frame before its end. -/
def corrsOf (p : Pkt) (len : Nat) (bad : Bool) : List Corr :=
  (p.flow.counted.filter (fun (e : Nat × Nat × Nat) => bad || e.2.2 != len)).map
    (fun (e : Nat × Nat × Nat) => ⟨p.bark.bough, e.1, e.2.1, (len + 2 ^ 48 - e.2.2) % 2 ^ 48, bad⟩)

/-- The corrections of a packet sent. -/
def State.corrSend (s : State) (k len : Nat) (bad : Bool) : State :=
  match s.pkt? k with
  | none => s
  | some p =>
    ({ s with gv.corrs := s.gv.corrs ++ corrsOf p len bad } : State).modPkt k
      (fun p => { p with flow := { p.flow with counted := [] } })

/-- R291, R292: a frame becomes bad after `got` of its bytes: its copies end by where they stand, its copies to the host
are dropped, its learn request is discarded, its flow records are corrected. -/
def State.frameBad (s : State) (k got : Nat) (p : Pkt) : State :=
  let s := s.cnt (RX_CT_BAD_CNT p.bark.ingPort)
  let s := s.modPkt k (fun p => { p with bark := { p.bark with bad := true } })
  let s := s.badCopies k got p.bytes.length
  let s := s.modPkt k (fun p => { p with bytes := p.bytes.take got, ended := true, hostCopies := []
                                         bark := { p.bark with len := min got p.bytes.length } })
  let s := (s.learnEnd p.bark.ingPort true).corrSend k (min got p.bytes.length) true
  (if p.hasBuf then s.fifoOut p.bark.ingPort (k % 8192) else s).settle k

/-- A frame dropped before its parse window was released: its buffer and tag are freed (R275). -/
def State.frameDrop (s : State) (k : Nat) (p : Pkt) : State := (s.fifoOut p.bark.ingPort (k % 8192)).release k

/-- Whether the head of any copy of a packet has left. -/
def State.headLeft (s : State) (k : Nat) : Bool := (s.copiesOf k).any (fun e => e.2.stage = .tx)

/-- Whether a Crown transfer of any copy of a packet has begun. -/
def State.transferBegun (s : State) (k : Nat) : Bool := (s.copiesOf k).any (fun e => !copyNeedsStore e.2)

/-- How many of `n` bytes of a frame the MAC takes: none beyond MAX_FRAME (R65). -/
def State.macTakes (s : State) (p n : Nat) : Nat := min n (s.maxFrame p)

/-- R276: the frame that is arriving outgrows its buffer: it is promoted, or cut off when a transfer has begun. -/
def State.bufferOverrun (s : State) (p : Nat) : State :=
  match (s.rxPort p).cur with
  | .frame t =>
    let k := pkey (portBough p) t
    match s.pkt? k with
    | none => s
    | some x =>
      let cap := 256 * poolSize x.bark.pool
      if !x.hasBuf || x.promote || decide (s.macTakes p x.bytes.length ≤ cap) then s
      else if s.transferBegun k then
        let s := (s.cnt (CRN_OVERRUN_CNT (portBough p))).setCur p (.skip x.bytes)
        s.frameBad k cap x
      else
        let x := { x with promote := true }
        (s.putPkt k x).bufAsk k x
  | _ => s

def execBufferOverrun (p : Fin 256) (s : State) : Out := onIsl (islBough (portBough p.val)) s (·.bufferOverrun p.val)

/-- Bytes that a port's FIFO holds: of each frame the bytes that have come (`got` of the one that is arriving) and have not
moved to a buffer: a frame with a buffer has moved all, one that waits for its promotion as many as its old buffer holds
(R69, R275, R276). -/
def State.fifoBytes (s : State) (p t got : Nat) : Nat :=
  (s.rxPort p).fifo.foldl (fun n u =>
    match s.pkt? (pkey (portBough p) u) with
    | some x =>
      let in_ := if u = t then got else s.macTakes p x.bytes.length
      if !x.hasBuf then n + in_ else if x.promote then n + (in_ - 256 * poolSize x.bark.pool) else n
    | none => n) 0

/-- R70: a byte finds the FIFO full after `got` bytes of its frame. -/
def State.rxOverflow (s : State) (p got : Nat) : State :=
  match (s.rxPort p).cur with
  | .frame t =>
    let k := pkey (portBough p) t
    match s.pkt? k with
    | none => s
    | some x =>
      if s.macTakes p x.bytes.length ≤ got ∨ s.fifoBytes p t got < 8192 * modeLanes (s.portMode p) then s
      else
        let s := ((s.cnt (RX_FIFO_OVF_CNT p)).raise (PRT_INT_RX_FIFO_OVF p)).setCur p .gone
        if x.window then s.frameBad k got x else s.frameDrop k x
  | _ => s

def execRxFifoOvf (p : Fin 256) (got : Nat) (s : State) : Out := onIsl (portQuad p.val) s (·.rxOverflow p.val got)

/-! ### Frame end (R25, R65 to R67, R92) -/

/-- The end of the last byte that the UDFs of a packet's generation took from its window. -/
def udfEnd (cfg : Nat) (ps : ParseRes) : Nat :=
  (List.range 2).foldl (fun m n =>
    match fon cfg (RK_UDF_V n), ps.stack.find? (fun h => h.1 == fget cfg (RK_UDF_NODE n)) with
    | true, some h =>
      let e := h.2 + fget cfg (RK_UDF_OFF n) + 4
      if ps.win.length < e then m else max m e
    | _, _ => m) 0

/-- R92: whether PARSE_LEN is raised at the end of a cut-through frame of `len` bytes. -/
def State.parseLate (s : State) (p : Pkt) (len : Nat) : Bool :=
  decide (len < p.ps.need)
    || decide (len - 4 < max p.ps.used (udfEnd (s.ent 0x22 (p.bark.gen % 2) 0) p.ps))

/-- R90 to R92: a packet's exceptions once PARSE_LEN is raised at its frame's end: EXC is the first whose action is not
CONTINUE, and the action of GRF_EXC_CFG2 applies unless it is CONTINUE. A packet not yet decided takes its flow key and its
Grove access by it. -/
def State.lateRes (s : State) (p : Pkt) : Pkt :=
  let r := p.ps
  let exc := if r.exc ≠ 0 ∧ (r.act ≠ 0 ∨ r.lateAct = 0) then r.exc else 2
  let act := if r.lateAct = 0 then r.act else r.lateAct
  let r := { r with raised := r.raised ++ [2], exc := exc, act := act, excCh := if exc = 2 then r.lateCh else r.excCh }
  let r :=
    if p.stage ≠ .parsed then r
    else
      let r := { r with flowEn := r.flowEn && !(exc == 2 && r.lateNoFlow) }
      if actBridges act && !r.osel then
        { r with osel := true, key := profKey (s.ent 0x12 (p.bark.gen % 2) r.prof) p.bark.ingPort r true }
      else r
  { p with bark := { p.bark with exc := exc }, ps := r }

/-- R91, R92: PARSE_LEN raised at frame end before the head has left: its action applies to what is still to come. -/
def State.lateAction (s : State) (k : Nat) (p : Pkt) : State :=
  let q := s.lateRes p
  let act := q.ps.act
  let drops := act == 2 || act == 3 || decide (5 ≤ act)
  let ask (s : State) : State := if act = 3 ∨ act = 4 then s.askHost k q.ps.excCh 2 else s
  if act = p.ps.act then s.putPkt k q
  else
    match p.stage with
    | .twig => let (q, s) := s.resolveEg q; s.putPkt k q
    | .ordered | .toAdmit =>
      let (q, s) := s.resolveEg q
      ask (if drops then (s.putPkt k q).rxDrop p.bark.ingPort 1 else s.putPkt k q)
    | .sent =>
      let s := ask (s.putPkt k q)
      let s := if drops then
          (s.copiesOf k).foldl (fun s e => s.ctDiscard e.1 e.2) (s.rxDrop p.bark.ingPort 1)
        else s
      s.settle k
    | _ => s.putPkt k q

/-- R290, R280: at the end of a good cut-through frame the cells its copies used are counted, the unused ones returned. -/
def State.cellsBack (s : State) (k len : Nat) : State :=
  (s.copiesOf k).foldl (fun s e =>
    if e.2.ct then
      ((s.openCells e.2 len).putCopy e.1 { e.2 with len := len, cells := e.2.cells - (ceilDiv e.2.len 64 - ceilDiv len 64) }).crownShow e.2.bough e.2.col
    else s) s

/-- The end of a frame whose window was released before it: the true LEN, the corrections, PARSE_LEN (R25, R92, R192). -/
def State.ctEnd (s : State) (k : Nat) (p : Pkt) : State :=
  let len := p.bytes.length
  let p := { p with ended := true, endAt := s.time.mono, bark := { p.bark with len := len } }
  let s := s.putPkt k p
  let s := if p.promote then s else s.fifoOut p.bark.ingPort (k % 8192)
  if s.parseLate p len then
    let s := s.excCount (s.lateRes p).bark [2]
    if s.headLeft k then s.frameBad k len p
    else
      let s := ((s.learnEnd p.bark.ingPort false).corrSend k len false).cellsBack k len
      match s.pkt? k with
      | some p => s.lateAction k p
      | none => s
  else (((s.learnEnd p.bark.ingPort false).corrSend k len false).cellsBack k len).settle k

/-- The end of a cut-through frame whose packet is over (R30): what is still owed is its learn request (R139), its
corrections (R192), and the count of a bad frame (R72) or of a late PARSE_LEN (R92). -/
def State.looseEnd (s : State) (p : Pkt) (bad : Bool) : State :=
  let len := s.macTakes p.bark.ingPort p.bytes.length
  let bark := { p.bark with len := len, bad := bad }
  let s := if bad then s.cnt (RX_CT_BAD_CNT p.bark.ingPort) else if s.parseLate p len then s.excCount { bark with exc := (s.lateRes p).bark.exc } [2] else s
  let s := s.learnEnd p.bark.ingPort bad
  { s with gv.corrs := s.gv.corrs ++ corrsOf p len bad }

/-- A good frame whose window is not yet released. -/
def State.sfEnd (s : State) (k : Nat) (p : Pkt) : State :=
  if isMacCtrl p.bytes then (s.cnt (RX_MAC_CTRL_CNT p.bark.ingPort)).frameDrop k p
  else
    let s := s.putPkt k { p with ended := true, endAt := s.time.mono, stage := if isLldp p.bytes then .lldp else .rx }
    if p.hasBuf && !p.promote then s.fifoOut p.bark.ingPort (k % 8192) else s

/-- R65, R92: the end of the frame that is arriving; `codeErr` an error character, or a frame cut short. -/
def State.frameEnd (s : State) (p : Nat) (codeErr : Bool) : State :=
  let maxf := s.maxFrame p
  match (s.rxPort p).cur with
  | .idle => s
  | .gone => s.setCur p .idle
  | .skip f =>
    let cause := macCause f codeErr maxf
    let s := (s.macCount p f cause).setCur p .idle
    if cause.isNone && isMacCtrl f then s.cnt (RX_MAC_CTRL_CNT p) else s
  | .loose x =>
    let cause := macCause x.bytes (codeErr || x.ue) maxf
    ((s.macCount p x.bytes cause).setCur p .idle).looseEnd x cause.isSome
  | .frame t =>
    let k := pkey (portBough p) t
    let s := s.setCur p .idle
    match s.pkt? k with
    | none => s
    | some x =>
      let cause := macCause x.bytes (codeErr || x.ue) maxf
      let s := s.macCount p x.bytes cause
      if cause.isSome then
        if x.window then s.frameBad k (min maxf x.bytes.length) x else s.frameDrop k x
      else if x.window then s.ctEnd k x else s.sfEnd k x

def execFrameEnd (p : Fin 256) (codeErr : Bool) (s : State) : Out := onIsl (portQuad p.val) s (·.frameEnd p.val codeErr)

/-! ### The parse window (R17, R18, R25, R125) -/

/-- LEN of a packet whose window is released before its end (R25), kept to the field's 14 bits. -/
def State.ctLen (s : State) (p : Pkt) : Nat :=
  match p.ps.outer.l3 with
  | some a => ipClaim p.ps.win a p.ps.outer.ver % 2 ^ 14
  | none => s.maxFrame p.bark.ingPort

/-- R17, R18: the parse window is released; GEN is written and counted, the packet parsed, LEN written. -/
def State.windowRelease (s : State) (k : Nat) (p : Pkt) : State :=
  let b := k / 8192
  let ready := p.ended || (p.bark.ct && decide (256 < p.bytes.length) && !isLldp p.bytes && !isMacCtrl p.bytes)
  if p.stage ≠ .rx || !p.hasBuf || p.promote || !ready || p.window then s
  else
    let g := s.boughGen b
    let p := { p with window := true, genHeld := true, rel := s.nextRel
                      bark := { p.bark with gen := g, len := if p.ended then p.bytes.length else 0 } }
    let s := (({ s with nextRel := s.nextRel + 1 } : State).genTake b).parsePkt k p
    match s.pkt? k with
    | some p => if p.ended then s else s.putPkt k { p with bark := { p.bark with len := s.ctLen p } }
    | none => s

def execParseWindowRelease (b : Fin 32) (t : Fin 8192) (s : State) : Out :=
  onIsl (islBough b.val) s (fun s => s.withPkt b.val t.val (s.windowRelease (pkey b.val t.val)))

/-- R61: a received LLDP frame: counted, compared by the peer trace, copied to the host where LLDP_COPY_EN says so. -/
def State.lldpFrame (s : State) (k : Nat) (p : Pkt) : State :=
  if p.stage ≠ .lldp || !p.hasBuf then s
  else
    let port := p.bark.ingPort
    let s := s.cnt (RX_LLDP_CNT port)
    let s := match lldpIds ((p.bytes.take (p.bytes.length - 4)).drop 14) with
      | some (c, q) => s.traceRx port c q
      | none => s.cnt (TRACE_BAD_CNT port)
    let s := s.modPkt k (fun p => { p with stage := .sent, bark := { p.bark with len := p.bytes.length } })
    (if s.on (PRT_CFG_LLDP_COPY_EN port) then s.askHost k (s.rd (PRT_CFG_LLDP_CH port)) 4 else s).settle k

def execLldpFrame (b : Fin 32) (t : Fin 8192) (s : State) : Out :=
  onIsl (islBough b.val) s (fun s => s.withPkt b.val t.val (s.lldpFrame (pkey b.val t.val)))

/-! ### LINK_UP falls (R54, R74, R148, R321) -/

/-- The copies that are leaving a port. -/
def State.leaving (s : State) (p : Nat) : Tab Copy := s.copies.filter (fun e => e.2.port == p && decide (e.2.stage = .tx))

/-- LINK_UP of a port falls: counted, journaled, the copy that is leaving is aborted, the queues are discarded, the trace
run restarts, and the learned entries are flushed where FLUSH_ON_DOWN says so. -/
def State.linkFall (s : State) (p : Nat) : State :=
  let s := ((s.wr (PRT_STS_LINK_UP p) 0).raise (PRT_INT_LINK p)).cnt (LINK_DOWN_CNT p)
  let s := (s.journal (portQuad p) 0x0101 p (natLe 1 (s.reg (PRT_STS p) % 16))).secFlag p
  let s := s.modPort p ({ · with run := 0 })
  let s := (s.leaving p).foldl (fun s e => s.abortCopy e.1 e.2) s
  let s := s.portFlush p
  if s.on (BRG_PORT_CFG_FLUSH_ON_DOWN p) then (s.brgFlush (some p) none).2 else s

/-- R54: loss of signal, local fault, remote fault as detected; LINK_UP falls when a condition of it no longer holds. -/
def State.linkDown (s : State) (p : Nat) (los lf rf : Bool) : State :=
  if !s.isPort p then s
  else
    let s := if los then ((s.amLoseAll p).sigDetect p false).wr (PRT_STS_ALIGNED p) 0 else s
    let s := if lf then s.wr (PRT_STS_LOCAL_FAULT p) 1 else s
    let s := (if rf then s.wr (PRT_STS_REMOTE_FAULT p) 1 else s).secFlag p
    if s.on (PRT_STS_LINK_UP p) && !s.linkCond p then s.linkFall p else s

def execLinkDown (p : Fin 256) (los lf rf : Bool) (s : State) : Out :=
  onIsl (portQuad p.val) s (·.linkDown p.val los lf rf)

/-! ### Ports that are disabled, and modes (R45, R75) -/

/-- Everything of a packet wherever it waits: its park slot, work item, queue places and copies end, and its tag is freed. -/
def State.purge (s : State) (k : Nat) (p : Pkt) : State :=
  let s := match p.flow.entry with
    | some ek =>
      match s.gv.pends.find? ek with
      | some e => (s.putPend ek { e with pkts := e.pkts.filter (· != k) }).pendEnd ek
      | none => s
    | none => s
  let s := match s.itemOf k with
    | some (i, it) => s.endItem i it
    | none => s
  let b := k / 8192
  let s := ({ s with recircQ := s.recircQ.modify [] b (·.filter (· != k)) } : State).recircShow b
  let s := (s.copiesOf k).foldl (fun s e => s.endCopy e.1) s
  ((s.fifoOut p.bark.ingPort (k % 8192)).release k).parkShow

/-- R75: what a FIFO holds of frames whose heads have not left is discarded, and with it their packets. -/
def State.fifoDiscard (s : State) (p : Nat) : State :=
  let x := s.rxPort p
  let s := x.fifo.foldl (fun s t =>
    let k := pkey (portBough p) t
    match s.pkt? k with
    | some q => if s.headLeft k then s else if q.window then (s.learnEnd p true).purge k q else s.frameDrop k q
    | none => s) s
  match x.cur with
  | .frame t => if (s.pkt? (pkey (portBough p) t)).isNone then s.setCur p .gone else s
  | _ => s

/-- R312: a change of MAX_FRAME recomputes the port's gate terms. -/
def State.gateIfMax (s : State) (p old : Nat) : State := if s.maxFrame p = old then s else s.gateCalc p

/-- R60, R312: a write of EN = 1. In the block of a number that is no port it only stores (R45). -/
def State.portEnable (s : State) (p v : Nat) : State :=
  let was := s.on (PRT_CFG_EN p)
  let old := s.maxFrame p
  let s := ((s.hostWrite (PRT_CFG p) v).wr (PRT_CFG_EN p) 1).gateIfMax p old
  if was || !s.isPort p then s else s.portStart p

def execPortEnable (p : Fin 256) (v : Word) (s : State) : Out :=
  onBar0 (PRT_CFG p.val) s (·.portEnable p.val v.toNat)

/-- R60, R75, R312, R321: a write of EN = 0. -/
def State.portDisable (s : State) (p v : Nat) : State :=
  let was := s.on (PRT_CFG_EN p) && s.isPort p
  let old := s.maxFrame p
  let s := if was then s.secsClose p else s
  let s := ((s.hostWrite (PRT_CFG p) v).wr (PRT_CFG_EN p) 0).gateIfMax p old
  if was then (s.fifoDiscard p).portFlush p else s

def execPortDisable (p : Fin 256) (v : Word) (s : State) : Out :=
  onBar0 (PRT_CFG p.val) s (·.portDisable p.val v.toNat)

/-- R75: the FIFO is empty and the transmit MAC idle. -/
def State.portDrained (s : State) (p : Nat) : State :=
  let x := s.rxPort p
  let busy := match x.cur with | .frame _ => true | _ => false
  if !s.isPort p || s.on (PRT_CFG_EN p) || busy || !x.fifo.isEmpty || !(s.leaving p).isEmpty then s else s.wr (PRT_STS_DRAINED p) 1

def execPortDrained (p : Fin 256) (s : State) : Out := onIsl (portQuad p.val) s (·.portDrained p.val)

/-- A port of a group whose mode changes: its link goes, and its trace state becomes UNKNOWN (R63). -/
def State.modeLeave (s : State) (p : Nat) : State :=
  let s := s.modPort p (fun q => { q with pcs := [], run := 0 })
  let s := if s.on (PRT_STS_LINK_UP p) then s.linkFall p else s
  let s := ((s.wr (PRT_STS_ALIGNED p) 0).wr (PRT_STS_AN_DONE p) 0).wr (PRT_STS_LT_DONE p) 0
  s.traceSet p 0

/-- A port of the new mode: DRAINED shows whether it is disabled, and one that is enabled starts (R45, R60, R75). -/
def State.modeEnter (s : State) (p : Nat) : State :=
  if s.on (PRT_CFG_EN p) then s.portStart p else s.wr (PRT_STS_DRAINED p) 1

/-- R45: an accepted mode takes effect. -/
def State.modeActive (s : State) (g : Nat) : State :=
  if !(s.port (8 * g)).modePend then s
  else
    let s := ((List.range 8).map (8 * g + ·)).foldl (fun s p => if s.isPort p then s.modeLeave p else s) s
    let s := (s.modPort (8 * g) ({ · with modePend := false })).wr (PRT_GRP_STS_MODE_ACT g) (s.rd (PRT_GRP_CFG_MODE g))
    ((List.range 8).map (8 * g + ·)).foldl (fun s p => if s.isPort p then s.modeEnter p else s) s

def execModeActive (g : Fin 32) (s : State) : Out := onIsl (islQuad (2 * g.val)) s (·.modeActive g.val)

end Sys2Proof.Machine
end

