-- ==== Sys2Proof/Machine/Sched.lean ====
section
/-!
DEFINITION. Admission, prediction, scheduling, shapers and gate lists (chapter 11; R286, R287, R290 for what is admitted).
-/
namespace Sys2Proof.Machine

/-! ### What a packet's egress expands to (R286, R287, R290) -/

/-- The ports of the active mode among the members of a mask. -/
def State.memberPorts (s : State) (mask : Nat) : List Nat := (List.range 256).filter (fun p => bit mask p && s.isPort p)

/-- The forwarded copies of a packet: their ports, whether under SHARED, and the group counters. -/
def State.copyPorts (s : State) (p : Pkt) : List Nat × Bool × State :=
  let grp (g : Nat) (keep : Nat → Bool) : List Nat × Bool × State :=
    let s := s.meetEnt 0 0x60 0 g
    let e := s.ent 0x60 0 g
    if !fon e MC_V then ([], false, s.cnt CRN_MC_INVALID_CNT)
    else
      let ps := (s.memberPorts (fget e MC_MEMBER)).filter (fun x => keep x && !(fon e MC_SRC_PRUNE && x == p.bark.ingPort))
      (ps, fon e MC_MODE, if ps.isEmpty then s.cnt CRN_MC_EMPTY_CNT else s)
  match p.dec.eg with
  | .none => ([], false, s)
  | .port x => ([x], false, s)
  | .group g => grp g (fun _ => true)
  | .flood g m => grp g (fun x => x != p.bark.ingPort && bit m x)

/-- R71, R290: whether an arriving packet's copy may leave in cut-through mode: its only copy, to a port with CT_EN and no
higher data rate. -/
def State.mayCut (s : State) (p : Pkt) : Bool :=
  match p.dec.eg with
  | .port x => p.dec.mir.isNone && s.on (PRT_CFG_CT_EN x)
      && decide (modeRate (s.portMode x) ≤ modeRate (s.portMode p.bark.ingPort))
  | _ => false

/-! ### Prediction (R306, R318), in 1/16 ns -/

/-- The debt of a shaper over its rate. -/
def debtOf (cr : Nat) (rate : Nat) : Nat := ceilDiv (16 * (-(credit cr)).toNat * 8000) (64 * max 1 rate)

/-- T_debt. -/
def State.tDebt (s : State) (p q : Nat) : Nat :=
  (if s.on (TMG_QSHP_RATE_EN p q) then debtOf (s.rd (TMG_QSHP_CREDIT_CREDIT p q)) (s.rd (TMG_QSHP_RATE_RATE p q)) else 0)
    + (if s.on (TMG_PORT_CFG_PSHP_EN p) then debtOf (s.rd (TMG_PSHP_CREDIT_CREDIT p)) (s.rd (TMG_PSHP_RATE_RATE p)) else 0)

/-- T_fab (R306). -/
def State.tFab (s : State) (p : Nat) : Nat := ceilDiv (16 * 524288) (modeRate (s.portMode p)) + 1710

/-- T_gate,q (R312), ns. -/
def State.tGate (s : State) (p q : Nat) : Nat :=
  if !s.gclOn p || gclAlways (s.gclActive p) q then 0 else s.rd (TMG_GCL_CYCLE_CYCLE p)

/-- O_q and CYCLE as the factor of R318: 1 / 1 while every queue is open at all times. -/
def State.openFactor (s : State) (p q : Nat) : Nat × Nat :=
  if s.gclOn p then ((s.q (qkey p q)).open_, s.rd (TMG_GCL_CYCLE_CYCLE p) * 1000) else (1, 1)

/-- T_queue_pred of R318 for a copy of `w` bytes, in ns. -/
def State.tQueue (s : State) (p q w : Nat) : Nat :=
  let rp := s.portMbps p
  let g0 := s.share (qkey p q) * rp
  let g := if s.on (TMG_QSHP_RATE_EN p q) then min g0 (max 1 (s.rd (TMG_QSHP_RATE_RATE p q)) * 65536) else g0
  let f := s.openFactor p q
  if g = 0 ∨ f.1 = 0 then 2 ^ 31 - 1
  else
    let own := ceilDiv (16 * ((s.q (qkey p q)).bytes + w) * 8000 * 65536 * f.2) (g * f.1)
    let others := ceilDiv (16 * (s.rd (TMG_PORT_STS_NQ p) + 1) * (s.maxFrame p + 24) * 8000) rp
    min (2 ^ 31 - 1) (ceilDiv (own + others + 16 * s.tGate p q + s.tDebt p q + s.tFab p) 16)

/-! ### Admission (R35, R299 to R301, R317) -/

/-- A refusal under R317: the slot of the queue's set, the device-wide sum, and the ingress port's cause; of an exporter's
frame also R420. -/
def State.refuse (s : State) (p : Pkt) (port cls slot sum : Nat) : State :=
  let s := if p.exp then s.cnt OBS_EXP_REFUSED_CNT else s
  (((s.qcount port cls slot).cnt sum).rxDrop p.bark.ingPort 5).pmuEv 0x51 (portTm port)

/-- The first check of R317 that refuses a copy of `w` bytes: its slot and sum. -/
def State.admCheck (s : State) (p : Pkt) (port cls w : Nat) : Option (Nat × Nat) :=
  let k := qkey port cls
  let q := (s.q k).bytes + w
  if !s.portUp port then some (8, TMG_REF_LINK_CNT)
  else if s.share k = 0 then some (9, TMG_REF_QDIS_CNT)
  else if 65536 ≤ s.rd (TMG_DESC_STS_IN_USE (portTm port)) then some (7, TMG_REF_DESC_CNT)
  else if s.rd (TMG_Q_QMAX_QMAX port cls) * 256 < q then some (5, TMG_REF_QMAX_CNT)
  else if (p.bark.colour = 1 ∧ s.rd (TMG_Q_CLR_YEL_MAX port cls) * 1024 < q)
      ∨ (p.bark.colour = 2 ∧ s.rd (TMG_Q_CLR_RED_MAX port cls) * 1024 < q) then some (6, TMG_REF_COLOUR_CNT)
  else none

/-- One copy at admission: refused under its first failing check, or queued with its predicted departure. -/
def State.admitCopy (s : State) (k : Nat) (p : Pkt) (port cls l : Nat) (mirror shared cut : Bool) : State :=
  let w := l + 24
  match s.admCheck p port cls w with
  | some (slot, sum) => s.refuse p port cls slot sum
  | none =>
    let dep2 := 2 * (s.now (islTm (portTm port)) + s.tQueue port cls w + 200) + s.ttx port
    if lateBy dep2 p.bark.deadline then (s.refuse p port cls 4 TMG_REF_BOUND_CNT).raise TMG_INT_REF_BOUND
    else
      let pd := dep2 / 2 % 2 ^ 32
      let len := if cut then 256 * poolSize p.bark.pool else l
      let c : Copy :=
        { bough := k / 8192, tag := k % 8192, port := port, cls := cls, w := w, len := len, cells := copyCells p mirror len
          flen := l, deadline := p.bark.deadline, predDep := pd, colour := p.bark.colour, mirror := mirror, ct := cut
          shared := shared, detached := false, stage := .queued, headAt := 0, ord := 0, xpAt := 0, sfd := 0, out := []
          teg := 0, ue := 0 }
      let s := ((s.qcount port cls 0).qcount port cls 1 l).pmuEv 0x50 (portTm port)
      let s := s.modPkt k (fun p => if mirror then p else { p with bark := { p.bark with predDep := pd } })
      let (ue, s) := s.injPacket 6 1 (portTm port) (islTm (portTm port))
      ({ s with nextCopy := s.nextCopy + 1 } : State).enqueue s.nextCopy { c with ue := if ue then 3 else if p.stUe then 1 else 0 }

/-- R317, R37: a packet's copies at admission, each on its own; a bad frame has none. -/
def State.admission (s : State) (k : Nat) (p : Pkt) : State :=
  if p.stage ≠ .toAdmit then s
  else if p.memUe then s.memDrop k p
  else if p.bark.bad then (s.putPkt k { p with stage := .sent }).settle k
  else if !p.ended && !s.mayCut p then s
  else
    let (ps, shared, s) := s.copyPorts p
    let s := s.putPkt k { p with stage := .sent }
    let s := ps.foldl (fun s x => s.admitCopy k p x p.bark.cls p.bark.len false shared (!p.ended)) s
    let s := match p.dec.mir with
      | some (dst, cls, trunc) =>
        s.admitCopy k p dst cls (if trunc = 0 then p.bark.len else min p.bark.len (trunc * 64)) true false false
      | none => s
    s.settle k

def execAdmission (b : Fin 32) (t : Fin 8192) (s : State) : Out :=
  onIsl (islBough b.val) s (fun s => s.withPkt b.val t.val (s.admission (pkey b.val t.val)))

/-! ### Shared transfers (R289) -/

/-- Whether a queued copy joins a transfer that a sibling has made. -/
def State.joins (s : State) (c : Copy) : Bool := c.inShare && (s.shares.find? c.shareKey).isSome

/-- The window of a shared transfer ends: each copy not yet selected is detached and lowers the count. -/
def State.shareEnd (s : State) (k : Nat) : State :=
  (s.copies.filter (fun e => e.2.shareKey == k && e.2.inShare && decide (e.2.stage = .queued))).foldl (fun s e =>
    (s.putCopy e.1 { e.2 with detached := true, ue := if e.2.ue = 2 then 0 else e.2.ue }).shareDown k) s

/-- Windows of a column that have run out by a unit's time. -/
def State.sharesDue (s : State) (col t : Nat) : List Nat :=
  (s.shares.filter (fun e => e.1 % 32 == col && decide (e.2.winEnd ≤ t))).map (·.1)

/-- SHARE_WIN_END: the window of a packet's transfer to a column. -/
def State.shareWinEnd (s : State) (k : Nat) : State :=
  match s.shares.find? k with
  | some x => (s.waitIsl (islTm (k % 32 / 8)) x.winEnd).shareEnd k
  | none => s

def execShareWinEnd (b : Fin 32) (t : Fin 8192) (c : Fin 32) (s : State) : Out :=
  onIsl (islTm (c.val / 8)) s (·.shareWinEnd (shareKey (pkey b.val t.val) c.val))

/-! ### Eligibility (R281, R305, R306) -/

/-- The head copy of a queue that every condition of R305 but the credits allows, and the opening of its gate (ps). -/
def State.headReady (s : State) (k : Nat) : Option (Nat × Copy × Nat) :=
  match (s.q k).copies with
  | [] => none
  | n :: _ =>
    match s.copies.find? n with
    | none => none
    | some c =>
      let p := k / 16
      let t := s.psAt (islTm (portTm p))
      if !s.portUp p || s.share k == 0 || decide (t + 200000 + s.ttx p * 500 < (s.tmPort p).free) || !s.shapersOk p (k % 16) then none
      else (s.gateOk p (k % 16) c.w t).map (fun o => (n, c, o))

/-- R281: read credits, and crosspoint credits with the port's or the shared limit. -/
def State.rdOk (s : State) (c : Copy) : Bool := decide (s.rdOut1 c.tm c.bough + c.cells ≤ 512)
def State.xpRoom (s : State) (c : Copy) : Bool := decide (s.xpTaken c.bough c.col + c.cells ≤ 512)
def State.xpUnder (s : State) (c : Copy) : Bool :=
  if c.inShare then decide (s.xpShared c.bough c.col + c.cells ≤ xpLimit (s.rd (CRN_XP_CFG_SHARED_MAX c.col)))
  else decide (s.xpPort c.bough c.port + c.cells ≤ xpLimit (s.rd (CRN_XP_CFG_PORT_MAX c.col)))

/-- Whether two copies fall under one limit on the cells of a crosspoint. -/
def sameLimit (c d : Copy) : Bool := d.col == c.col && c.inShare == d.inShare && (c.inShare || c.port == d.port)

/-- R306: an older head waits for the same credits: read credits of the bough, credits of the crosspoint, or room under the
limit that holds for both. -/
def State.olderWaits (s : State) (c : Copy) : Bool :=
  s.qs.any (fun e =>
    match s.headReady e.1 with
    | some (_, d, _) => decide (d.headAt < c.headAt) && d.tm == c.tm && d.bough == c.bough && !s.joins d
        && (!s.rdOk d || (d.col == c.col && !s.xpRoom d) || (sameLimit c d && !s.xpUnder d))
    | none => false)

/-- The credits of R281 are available to a head, granted oldest first. -/
def State.creditsOk (s : State) (c : Copy) : Bool := s.joins c || (s.rdOk c && s.xpRoom c && s.xpUnder c && !s.olderWaits c)

/-- An eligible head of a queue. -/
def State.eligible (s : State) (k : Nat) : Option (Nat × Copy × Nat) :=
  match s.headReady k with
  | some (n, c, o) => if s.creditsOk c then some (n, c, o) else none
  | none => none

/-- 48-bit tags compared as modular differences (R304). -/
def tagBefore (a b : Nat) : Bool := decide (2 ^ 47 ≤ (a + 2 ^ 48 - b % 2 ^ 48) % 2 ^ 48)

/-- The queue of a port whose eligible head has the smallest finish tag, lowest number among equals. -/
def State.pickQueue (s : State) (p : Nat) : Option Nat :=
  (List.range 16).foldl (fun b q =>
    if (s.eligible (qkey p q)).isNone then b
    else match b with
      | none => some q
      | some r => if tagBefore (s.q (qkey p q)).f (s.q (qkey p r)).f then some q else b) none

/-! ### Selection (R36, R292, R304, R305) -/

/-- Whether a copy selected now would leave late (R36). -/
def State.tooLate (s : State) (c : Copy) : Bool := lateBy (2 * (s.now (islTm c.tm) + 200) + s.ttx c.port) c.deadline

/-- A selected copy goes to the Crown: counted, charged, paced, with its credits taken. -/
def State.sendCopy (s : State) (n : Nat) (c : Copy) (opening : Nat) : State :=
  let t := s.psAt (islTm c.tm)
  let joins := s.joins c
  let s := s.dequeue n c
  let s := (((s.qcount c.port c.cls 2).qcount c.port c.cls 3 c.flen).pmuEv 0x53 c.tm).shapersCharge c.port c.cls c.w
  let x := s.tmPort c.port
  let sfd := max x.free (max opening (t + 20000 + s.ttx c.port * 500))
  let s := s.putTm c.port { x with free := sfd + linePs c.w (s.portMbps c.port) }
  let c := { c with stage := if joins then .xp else .ordered, ord := s.nextOrd, sfd := sfd, xpAt := s.time.mono }
  let s := { s with nextOrd := s.nextOrd + 1 }.putCopy n c
  let s := if c.detached then s.cnt (CRN_MC_RESEND_CNT c.bough) else s
  let s := if c.inShare && !joins then
      let refs := (s.copies.filter (fun e => e.2.shareKey == c.shareKey && e.2.inShare)).length
      { s with shares := s.shares.insert c.shareKey ⟨refs, s.now (islTm c.tm) + s.rd CRN_MC_CFG_SHARE_WIN, c.cells, false⟩ }
    else s
  s.crownShow c.bough c.col

/-- The entries of a port's active list are read for its gates (R311), their codes met (R345). -/
def State.meetGates (s : State) (p : Nat) : State :=
  if s.gclOn p then s.meetEnts 0 ((List.range (s.tmPort p).len).map (fun e => (0x71, b2n (s.tmPort p).side, 256 * p + e))) else s

/-- R305: a port's eligible head with the smallest finish tag is selected, and R36 applied. -/
def State.schedSelect (s : State) (p : Nat) : State :=
  let s := ((s.sharesDue (portBough p) (s.now (islTm (portTm p)))).foldl State.shareEnd s).meetGates p
  match s.pickQueue p with
  | none => s
  | some q =>
    match s.eligible (qkey p q) with
    | none => s
    | some (n, c, o) =>
      let s := s.putTm p { s.tmPort p with v := (s.q (qkey p q)).f }
      if c.ue = 3 then (s.cnt ECC_PKT_DROP_CNT).endCopy n
      else if s.copyBad c then s.ctDiscard n c
      else if s.tooLate c then s.boundMiss n c 0
      else s.sendCopy n c o

def execSchedulerSelect (p : Fin 256) (s : State) : Out := onIsl (islTm (portTm p.val)) s (·.schedSelect p.val)

/-- R320: a head copy that is not eligible is tested too. -/
def State.headAge (s : State) (p q : Nat) : State :=
  match (s.q (qkey p q)).copies with
  | [] => s
  | n :: _ =>
    match s.copies.find? n with
    | none => s
    | some c => if (s.eligible (qkey p q)).isNone && s.tooLate c then s.boundMiss n c 1 else s

def execHeadAgeCheck (p : Fin 256) (q : Fin 16) (s : State) : Out := onIsl (islTm (portTm p.val)) s (·.headAge p.val q.val)

/-! ### Shapers and shares -/

/-- One port's enabled shapers refilled. -/
def State.portRefill (s : State) (p : Nat) : State :=
  let s := if s.on (TMG_PORT_CFG_PSHP_EN p) then
      s.wr (TMG_PSHP_CREDIT_CREDIT p) (refilled (s.rd (TMG_PSHP_CREDIT_CREDIT p)) (s.rd (TMG_PSHP_RATE_RATE p)) (s.rd (TMG_PSHP_BURST_BURST p)))
    else s
  (List.range 16).foldl (fun s q =>
    if s.on (TMG_QSHP_RATE_EN p q) then
      s.wr (TMG_QSHP_CREDIT_CREDIT p q)
        (refilled (s.rd (TMG_QSHP_CREDIT_CREDIT p q)) (s.rd (TMG_QSHP_RATE_RATE p q)) (s.rd (TMG_QSHP_BURST_BURST p q)))
    else s) s

/-- R307: a unit's refill, at the next multiple of 125 ns of its device time. -/
def State.shaperRefill (s : State) (t : Nat) : State :=
  let s := s.waitIsl (islTm t) (s.refillAt.get 0 t)
  let s := { s with refillAt := s.refillAt.set 0 t ((s.now (islTm t) / 125 + 1) * 125) }
  ((List.range 64).map (64 * t + ·)).foldl State.portRefill s

def execShaperRefill (t : Fin 4) (s : State) : Out := onIsl (islTm t.val) s (·.shaperRefill t.val)

/-- The sum of a port's shares with queue `q` at `v`. -/
def State.shareSum (s : State) (p q v : Nat) : Nat :=
  (List.range 16).foldl (fun n r => n + if r = q then v else s.share (qkey p r)) 0

/-- R303: a SHARE write; NQ and the gate terms follow. -/
def State.shareWrite (s : State) (p q v : Nat) : State :=
  if 65536 < s.shareSum p q (v % 2 ^ 17) then s.wr (TMG_PORT_STS_CFG_REJ_STK p) 1
  else
    let s := s.hostWrite (TMG_Q_SHARE p q) v
    (s.wr (TMG_PORT_STS_NQ p) ((List.range 16).filter (fun r => s.share (qkey p r) != 0)).length).gateCalc p

def execQShareWrite (p : Fin 256) (q : Fin 16) (v : Word) (s : State) : Out :=
  onBar0 (TMG_Q_SHARE p.val q.val) s (·.shareWrite p.val q.val v.toNat)

/-! ### Gate lists (R310) -/

/-- LEN of the staging list, 1 to 256. -/
def State.gclLen (s : State) (p : Nat) : Nat := max 1 (min 256 (s.rd (TMG_GCL_CFG_LEN p)))

/-- R310: an activation request that may take effect at `t` at the earliest. -/
def State.gclRequestAt (s : State) (p t : Nat) : State :=
  let x := s.tmPort p
  let len := s.gclLen p
  let cyc := gclCycle (s.gclList p (!x.side) len)
  if s.on (TMG_GCL_STS_PEND p) || cyc == 0 || decide (1000000000 < cyc) then s.raise TMG_INT_GCL_ERR
  else
    let base := s.rd64 (TMG_GCL_BASE p)
    let ta := if t ≤ base then base else base + ceilDiv (t - base) cyc * cyc
    (s.putTm p { x with pend := some (ta, len) }).wr (TMG_GCL_STS_PEND p) 1

/-- R310: an activation request: at least 1,000 ns from now. -/
def State.gclRequest (s : State) (p : Nat) : State := s.gclRequestAt p (s.now (islTm (portTm p)) + 1000)

/-- A write of TMG_GCL_CFG: LEN is ignored while PEND = 1; ACT_REQ asks. -/
def State.gclCfgWrite (s : State) (p v : Nat) : State :=
  let s := if s.on (TMG_GCL_STS_PEND p) then s.wr (TMG_PORT_STS_CFG_REJ_STK p) 1 else s.wr (TMG_GCL_CFG_LEN p) v
  if bit v 16 then s.gclRequest p else s

def execGclActReq (p : Fin 256) (v : Word) (s : State) : Out :=
  onBar0 (TMG_GCL_CFG p.val) s (·.gclCfgWrite p.val (v.toNat ||| 2 ^ 16))

/-- R310: at T_a the lists exchange roles. -/
def State.gclActivate (s : State) (p : Nat) : State :=
  match (s.tmPort p).pend with
  | none => s
  | some (ta, len) =>
    let t := portTm p
    let s := s.waitIsl (islTm t) ta
    let x := s.tmPort p
    let s := s.putTm p { x with side := !x.side, len := len, base := ta, pend := none }
    let s := (s.wr (TMG_GCL_STS_PEND p) 0).wr (TMG_GCL_STS_ACTIVE p) 1
    let s := (s.wr (TMG_GCL_CYCLE_CYCLE p) (gclCycle (s.gclActive p))).gateCalc p
    (s.raise TMG_INT_GCL_ACT).journal (islTm t) 0x0802 t
      (natLe 1 p ++ natLe 2 len ++ List.replicate 5 0 ++ natLe 8 ta)

def execGclActivate (p : Fin 256) (s : State) : Out := onIsl (islTm (portTm p.val)) s (·.gclActivate p.val)

end Sys2Proof.Machine
end

