-- ==== Sys2Proof/Machine/Crown.lean ====
section
/-!
DEFINITION. The Crown (chapter 10): dequeue orders, presence notices, transmit orders, the end of transmission, errors in
packet memories, frees and ageing, and the pool configuration.
-/
namespace Sys2Proof.Machine

/-! ### Transfers (R282, R283) -/

/-- Whether the frame of a copy waits for a larger buffer (R276). -/
def State.promoting (s : State) (c : Copy) : Bool :=
  match s.pkt? (pkey c.bough c.tag) with | some p => p.promote | none => false

/-- The order that a bough's read port serves next, none of a frame that awaits its promotion: cut-through copies whose frames have not ended, oldest first, then the
others, oldest first. -/
def State.nextOrder (s : State) (b : Nat) : Option (Nat × Copy) :=
  let open_ (c : Copy) : Bool := c.ct && (match s.pkt? (pkey c.bough c.tag) with | some p => !p.ended | none => false)
  s.copies.foldl (fun (best : Option (Nat × Copy)) e =>
    if e.2.bough ≠ b ∨ e.2.stage ≠ .ordered ∨ s.promoting e.2 = true then best
    else match best with
      | none => some e
      | some x => if (open_ e.2 && !open_ x.2) || (open_ e.2 == open_ x.2 && decide (e.2.ord < x.2.ord)) then some e else best) none

/-- The cells of a shared transfer are in the crosspoint. -/
def State.sharePresent (s : State) (c : Copy) : State :=
  match c.inShare, s.shares.find? c.shareKey with
  | true, some x => { s with shares := s.shares.insert c.shareKey { x with present := true } }
  | _, _ => s

/-- The cells of a copy whose frame is whole; those of one whose frame is still arriving count once it has ended. -/
def State.wholeCells (s : State) (c : Copy) : Nat :=
  match s.pkt? (pkey c.bough c.tag) with
  | some p => if p.ended then c.cells else 0
  | none => c.cells

/-- R289: the copies under SHARED that have been selected and wait for a transfer that has not come about. -/
def State.joined (s : State) (k : Nat) : Tab Copy :=
  s.copies.filter (fun e => e.2.shareKey == k && e.2.inShare && e.2.inXp
    && (match s.shares.find? k with | some x => !x.present | none => true))

/-- R293: an ingress cell in error discards the copy that orders it; of a shared transfer, every copy that waits for it too,
and the transfer is gone: the copies not yet selected make one of their own. -/
def State.orderUe (s : State) (b n : Nat) (c : Copy) : State :=
  let also := if c.inShare then (s.joined c.shareKey).map (·.1) else []
  let s := if c.inShare then ({ s with shares := s.shares.erase c.shareKey } : State).crownShow b c.col else s
  (n :: also).foldl (fun s m => (s.cnt (CRN_UE_DISCARD_CNT b)).endCopy m) s

/-- R282: the read port sends a copy's cells across the row bus; an ingress cell in error discards it (R293). -/
def State.dequeueOrder (s : State) (b : Nat) : State :=
  match s.nextOrder b with
  | none => s
  | some (n, c) =>
    if c.ue = 1 then s.orderUe b n c
    else
      let cells := s.wholeCells c
      let s := ((s.cnt (CRN_XFER_CNT b)).cnt (CRN_XFER_CELL_CNT b) cells).pmuEv 0x0A b cells
      let (ue, s) := s.injPacket 5 (8 * c.cells) c.col (islCol c.col)
      let s := (s.putCopy n { c with stage := .xp, xpAt := s.time.mono, ue := if ue then 2 else c.ue }).sharePresent c
      (s.crownShow b c.col).settle (pkey b c.tag)

def execDequeueOrder (b : Fin 32) (s : State) : Out := onIsl (islBough b.val) s (·.dequeueOrder b.val)

/-- A row that acts on a copy, in the island that `isl` names. -/
def onCopy (n : Nat) (isl : Copy → Nat) (s : State) (f : State → Copy → State) : Out :=
  .next (match s.copies.find? n with
    | some c => if s.alive (isl c) then f s c else s
    | none => s)

/-- R283: a copy's head, or all of a copy that does not cut through, is in the crosspoint. -/
def State.presence (s : State) (n : Nat) (c : Copy) : State :=
  let here := !c.inShare || (match s.shares.find? c.shareKey with | some x => x.present | none => false)
  if c.stage = .xp && here then s.putCopy n { c with stage := .noticed } else s

def execPresenceNotice (n : Nat) (s : State) : Out := onCopy n (fun c => islCol c.col) s (fun s c => s.presence n c)

/-! ### Transmission (R283, R295) -/

/-- R295: the egress bough finds a copy late. -/
def State.crownLate (s : State) (n : Nat) (c : Copy) : State :=
  let s := ((s.qcount c.port c.cls 10).cnt (TMG_BOUND_MISS_CNT c.cls)).raise TMG_INT_BOUND_MISS
  let s := (s.cnt (CRN_LATE_CNT c.col)).raise CRN_INT_LATE
  let s := match s.pkt? (pkey c.bough c.tag) with
    | some p => s.journalPkt (islBough c.col) 0x0703 c.col p.bark (natLe 1 c.port ++ natLe 1 c.cls ++ [0] ++ natLe 4 (s.now (islBough c.col) - p.bark.arrTs))
    | none => s
  s.endCopy n

/-- T_eg in whole ns: the scheduled SFD at the egress plane, moved by TX_ADJ (R327). The unit's schedule and the egress
bough's time are compared with the tolerance of R325 of both (R326). -/
def State.egressTs (s : State) (c : Copy) : Nat :=
  let here := s.psAt (islBough c.col) + s.ttx c.port * 500
  let sfd := if c.sfd + 2000 < here then here else c.sfd
  (((sfd : Int) + toSigned 16 (s.rd (TIM_PORT_ADJ_TX_ADJ c.port))) / 1000).toNat

/-- The bytes that a copy puts on the line. -/
def State.lineBytes (s : State) (c : Copy) (teg : Nat) : List Byte × State :=
  match s.pkt? (pkey c.bough c.tag) with
  | none => ([], s)
  | some p =>
    if c.mirror then (withFcs (mirrorBytes p c.len), s)
    else
      let (f, s) := s.editCopy p c.port teg
      (withFcs f, s)

/-- The copy's head goes to egress editing and the line; its cells are read out. The transmit MAC of a disabled port is
idle no more (R75). -/
def State.toLine (s : State) (n : Nat) (c : Copy) : State :=
  let teg := s.egressTs c
  let (out, s) := s.lineBytes c teg
  let cells := s.wholeCells c
  let s := ((s.cnt (CRN_XP_CELL_CNT c.col) cells).pmuEv 0x0C c.col).putCopy n { c with stage := .tx, out := out, teg := teg }
  let s := if c.port < 256 ∧ s.on (PRT_CFG_EN c.port) = false then s.wr (PRT_STS_DRAINED c.port) 0 else s
  (if c.inShare then s.shareDown c.shareKey else s).crownShow c.bough c.col

/-- R283: whether a port of an egress bough has a noticed copy. -/
def State.readWaits (s : State) (c j : Nat) : Bool :=
  s.copies.any (fun e => decide (e.2.stage = .noticed) && e.2.col == c && e.2.port % 8 == j)

/-- R283: the transmit order is served in its port's turn: an error in the crosspoint (R293) or a late copy (R295) is discarded instead. -/
def State.transmit (s : State) (n : Nat) (c : Copy) : State :=
  if c.stage ≠ .noticed || s.rrPick (rrRead c.col) 8 (s.readWaits c.col) != some (c.port % 8) then s
  else
  let s := s.rrServed (rrRead c.col) 8 (c.port % 8)
  if c.ue = 2 then (s.cnt (CRN_XP_UE_CNT c.col)).endCopy n
  else if lateBy (2 * s.now (islBough c.col) + s.ttx c.port) c.deadline then s.crownLate n c
  else s.toLine n c

def execTransmitOrder (n : Nat) (s : State) : Out := onCopy n (fun c => islBough c.col) s (fun s c => s.transmit n c)

/-- The copy that leaves a port first. -/
def State.firstLeaving (s : State) (p : Nat) : Option (Nat × Copy) :=
  (s.leaving p).foldl (fun (b : Option (Nat × Copy)) e => match b with
    | some x => if e.2.ord < x.2.ord then some e else b
    | none => some e) none

/-- R30: a copy's last byte has left; the last copy of a packet frees its tag. -/
def State.txComplete (s : State) (p : Nat) : State :=
  match s.firstLeaving p with
  | none => s
  | some (n, c) =>
    let ended := match s.pkt? (pkey c.bough c.tag) with | some q => q.ended | none => true
    if !ended then s
    else
      let s := s.waitIsl (portQuad p) (c.teg + ceilDiv (c.out.length * 8) (modeRate (s.portMode p)))
      (s.sentFrame p c.out false).endCopy n

def execTxComplete (p : Fin 256) (s : State) : Out := onIsl (portQuad p.val) s (·.txComplete p.val)

/-- R294: a cut-through copy's next cell is absent after `got` bytes of its frame. -/
def State.underrun (s : State) (n got : Nat) (c : Copy) : State :=
  match s.pkt? (pkey c.bough c.tag) with
  | none => s
  | some p =>
    if c.stage ≠ .tx || !c.ct then s
    else ((s.cnt (CRN_UNDERRUN_CNT c.col)).raise CRN_INT_UNDERRUN).stompCopy n c got p.bytes.length

def execCtUnderrun (n got : Nat) (s : State) : Out := onCopy n (fun c => portQuad c.port) s (fun s c => s.underrun n got c)

/-! ### Packets that go (R345, R297) -/

/-- R293: an ingress-store cell of a copy's packet is in error; every copy that still reads it meets the same, the copy to
the host too. -/
def State.storeUe (s : State) (k n got : Nat) (p : Pkt) : State :=
  ((s.copiesOf k).foldl (fun s e =>
    match e.2.stage with
    | .tx =>
      if e.1 = n && e.2.ct then (s.cnt (CRN_UE_STOMP_CNT (k / 8192))).stompCopy e.1 e.2 got p.bytes.length else s
    | .queued | .ordered => s.putCopy e.1 { e.2 with ue := 1 }
    | _ => if e.1 = n && e.2.ct then (s.cnt (CRN_UE_DISCARD_CNT (k / 8192))).endCopy e.1 else s)
    (s.modPkt k ({ · with hostCopies := [] }))).settle k

/-- The copies that have still to read the cells of a shared transfer are marked: those that wait in the crosspoint, and those
not yet selected, which will read the same cells (R289, R293). -/
def State.shareUe (s : State) (n : Nat) (c : Copy) : State :=
  (s.copiesOf (pkey c.bough c.tag)).foldl (fun s e =>
    if e.1 != n && c.inShare && e.2.inShare && e.2.shareKey == c.shareKey && (e.2.inXp || decide (e.2.stage = .queued)) then
      s.putCopy e.1 { e.2 with ue := 2 } else s) s

/-- R293: a crosspoint cell of a copy is in error: stomped when its head has left, else discarded at its read. -/
def State.xpUe (s : State) (n got : Nat) (p : Pkt) : State :=
  match s.copies.find? n with
  | none => s
  | some c =>
    match c.stage with
    | .tx => ((s.shareUe n c).cnt (CRN_XP_UE_CNT c.col)).stompCopy n c got p.bytes.length
    | .xp | .noticed => (s.shareUe n c).putCopy n { c with ue := 2 }
    | _ => s

/-- R345: a correctable word of a packet's in packet memory `mem` is read, and counted. -/
def State.cellCe (s : State) (mem k n : Nat) (p : Pkt) : State :=
  let b := k / 8192
  match mem, s.copies.find? n with
  | 1, some c => if pkey c.bough c.tag = k then s.ceCount 5 (islCol c.col) else s
  | 1, none => s
  | 4, c =>
    if p.stage = .parked then s.ceCount 6 (islGroup p.flow.grp)
    else
      match s.itemOf k, c with
      | some (_, it), _ => s.ceCount 6 (islCluster it.cluster)
      | none, some c => if pkey c.bough c.tag = k ∧ c.stage = .queued then s.ceCount 6 (islTm c.tm) else s
      | none, none => s
  | _, _ => s.ceCount 4 (islBough b)

/-- R293, R345: a word in packet memory `mem` is read with the syndrome byte `syn`, uncorrectable or poison (0 ingress store, 1 crosspoint, 2 receive FIFO, 3 bark store or
recirculation queue, 4 miss park, Twig frame store or descriptor store). -/
def State.cellUe (s : State) (mem k n got word syn : Nat) : State :=
  match s.pkt? k with
  | none => s
  | some p =>
    let b := k / 8192
    if synSt 64 syn = .ok then s else if synSt 64 syn = .ce then s.cellCe mem k n p else
    let poison := synSt 64 syn == .poison
    let note (s : State) (src unit isl : Nat) : State :=
      if poison then (s.cnt (POISON_RD_CNT src)).eccLog src 2 unit syn word isl
      else (s.cnt (UE_CNT src)).pageFail src unit syn word isl
    let drop (s : State) : State := ((s.cnt ECC_PKT_DROP_CNT).rxDrop p.bark.ingPort 6).purge k p
    match mem with
    | 0 => if p.hasBuf then (note s 4 b (islBough b)).storeUe k n got p else s
    | 1 =>
      match s.copies.find? n with
      | some c => if pkey c.bough c.tag = k then (note s 5 c.col (islCol c.col)).xpUe n got p else s
      | none => s
    | 2 => if p.ended then s else (note s 4 b (islBough b)).putPkt k { p with ue := true }
    | 3 => drop (note s 4 b (islBough b))
    | _ =>
      match p.stage with
      | .parked => drop (note s 6 p.flow.grp (islGroup p.flow.grp))
      | .twig =>
        let cl := match s.itemOf k with | some (_, it) => it.cluster | none => 0
        drop (note s 6 cl (islCluster cl))
      | _ =>
        match s.copies.find? n with
        | some c =>
          if pkey c.bough c.tag = k ∧ c.stage = .queued then ((note s 6 c.tm (islTm c.tm)).cnt ECC_PKT_DROP_CNT).endCopy n else s
        | none => s

def execCellUe (mem : Fin 5) (b : Fin 32) (t : Fin 8192) (n got : Nat) (word : BitVec 48) (syn : BitVec 8) (s : State) : Out :=
  onIsl (islBough b.val) s (·.cellUe mem.val (pkey b.val t.val) n got word.toNat syn.toNat)

/-- R277, R278: a free request. A buffer freed is no longer its packet's. -/
def State.freeRequest (s : State) (b u q t : Nat) : State :=
  let s' := s.bufFree b u q t
  if (s'.bufs.find? (pkey b u)).isSome || (s.bufs.find? (pkey b u)).isNone then s'
  else s'.modPkt (pkey b t) (fun p => if p.bark.buf = u then { p with hasBuf := false } else p)

def execBufferFree (b : Fin 32) (u : BitVec 13) (q : BitVec 2) (t : Fin 8192) (s : State) : Out :=
  onIsl (islBough b.val) s (·.freeRequest b.val u.toNat q.toNat t.val)

/-! ### Ageing (R296, R297) -/

/-- R296: a copy has held crosspoint cells for XP_MAX µs: discarded, or ended under R72 when its head has left and its last
byte has not. -/
def State.xpStale (s : State) (n : Nat) (c : Copy) : State :=
  match s.pkt? (pkey c.bough c.tag) with
  | none => s
  | some p =>
    let lim := max 1 (s.rd CRN_AGE_CFG_XP_MAX) * 8000
    let count (s : State) : State := (s.cnt (CRN_XP_STALE_CNT c.col)).raise CRN_INT_XP_STALE
    if c.inXp then (count (s.waitMono (c.xpAt + lim))).endCopy n
    else if c.stage = .tx then
      let t := s.waitMono (c.xpAt + lim)
      if p.ended && decide (c.out.length ≤ t.leftBytes c) then s
      else (count t).stompCopy n c (min p.bytes.length (t.leftBytes c)) p.bytes.length
    else s

def execXpStale (n : Nat) (s : State) : Out := onCopy n (fun c => islCol c.col) s (fun s c => s.xpStale n c)

/-- One buffer reclaimed (R297). -/
def State.bufReclaim (s : State) (b u age : Nat) (x : BufSt) : State :=
  let k := pkey b x.tag
  let s := ((s.cnt (CRN_STALE_CNT b)).raise CRN_INT_STALE).journal (islBough b) 0x0702 b
    (natLe 2 u ++ natLe 1 x.pool ++ [0] ++ natLe 2 x.tag ++ [0, 0] ++ natLe 4 age)
  match s.pkt? k with
  | none => s.bufFree b u x.pool x.tag
  | some p =>
    if p.hasBuf && p.bark.buf == u then
      let joined := (s.copiesOf k).filter (fun e => e.2.inShare && (s.joined e.2.shareKey).any (fun x => x.1 == e.1))
      let s := (((s.copiesOf k).filter (fun e => copyNeedsStore e.2)) ++ joined).foldl (fun s e => s.endCopy e.1) s
      match s.pkt? k with
      | some p => if (s.copiesOf k).isEmpty then s.purge k p else (s.putPkt k { p with stage := .sent, ended := true }).settle k
      | none => s
    else s.bufFree b u x.pool x.tag

/-- R297: a bough's sweep of its buffers. -/
def State.bufSweep (s : State) (b : Nat) : State :=
  let lim := max 2200 (s.rd CRN_AGE_CFG_STALE)
  (s.bufs.filter (fun e => e.1 / 8192 == b)).foldl (fun s e =>
    let hosted := match s.pkt? (pkey b e.2.tag) with
      | some p => p.hasBuf && p.bark.buf == e.1 % 8192 && !p.hostCopies.isEmpty
      | none => false
    if s.time.mono ≤ e.2.at_ + lim * 8000000 || hosted then s
    else s.bufReclaim b (e.1 % 8192) ((s.time.mono - e.2.at_) / 8000000) e.2) s

def execBufStaleSweep (b : Fin 32) (s : State) : Out := onIsl (islBough b.val) s (·.bufSweep b.val)

/-! ### Pools (R270) -/

/-- Units of a bough's pools with pool `q` at `n` buffers. -/
def State.poolUnits (s : State) (b q n : Nat) : Nat :=
  (List.range 4).foldl (fun u j => u + (if j = q then n else s.rd (CRN_POOL_CFG_COUNT b j)) * poolSize j) 0

/-- R270: a pool configuration write. -/
def State.poolWrite (s : State) (b q v : Nat) : State :=
  if !s.on (CRN_STORE_STS_IDLE b) || decide (8192 < s.poolUnits b q (v % 2 ^ 14)) then s.wr (CRN_STORE_STS_CFG_REJ_STK b) 1
  else (s.hostWrite (CRN_POOL_CFG b q) v).wr (CRN_POOL_STS_FREE b q) (v % 2 ^ 14)

def execCrnPoolCfgWrite (b : Fin 32) (q : Fin 4) (v : Word) (s : State) : Out :=
  onBar0 (CRN_POOL_CFG b.val q.val) s (·.poolWrite b.val q.val v.toNat)

end Sys2Proof.Machine
end

