-- ==== Sys2Proof/Machine/Inject.lean ====
section
/-!
DEFINITION. Injected packets (R373), as a channel or the exporter hands them over.
-/
namespace Sys2Proof.Machine

/-- What injection asks of a frame (R372): 60 to 9,996 bytes without FCS, and a port of the active mode. -/
def State.injValid (s : State) (port len : Nat) : Bool := decide (60 ≤ len) && decide (len ≤ 9996) && s.isPort port

/-- An injected packet as its bough takes the tag (R373): ING_PORT, ARR_TS, SEQ. -/
def State.injPkt (s : State) (port t : Nat) (f : List Byte) : Pkt :=
  let b := portBough port
  { bark := { arrTs := s.now (islBough b), seq := (s.port port).seq, ingPort := port, bough := b, tag := t, len := f.length + 4 }
    bytes := withFcs f, host := true, ended := true, endAt := s.time.mono }

/-- What INJ_PORT adds: it bypasses parse and decision (R373). -/
def State.injPortPkt (s : State) (port cls : Nat) (p : Pkt) : Pkt :=
  { p with
    bark := { p.bark with gen := s.boughGen p.bark.bough, egr := port, cls := cls
                          deadline := s.deadline p.bark.arrTs cls, inj := true }
    stage := .toAdmit, window := true, genHeld := true, dec := { p.dec with eg := .port port } }

/-- R373: tag and buffer (owner 8, R272, in its turn: R273) taken for a packet whose first free tag is sought from `t`; `none` while either
lacks. `cls` is given for INJ_PORT. -/
def State.inject (s : State) (port t : Nat) (cls : Option Nat) (exp : Bool) (f : List Byte) : Option State :=
  let b := portBough port
  if !s.alive (islBough b) || !s.tagFree b true then none
  else
    match s.tagFrom b 8192 t with
    | none => none
    | some t =>
      match (s.rrServed (rrAlloc b) 9 8).bufAlloc b 8 (f.length + 4) t with
      | none => none
      | some (u, q, s) =>
        let p := s.injPkt port t f
        let p := match cls with | some c => s.injPortPkt port c p | none => p
        let (ue, s) := s.injPacket 4 (ceilDiv (f.length + 4) 8) b (islBough b)
        let p := { p with exp := exp, hasBuf := true, stUe := ue, bark := { p.bark with buf := u, pool := q } }
        let s := (s.nextSeq port).takeTag b t p
        some (if cls.isSome then s.genTake b else s)

end Sys2Proof.Machine
end

