-- ==== Sys2Proof/Machine/Observe.lean ====
section
/-!
DEFINITION. Observability (chapter 15): counter pages and snapshots (R393 to R397), performance counters (R400), the
sampling window (R401), the journal writer (R408 to R411), and the exporter (R413 to R420).
-/
namespace Sys2Proof.Machine

/-! ### Counter pages (R393, R394) -/

/-- The slot of a bank, by its number: the 48-bit counter it holds; an unlisted slot reads 0. -/
def State.liveSlot (s : State) (i : Nat) : Nat :=
  let off := 8 * i
  if off < 0x40000 then
    let p := off / 1024
    let k := i % 128
    if k < 44 then s.cntAt (0x1000400 + 0x1000 * p + 8 * k)
    else if 64 ≤ k ∧ k < 71 then s.cntAt (RX_CAUSE_CNT p (k - 64)) else 0
  else if off < 0x100000 then s.obs.pages.get 0 i
  else if off < 0x100200 then
    let c := (off - 0x100000) / 32
    match i % 4 with
    | 0 => s.cntAt (TMG_BOUND_MISS_CNT c)
    | 1 => s.cntAt (GRV_UNSTATED_CLS_CNT c)
    | _ => 0
  else if 0x101000 ≤ off ∧ off < 0x101A00 then s.obs.pmu.get 0 ((off - 0x101000) / 8)
  else 0

/-- The slot of the counter that the register at a BAR0 offset is half of. -/
def slotOfReg (a : Nat) : Option Nat :=
  if 0x1000000 ≤ a ∧ a < 0x1100000 then
    let p := (a - 0x1000000) / 0x1000
    let o := a % 0x1000
    if 0x400 ≤ o ∧ o < 0x560 then some (128 * p + (o - 0x400) / 8)
    else if 0x600 ≤ o ∧ o < 0x638 then some (128 * p + 64 + (o - 0x600) / 8)
    else none
  else if TMG_BOUND_MISS_CNT 0 ≤ a ∧ a < TMG_BOUND_MISS_CNT 16 then some (0x20000 + 4 * ((a - TMG_BOUND_MISS_CNT 0) / 8))
  else if GRV_UNSTATED_CLS_CNT 0 ≤ a ∧ a < GRV_UNSTATED_CLS_CNT 16 then
    some (0x20001 + 4 * ((a - GRV_UNSTATED_CLS_CNT 0) / 8))
  else none

/-- Every slot of the live bank that is not 0. -/
def State.liveSlots (s : State) : Tab Nat :=
  let put (t : Tab Nat) (i : Nat) : Tab Nat := t.set 0 i (s.liveSlot i)
  let t := s.regs.foldl (fun t e => match slotOfReg e.1 with | some i => put t i | none => t) []
  let t := s.obs.pages.foldl (fun t e => put t e.1) t
  s.obs.pmu.foldl (fun t e => put t (0x20200 + e.1)) t

/-! ### Snapshots (R395 to R397) -/

/-- The island whose counter a slot holds (R390, R396): the quad of the port, its bough for the packets it drops, the unit of
a queue, the boughs of a policer, the unit of a performance counter; the management island for the device-wide sums. -/
def State.slotIsl (s : State) (i : Nat) : Nat :=
  let off := 8 * i
  if off < 0x40000 then (if i % 128 < 64 then portQuad (off / 1024) else islBough (portBough (off / 1024)))
  else if off < 0xC0000 then islTm (portTm ((off - 0x40000) / 2048))
  else if off < 0x100000 then islBough (4 * ((off - 0xC0000) / 32768))
  else if off < 0x101000 then islMgmt
  else
    let key := (off - 0x101000) / 8
    let (code, unit) := pmuSel key (s.reg (if key < 256 then 0xA001000 + 4 * key else 0xA002000 + 4 * (key - 256)))
    pmuIsl code unit

/-- An island in the order in which the islands' copies reach a time: (ticks, island). -/
def islInsert (x : Nat × Nat) : List (Nat × Nat) → List (Nat × Nat)
  | [] => [x]
  | y :: l => if x.1 < y.1 then x :: y :: l else y :: islInsert x l

/-- R396: each slot takes the value that its counter holds when its island's copy of device time reaches `t`. -/
def State.snapSlots (s : State) (t : Nat) : Tab Nat × State :=
  let m := s.time.mono
  let isls := (islMgmt :: s.liveSlots.map (fun e => s.slotIsl e.1)
    ++ s.regs.filterMap (fun e => (pmuKeyOf e.1).map (fun k => s.slotIsl (0x20200 + k)))).eraseDups
  let order := isls.foldl (fun l i => islInsert (s.ticksIsl i t, i) l) []
  order.foldl (fun (x : Tab Nat × State) o =>
    let s := x.2.waitMono (m + o.1)
    ((s.liveSlots.filter (fun e => s.slotIsl e.1 == o.2)).foldl (fun t e => t.set 0 e.1 e.2) x.1, s)) ([], s)

/-- A snapshot bank, by number. -/
def State.bank (s : State) (n : Nat) : SnapBank := if n % 2 = 0 then s.obs.bank0 else s.obs.bank1

/-- A bank replaced. -/
def State.putBank (s : State) (n : Nat) (b : SnapBank) : State :=
  if n % 2 = 0 then { s with obs.bank0 := b } else { s with obs.bank1 := b }

/-- A snapshot time scheduled, in order. -/
def State.snapAsk (s : State) (t : Nat) : State :=
  { s with obs.snapDue := s.obs.snapDue.takeWhile (fun x => decide (x ≤ t)) ++ [t]
             ++ s.obs.snapDue.dropWhile (fun x => decide (x ≤ t)) }

/-- R395: OBS_SNAP_CTL.REQ schedules an epoch 2 µs from now. -/
def State.snapReq (s : State) : State := s.snapAsk (s.now islMgmt + 2000)

def execSnapReq (s : State) : Out := onBar0 OBS_SNAP_CTL s (·.snapReq)

/-- The header entry of a bank (R396). -/
def bankHeader (b : SnapBank) : List Byte := natLe 4 b.epoch ++ natLe 4 (b2n b.done * 2 ^ 31) ++ natLe 8 b.t

/-- R396: a bank is complete; DONE is set, and the notice of the EVENT stream replaces an undelivered one (R421). -/
def State.snapshotDone (s : State) : State :=
  match s.obs.snapRun with
  | none => s
  | some e =>
    let b := { s.bank e with done := true }
    let s := s.putBank e b
    { s with obs.snapRun := none, obs.evQ := s.obs.evQ.set [] 4 [bankHeader b] }

def execSnapshotDone (s : State) : Out := onIsl islMgmt s (·.snapshotDone)

/-- R397: a CNT_READ reads a snapshot bank: one in flight and not finished names slots in it. -/
def State.cntReading (s : State) (e : Nat) : Bool :=
  s.svn.ch.any (fun c => c.2.flight.any (fun (m : Cmd) =>
    let lo := leAt m.desc 24 8 % 2 ^ 63
    let hi := lo + 8 * leAt m.desc 12 4
    let b := 0x1000000 * (1 + e % 2)
    decide (leAt m.desc 0 1 = 0x23) && m.fin.isNone && decide (lo < b + 0x1000000) && decide (b < hi)))

/-- R396, R397: at T the next epoch's bank takes every counter's value, or the epoch is skipped: it falls before the
previous epoch's DONE, at most 20 µs after its T, or a CNT_READ reads its bank. -/
def State.snapshotEpoch (s : State) : State :=
  match s.obs.snapDue with
  | [] => s
  | t :: rest =>
    let (slots, s) := s.snapSlots t
    let s := { s with obs.snapDue := rest }
    let s := match s.obs.snapRun with
      | some e => if (s.bank e).t + 20000 ≤ t then s.snapshotDone else s
      | none => s
    let e := s.rd OBS_SNAP_EPOCH_EPOCH + 1
    if s.obs.snapRun.isSome || s.cntReading e then (s.cnt OBS_SNAP_SKIP_CNT).raise OBS_INT_SNAP_SKIP
    else
      let s := s.wr OBS_SNAP_EPOCH_EPOCH e
      { s.putBank e ⟨e, false, t, slots⟩ with obs.snapRun := some e }

def execSnapshotEpoch (s : State) : Out := onIsl islMgmt s (·.snapshotEpoch)

/-! ### Performance counters and the sampling window (R400, R401) -/

/-- The configuration register of a performance counter, by its key. -/
def pmuCfg (key : Nat) : Nat := if key < 256 then 0xA001000 + 4 * key else 0xA002000 + 4 * (key - 256)

/-- A write of OBS_PMU_CTL; CLR sets every performance counter to 0 (R400). -/
def State.pmuCtlWrite (s : State) (v : Nat) : State :=
  let s := s.hostWrite OBS_PMU_CTL v
  if bit v 1 then { s with obs.pmu := [] } else s

def execPmuClr (v : Word) (s : State) : Out := onBar0 OBS_PMU_CTL s (·.pmuCtlWrite (v.toNat ||| 2))

/-- R400: a counter that wrapped sets its OVF_STK, and PMU_OVF when its OVF_INT is 1. -/
def State.pmuOvf (s : State) : State :=
  match s.obs.pmuWrap with
  | [] => s
  | key :: rest =>
    let a := pmuCfg key
    let s := ({ s with obs.pmuWrap := rest } : State).wr ⟨a, 16, 1⟩ 1
    if s.on ⟨a, 17, 1⟩ then s.raise OBS_INT_PMU_OVF else s

def execPmuOvf (s : State) : Out := whenUp s (·.pmuOvf)

/-- R401: the window closes. -/
def State.sampWinEnd (s : State) : State :=
  match s.obs.sampEnd with
  | some e => { s.waitDev e with obs.sampEnd := none }
  | none => s

def execSampWinEnd (s : State) : Out := whenUp s (·.sampWinEnd)

/-! ### The journal (R408 to R411) -/

/-- The 32 bytes of a record under its number (R408). -/
def jrnBytes (n : Nat) (r : JRec) : List Byte :=
  let head := natLe 8 r.ts ++ natLe 4 n ++ natLe 2 r.type ++ natLe 1 r.unit ++ natLe 1 (b2n r.pkt)
  let body := if r.pkt then natLe 4 r.seq ++ natLe 1 r.port ++ r.body else r.body
  slice0 (head ++ body) 0 32

/-- The Root store address of record `n` (R409, R252). -/
def jrnAddr (n : Nat) : Nat := 0x500000000 + 32 * (n % 2 ^ 28)

/-- A device time below which no record can still be written (R410): no later than the queued records, the packets in
flight, the learn requests that wait, the islands' clocks, and the seconds whose records are still to come. -/
def State.horizonMax (s : State) : Nat :=
  let lo := s.now islMgmt / 1000000000 * 1000000000 - 1000000000
  let lo := s.jrn.q.foldl (fun m r => min m r.ts) lo
  let lo := if s.obs.expLostSec = 0 then lo else min lo s.obs.expLostAt
  let lo := s.brg.learn.foldl (fun m r => min m r.ts) lo
  s.pkts.foldl (fun m e => min m e.2.bark.arrTs) lo

/-- OBS_JRN_HORIZON takes a value that R410 allows. -/
def State.horizon (s : State) : State :=
  let (n, s) := s.fresh
  s.wr64 OBS_JRN_HORIZON (min (Config.jrnHorizon n) s.horizonMax)

/-- Whether the stack that holds an address is ready. -/
def State.rsReady (s : State) (a : Nat) : Bool := bit (s.rd RTS_STS_READY) (s.stkOf a)

/-- R409: the writer stores its oldest record at the next number, once the records that must come first after SYSRST_N
are in (R411) and the stack that takes it is ready. -/
def State.journalWrite (s : State) : State :=
  let n := s.rd64 OBS_JRN_WPTR
  match s.jrn.q with
  | [] => s
  | r :: rest =>
    if !s.on OBS_JRN_CFG_EN || s.jrn.restart || !s.rsReady (jrnAddr n) then s
    else if !s.rtsHas clsJrn (jrnAddr n) then s.rtsHeldBack (jrnAddr n)
    else
      let s := (({ s with jrn.q := rest } : State).rtsUse clsJrn (jrnAddr n) 32 true).rsWrite (jrnAddr n) (jrnBytes n r)
      ((s.wr64 OBS_JRN_WPTR ((n + 1) % 2 ^ 64)).cnt OBS_JRN_CNT).pmuEv 0x62 0 |>.horizon

def execJournalWrite (s : State) : Out := onIsl islMgmt s (·.journalWrite)

/-- The island of a unit that raises events of a class (R412). -/
def jrnIsl (cls unit : Nat) : Nat :=
  match cls with
  | 1 => portQuad unit
  | 2 => islBough unit
  | 4 => islRts unit
  | 5 => islCluster unit
  | 6 => islRts unit
  | 7 => islBough unit
  | 8 => islTm unit
  | 9 => islTime
  | _ => islMgmt

/-- R411: a unit that lost records and can hand over again. -/
def State.jrnLost (s : State) (cls unit : Nat) : State := s.jrnFlushLost (jrnIsl cls unit) (cls * 65536 + unit)

def execJrnLost (cls unit : BitVec 8) (s : State) : Out := whenUp s (·.jrnLost cls.toNat unit.toNat)

/-- R411, R378: the first record after SYSRST_N, and those of the knots held at the reset, which are counted now. -/
def State.jrnRestart (s : State) : State :=
  if !s.jrn.restart then s
  else
    let t := s.now islMgmt
    let knots := s.jrn.knots
    let rs := (⟨t, 0x0C03, 0, false, 0, 0, []⟩ : JRec)
      :: knots.map (fun k => ⟨t, 0x0B01, k.1, false, 0, 0, natLe 2 k.2 ++ natLe 1 5⟩)
    let rs := if s.on OBS_JRN_CFG_EN then rs else []
    let s := { s with jrn.restart := false, jrn.knots := [], jrn.q := rs ++ s.jrn.q }
    if knots.isEmpty then s else (s.cnt KNOT_ABANDON_CNT knots.length).raise SVN_INT_KNOT_ABANDON

def execJrnRestart (s : State) : Out := onIsl islMgmt s (·.jrnRestart)

/-! ### Flow templates (R415) -/

/-- The user region address of `OBS_EXP_TBASE` MiB. -/
def State.expBase (s : State) : Nat := 0x800000000 + s.rd OBS_EXP_TBASE_BASE * 2 ^ 20

/-- A template's bytes read as a template, with its own validity: ID, number and kinds of fields (R415). -/
def readTmpl (b : List Byte) : Option FlowTmpl :=
  let nf := leAt b 2 1
  let fs := (List.range nf).map (fun i => (leAt b (8 + 8 * i) 2, leAt b (10 + 8 * i) 1))
  if leAt b 3 1 % 2 = 1 ∧ 256 ≤ leAt b 0 2 ∧ 1 ≤ nf ∧ nf ≤ 30 ∧ fs.all (fun f => (ieLens f.1).contains f.2) = true then
    some ⟨leAt b 0 2, fs⟩
  else none

/-- Template `n` as read; poisoned bytes make no template. -/
def State.loadTmpl (s : State) (n : Nat) : Option FlowTmpl :=
  let a := s.expBase + 256 * n
  if s.rsPoisoned a 256 then none else readTmpl (s.rsRead a 256)

/-- The flow indices of the directory's ways that hold a flow. -/
def State.flowList (s : State) : List Nat :=
  (s.rs.foldl (fun (l : List Nat) e =>
    let i := (e.1 - 0x400000000) / 64
    if e.1 < 0x400000000 ∨ 0x500000000 ≤ e.1 ∨ l.head? = some i then l else i :: l) []).reverse.filter s.wayUsed

/-- The templates that flows name. -/
def State.namedTmpls (s : State) : List Nat :=
  ((s.flowList.map (fun i => beAt (s.record i) 179 1)).filter (· != 0)).eraseDups

/-- The template record of a template (RFC 7011). -/
def tmplRec (t : FlowTmpl) : List Byte :=
  natBe 2 t.id ++ natBe 2 t.fields.length ++ t.fields.flatMap (fun f => natBe 2 f.1 ++ natBe 2 f.2)

/-- R413: over the port destination every valid template is sent, and again TMPL_INT seconds later. -/
def State.tmplSend (s : State) : State :=
  if s.on OBS_EXP_CFG_EN && s.on OBS_EXP_CFG_DEST then
    { s with obs.expTmpl := s.obs.expTmpl ++ s.obs.tmpl.map (fun e => tmplRec e.2)
             obs.tmplDue := some (s.now islMgmt + max 1 (s.rd OBS_EXP_MTU_TMPL_INT) * 1000000000) }
  else s

/-- R415: every template read and checked; an ID that two share makes both invalid. -/
def State.tmplLoad (s : State) : State :=
  let got := (List.range 256).filterMap (fun n => if n = 0 then none else (s.loadTmpl n).map (n, ·))
  let ok := got.filter (fun e => (got.filter (fun x => x.2.id == e.2.id)).length == 1)
  let s := ((s.trunkAsk trkExport 4 (255 * 4)).rtsUse clsExp s.expBase 65536 false).rsScan s.expBase 65536
  let s := { s with obs.tmpl := ok }
  (s.wrB OBS_EXP_STS_TMPL_OK (s.namedTmpls.all (fun n => ok.any (fun e => e.1 == n)))).tmplSend

/-- A write of OBS_EXP_CFG: EN rising sends every valid template, LOAD reads them (R413, R415). -/
def State.expCfgWrite (s : State) (v : Nat) : State :=
  let was := s.on OBS_EXP_CFG_EN
  let s := s.hostWrite OBS_EXP_CFG v
  let s := if s.on OBS_EXP_CFG_EN then s else { s with obs.tmplDue := none }
  if bit v 2 then s.tmplLoad else if !was then s.tmplSend else s

def execTemplateLoad (v : Word) (s : State) : Out := onBar0 OBS_EXP_CFG s (·.expCfgWrite (v.toNat ||| 4))

def execExportEnable (v : Word) (s : State) : Out := onBar0 OBS_EXP_CFG s (·.expCfgWrite (v.toNat ||| 1))

/-- R413: TMPL_INT seconds have passed. -/
def State.tmplResend (s : State) : State :=
  match s.obs.tmplDue with
  | some t => if s.on OBS_EXP_CFG_EN then ({ s with obs.tmplDue := none } : State).waitIsl islMgmt t |>.tmplSend else s
  | none => s

def execTemplateResend (s : State) : Out := onIsl islMgmt s (·.tmplResend)

/-! ### Active exports (R417) -/

/-- EXP_NEXT as a full device time: the latest one not after `now`, when it has passed; else the one to come. -/
def expNext (now x : Nat) : Nat :=
  let d := (now + 2 ^ 48 - x % 2 ^ 48) % 2 ^ 48
  if d < 2 ^ 47 then now - d else now + (2 ^ 48 - d)

/-- R417: device time passes EXP_NEXT of a flow: its record is exported and its deltas and EXP_NEXT advance. A record that
holds poison is not exported here (R347). -/
def State.activeExport (s : State) (idx : Nat) : State :=
  let r := s.record idx
  let int := beAt r 180 1 + 256 * beAt r 181 1
  if !s.on OBS_EXP_CFG_EN || !s.wayUsed idx || beAt r 179 1 = 0 || int = 0 || s.rd RTS_STS_READY ≠ 3 then s
  else
    let next := fget (leNat (slice0 r 128 128)) CB_EXP_NEXT
    let s := s.waitIsl islMgmt (expNext (s.now islMgmt) next + 1)
    let s := ((s.trunkAsk trkExport 4).rtsUse clsExp (slotAddr idx + 128) 128 false).rsScan (slotAddr idx + 128) 128
    if s.hotUnread idx || s.rsPoisoned (slotAddr idx + 128) 128 then s
    else if (s.tmplOf (beAt r 179 1)).isNone then s.expFlow r 2
    else
      let now := s.now islMgmt
      let e := expNext now next
      let hot := hotNat (slice0 r 64 64)
      let step := int * 1000000000
      let cold := leNat (slice0 r 128 128)
      let cold := fset (fset cold CB_EXP_PKTS (fget hot HB_PKTS)) CB_EXP_BYTES (fget hot HB_BYTES)
      let cold := fset cold CB_EXP_NEXT ((e + ((now - e) / step + 1) * step) % 2 ^ 48)
      let s := s.expFlow r 2
      let s := if 1000000000 < now - e then s.cnt OBS_EXP_LATE_CNT else s
      (s.rtsUse clsExp (slotAddr idx + 128) 128 true).rsWrite (slotAddr idx + 128) (natLe 128 cold)

def execActiveExport (idx : BitVec 26) (s : State) : Out := onIsl islMgmt s (·.activeExport idx.toNat)

/-! ### IPFIX messages (R413, R420) -/

/-- The sets' content of a message: as many records of one kind, oldest first, as the room allows; at least one. -/
def packRecs (room : Nat) : List (List Byte) → List (List Byte)
  | [] => []
  | r :: l => if r.length ≤ room then r :: packRecs (room - r.length) l else []

/-- A message with one set (RFC 7011). -/
def State.ipfix (s : State) (set : Nat) (body : List Byte) : List Byte :=
  natBe 2 10 ++ natBe 2 (20 + body.length) ++ natBe 4 (s.rd OBS_EXP_UNIX0_UNIX0 + s.now islMgmt / 1000000000)
    ++ natBe 4 s.obs.expSeq ++ natBe 4 (s.reg OBS_EXP_DOMAIN) ++ natBe 2 set ++ natBe 2 (4 + body.length) ++ body

/-- The next message: its bytes, how many data records it carries (0 for templates), how many template records. -/
def State.nextMsg (s : State) : Option (List Byte × Nat × Nat) :=
  let room := max 512 (min 9000 (s.rd OBS_EXP_MTU_MTU)) - 20
  match s.obs.expTmpl with
  | t :: l =>
    let n := max 1 (packRecs room (t :: l)).length
    some (s.ipfix 2 ((t :: l).take n).flatten, 0, n)
  | [] =>
    match s.obs.expRecs with
    | [] => none
    | r :: l =>
      let same := (r :: l).takeWhile (fun x => x.tmpl == r.tmpl)
      let n := max 1 (packRecs room (same.map (·.bytes))).length
      some (s.ipfix r.tmpl ((same.take n).map (·.bytes)).flatten, n, 0)

/-- A message has been handed on. -/
def State.msgSent (s : State) (n t : Nat) : State :=
  let s := { s with obs.expTmpl := s.obs.expTmpl.drop t, obs.expRecs := s.obs.expRecs.drop n
                    obs.expSeq := (s.obs.expSeq + n) % 2 ^ 32 }
  (s.cnt OBS_EXP_MSG_CNT).cnt OBS_EXP_REC_CNT n

/-- The UDP checksum over a pseudo-header of IPv6. -/
def udp6Csum (src dst udp : List Byte) : Nat :=
  let all := src ++ dst ++ natBe 4 udp.length ++ natBe 4 17 ++ udp ++ (if udp.length % 2 = 1 then [0] else [])
  let c := 65535 - csumFold ((words16 all).foldl (· + ·) 0)
  if c = 0 then 65535 else c

/-- R420: the datagram around a message; `none` for an invalid header: LEN outside 28 to 128, no IPv4 or IPv6 header at
IPOFF, or no room for it and the UDP header, which stands last. -/
def datagram (hdr : List Byte) (ipoff : Nat) (msg : List Byte) : Option (List Byte) :=
  let n := hdr.length
  let ver := beAt hdr ipoff 1 / 16
  let ihl := 4 * (beAt hdr ipoff 1 % 16)
  let udpAt := n - 8
  if n < 28 ∨ 128 < n then none
  else if ver = 4 ∧ 20 ≤ ihl ∧ ipoff + ihl ≤ udpAt then
    let h := splice hdr (ipoff + 2) (natBe 2 (n - ipoff + msg.length))
    let h := splice (splice h (ipoff + 10) [0, 0]) (udpAt + 4) (natBe 2 (8 + msg.length) ++ [0, 0])
    let c := 65535 - csumFold ((words16 (slice0 h ipoff ihl)).foldl (· + ·) 0)
    some (splice h (ipoff + 10) (natBe 2 c) ++ msg)
  else if ver = 6 ∧ ipoff + 40 ≤ udpAt then
    let h := splice hdr (ipoff + 4) (natBe 2 (n - ipoff - 40 + msg.length))
    let h := splice h (udpAt + 4) (natBe 2 (8 + msg.length) ++ [0, 0])
    let c := udp6Csum (slice0 h (ipoff + 8) 16) (slice0 h (ipoff + 24) 16) (h.drop udpAt ++ msg)
    some (splice h (udpAt + 6) (natBe 2 c) ++ msg)
  else none

/-- R347: the records held are read from Export staging as they are sent; those that hold poison are discarded. -/
def State.expClean (s : State) : State :=
  if s.ecc.diff.isEmpty && s.ecc.poison.isEmpty then s
  else
    let s := s.obs.expRecs.foldl (fun s r => s.rsScan r.at_ r.bytes.length) s
    { s with obs.expRecs := s.obs.expRecs.filter (fun r => !s.rsPoisoned r.at_ r.bytes.length) }

/-- The reads of the `n` records of a message (R264). -/
def State.expReads (s : State) (n : Nat) : State :=
  (s.obs.expRecs.take n).foldl (fun s r => s.rtsUse clsExp r.at_ r.bytes.length false) s

/-- R420: the next message goes to the IPFIX stream, once that has delivered the one before, or out of a port. -/
def State.exportMessage (s : State) : State :=
  if !s.on OBS_EXP_CFG_EN then s
  else
    let s := s.expClean
    match s.nextMsg with
    | none => s
    | some (msg, n, t) =>
      let s := s.expReads n
      if !s.on OBS_EXP_CFG_DEST then
        if s.obs.evQ.get [] 3 = [] then ({ s with obs.evQ := s.obs.evQ.set [] 3 [msg] } : State).msgSent n t else s
      else
        let port := s.rd OBS_EXP_CFG_PORT
        let s := s.rtsUse clsExp (s.expBase + 0x10000) (s.rd OBS_EXP_HDR_LEN) false
        match datagram (s.rsRead (s.expBase + 0x10000) (s.rd OBS_EXP_HDR_LEN)) (s.rd OBS_EXP_HDR_IPOFF) msg with
        | none => s.wr OBS_EXP_STS_HDR_ERR_STK 1
        | some f =>
          let f := padded f
          if !s.injValid port f.length then s
          else
            match s.inject port 0 (some (s.rd OBS_EXP_CFG_CLASS)) true f with
            | some s => ({ s with obs.expSent := msg :: s.obs.expSent.take 15 } : State).msgSent n t
            | none => s

def execExportMessage (s : State) : Out := onIsl islMgmt s (·.exportMessage)

/-- R420: at most one EXP_LOST record a second. -/
def State.expLost (s : State) : State :=
  if s.obs.expLostSec = 0 then s
  else
    let s := s.waitIsl islMgmt (s.obs.expLostAt + 1000000000)
    let s := s.journalAt islMgmt s.obs.expLostAt 0x0C02 0 (natLe 4 s.obs.expLostSec)
    { s with obs.expLostSec := 0, obs.expLostAt := 0 }

def execExpLost (s : State) : Out := onIsl islMgmt s (·.expLost)

end Sys2Proof.Machine
end

