-- ==== Sys2Proof/Machine/Time.lean ====
section
/-!
DEFINITION. Device time (chapter 12): rate, updates of the islands' copies, slews, steps and sets, captures and PPS.
-/
namespace Sys2Proof.Machine

/-- R323: the write crosses into the time island in 1 or 2 of its cycles and takes effect at the next. -/
def State.timFreqWrite (s : State) (v : Word) : State :=
  let (n, s) := s.fresh
  let s := s.advance (if Config.crossTwo n then 16 else 8)
  s.setReg TIM_FREQ v.toNat

def execTimFreqWrite (v : Word) (s : State) : Out := onBar0 TIM_FREQ s (·.timFreqWrite v)

/-- SYNC_OK is 1 when every island's agreement bit is set (R325). -/
def State.syncSummary (s : State) : State :=
  s.wrB TIM_STS_SYNC_OK ((List.range 168).all (fun i => s.time.sync.get false i))

/-- How far an island's copy is ahead of the time island, units of 2^-48 ns. -/
def State.islAhead (s : State) (i : Nat) : Int :=
  let (a, lag) := s.copyNow i
  (a : Int) - (match lag with | some (_, d) => accStep s.accFine (-d) | none => s.accFine)

/-- R325: the correction in ppm of an island that is `e` ahead: any within ±200 that leaves the copy within its bound at the
next update, 256 ns on; the greatest towards it where none does. -/
def steer (i : Nat) (e free : Int) : Int :=
  let b : Int := islBound i
  let per : Int := 2 ^ 48 * 256 / 1000000
  let lo := max (-200) (min 200 ((-b - e + per - 1) / per))
  let hi := max (-200) (min 200 ((b - e) / per))
  max lo (min hi free)

/-- R325: one island corrects its copy by its advance rate alone, by at most ±200 ppm of the rate it is sent. Its agreement
bit is set once the copy is within its bound. -/
def State.islUpdate (s : State) (i : Nat) : State :=
  if s.islStopped i then s
  else
    let (n, s) := s.fresh
    let e := s.islAhead i
    let c := steer i e (Config.steerPpm n)
    let r := s.sentRate
    let rate := ((r : Int) + (r : Int) * c / 1000000).toNat
    let (a, lag) := s.copyNow i
    { s with
      time.isl := s.time.isl.set {} i ⟨a, s.time.mono, rate, lag⟩
      time.upd := s.time.upd.set 0 i s.time.mono
      time.sync := s.time.sync.set false i (s.time.sync.get false i || decide (e.natAbs ≤ islBound i)) }

/-- R325: every 256 ns of device time each island gets the time and the rate. -/
def State.timeUpdate (s : State) : State :=
  let s := s.waitDev s.time.updNext
  let s := { s with time.updNext := (s.devNow / 256 + 1) * 256 }
  ((List.range 168).foldl (fun s i => s.islUpdate i) s).syncSummary

def execTimeUpdate (s : State) : Out := onTime s (·.timeUpdate)

/-- R325: 4 µs (32,000 ticks) after its last update the island clears its agreement bit, which sets TIM_INT.SYNC and
writes TIME_SYNC. An island that has stopped receives no update either. -/
def State.timeSyncLoss (s : State) (i : Nat) : State :=
  let s := s.waitMono (s.time.upd.get 0 i + 32000)
  if s.time.sync.get false i then
    let s := { s with time.sync := s.time.sync.set false i false }
    (s.syncSummary.raise TIM_INT_SYNC).journal i 0x0903 i []
  else s

def execTimeSyncLoss (isl : Fin 168) (s : State) : Out :=
  .next (if s.alive isl.val || (s.timeUp && s.islStopped isl.val) then s.timeSyncLoss isl.val else s)

/-- R323: device time latched, ns and the visible fraction. -/
def State.timeSnap (s : State) : State :=
  (s.wr64 TIM_SNAP_NS (s.devNow % 2 ^ 64)).setReg TIM_SNAP_FRAC (s.time.acc / 2 ^ 32 % 2 ^ 16)

def execTimeSnap (s : State) : Out := onBar0 TIM_SNAP s (·.timeSnap)

/-- The value of TIM_ADJ read as a signed 64-bit Δ. -/
def State.adjDelta (s : State) : Int := toSigned 64 (s.rd64 TIM_ADJ)

/-- The refusal cause of a STEP (op 1) or SET (op 3), 0 when it is accepted (R330). While INIT = 1, causes 1, 3 and 5
do not apply. -/
def State.stepCause (s : State) (op : Nat) (force : Bool) (delta : Int) : Nat :=
  let init := s.on TIM_STS_INIT
  let gap := match s.time.lastStepEnd with
    | some e => decide (s.devNow < e + 2200000000)
    | none => false
  if !init && op == 1 && !force && decide (s.rd TIM_STEP_CFG_THR < delta.natAbs) then 1
  else if s.time.stepPend.isSome then 2
  else if !init && !force && gap then 3
  else if (s.devNow + 2000 : Nat) + delta < 0 then 4
  else if !init && op == 3 && !force then 5
  else 0

/-- R330, R331: a STEP or SET is refused with its cause, or accepted for `T_s` = now + 2,000 ns. -/
def State.timeReq (s : State) (op : Nat) (force : Bool) : State :=
  let ts := s.devNow + 2000
  let delta : Int := if op = 3 then (s.rd64 TIM_ADJ : Int) - ts else s.adjDelta
  let c := s.stepCause op force delta
  if c = 0 then
    { s with time.stepPend := some ⟨ts, delta, op, force⟩ }.wr TIM_STS_STEP_PEND 1
  else
    ((((s.wr TIM_STS_REJ_CAUSE c).wr TIM_STS_STEP_REJ_STK 1).cnt STEP_REJ_CNT).raise TIM_INT_STEP_REJ)

def execTimeStep (force : Bool) (s : State) : Out := onBar0 TIM_ADJ_CMD s (·.timeReq 1 force)

def execTimeSet (force : Bool) (s : State) : Out := onBar0 TIM_ADJ_CMD s (·.timeReq 3 force)

/-- R329: a SLEW replaces what remains of the previous one; a SLEW of 0 ends it at once. -/
def State.timeSlew (s : State) : State :=
  let d := s.adjDelta
  let s := { s with time.slewLeft := d.natAbs * 2 ^ 48, time.slewNeg := decide (d < 0) }
  if d = 0 then (s.wr TIM_STS_SLEW_BUSY 0).raise TIM_INT_SLEW_DONE else s.wr TIM_STS_SLEW_BUSY 1

def execTimeSlew (s : State) : Out := onBar0 TIM_ADJ_CMD s (·.timeSlew)

/-- R329: the slew has absorbed |Δ|; it stops. -/
def State.slewDone (s : State) : State :=
  if !s.on TIM_STS_SLEW_BUSY then s
  else
    let st := s.slewStep
    let s := if st = 0 then s else s.advance (8 * ceilDiv s.time.slewLeft st)
    if s.time.slewLeft = 0 then (s.wr TIM_STS_SLEW_BUSY 0).raise TIM_INT_SLEW_DONE else s

def execSlewDone (s : State) : Out := onTime s (·.slewDone)

/-! ### Firing times of the trigger generators -/

/-- The effective period: 0 single, below 64 acts as 64 (R336). -/
def State.trgPeriod (s : State) (k : Nat) : Nat :=
  let p := s.reg (TIM_TRG_PERIOD k)
  if p = 0 then 0 else max 64 p

/-- F_j of a generator that counts from `st`. -/
def State.trgTime (s : State) (k st j : Nat) : Nat := st + j * s.trgPeriod k

/-- The next firing time of a generator, if it has one. -/
def State.trgNext (s : State) (k : Nat) : Option Nat :=
  let t := s.time.trg.get {} k
  match t.start with
  | some st => if t.spent then none else some (s.trgTime k st t.j)
  | none => none

/-- TIM_TRGk_NEXT shows the next firing time (R336). -/
def State.trgShow (s : State) (k : Nat) : State :=
  match s.trgNext k with
  | some f => s.wr64 (TIM_TRG_NEXT k) (f % 2 ^ 64)
  | none => s

/-- R336: the generator counts from `st`; its first firing is at the smallest `j` at least 1 µs from now. A single firing
nearer than that does not take place. -/
def State.trgArm (s : State) (k st : Nat) : State :=
  let lo := ceilDiv s.time.acc (2 ^ 48) + 1000
  let p := s.trgPeriod k
  let t : TrgSt :=
    if lo ≤ st then ⟨some st, 0, false⟩
    else if p = 0 then ⟨some st, 0, true⟩
    else ⟨some st, ceilDiv (lo - st) p, false⟩
  let s := { s with time.trg := s.time.trg.set {} k t, time.gclDone := s.time.gclDone.erase k }
  s.trgShow k

/-- R338: the firings of a generator that a forward step to `new` skips do not take place and count. -/
def State.trgSkip (s : State) (new k : Nat) : State :=
  let t := s.time.trg.get {} k
  match t.start with
  | none => s
  | some st =>
    let p := s.trgPeriod k
    let f := s.trgTime k st t.j
    if t.spent || decide (new ≤ f) then s
    else
      let n := if p = 0 then 1 else ceilDiv (new - f) p
      let t := if p = 0 then { t with spent := true } else { t with j := t.j + n }
      let s := { s with time.trg := s.time.trg.set {} k t }
      ((s.cnt TRG_SKIP_CNT n).raise TIM_INT_TRG_SKIP).trgShow k

/-- R338: pulses whose end has passed on the new scale end at once. -/
def State.pulsesEnd (s : State) : State :=
  let now := s.devNow
  { s with
    time.pulse := s.time.pulse.filter (fun e => decide (now < e.2.2))
    time.ppsEnd := s.time.ppsEnd.filter (fun e => decide (now < e)) }

/-- R331: the time island goes from `T_s` to `T_s + Δ`; each copy does when it reaches `T_s`, or has done so. -/
def State.stepCopies (s : State) (ts : Nat) (d : Int) : State :=
  let isl := (List.range 168).foldl (fun t i =>
    let a := (s.copyNow i).1
    let rate := (s.time.isl.get {} i).rate
    t.set {} i (if a < ts * 2 ^ 48 then ⟨a, s.time.mono, rate, some (ts, d)⟩ else ⟨accStep a d, s.time.mono, rate, none⟩))
    s.time.isl
  { s with time.isl := isl, time.acc := accStep s.time.acc d }

/-- Work that recurs every so many ns of device time goes on after a step of Δ: the updates and the shaper refills at the
next multiple on the new scale, the pruner and the leaks of CE levels as long after the step as they were due. -/
def State.intervals (s : State) (d : Int) : State :=
  let mv (t : Nat) : Nat := ((t : Int) + d).toNat
  { s with
    time.updNext := (s.devNow / 256 + 1) * 256
    refillAt := s.refillAt.map (fun e => (e.1, (s.now (islTm e.1) / 125 + 1) * 125))
    brg.pruneAt := mv s.brg.pruneAt
    ecc.leakAt := s.ecc.leakAt.foldl (fun (t : Tab Nat) e => t.set 0 e.1 (mv e.2)) [] }

/-- R331, R338, R339: the pending step is applied when device time reaches `T_s`. -/
def State.stepApply (s : State) : State :=
  match s.time.stepPend with
  | none => s
  | some r =>
    let s := s.waitDev r.ts
    let s := { s.stepCopies r.ts r.delta with time.stepPend := none, time.lastStepEnd := some ((r.ts : Int) + r.delta).toNat }
    let s := (s.wr64 TIM_STEP_AT (r.ts % 2 ^ 64)).wr64 TIM_STEP_DELTA (ofSigned 64 r.delta)
    let s := ((s.wr TIM_STS_INIT 0).wr TIM_STS_STEP_PEND 0).cnt STEP_CNT
    let s := if r.force then s.cnt SET_FORCE_CNT else s
    let s := (s.raise TIM_INT_STEP_DONE).journalAt islTime r.ts 0x0901 0
      (natLe 8 (ofSigned 64 r.delta) ++ natLe 1 r.op ++ natLe 1 (b2n r.force))
    let s := if 0 < r.delta then
        let s := (List.range 8).foldl (fun s k => s.trgSkip s.devNow k) s
        { s with time.ppsNext := max s.time.ppsNext (ceilDiv s.devNow 1000000000) }
      else s
    (s.intervals r.delta).pulsesEnd

def execStepApply (s : State) : Out := onTime s (·.stepApply)

/-! ### Captures and PPS -/

/-- R336: a capture sets START of each enabled generator armed by the pin and restarts it. -/
def State.trgCapture (s : State) (pin ns k : Nat) : State :=
  if s.on (TIM_TRG_CFG_EN k) && s.rd (TIM_TRG_CFG_ARM k) == pin + 1 then
    let st := ns + s.reg (TIM_TRG_OFFSET k)
    (s.wr64 (TIM_TRG_START k) (st % 2 ^ 64)).trgArm k st
  else s

/-- R335: a selected edge latches its time at 250 ps resolution, counts, interrupts, and may journal; one less than
100 ns (800 ticks) after the last is not captured. -/
def State.timeCapture (s : State) (n : Nat) (falling : Bool) : State :=
  let sel := bit (s.rd (TIM_CAP_CFG_EDGE n)) (b2n falling)
  let near := match s.time.capAt.find? n with
    | some m => decide (s.time.mono < m + 800)
    | none => false
  if !sel then s
  else if near then s.cnt CAP_OVR_CNT
  else
    let t := s.time.acc + s.time.mono % 8 / 2 * 2 ^ 46
    let ns := t / 2 ^ 48
    let fr := t / 2 ^ 32 % 2 ^ 16
    let s := { s with time.capAt := s.time.capAt.insert n s.time.mono }
    let s := (s.wr64 (TIM_CAP_TS n) (ns % 2 ^ 64)).setReg (TIM_CAP_FRAC n) (fr + b2n falling * 2 ^ 16)
    let s := (s.cnt (TIM_CAP_CNT n)).raiseN TIM_INT_CAP (2 ^ n)
    let s := if s.on (TIM_CAP_CFG_JRN_EN n) then
        s.journalAt islTime ns 0x0902 n (natLe 2 fr ++ natLe 1 (b2n falling)) else s
    (List.range 8).foldl (fun s k => s.trgCapture n ns k) s

def execTimeCapture (pin : Fin 4) (falling : Bool) (s : State) : Out := onTime s (·.timeCapture pin.val falling)

/-- R339: PPS_OUT rises at the next whole second that had no pulse, for WIDTH µs. -/
def State.ppsPulse (s : State) : State :=
  if !s.on TIM_PPS_CFG_EN then s
  else
    let n := max s.time.ppsNext (ceilDiv s.devNow 1000000000)
    let s := s.waitDev (n * 1000000000)
    let w := max 1 (s.rd TIM_PPS_CFG_WIDTH) * 1000
    { s with time.ppsEnd := some (n * 1000000000 + w), time.ppsNext := n + 1 }

def execPpsPulse (s : State) : Out := onTime s (·.ppsPulse)

/-- R339: PPS_OUT falls. -/
def State.ppsPulseEnd (s : State) : State :=
  match s.time.ppsEnd with
  | some e => { s.waitDev e with time.ppsEnd := none }
  | none => s

def execPpsPulseEnd (s : State) : Out := onTime s (·.ppsPulseEnd)

/-- R337: the trigger pin's pulse of generator `k` ends. -/
def State.triggerPulseEnd (s : State) (k : Nat) : State :=
  match s.time.pulse.find? k with
  | some (_, e) => let s := s.waitDev e; { s with time.pulse := s.time.pulse.erase k }
  | none => s

def execTriggerPulseEnd (k : Fin 8) (s : State) : Out := onTime s (·.triggerPulseEnd k.val)

/-- Whether TTRIGn is high: the OR of the pulses of the generators that selected it (R337). -/
def State.ttrigHigh (s : State) (n : Nat) : Bool := s.time.pulse.any (fun e => e.2.1 == n)

/-- Whether PPS_OUT is high: only while EN = 1 (R339). -/
def State.ppsHigh (s : State) : Bool := s.on TIM_PPS_CFG_EN && s.time.ppsEnd.isSome

end Sys2Proof.Machine
end

