-- ==== Sys2Proof/Machine/Triggers.lean ====
section
/-!
DEFINITION. Trigger generators (R336, R337): their configuration, their firings, and the gate-list action.
-/
namespace Sys2Proof.Machine

/-- ARM in force: 5 to 7 act as 0. -/
def State.trgArmPin (s : State) (k : Nat) : Nat := let a := s.rd (TIM_TRG_CFG_ARM k); if 5 ≤ a then 0 else a

/-- A generator's CFG written (R336): ARM is refused while EN = 1; EN rising starts it, EN falling stops it. -/
def State.trgCfg (s : State) (k v : Nat) : State :=
  let en := s.on (TIM_TRG_CFG_EN k)
  let arm := s.rd (TIM_TRG_CFG_ARM k)
  let s := s.hostWrite (TIM_TRG_CFG k) v
  let s := if en && getBits v 7 3 != arm then (s.wr (TIM_TRG_CFG_ARM k) arm).wr TIM_STS_TRG_REJ_STK 1 else s
  if !en && s.on (TIM_TRG_CFG_EN k) then
    if s.trgArmPin k = 0 then s.trgArm k (s.rd64 (TIM_TRG_START k))
    else { s with time.trg := s.time.trg.erase k, time.gclDone := s.time.gclDone.erase k }
  else if en && !s.on (TIM_TRG_CFG_EN k) then
    { s with time.trg := s.time.trg.erase k, time.gclDone := s.time.gclDone.erase k }
  else s

/-- A write of a generator's register number `off` (offset / 4): START, PERIOD and OFFSET are refused while EN = 1. -/
def State.trgWrite (s : State) (k off v : Nat) : State :=
  let a := TIM_TRG_CFG k + 4 * off
  if off = 0 then s.trgCfg k v
  else if off = 1 ∨ off = 2 ∨ off = 3 ∨ off = 5 then
    if s.on (TIM_TRG_CFG_EN k) then s.wr TIM_STS_TRG_REJ_STK 1 else s.hostWrite a v
  else s.hostWrite a v

def execTriggerCfgWrite (k : Fin 8) (off : Fin 16) (v : Word) (s : State) : Out :=
  onBar0 (TIM_TRG_CFG k.val + 4 * off.val) s (·.trgWrite k.val off.val v.toNat)

/-- The effective width of a pulse (R337). -/
def State.trgWidth (s : State) (k : Nat) : Nat :=
  let w := max 8 (s.reg (TIM_TRG_WIDTH k))
  let p := s.trgPeriod k
  if p ≠ 0 ∧ p ≤ w then p - 8 else w

/-- R337 at a firing time: the pin's pulse, a snapshot epoch, a sampling window. -/
def State.trgActions (s : State) (k f : Nat) : State :=
  let pin := s.rd (TIM_TRG_CFG_PIN k)
  let s := if pin = 0 ∨ 5 ≤ pin then s
    else { s with time.pulse := s.time.pulse.insert k (pin - 1, f + s.trgWidth k) }
  let s := if s.on (TIM_TRG_CFG_SNAP k) then s.snapAsk f else s
  if s.on (TIM_TRG_CFG_SAMP k) then { s with obs.sampEnd := some (f + s.rd OBS_SAMP_WIN_WIN) } else s

/-- R336, R337: a generator reaches its next firing time. -/
def State.triggerFire (s : State) (k : Nat) : State :=
  match s.on (TIM_TRG_CFG_EN k), s.trgNext k with
  | true, some f =>
    let s := (s.waitDev f).trgActions k f
    let t := s.time.trg.get ({} : TrgSt) k
    let t := if s.trgPeriod k = 0 then { t with spent := true } else { t with j := t.j + 1 }
    ({ s with time.trg := s.time.trg.set {} k t } : State).trgShow k
  | _, _ => s

def execTriggerFire (k : Fin 8) (s : State) : Out := onTime s (·.triggerFire k.val)

/-- The ports of a generator's GCL action. -/
def State.trgPorts (s : State) (k : Nat) : List Nat :=
  (List.range 8).flatMap (fun i => (bitsOf 32 (s.reg (TIM_TRG_GCL k i))).map (32 * i + ·))

/-- One port of the GCL action: TMG_GCL_BASE := F and ACT_REQ, or skipped while PEND = 1. The unit's copy may be ahead
within the tolerance of R325: its list takes over at F all the same. -/
def State.trgPort (s : State) (f p : Nat) : State :=
  if s.on (TMG_GCL_STS_PEND p) then s.cnt TRG_GCL_SKIP_CNT
  else (s.wr64 (TMG_GCL_BASE p) f).gclRequestAt p f

/-- The next firing whose GCL action is still to come, and its time: with a PERIOD below 1,000 ns the actions of later
firings come before a firing. -/
def State.trgGclNext (s : State) (k : Nat) : Option (Nat × Nat) :=
  let t := s.time.trg.get ({} : TrgSt) k
  let j := max t.j (s.time.gclDone.get 0 k)
  match t.start with
  | some st => if t.spent || (s.trgPeriod k == 0 && j != 0) then none else some (j, s.trgTime k st j)
  | none => none

/-- R337: at F − 1,000 ns a generator with GCL asks each of its ports to take over its staging list at F. -/
def State.trgGcl (s : State) (k : Nat) : State :=
  match s.on (TIM_TRG_CFG_EN k) && s.on (TIM_TRG_CFG_GCL k), s.trgGclNext k with
  | true, some (j, f) =>
    let s := s.waitDev (f - 1000)
    (s.trgPorts k).foldl (fun s p => s.trgPort f p) { s with time.gclDone := s.time.gclDone.set 0 k (j + 1) }
  | _, _ => s

def execTriggerGclAction (k : Fin 8) (s : State) : Out := onTime s (·.trgGcl k.val)

end Sys2Proof.Machine
end

