-- ==== Sys2Proof/Machine/Rts.lean ====
section
/-!
DEFINITION. The Root store controllers (chapter 09): start, mapping, caps, requests, accesses, pages, refresh, retraining.
-/
namespace Sys2Proof.Machine

/-! ### Start (R263) -/

/-- A controller starts its stack. -/
def State.rtsStart (s : State) (c : Nat) : State :=
  s.putRts c { s.rts c with starting := true, startAt := s.time.mono, selfRef := false }

/-- A write of RTS_CFG: EN = 1 starts both controllers, EN = 0 is ignored while EN = 1. -/
def State.rtsCfgWrite (s : State) (v : Nat) : State :=
  if s.on RTS_CFG_EN || !bit v 0 then s else ((s.wr RTS_CFG_EN 1).rtsStart 0).rtsStart 1

def execRootStoreEnable (v : Word) (s : State) : Out := onBar0 RTS_CFG s (·.rtsCfgWrite (v.toNat ||| 1))

/-- Every byte and check bit of a stack is 0. -/
def State.stackZero (s : State) (c : Nat) : State :=
  { s with rs := s.rs.filter (fun e => s.stkOf e.1 != c)
           ecc.diff := s.ecc.diff.filter (fun e => e.1 / 2 ^ 40 != 1 + c)
           ecc.pageDiff := s.ecc.pageDiff.filter (fun e => e.1 / 2 ^ 40 != 1 + c)
           ecc.symErr := s.ecc.symErr.filter (fun e => e.1 / 2 ^ 44 != 1 + c)
           ecc.poison := s.ecc.poison.filter (fun k => k / 2 ^ 40 != 1 + c) }

/-- R263: a stack finishes its start: READY, and a Grove enable held for it goes on once both are. -/
def State.rtsReadyUp (s : State) (c : Nat) : State :=
  if !(s.rts c).starting then s
  else
    let s := s.putRts c { s.rts c with starting := false, startAt := s.time.mono, trainAt := [] }
    let s := if bit (s.rd RTS_STS_KEPT) c then s else s.stackZero c
    let s := (s.wr RTS_STS_READY (s.rd RTS_STS_READY ||| 2 ^ c)).raise (RTS_INT_READY c)
    if s.rtsReady && s.gv.heldEn then s.groveStart else s

def execRootStoreReady (c : Fin 2) (s : State) : Out := onIsl (islRts c.val) s (·.rtsReadyUp c.val)

/-! ### Mapping (R254 to R256) -/

/-- Mapping register `i` (0 STK, 1 to 5 PC0 to PC4, 6 to 9 BA0 to BA3): its field and the nominal address bit. -/
def mapFld (i : Nat) : RFld := if i = 0 then RTS_MAP_STK_XMASK else if i < 6 then RTS_MAP_PC_XMASK (i - 1) else RTS_MAP_BA_XMASK (i - 6)
def mapBit (i : Nat) : Nat := 10 + i

/-- Where a byte that address `a` named stands once the mask of a spread bit changes from `old` to `new`: the stack, row
and column keep it, so another address names it (R255). -/
def remap (nominal old new a : Nat) : Nat :=
  if parity 14 (getBits a 20 14 &&& old) = parity 14 (getBits a 20 14 &&& new) then a else a ^^^ 2 ^ nominal

/-- A protected word's key after the same change. -/
def remapKey (nominal old new k : Nat) : Nat :=
  if k / 2 ^ 40 = 1 ∨ k / 2 ^ 40 = 2 then k / 2 ^ 40 * 2 ^ 40 + remap nominal old new (8 * (k % 2 ^ 40)) / 8 else k

/-- R256: a mapping register is written only while EN = 0. What a stack keeps stays where it is, under the new names. -/
def State.rtsMapWrite (s : State) (i v : Nat) : State :=
  if s.on RTS_CFG_EN then s.wr RTS_STS_MAP_REJ_STK 1
  else
    let f := mapFld i
    let old := s.rd f
    let new := v % 2 ^ 14
    let s := s.wr f new
    let m (a : Nat) : Nat := remap (mapBit i) old new a
    let mk (k : Nat) : Nat := remapKey (mapBit i) old new k
    { s with rs := s.rs.foldl (fun (t : Tab Byte) e => t.set 0 (m e.1) e.2) []
             ecc.diff := s.ecc.diff.foldl (fun (t : Tab Nat) e => t.set 0 (mk e.1) e.2) []
             ecc.symErr := s.ecc.symErr.foldl (fun (t : Tab Nat) e => t.set 0 (16 * mk (e.1 / 16) + e.1 % 16) e.2) []
             ecc.poison := s.ecc.poison.map mk }

def execRtsMapWrite (i : Fin 10) (v : Word) (s : State) : Out := onBar0 (mapFld i.val).addr s (·.rtsMapWrite i.val v.toNat)

/-! ### Caps (R264, R267) -/

/-- Seconds of a scrub target's pass: PERIOD, but no less than the cap of class SCRUB allows (R352), in 1/1,000. -/
def State.scrubMilli (s : State) (t : Nat) : Nat :=
  let p := 1000 * max 1 (s.rd (ECC_SCRUB_CFG_PERIOD t))
  let cap := s.rd (RTS_BW_CFG_CAP 6)
  if t = 1 ∧ 0 < cap then max p (ceilDiv (24 * 2 ^ 30) (cap * 1000000)) else p

/-- R352: BEHIND while a target's pass runs at the cap instead of its PERIOD, with its interrupt once a pass. -/
def State.scrubBehind (s : State) (t : Nat) : State :=
  let b := bit (s.rd ECC_CFG_SCRUB_EN) t && decide (1000 * max 1 (s.rd (ECC_SCRUB_CFG_PERIOD t)) < s.scrubMilli t)
  let s := s.wrB (ECC_SCRUB_STS_BEHIND t) b
  if b && !s.ecc.behind.get false t then
    ({ s with ecc.behind := s.ecc.behind.set false t true } : State).raise ECC_INT_SCRUB_BEHIND
  else s

/-- R267: a cap is written; BW_OVER shows whether the caps sum above 209 GB/s. -/
def State.rtsBwWrite (s : State) (n v : Nat) : State :=
  let s := (s.hostWrite (RTS_BW_CFG n) v).scrubBehind 1
  s.wrB RTS_STS_BW_OVER (decide (209 < (List.range 6).foldl (fun x i => x + s.rd (RTS_BW_CFG_CAP (i + 1))) 0))

def execRtsBwCfgWrite (n : Fin 6) (v : Word) (s : State) : Out :=
  onBar0 (RTS_BW_CFG (n.val + 1)) s (·.rtsBwWrite (n.val + 1) v.toNat)

/-! ### Requests (R253, R258, R259, R268) -/

/-- A request accepted into the table (R258, R259): a write's bytes are what every later read returns; a read takes them
as they stand, and counts when a write still in the table gives them. -/
def State.rtsAccept (s : State) (c : Nat) (r : RtsReq) : State :=
  let overlaps (x : RtsReq) : Bool := x.write && decide (x.addr < r.addr + r.len) && decide (r.addr < x.addr + x.len)
  let s := if !r.write && (s.rts c).reqs.any overlaps then s.cnt (RTS_RAW_FWD_CNT c) else s
  let r := if r.write then r else { r with data := s.rsRead r.addr r.len }
  let s := if r.write then s.rsWrite r.addr r.data else s
  let s := s.putRts c { s.rts c with reqs := (s.rts c).reqs ++ [r] }
  let s := (s.pmuEv 0x30 c).rtsShow c
  if r.cls = 0 then s.pmuEv 0x33 c else s

/-- Requests held back that find an entry now are accepted, in order, class by class. -/
def State.rtsUnhold (s : State) (c : Nat) : State :=
  (s.rts c).held.foldl (fun s r =>
    let x := s.rts c
    if rtsRoom x.reqs r.cls && (x.held.find? (fun q => q.cls == r.cls)) == some r then
      (s.putRts c { x with held := x.held.erase r }).rtsAccept c r
    else s) s

/-- R268: one access reaches its controller: accepted, or held back by credit. -/
def State.rtsRequest1 (s : State) (r : RtsReq) : State :=
  let c := s.stkOf r.addr
  let x := s.rts c
  if !bit (s.rd RTS_STS_READY) c || !s.alive (islRts c) then s
  else if x.held.all (fun q => q.cls != r.cls) && rtsRoom x.reqs r.cls then s.rtsAccept c r
  else
    let s := s.putRts c { x with held := x.held ++ [r] }
    if x.held.isEmpty then s.raise (RTS_INT_BACKPRESS c) else s

/-- A requester's access; `data` is given for a write. -/
def State.rtsRequest (s : State) (tag cls a n : Nat) (data : Option (List Byte)) : State :=
  if n = 0 ∨ 0xC00000000 < a + n then s
  else
    let d := slice0 (data.getD []) 0 n
    (rtsParts a n).foldl (fun s p =>
      s.rtsRequest1 ⟨tag, cls, p.1, p.2, data.isSome, false, slice0 d (p.1 - a) p.2, data.isSome && !rtsWhole a n⟩) s

def execRtsRequest (tag : Nat) (cls : Fin 8) (a : BitVec 36) (n : Fin 257) (data : Option (List Byte)) (s : State) : Out :=
  whenUp s (·.rtsRequest tag cls.val a.toNat n.val data)

/-- Bytes issued for a class within the last 1 µs. -/
def recentBytes (l : List (Nat × Nat × Nat)) (cls now : Nat) : Nat :=
  l.foldl (fun n e => if e.2.1 = cls ∧ now < e.1 + 8000 then n + e.2.2 else n) 0

/-! ### Issue (R259, R262, R264) -/

/-- Whether a class may go on within its cap with `n` bytes more (R264). -/
def State.rtsInCap (s : State) (c cls n : Nat) : Bool :=
  cls = 0 || (decide (cls < 7) && decide (recentBytes (s.rts c).recent cls s.time.mono + n ≤ 1000 * s.rd (RTS_BW_CFG_CAP cls)))

/-- The place of a class among a pseudo-channel's waiting requests: classes within their caps, then those at them, then
class 7; the class's oldest request tells. -/
def State.rtsRank (s : State) (c : Nat) (l : List RtsReq) (cls : Nat) : Nat :=
  if cls = 7 then 16
  else if (l.find? (fun r => r.cls == cls)).all (fun r => s.rtsInCap c cls (rtsBytes r)) then cls else 8 + cls

/-- Whether a pseudo-channel pauses for its retraining (R262). -/
def State.rtsPaused (s : State) (c pc : Nat) : Bool :=
  decide (s.time.mono < (s.rts c).pauseEnd) && (s.rts c).pausePc == pc

/-- The request that a pseudo-channel issues next (R264): the oldest of the first rank; a row hit of its class goes ahead
of it at most 4 times in a row, within the cap when the class is. None while the pseudo-channel pauses (R262). -/
def State.rtsPick (s : State) (c pc : Nat) : Option (RtsReq × Bool) :=
  let l := if s.rtsPaused c pc then [] else (s.rts c).reqs.filter (fun r => !r.issued && s.pcOf r.addr == pc)
  match l.foldl (fun (b : Option RtsReq) r => match b with
      | none => some r
      | some x => if s.rtsRank c l r.cls < s.rtsRank c l x.cls then some r else b) none with
  | none => none
  | some r =>
    let hit (x : RtsReq) : Bool :=
      let b := (s.rts c).banks.get {} (s.bankNo x.addr)
      b.isOpen && b.row == getBits x.addr 20 14
    if hit r || 4 ≤ (s.rts c).ahead.get 0 (8 * pc + r.cls) then some (r, false)
    else match l.find? (fun x => x.cls == r.cls && hit x && (8 ≤ s.rtsRank c l r.cls || s.rtsInCap c r.cls (rtsBytes x))) with
      | some x => some (x, true)
      | none => some (r, false)

/-- A request leaves for its stack (R264), and with a write its entry in the table. -/
def State.rtsIssue (s : State) (c pc : Nat) (r : RtsReq) (ahead : Bool) : State :=
  let x := s.rts c
  let i := x.reqs.findIdx (fun q => q == r)
  let x := { x with
    ahead := x.ahead.set 0 (8 * pc + r.cls) (if ahead then x.ahead.get 0 (8 * pc + r.cls) + 1 else 0)
    reqs := if r.write then x.reqs.eraseIdx i else x.reqs.set i { r with issued := true } }
  let s := ((s.putRts c x).rtsShow c).rtsMove c r
  if r.write then s.rtsUnhold c else s

/-- R264: a controller issues a request of a pseudo-channel. -/
def State.rtsAccess (s : State) (c pc : Nat) : State :=
  match s.rtsPick c pc with
  | some (r, ahead) => s.rtsIssue c pc r ahead
  | none => s

def execRtsAccess (c : Fin 2) (pc : Fin 32) (s : State) : Out := onIsl (islRts c.val) s (·.rtsAccess c.val pc.val)

/-- R259, R345: a read returns its data with its tag, after any page correction; `dieCe` an on-die ECC report with it
(R251). Two reads of one requester that touch one 64-byte unit complete in their order of acceptance: the later one waits. -/
def State.rtsComplete (s : State) (c tag : Nat) (dieCe : Bool) : State :=
  let s := if dieCe then s.cnt (RTS_DIE_CE_CNT c) else s
  match (s.rts c).reqs.find? (fun r => r.issued && r.tag == tag) with
  | none => s
  | some r =>
    let older := (s.rts c).reqs.takeWhile (fun q => q != r)
    if older.any (fun q => !q.write && q.cls == r.cls && decide (q.addr / 64 ≤ (r.addr + r.len - 1) / 64)
        && decide (r.addr / 64 ≤ (q.addr + q.len - 1) / 64)) then s
    else
    let s := s.rsScan r.addr r.len
    let x := s.rts c
    ((s.putRts c { x with reqs := x.reqs.erase r, lastTag := tag, lastBytes := r.data }).rtsShow c).rtsUnhold c

def execRtsAccessComplete (c : Fin 2) (tag : Nat) (dieCe : Bool) (s : State) : Out :=
  onIsl (islRts c.val) s (·.rtsComplete c.val tag dieCe)

/-- R260: an open row has seen no access for IDLE ns. -/
def State.pageIdle (s : State) (c k : Nat) : State :=
  let b := (s.rts c).banks.get {} k
  if !b.isOpen then s
  else
    let s := s.waitMono (b.at_ + 8 * max 1 (s.rd RTS_PAGE_CFG_IDLE))
    s.putRts c { s.rts c with banks := (s.rts c).banks.set {} k { b with isOpen := false } }

def execPageIdleClose (c : Fin 2) (k : Fin 1536) (s : State) : Out := onIsl (islRts c.val) s (·.pageIdle c.val k.val)

/-! ### Refresh, temperature, retraining (R251, R261, R262) -/

/-- A bank closed by its refresh; C and L kept. -/
def State.bankClose (s : State) (c k : Nat) : State :=
  let x := s.rts c
  s.putRts c { x with banks := x.banks.set {} k { x.banks.get {} k with isOpen := false } }

/-- R261: a per-bank refresh; or, as the activation counters require, a refresh management command (R251). -/
def State.hbmRefresh (s : State) (c k : Nat) (rfm : Bool) : State :=
  if !bit (s.rd RTS_STS_READY) c then s
  else (s.bankClose c k).cnt (if rfm then RTS_RFM_CNT c else RTS_REFRESH_CNT c)

def execHbmRefresh (c : Fin 2) (k : Fin 1536) (rfm : Bool) (s : State) : Out :=
  onIsl (islRts c.val) s (·.hbmRefresh c.val k.val rfm)

/-- R261: a temperature reading of a stack. -/
def State.hbmTemp (s : State) (c t : Nat) : State :=
  let s := (s.wr (RTS_TEMP_TEMP c) t).wrB (RTS_TEMP_FAST_REF c) (decide (85 < t))
  if s.rd RTS_TEMP_CFG_HIGH ≤ t then s.raise (RTS_INT_TEMP_HIGH c) else s

def execHbmTempRead (c : Fin 2) (t : BitVec 8) (s : State) : Out := onIsl (islRts c.val) s (·.hbmTemp c.val t.toNat)

/-- The true time at which a pseudo-channel's next retraining falls due: PERIOD ms after its last, or after its stack's
start (R262). -/
def State.trainDue (s : State) (c pc : Nat) : Nat :=
  (s.rts c).trainAt.get (s.rts c).startAt pc + 8000000 * max 1 (s.rd RTS_TRAIN_CFG_PERIOD)

/-- R262: a pseudo-channel is retrained once it is due and no other of its stack pauses; it pauses for 250 ns; the third
failure in a row is reported. -/
def State.retrain (s : State) (c pc : Nat) (ok : Bool) : State :=
  if !bit (s.rd RTS_STS_READY) c then s
  else
    let s := ((s.waitMono (s.trainDue c pc)).waitMono (s.rts c).pauseEnd).cnt (RTS_TRAIN_CNT c)
    let x := s.rts c
    let n := if ok then 0 else x.trainFails.get 0 pc + 1
    let s := s.putRts c { x with trainFails := x.trainFails.set 0 pc (n % 3), trainAt := x.trainAt.set x.startAt pc s.time.mono
                                 pausePc := pc, pauseEnd := s.time.mono + 2000 }
    if n = 3 then
      ((s.raise (RTS_INT_TRAIN_FAIL c)).cnt (RTS_TRAIN_FAIL_CNT c)).journal (islRts c) 0x0601 c (natLe 1 pc)
    else s

def execRetrain (c : Fin 2) (pc : Fin 32) (ok : Bool) (s : State) : Out := onIsl (islRts c.val) s (·.retrain c.val pc.val ok)

end Sys2Proof.Machine
end

