-- ==== Sys2Proof/Machine/Ecc.lean ====
section
/-!
DEFINITION. Errors met and repaired (R344 to R354): a reader at a bad word, scrubbing, page corrections, table repairs, the
leak of the CE levels, and the arming of an injection.
-/
namespace Sys2Proof.Machine

/-! ### Table words -/

/-- The policer's state as a host write sets it (R313). -/
def State.polFresh (s : State) (e : Nat) : Nat :=
  fset (fset (fset e PO_C (fget e PO_CBS)) PO_P (fget e PO_PBS)) PO_LAST (s.now islMgmt % 2 ^ 48)

/-- Whether a unit's copy of an entry can be read: none of its words is uncorrectable. -/
def State.copyGood (s : State) (id unit copy idx : Nat) : Bool :=
  (s.entWords id).all (fun w =>
    match tblWordSt (tblSrc id) (unitWord id unit copy idx w) (s.ecc.diff.get 0 (eccKey (tblSrc id) (unitWord id unit copy idx w))) with
    | .ok => true | .ce => true | _ => false)

/-- The errors that a reader of a word does not see corrected. -/
def residue (n d : Nat) : Nat := match classify n d with | .ce => afterCorrection n d | _ => d

/-- R345: one unit's copy of an entry rewritten from its repair source (R340): another unit's copy that can be read, or, of
every table but the rule stores and routine tables, the management island's master; `none` without a source. -/
def State.repairUnit (s : State) (id unit copy idx : Nat) : Option State :=
  let src := tblSrc id
  let words := s.entWords id
  let key (u w : Nat) : Nat := eccKey src (unitWord id u copy idx w)
  let bits (w : Nat) : Nat := wordBits src (unitWord id unit copy idx w)
  let put (f : Nat → Nat) : State :=
    { s with ecc.diff := words.foldl (fun t w => t.set 0 (key unit w) (f w)) s.ecc.diff
             ecc.repairDue := s.ecc.repairDue.erase (512 * unit + 2 * id + copy, idx) }
  match (List.range (copyUnits id)).find? (fun u => u != unit && s.copyGood id u copy idx) with
  | some u => some (put (fun w =>
      let d := s.ecc.diff.get 0 (key u w)
      if isSlice src (unitWord id u copy idx w) then d else residue (bits w) d))
  | none => if id = 0x20 ∨ id = 0x51 then none else some (put (fun _ => 0))

/-- R345: an entry of each unit that waits is rewritten from its repair source: a Trunk transfer of the scrubber (R352) to
the copy in error. A policer's state is set anew. -/
def State.tblRepair (s : State) (id copy idx : Nat) : State :=
  let units := (s.ecc.repairDue.filter (fun e => e.1 % 512 == 2 * id + copy && e.2 == idx)).map (fun e => e.1 / 512)
  units.foldl (fun s u =>
    let src := tblSrc id
    let bad := ((s.entWords id).map (unitWord id u copy idx)).find? (fun w =>
      decide (tblWordSt src w (s.ecc.diff.get 0 (eccKey src w)) ≠ .ok))
    let syn := bad.elim 0 (fun w => tblSyn src w (s.ecc.diff.get 0 (eccKey src w)))
    match s.repairUnit id u copy idx with
    | none => s
    | some s =>
      let s := if id = 0x70 then s.setEnt id copy idx (s.polFresh (s.ent id copy idx)) else s
      (s.trunkAsk trkScrub 4).repaired src u syn (id * 2 ^ 24 + idx) islMgmt) s

def execTableRepair (id : BitVec 8) (copy : Fin 2) (idx : BitVec 20) (s : State) : Out :=
  onIsl islMgmt s (·.tblRepair id.toNat copy.val idx.toNat)

/-! ### A reader at a word (R345) -/

/-- A word of a memory with codes is read, by a reader that does not rewrite it. -/
def State.meetWord (s : State) (src word : Nat) : State :=
  let k := eccKey src word
  let d := s.ecc.diff.get 0 k
  match src with
  | 0 =>
    match classify 64 d with
    | .ok => s
    | .ce => s.ceCount 0 (wordAt 0 word).2.2
    | .ue => (s.cnt (UE_CNT 0)).fixCanopy (word / 512)
    | .poison => (s.cnt (POISON_RD_CNT 0)).fixCanopy (word / 512)
  | 1 => s.readWord k
  | 2 => s.readWord k
  | 3 =>
    if word < 2 ^ 30 then (s.ctlFetch (word / 32768) (word / 2 % 16384)).2 else s.meetTbl 3 word
  | 7 => s.meetTbl 7 word
  | _ => s

/-- Errors that have arrived in the parity symbols of the page of a word. -/
def State.flipParity (s : State) (src word par : Nat) : State :=
  match s.pageBytes src word with
  | [] => s
  | (page, _) :: _ => { s with ecc.pageDiff := s.ecc.pageDiff.modify 0 (eccKey src page) (· ^^^ par) }

/-- R344, R345: errors `pat` have arrived in a word and `par` in its page's parity (0: none but those already there), and a
reader meets it: an uncorrectable word leads to the correction of its page, or to its failure; a table entry to its
repair. -/
def State.pageCorrection (s : State) (src word pat par : Nat) : State :=
  let s := if par = 0 then s else s.flipParity src word par
  (if pat = 0 then s else s.flipWord src word pat).meetWord src word

def execPageCorrection (src : Fin 8) (word : BitVec 40) (err : ErrBits) (s : State) : Out :=
  whenUp s (·.pageCorrection src.val word.toNat err.pat.toNat err.par.toNat)

/-! ### Scrubbing (R351, R352) -/

/-- The words of a table's copies that the scrubber reads: (512 * unit + 2 * TABLE + copy, entries, the words of an entry).
Every unit's copy is read. -/
def scrubTables (width : Nat) : List (Nat × Nat × List Nat) :=
  [0x10, 0x11, 0x12, 0x20, 0x21, 0x22, 0x30, 0x31, 0x32, 0x42, 0x43, 0x44, 0x45, 0x46, 0x60, 0x70, 0x71].flatMap (fun id =>
    let e := (tblCount width id, if id = 0x20 then ruleWords width else List.range (ceilDiv (tblBytes width id) 8))
    (List.range (tblUnits id)).flatMap (fun u =>
      if tblGen id || id == 0x71 then [(512 * u + 2 * id, e), (512 * u + 2 * id + 1, e)] else [(512 * u + 2 * id, e)]))

/-- The word at a position of the tables' pass. -/
def scrubTblWord : List (Nat × Nat × List Nat) → Nat → Nat
  | [], _ => 0
  | (tc, n, w) :: l, p =>
    if p < n * w.length then tblWord 0 tc (p / w.length) (nth w (p % w.length) 0) else scrubTblWord l (p - n * w.length)

/-- Words that a target's pass reads (R351). -/
def State.scrubWords (s : State) (t : Nat) : Nat :=
  match t with
  | 0 => 512 * 16384 * 17
  | 1 => 6 * 2 ^ 30
  | 2 => 16 * 16384 * 2 + 16 * 2 * 4096 * 2
  | _ => ((scrubTables (s.rd GRF_RS_CFG_WIDTH)).map (fun e => e.2.1 * e.2.2.length)).foldl (· + ·) 0

/-- The source and word at a position of a target's pass. -/
def State.scrubWord (s : State) (t p : Nat) : Nat × Nat :=
  match t with
  | 0 => (0, canopyWord (p / 17) (p % 17))
  | 1 => (1 + s.stkOf (8 * p), p)
  | 2 => if p < 16 * 16384 * 2 then (3, p) else (3, 2 ^ 30 + (p - 16 * 16384 * 2))
  | _ => (7, scrubTblWord (scrubTables (s.rd GRF_RS_CFG_WIDTH)) p)

/-- R352: what a scrub read of a Root store word takes as class SCRUB: its 64-byte unit, read with the unit's first word;
the rewrite of a CE; the two rows of a page correction. -/
def State.scrubUse (s : State) (src word : Nat) (st : WordSt) : State :=
  if src ≠ 1 ∧ src ≠ 2 then s
  else
    let s := if word % 8 = 0 then s.rtsUse clsScrub (8 * word) 64 false else s
    match st with
    | .ce => s.rtsUse clsScrub (8 * word / 64 * 64) 64 true
    | .ue =>
      let p := s.rsPage (8 * word)
      (List.range 8).foldl (fun s i => s.rtsUse clsScrub (s.pageAddr (src - 1) p (256 * i)) 256 false) s
    | _ => s

/-- A scrub read of a word: a CE is corrected and rewritten, anything worse goes the way of R345. The scrubber alone finds
a rule's parity error. -/
def State.scrubRead (s : State) (src word : Nat) : State :=
  let k := eccKey src word
  let n := wordBits src word
  let d := s.wordPat k
  let st := if src = 7 then tblWordSt 7 word d else classify n d
  let s := s.scrubUse src word st
  if st = .ce then
    let s := { s.ceCount src (wordAt src word).2.2 with ecc.poison := s.ecc.poison.filter (· != k) }
    ({ s with ecc.diff := s.ecc.diff.set 0 k (afterCorrection n d) } : State).cnt (SCRUB_FIX_CNT src)
  else if st = .ue && isSlice src word then s.tblBad 7 word
  else s.meetWord src word

/-- R351: a target reads its next word at its pace, errors `pat` having arrived in it; PROGRESS and the passes are shown. -/
def State.scrubStep (s : State) (t pat : Nat) : State :=
  if !bit (s.rd ECC_CFG_SCRUB_EN) t || (t == 1 && s.rd RTS_STS_READY != 3) then s
  else if t = 1 ∧ s.rtsHas clsScrub (8 * s.ecc.scrubPos.get 0 1) = false then s.rtsHeldBack (8 * s.ecc.scrubPos.get 0 1)
  else
    let n := s.scrubWords t
    let p := s.ecc.scrubPos.get 0 t
    let due := max (s.ecc.scrubNext.get 0 t) (s.time.mono * 2 ^ 32)
    let s := s.waitMono (due / 2 ^ 32)
    let s := ({ s with ecc.behind := if p = 0 then s.ecc.behind.set false t false else s.ecc.behind } : State).scrubBehind t
    let (src, word) := s.scrubWord t p
    let s := if src = 7 ∧ (tblOfWord 7 word).1 % 512 / 2 = 0x20 then s.trunkAsk trkScrub 4 else s
    let s := (if pat = 0 then s else s.flipWord src word pat).scrubRead src word
    let q := (p + 1) % n
    let s := { s with ecc.scrubPos := s.ecc.scrubPos.set 0 t q
                      ecc.scrubNext := s.ecc.scrubNext.set 0 t (due + s.scrubMilli t * 8000000 * 2 ^ 32 / n) }
    let s := s.wr (ECC_SCRUB_STS_PROGRESS t) (q * 1024 / n)
    if q = 0 then s.wr (ECC_SCRUB_STS_PASSES t) (s.rd (ECC_SCRUB_STS_PASSES t) + 1) else s

def execScrubStep (t : Fin 4) (pat : BitVec 88) (s : State) : Out := onIsl islMgmt s (·.scrubStep t.val pat.toNat)

/-! ### The CE level's leak (R353) and injection (R354) -/

/-- R353: every LEAK_MS ms of device time the level of a source falls by 1. -/
def State.ceLeak (s : State) (n : Nat) : State :=
  (s.waitIsl islMgmt (s.ecc.leakAt.get 0 n + 1000000 * max 1 (s.rd (ECC_CE_CFG_LEAK_MS n)))).leakDue n

def execCeLeak (n : Fin 8) (s : State) : Out := onIsl islMgmt s (·.ceLeak n.val)

/-- R354: a write of ECC_INJ_CFG; ARM is taken only in test mode, and starts COUNT injections. -/
def State.injCfgWrite (s : State) (v : Nat) : State :=
  let was := s.rd ECC_INJ_CFG_ARM
  let s := s.hostWrite ECC_INJ_CFG v
  if bit v 31 && s.on ECC_CFG_TEST_EN then (s.wr ECC_INJ_CFG_ARM 1).wr ECC_INJ_STS_LEFT (max 1 (s.rd ECC_INJ_CFG_COUNT))
  else s.wr ECC_INJ_CFG_ARM was

def execEccInjArm (v : Word) (s : State) : Out := onBar0 ECC_INJ_CFG s (·.injCfgWrite (v.toNat ||| 2 ^ 31))

/-- A write of ECC_CFG; TEST_EN = 0 disarms the injection (R354). -/
def State.eccCfgWrite (s : State) (v : Nat) : State :=
  let s := s.hostWrite ECC_CFG v
  if s.on ECC_CFG_TEST_EN then s else (s.wr ECC_INJ_CFG_ARM 0).wr ECC_INJ_STS_LEFT 0

end Sys2Proof.Machine
end

