-- ==== Sys2Proof/Machine/Sirvan.lean ====
section
/-!
DEFINITION. Sirvan channels (R358 to R367, R379 to R382): channel operations, the channel-table cache, doorbells, fetching,
completions, halts and messages.
-/
namespace Sys2Proof.Machine

/-! ### The PCI Express function (R357) -/

/-- Vendor, device and revision ID; class code. -/
def pciVendor : Nat := 0x1D2B
def pciDevice : Nat := 0x5100
def pciRevision : Nat := 0xA1
def pciClass : Nat := 0x028000

/-- The size of a BAR: 256 MiB of BAR0, 4 MiB of BAR2, 64 MiB of BAR4. -/
def barSize (n : Nat) : Nat := if n = 0 then 2 ^ 28 else if n = 2 then 2 ^ 22 else 2 ^ 26

/-- A BAR's low word: 64-bit, BAR4 prefetchable. -/
def barLow (n base : Nat) : Nat := base % 2 ^ 32 + (if n = 4 then 0xC else 4)

/-- A word of the configuration header: IDs, command and status (capabilities list), class, BARs. -/
def State.cfgWord (s : State) (off : Nat) : Nat :=
  match off with
  | 0x00 => pciVendor + 2 ^ 16 * pciDevice
  | 0x04 => 2 * b2n s.pcie.memEn + 4 * b2n s.msi.bme + 2 ^ 20
  | 0x08 => pciRevision + 2 ^ 8 * pciClass
  | 0x10 => barLow 0 s.pcie.bar0
  | 0x14 => s.pcie.bar0 / 2 ^ 32
  | 0x18 => barLow 2 s.pcie.bar2
  | 0x1C => s.pcie.bar2 / 2 ^ 32
  | 0x20 => barLow 4 s.pcie.bar4
  | 0x24 => s.pcie.bar4 / 2 ^ 32
  | _ => 0

/-- The BAR that an address lies in, and the offset in it, while memory accesses are enabled. -/
def State.barOf (s : State) (a : Nat) : Option (Nat × Nat) :=
  if !s.pcie.memEn then none
  else
    ([(0, s.pcie.bar0), (2, s.pcie.bar2), (4, s.pcie.bar4)].find? (fun b => decide (b.2 ≤ a) && decide (a < b.2 + barSize b.1))).map
      (fun b => (b.1, a - b.2))

/-- The most non-posted requests outstanding, and the largest payload and read request. -/
def pciTags : Nat := 512
def State.maxPayload (s : State) : Nat := 128 * 2 ^ min 2 s.pcie.mps
def State.maxReadReq (s : State) : Nat := 128 * 2 ^ min 5 s.pcie.mrrs

/-- A DMA error, a refused write, or a cleared Bus Master Enable meets a channel. -/
def execChannelHalt (c : BitVec 10) (cause : Fin 6) (s : State) : Out := onIsl islPcie s (·.chHalt c.toNat cause.val)

/-! ### Copies to the host that are given up (R374) -/

/-- The oldest copy of a packet to the host is given up, and what it held is released. -/
def State.copyGiveUp (s : State) (k : Nat) : State :=
  let s := s.modPkt k (fun p => { p with hostCopies := p.hostCopies.drop 1 })
  ((s.cnt SVN_RX_GIVEUP_CNT).raise SVN_INT_RX_GIVEUP).settle k

/-- A channel's pending copies are given up: those of packets under `k` that name it. -/
def State.copiesGone (s : State) (c : Nat) : State :=
  s.pkts.foldl (fun s e =>
    let n := (e.2.hostCopies.filter (fun (h : HostCopy) => h.ch == c)).length
    if n = 0 then s
    else
      let s := s.modPkt e.1 (fun p => { p with hostCopies := p.hostCopies.filter (fun (h : HostCopy) => h.ch != c) })
      ((s.cnt SVN_RX_GIVEUP_CNT n).raise SVN_INT_RX_GIVEUP).settle e.1) s

/-! ### Channel operations (R360) -/

/-- A host write of SVN_CH_CMD: ignored and flagged while BUSY. -/
def State.chOp (s : State) (f : State → State) : State :=
  if s.on SVN_CH_CMD_STS_BUSY then s.wr SVN_CH_CMD_STS_REJ_STK 1 else f s

/-- The operation's RESULT. -/
def State.opEnd (s : State) (res : Nat) : State := (s.wr SVN_CH_CMD_STS_RESULT res).wr SVN_CH_CMD_STS_BUSY 0

/-- ENABLE: the entry read (`none`: the read fails) and the channel started. -/
def State.chEnable (s : State) (c : Nat) (e : Option (List Byte)) : State :=
  let x := s.chan c
  if x.st ≠ 0 || !s.dmaOk then s.opEnd 2
  else
    match e with
    | none => s.opEnd 1
    | some e =>
      if !entryOk e then s.opEnd 1
      else
        let x : ChSt := { lastV := x.lastV, lastTag := x.lastTag, lastStatus := x.lastStatus, lastResult := x.lastResult
                          cause := x.cause, st := 1, phase := true }
        let s := s.putChan c (x.load e)
        let (ok, s) := s.cacheRoom
        let s := if ok then s.touch c else s
        let s := if (x.load e).typ = 4 && bit (x.load e).evSel 0 then
            { s with obs.evJrn := s.obs.evJrn.set 0 c (s.rd64 OBS_JRN_WPTR) }
          else s
        s.opEnd 0

def execChEnable (c : BitVec 10) (e : Option (List Byte)) (s : State) : Out :=
  onBar0 SVN_CH_CMD s (·.chOp (·.chEnable c.toNat e))

/-- DISABLE: fetching stops, copies are given up, the knot is abandoned; the commands in flight go on to DISABLE_DONE. -/
def State.chDisable (s : State) (c : Nat) : State :=
  let x := s.chan c
  if x.st = 0 then s.opEnd 0
  else
    let s := s.putChan c { x with disabling := true }
    let s := (s.copiesGone c).chanKnotGone c 2
    ({ s with svn.busyCh := some c } : State).wr SVN_CH_CMD_STS_BUSY 1

/-- Nothing of a channel is left to complete: no command in flight and no completion to post, but for those that can no longer
be posted, as its ring is full after a halt or the function may issue no DMA (R358). -/
def State.drained (s : State) (c : Nat) : Bool :=
  let x := s.chan c
  (x.flight.isEmpty && x.comps.isEmpty) || (x.st == 2 && decide (x.cqSize ≤ x.cqOut))
    || (!s.dmaOk && x.flight.all (fun m => m.fin.isSome))

/-- A channel's DISABLE ends: bytes 32 to 63 are written, and STATE is 0. -/
def State.chOff (s : State) (c : Nat) : State :=
  let s := s.putChan c { s.chan c with st := 0, disabling := false, flight := [], comps := [], bufs := [], unsig := 0
                                       holdEnd := none, evFill := 0 }
  let s := (s.chWb c).haltBit c false
  { s with svn.cache := s.svn.cache.erase c }

def execChDisable (c : BitVec 10) (s : State) : Out := onBar0 SVN_CH_CMD s (·.chOp (·.chDisable c.toNat))

/-- The channel whose DISABLE operation runs has nothing left to complete, or one that a function-level reset disables. -/
def State.disableDone (s : State) : State :=
  match s.svn.busyCh.filter s.drained, s.svn.flrCh.find? s.drained with
  | some c, _ => { s.chOff c with svn.busyCh := none, svn.flrCh := s.svn.flrCh.erase c }.opEnd 0
  | none, some c => { s.chOff c with svn.flrCh := s.svn.flrCh.erase c }
  | none, none => s

def execDisableDone (s : State) : Out := onIsl islPcie s (·.disableDone)

/-- REFRESH: the interrupt fields read again. -/
def State.chRefresh (s : State) (c : Nat) (e : Option (List Byte)) : State :=
  if (s.chan c).st ≠ 1 then s.opEnd 2
  else
    match e with
    | some e => if s.dmaOk then (s.putChan c ((s.chan c).refresh e)).opEnd 0 else (s.chHalt c 4).opEnd 0
    | none => (s.chHalt c 1).opEnd 0

def execChRefresh (c : BitVec 10) (e : Option (List Byte)) (s : State) : Out :=
  onBar0 SVN_CH_CMD s (·.chOp (·.chRefresh c.toNat e))

/-- RESET: the device-owned bytes cleared. -/
def State.chReset (s : State) (c : Nat) : State :=
  if (s.chan c).st = 1 then s.opEnd 2
  else
    let s := (s.putChan c {}).haltBit c false
    let s := { s with svn.cache := s.svn.cache.erase c }
    (s.dmaPut (s.rd64 SVN_CHT_BASE + 64 * c + 32) (List.replicate 32 0)).opEnd 0

def execChReset (c : BitVec 10) (s : State) : Out := onBar0 SVN_CH_CMD s (·.chOp (·.chReset c.toNat))

/-- Whether channel `c` may be served of those that wait at an arbiter: none waits, or its turn has come. -/
def State.chMay (s : State) (arb c : Nat) (waits : List Nat) : Bool :=
  waits.isEmpty || s.rrPick arb 1024 (fun j => j == c || waits.contains j) == some c

/-- The channels that wait for room in the cache. -/
def State.loadWaits (s : State) : List Nat := s.svn.loadWait.filter (fun c => (s.chan c).st == 1 && !s.cached c)

/-- R361: the entry of a running channel is loaded into the cache; channels that found no room are served in round robin. -/
def State.chtLoad (s : State) (c : Nat) (e : Option (List Byte)) : State :=
  if (s.chan c).st ≠ 1 || s.cached c then s
  else if !s.dmaOk then s.chHalt c 4
  else
    match e with
    | none => s.chHalt c 1
    | some e =>
      let w := s.loadWaits
      let wait (s : State) : State := { s with svn.loadWait := w.erase c ++ [c] }
      if !s.chMay rrLoad c w then wait s
      else
        let (ok, s) := s.cacheRoom
        if !ok then wait s
        else
          let x := s.chan c
          let s := if entryOk e then s.putChan c (x.load e) else s
          let s := if w.isEmpty then s else { s with svn.loadWait := w.erase c }.rrServed rrLoad 1024 c
          (s.touch c).cnt SVN_CHT_MISS_CNT

def execChtLoad (c : BitVec 10) (e : Option (List Byte)) (s : State) : Out := onIsl islPcie s (·.chtLoad c.toNat e)

/-! ### Doorbells (R362, R365) -/

/-- A doorbell that is ignored. -/
def State.dbIgnored (s : State) : State := (s.cnt SVN_DB_IGN_CNT).raise SVN_INT_DB_IGN

/-- SQ_TAIL written, `full` as a 32-bit write. -/
def State.sqTail (s : State) (c v : Nat) (full : Bool) : State :=
  let x := s.chan c
  let i := v % 65536
  if x.st ≠ 1 || !full then s.dbIgnored
  else if x.sqSize ≤ i then s.chHalt c 3
  else s.putChan c { x with sqTail := i }

def execSqTail (c : BitVec 10) (v : Word) (full : Bool) (s : State) : Out :=
  onIsl islPcie s (·.sqTail c.toNat v.toNat full)

/-- CQ_HEAD written: the slots before the index are returned; on a full ring its own index returns all. -/
def State.cqHead (s : State) (c v : Nat) (full : Bool) : State :=
  let x := s.chan c
  let i := v % 65536
  if x.st ≠ 1 || !full then s.dbIgnored
  else if x.cqSize ≤ i then s.chHalt c 3
  else
    let n := (i + x.cqSize - x.cqHead) % x.cqSize
    let n := if n = 0 ∧ x.cqOut = x.cqSize then x.cqSize else n
    s.putChan c { x with cqHead := i, cqOut := x.cqOut - n }

def execCqHead (c : BitVec 10) (v : Word) (full : Bool) (s : State) : Out :=
  onIsl islPcie s (·.cqHead c.toNat v.toNat full)

/-- R362: a read of a doorbell page. -/
def doorbellRead (_off : Nat) : Nat := 0

/-! ### Starting commands (R366, R367, R370) -/

/-- Fields of a descriptor (R368). -/
def Cmd.op (m : Cmd) : Nat := leAt m.desc 0 1
def Cmd.irq (m : Cmd) : Bool := bit (leAt m.desc 1 1) 0
def Cmd.fence (m : Cmd) : Bool := bit (leAt m.desc 1 1) 1
def Cmd.table (m : Cmd) : Nat := leAt m.desc 2 1
def Cmd.tag (m : Cmd) : Nat := leAt m.desc 4 4
def Cmd.index (m : Cmd) : Nat := leAt m.desc 8 4
def Cmd.count (m : Cmd) : Nat := leAt m.desc 12 4
def Cmd.host (m : Cmd) : Nat := leAt m.desc 16 8
def Cmd.param (m : Cmd) : Nat := leAt m.desc 24 8

/-- Whether an opcode is allowed on a channel's TYPE (R370). -/
def opAllowed (typ op : Nat) : Bool :=
  match typ with
  | 1 => decide (op ≤ 8) || (decide (0x10 ≤ op) && decide (op ≤ 0x14)) || (decide (0x20 ≤ op) && decide (op ≤ 0x23))
  | 2 => op == 0x30 || op == 0x31
  | 3 => op == 0x40
  | 4 => op == 0x41
  | _ => false

/-- The next command of a channel to start, with room for its completion: the first not begun, when FENCE and its tag let
it. `before`: the commands ahead of it. -/
def nextCmd : List Cmd → List Cmd → Option Cmd
  | _, [] => none
  | before, m :: l =>
    if m.begun then nextCmd (before ++ [m]) l
    else if (m.fence && before.any (fun b => b.fin.isNone)) || before.any (fun b => b.tag == m.tag) then none
    else some m

/-- The next command of a running channel (R365, R366). -/
def ChSt.next (x : ChSt) : Option Cmd := if x.st ≠ 1 ∨ x.cqSize ≤ x.cqOut then none else nextCmd [] x.flight

/-- A command in flight changed. -/
def State.modCmd (s : State) (c idx : Nat) (f : Cmd → Cmd) : State :=
  let x := s.chan c
  s.putChan c { x with flight := x.flight.map (fun (m : Cmd) => if m.idx = idx then f m else m) }

/-- Commands that end without executing: a repeated tag (R367), an opcode not allowed (R370). -/
def State.cmdSettle (s : State) (c : Nat) : Nat → State
  | 0 => s
  | n + 1 =>
    let x := s.chan c
    match x.next with
    | none => s
    | some m =>
      if x.lastV && m.tag == x.lastTag then
        (s.modCmd c m.idx ({ · with fin := some (x.lastStatus, x.lastResult), dup := true })).cmdSettle c n
      else if !opAllowed x.typ m.op then (s.modCmd c m.idx ({ · with fin := some (1, 0) })).cmdSettle c n
      else s

/-- Commands in flight on a channel and device-wide: from fetch to completion. -/
def ChSt.inFlight (x : ChSt) : Nat := x.flight.length + x.bufs.length + x.comps.length
def State.contexts (s : State) : Nat := s.svn.ch.foldl (fun n e => n + e.2.inFlight) 0

/-- Whether a channel has a descriptor that it may fetch, contexts aside. -/
def State.mayFetch (s : State) (c : Nat) : Bool :=
  let x := s.chan c
  x.st == 1 && !x.disabling && x.sqHead != x.sqTail && decide (x.cqOut < x.cqSize) && decide (x.inFlight < 256) && s.cached c

/-- The channels that wait for a command context. -/
def State.ctxWaits (s : State) : List Nat := s.svn.ctxWait.filter s.mayFetch

/-- R366: the next descriptor is fetched (`none`: the read fails); channels that found no context are served in round
robin. -/
def State.commandFetch (s : State) (c : Nat) (d : Option (List Byte)) : State :=
  let x := s.chan c
  let w := s.ctxWaits
  if !s.mayFetch c then s
  else if 4096 ≤ s.contexts || !s.chMay rrContext c w then { s with svn.ctxWait := w.erase c ++ [c] }
  else if !s.dmaOk then s.chHalt c 4
  else
    match d with
    | none => s.chHalt c 1
    | some d =>
      let s := if w.isEmpty then s else { s with svn.ctxWait := w.erase c }.rrServed rrContext 1024 c
      let s := s.putChan c { x with sqHead := (x.sqHead + 1) % x.sqSize, flight := x.flight ++ [{ idx := x.sqHead, desc := slice0 d 0 32 }] }
      (s.touch c).cmdSettle c 256

def execCommandFetch (c : BitVec 10) (d : Option (List Byte)) (s : State) : Out :=
  onIsl islPcie s (·.commandFetch c.toNat d)

/-- A command of opcode `op` at submission index `idx` executes, when it is the channel's next. -/
def State.cmdRun (s : State) (c idx op : Nat) (f : Cmd → State → State) : State :=
  let s := s.cmdSettle c 256
  match (s.chan c).next with
  | some m => if m.idx = idx ∧ m.op = op then f m s else s
  | none => s

/-- A command whose host-memory data (`none`: the read fails) is at hand: it executes, or completes with DMA_ERR and halts
the channel (R382). -/
def State.withData (s : State) (c idx : Nat) (d : Option (List Byte)) (f : List Byte → State) : State :=
  if !s.dmaOk then (s.cmdEnd c idx 15 0).chHalt c 4
  else
    match d with
    | some d => f d
    | none => (s.cmdEnd c idx 15 0).chHalt c 1

/-- A command that writes host memory. -/
def State.withDma (s : State) (c idx : Nat) (f : State) : State :=
  if s.dmaOk then f else (s.cmdEnd c idx 15 0).chHalt c 4

/-- A command that met poisoned data on its way to the host (R347, R350, R382). -/
def State.cmdPoison (s : State) (c idx res : Nat) : State := (s.cmdEnd c idx 10 res).chHalt c 2

/-- A row that executes a command of a channel. -/
def onCmd (c : BitVec 10) (idx : BitVec 16) (op : Nat) (s : State) (f : Cmd → State → State) : Out :=
  onIsl islMgmt s (·.cmdRun c.toNat idx.toNat op f)

def execCmdNop (c : BitVec 10) (idx : BitVec 16) (s : State) : Out :=
  onCmd c idx 0x00 s (fun m s => s.cmdEnd c.toNat m.idx 0 0)

/-! ### Completions and messages (R363 to R365, R381) -/

/-- A channel's message is due; its completions are signalled. -/
def State.chSignal (s : State) (c : Nat) : State :=
  (s.putChan c { s.chan c with unsig := 0, holdEnd := none }).msiDue (16 + c)

/-- One completion written: 16 bytes, the phase, the interrupt accumulation. -/
def State.cqWrite (s : State) (c tag status flags op res head info : Nat) (irq : Bool) : State :=
  let x := s.chan c
  let s := s.hostPut (x.cqBase + 16 * x.cqTail)
    (natLe 4 tag ++ natLe 2 status ++ natLe 1 (b2n x.phase + flags) ++ natLe 1 op ++ natLe 4 res ++ natLe 2 head ++ natLe 2 info)
  let t := (x.cqTail + 1) % x.cqSize
  let hold := if x.unsig = 0 ∧ x.holdoff ≠ 0 then some (s.time.mono + x.holdoff * 8000) else x.holdEnd
  let s := s.putChan c { x with cqTail := t, cqOut := x.cqOut + 1, phase := if t = 0 then !x.phase else x.phase
                                unsig := x.unsig + 1, holdEnd := hold }
  if x.irqEn && (irq || decide (max 1 x.irqCnt ≤ x.unsig + 1)) then s.chSignal c else s

/-- The completion of the oldest command of a COMMAND or INJECT channel, once it has finished. -/
def State.postCmd (s : State) (c : Nat) (m : Cmd) (st res : Nat) : State :=
  let x := s.chan c
  let s := s.putChan c { x with flight := x.flight.drop 1, lastV := true, lastTag := m.tag, lastStatus := st, lastResult := res }
  let s := s.cqWrite c m.tag st (2 * b2n m.dup) m.op res ((m.idx + 1) % x.sqSize) 0 m.irq
  (if m.dup then s.cnt SVN_DUP_CNT else s.cnt SVN_CMD_CNT).cmdSettle c 256

/-- The completion of a filled buffer of a RECEIVE or EVENT channel. -/
def State.postRx (s : State) (c : Nat) (r : RxComp) : State :=
  let x := s.chan c
  (s.putChan c { x with comps := x.comps.drop 1 }).cqWrite c 0 0 (4 * b2n r.sop + 8 * b2n r.eop) r.op r.result
    ((r.idx + 1) % x.sqSize) r.info r.irq

/-- R363 to R366: the next completion in ring order is written, when the ring has room; `refused`: the host refuses the
write (R382). -/
def State.completionPost (s : State) (c : Nat) (refused : Bool) : State :=
  let x := s.chan c
  let due := (match x.flight with | m :: _ => m.fin.isSome | [] => false) || !x.comps.isEmpty
  if x.st = 0 || x.cqSize ≤ x.cqOut || !due then s
  else if !s.dmaOk then s.chHalt c 4
  else if refused then
    let s := s.putChan c { x with flight := if x.comps.isEmpty then x.flight.drop 1 else x.flight, comps := x.comps.drop 1 }
    s.chHalt c 5
  else
    match x.comps, x.flight with
    | r :: _, _ => s.postRx c r
    | [], m :: _ => match m.fin with | some (st, res) => s.postCmd c m st res | none => s
    | [], [] => s

def execCompletionPost (c : BitVec 10) (refused : Bool) (s : State) : Out :=
  onIsl islPcie s (·.completionPost c.toNat refused)

/-- R381: HOLDOFF µs have passed since the first unsignalled completion. -/
def State.holdoffExpire (s : State) (c : Nat) : State :=
  match (s.chan c).holdEnd with
  | none => s
  | some e =>
    let s := s.waitMono e
    if (s.chan c).irqEn then s.chSignal c else s.putChan c { s.chan c with holdEnd := none }

def execHoldoffExpire (c : BitVec 10) (s : State) : Out := onIsl islPcie s (·.holdoffExpire c.toNat)

/-- The vector of a source: block summary below 16, channel from 16 on. -/
def State.msiVec (s : State) (src : Nat) : Nat := if src < 16 then s.rd (SVN_VEC_MAP_VEC src) else (s.chan (src - 16)).vec

/-- The message of a vector: a write of the table entry's data to its address. -/
def State.msiMessage (s : State) (v : Nat) : Nat × Nat := (s.reg (MSIX_ADDR v) + 2 ^ 32 * s.reg (MSIX_ADDR_HI v), s.reg (MSIX_DATA v))

/-- A message on a vector: sent, or pending while its vector is masked. -/
def State.msiSend (s : State) (v : Nat) : State :=
  if s.msi.funcMask || s.on (MSIX_CTL_MASK v) then s.wrB ⟨MSIX_PBA (v / 32), v % 32, 1⟩ true
  else { s with msi.sent := s.msiMessage v :: s.msi.sent }

/-- R380, R381: the next message due goes out. -/
def State.msixMessage (s : State) : State :=
  match s.msi.due with
  | [] => s
  | src :: rest =>
    let s := { s with msi.due := rest }
    if s.msi.enable && s.dmaOk then s.msiSend (s.msiVec src) else s

def execMsixMessage (s : State) : Out := onIsl islPcie s (·.msixMessage)

/-- A vector's control word written: unmasked, it sends what is pending. -/
def State.msixCtlWrite (s : State) (v w : Nat) : State :=
  let s := s.hostWrite (MSIX_CTL v) w
  let p : RFld := ⟨MSIX_PBA (v / 32), v % 32, 1⟩
  if s.on p && !s.on (MSIX_CTL_MASK v) && !s.msi.funcMask then
    { s.wr p 0 with msi.sent := s.msiMessage v :: s.msi.sent }
  else s

/-! ### Function-level reset (R358) -/

/-- R358: the Sirvan interface is reset: every knot is abandoned, the MSI-X table reset, SVN_INT cleared; the DISABLE of every
channel starts, and what it has in flight goes on to DISABLE_DONE. -/
def State.svnReset (s : State) : State :=
  let s := s.svn.ch.foldl (fun s e => s.copiesGone e.1) s
  let s := s.pkts.foldl (fun s e => (List.range e.2.hostCopies.length).foldl (fun s _ => s.copyGiveUp e.1) s) s
  let s := s.svn.knots.foldl (fun s e => s.knotAbandon e.1 4) s
  let on := (s.svn.ch.filter (fun e => e.2.st != 0)).map (·.1)
  let s := on.foldl (fun s c => s.putChan c { s.chan c with disabling := true }) s
  let regs := s.regs.filter (fun e => !(decide (MSIX_ADDR 0 ≤ e.1) && decide (e.1 < MSIX_PBA 2)) && e.1 != SVN_INT)
  { s with regs := regs, svn.flrCh := on, msi.due := [] }

def execFlr (s : State) : Out := onIsl islPcie s (fun s => { s.svnReset with msi.d3 := false })

def execD3hot (s : State) : Out := onIsl islPcie s (fun s => { s.svnReset with msi.d3 := true })

end Sys2Proof.Machine
end

