-- ==== Sys2Proof/Machine/TableOps.lean ====
section
/-!
DEFINITION. What the table commands do to the tables (R369 to R371, R483): one entry written or read, flow records by index
and by key (R187), pairs (R179), and the writes staged under a knot (R376, R377).
-/
namespace Sys2Proof.Machine

/-! ### The words of an entry (R340, R345) -/

/-- An entry of a copy as the host reads it, from the first unit that holds it, once it needs no repair. -/
def State.entRead (s : State) (id copy idx : Nat) : Option Nat × State :=
  let s := if s.ecc.diff.isEmpty then s
    else ((entryWords (s.rd GRF_RS_CFG_WIDTH) id copy idx).filter (fun w => (wordAt w.1 w.2).1 == 0)).foldl
      (fun s w => s.meetWord w.1 w.2) s
  if s.repairing (tblKey id copy idx) then (none, s) else (some (s.ent id copy idx), s)

/-- An entry of a copy written by the host. -/
def State.entWrite (s : State) (id copy idx v : Nat) : State := (s.setEnt id copy idx v).entWritten id copy idx

/-! ### Flow records (R153 to R155, R187) -/

/-- The bits of the hot and of the cold block that a host write sets (R154, R155, R483). -/
def hotMask : Nat := ones [(0, 217), (220, 23), (248, 129)]
def coldMask : Nat := ones [(0, 363), (368, 33), (408, 160), (768, 256)]

/-- The hot and cold blocks of a written record. -/
def hotOf (e : List Byte) : List Byte := natLe 64 (leNat (slice0 e 64 64) &&& hotMask)
def coldOf (e : List Byte) : Nat := leNat (slice0 e 128 128) &&& coldMask

/-- The key and profile a record names. -/
def keyOf (e : List Byte) : List Byte × Nat := (slice0 e 0 52, fget (kbMeta e) KM_PROF)

/-- The flow of a key: its primary bucket, then, while OVF is not 0, its alternate one (R162). -/
def State.flowByKey (s : State) (k : List Byte × Nat) : Option Nat × State :=
  let (b, f) := s.keyHome k
  let s := s.bucketScan clsHost b
  match s.matchWay b k.1 k.2 false with
  | some i => (some i, s)
  | none =>
    if s.ovf b = 0 then (none, s)
    else
      let s := ((s.cnt GRV_ALT_READ_CNT).toOwner (s.bucketStack b) (altBucket b f)).bucketScan clsHost (altBucket b f)
      (s.matchWay (altBucket b f) k.1 k.2 true, s)

/-- A FIND of the same key is between two of its steps (R257). -/
def State.keyBusy (s : State) (k : List Byte × Nat) : Bool :=
  s.gv.pends.any (fun e => e.2.key == k.1 && e.2.prof == k.2 && (match e.2.fs with
    | .alt => true | .prim _ => true | .ovf _ _ => true | _ => false))

/-- Whether a flow index names a flow. -/
def State.isFlow (s : State) (idx : Nat) : Bool := idx != 0 && s.wayUsed idx

/-- Hot and cold blocks written to a flow: the hot block into its line when resident (R187). -/
def State.flowPut (s : State) (idx : Nat) (e : List Byte) : State :=
  let eng := s.bucketStack (idx / 4)
  let s := (s.rtsUseFrom eng clsHost (slotAddr idx + 128) 128 true).rsWrite (slotAddr idx + 128) (natLe 128 (coldOf e))
  match s.lineOf idx with
  | some l => s.putHot l (hotOf e)
  | none => (s.rtsUseFrom eng clsHost (slotAddr idx + 64) 64 true).rsWrite (slotAddr idx + 64) (hotOf e)

/-- R187, R161: a host create: its index, `none` with both buckets full. -/
def State.flowCreate (s : State) (e : List Byte) : Option Nat × State :=
  let k := keyOf e
  let (b, f) := s.keyHome k
  let make (i : Nat) (alt : Bool) (s : State) : Option Nat × State :=
    let eng := s.bucketStack (i / 4)
    let s := (s.rtsUse clsHost (wayAddr i) 64 true).rtsUseFrom eng clsHost (slotAddr i + 64) 64 true
    let s := s.rtsUseFrom eng clsHost (slotAddr i + 128) 128 true
    let s := (s.writeWay i k.1 k.2 f alt).rsWrite (slotAddr i + 64) (hotOf e)
    let s := s.rsWrite (slotAddr i + 128) (natLe 128 (fset (coldOf e) CB_FIRST_SEEN (s.now (islRts (s.bucketStack b)))))
    (some i, (if alt then s.ovfUp clsHost b else s).cnt GRV_CREATE_CNT)
  match s.freeWay b with
  | some i => make i false s
  | none =>
    let s := if s.ovf b = 0 then
        ((s.cnt GRV_ALT_READ_CNT).toOwner (s.bucketStack b) (altBucket b f)).bucketScan clsHost (altBucket b f)
      else s
    match s.freeWay (altBucket b f) with
    | some i => make i true s
    | none => (none, s)

/-- The record of a flow read by the host: `none` when a byte of it is poisoned (R347). -/
def State.flowRead (s : State) (idx : Nat) : Option (List Byte) × State :=
  let s := match s.lineOf idx with | some l => (s.lineRead l).2 | none => s
  let eng := s.bucketStack (idx / 4)
  let s := (s.rtsUse clsHost (wayAddr idx) 64 false).rtsUseFrom eng clsHost (slotAddr idx + 128) 128 false
  let s := if (s.lineOf idx).isSome then s else s.rtsUseFrom eng clsHost (slotAddr idx + 64) 64 false
  let s := ((s.rsScan (wayAddr idx) 64).rsScan (slotAddr idx + 64) 192)
  let hotBad := if (s.lineOf idx).isSome then false else s.rsPoisoned (slotAddr idx + 64) 64
  if hotBad || s.rsPoisoned (wayAddr idx) 64 || s.rsPoisoned (slotAddr idx + 128) 128 then (none, s)
  else (some (s.record idx), s)

/-! ### One entry written (R370) -/

/-- Whether a control-store address lies inside the extent of a valid entry of the current epoch's copy (R248). -/
def State.inExtent (s : State) (a : Nat) : Bool :=
  s.tbl.any (fun e => e.1 / 2 ^ 32 == 0x51 * 2 + s.rd TWG_EPOCH_CUR % 2 && fon e.2 RT_V
    && decide (fget e.2 RT_BASE ≤ a) && decide (a < fget e.2 RT_BASE + fget e.2 RT_LEN))

/-- R246: a routine entry that is refused. -/
def rtBad (e : Nat) : Bool := fon e RT_V && (decide (16384 < fget e RT_BASE + fget e RT_LEN) || fget e RT_LEN == 0)

/-- A control-store or routine-table write outside IDLE (R247). -/
def State.patchBusy (s : State) : Bool := s.rd TWG_PATCH_STS_STATE != 0

/-- Entry `i` of a table that is not generation-bound written: status and state, `none` while it must wait (R166). -/
def State.tblPut (s : State) (id i e : Nat) : Option (Nat × State) :=
  let n := tblBytes 0 id
  let v := e &&& tblWritable 0 id
  match id with
  | 0x30 =>
    let (st, s) := s.brgIdxWrite i e
    some (st, s)
  | 0x31 => some (0, (s.entWrite id 0 i v).trunkAsk trkLearn (entryPhases n))
  | 0x40 =>
    if !s.isFlow i then some (12, s)
    else if !s.flowFree i then none
    else some (0, (s.flowPut i (natLe 256 e)).trunkAsk trkHost (entryPhases n))
  | 0x50 =>
    if s.patchBusy then some (9, s.wr TWG_PATCH_STS_REJ_STK 1)
    else if s.inExtent i then some (16, s)
    else some (0, (s.entWrite id 0 i v).trunkAsk trkHost (entryPhases n))
  | 0x51 =>
    if s.patchBusy then some (9, s.wr TWG_PATCH_STS_REJ_STK 1)
    else if rtBad v then some (4, s)
    else some (0, (s.entWrite id ((s.rd TWG_EPOCH_CUR + 1) % 2) i v).trunkAsk trkHost (entryPhases n))
  | 0x70 => some (0, (s.entWrite id 0 i (s.polFresh v)).trunkAsk trkHost (entryPhases n))
  | 0x71 =>
    if s.on (TMG_GCL_STS_PEND (i / 256)) then some (18, s)
    else some (0, (s.entWrite id (b2n (!(s.tmPort (i / 256)).side)) i v).trunkAsk trkHost (entryPhases n))
  | _ => some (0, (s.entWrite id 0 i v).trunkAsk trkHost (entryPhases n))

/-! ### Operations by key, deletions, flushes, pairs -/

/-- KEY_WRITE: status and index; `none` while it must wait. -/
def State.keyWrite (s : State) (id e : Nat) : Option (Nat × Nat × State) :=
  if id = 0x30 then
    let (st, i, s) := s.brgKeyWrite e
    some (st, i, s)
  else
    let r := natLe 256 e
    let k := keyOf r
    if s.keyBusy k then none
    else
      match s.flowByKey k with
      | (some i, t) => if t.flowFree i then some (0, i, (t.flowPut i r).trunkAsk trkHost 5) else none
      | (none, t) =>
        match t.flowCreate r with
        | (some i, t) => some (0, i, t.trunkAsk trkHost 5)
        | (none, t) => some (11, 0, t)

/-- A host deletion of a flow by index (R180). -/
def State.flowDelete (s : State) (i : Nat) : Option (Nat × Nat × State) :=
  if s.delReady i then some (0, i, (s.flowGone i {} { cause := 2 }).trunkAsk trkHost 5) else none

/-- KEY_DELETE. -/
def State.keyDelete (s : State) (id e : Nat) : Option (Nat × Nat × State) :=
  if id = 0x30 then
    match s.brgFind (fget e BR_VID) (brMac e) with
    | some (i, _) => let (st, s) := s.brgIdxDelete i; some (st, i, s)
    | none => some (12, 0, s)
  else
    let k := keyOf (natLe 256 e)
    if s.keyBusy k then none
    else
      match s.flowByKey k with
      | (some i, t) => t.flowDelete i
      | (none, t) => some (12, 0, t)

/-- IDX_DELETE. -/
def State.idxDelete (s : State) (id i : Nat) : Option (Nat × Nat × State) :=
  if id = 0x30 then
    let (st, s) := s.brgIdxDelete i
    some (st, if st = 0 then i else 0, s)
  else if !s.isFlow i then some (12, 0, s)
  else s.flowDelete i

/-- The pair bytes of a way lie beside others in their words: a poisoned one refuses the write (R348). -/
def State.pairRefused (s : State) (i : Nat) : Bool := s.rsRefused (wayAddr i + 52) 12

/-- PAIR_IDX of two flows written in one operation; status POISON when a way refuses its write, and then neither changes. -/
def State.pairPut (s : State) (i j : Nat) (pi pj : Option Nat) : Option (Nat × Nat × State) :=
  let s := s.trunkAsk trkHost 5
  if s.pairRefused i then some (10, 0, s.rsWrite (wayAddr i + 52) (slice0 (s.way i) 52 12))
  else if s.pairRefused j then some (10, 0, s.rsWrite (wayAddr j + 52) (slice0 (s.way j) 52 12))
  else some (0, 0, (s.setPair clsHost i pi).setPair clsHost j pj)

/-- FLOW_PAIR (R179): PARAM names the other flow, or unpairs. -/
def State.flowPair (s : State) (i param : Nat) : Option (Nat × Nat × State) :=
  let j := param % 2 ^ 26
  if bit param 32 then
    match s.pairOf i with
    | none => if s.isFlow i then some (0, 0, s) else some (12, 0, s)
    | some q =>
      if !s.isFlow i then some (12, 0, s)
      else if s.flowFree i && s.flowFree q then s.pairPut i q none none else none
  else if i = j then some (3, 0, s)
  else if !s.isFlow i || !s.isFlow j then some (12, 0, s)
  else if (s.pairOf i).any (· != j) || (s.pairOf j).any (· != i) then some (17, 0, s)
  else if s.flowFree i && s.flowFree j then s.pairPut i j (some j) (some i) else none

/-- BRG_FLUSH (R148). -/
def State.flushCmd (s : State) (param : Nat) : Nat × State :=
  s.brgFlush (if bit param 20 then some (param % 256) else none) (if bit param 21 then some (getBits param 8 12) else none)

/-- A write command on one entry: status, result, state; `none` while it must wait. -/
def State.perform (s : State) (w : KnotWrite) : Option (Nat × Nat × State) :=
  match w.op with
  | 0x01 => (s.tblPut w.table w.idx w.val).map (fun x => (x.1, 1, x.2))
  | 0x03 => s.keyWrite w.table w.val
  | 0x04 => s.keyDelete w.table w.val
  | 0x05 => s.idxDelete w.table w.idx
  | 0x07 => let (n, t) := s.flushCmd w.val; some (0, n, t)
  | _ => s.flowPair w.idx w.val

/-! ### Knots (R376 to R378) -/

/-- The knot that covers a table. -/
def State.knotOver (s : State) (id : Nat) : Option (Nat × Knot) :=
  match tblGroup id with
  | some g => s.svn.knots.first (fun e => e.1 != 0 && bit e.2.mask g)
  | none => none

/-- Whether a channel may write a table: NO_KNOT or KNOT_HELD otherwise. -/
def State.writeGate (s : State) (c id : Nat) : Option Nat :=
  if tblGen id then
    match s.svn.knots.find? 0 with
    | none => some 6
    | some x => if x.ch = c then none else some 5
  else
    match s.knotOver id with
    | some (_, x) => if x.ch = c then none else some 5
    | none => none

/-- The lease of a knot starts again (R378). -/
def State.leaseStart (s : State) (k : Nat) : State :=
  match s.svn.knots.find? k with
  | some x => { s with svn.knots := s.svn.knots.insert k { x with until_ := s.time.mono + x.lease * 8000000 } }.leaseShow
  | none => s

/-- The staging area of knot `k` in the Root store (R376). -/
def State.knotArea (s : State) (k : Nat) : Nat := userBase + (s.rd SVN_KNOT_CFG_BASE + k - 1) * 2 ^ 20

/-- A write staged under a knot, a HOST transfer into the next 256-byte slot of its area, or BATCH_FULL (R376, R377,
R383). -/
def State.knotStage (s : State) (k : Nat) (w : KnotWrite) : Nat × State :=
  match s.svn.knots.find? k with
  | none => (6, s)
  | some x =>
    if 4096 ≤ x.staged.length then (8, s.cnt BATCH_FULL_CNT)
    else
      let s := (s.slotWrite (s.knotArea k + 256 * x.staged.length)).trunkAsk trkHost (entryPhases 256)
      (0, ({ s with svn.knots := s.svn.knots.insert k { x with staged := x.staged ++ [w] } } : State).leaseStart k)

/-- A generation-bound entry staged in the graft log, a HOST transfer (R383). -/
def State.genStage (s : State) (id i e : Nat) : Nat × State :=
  let w := s.rd GRF_RS_CFG_WIDTH
  let v := e &&& tblWritable w id
  let (ok, s) := s.stage ⟨id, i, if id = 0x20 then ruleNorm w v else v⟩
  if ok then (0, (s.leaseStart 0).trunkAsk trkHost (entryPhases (tblBytes w id))) else (8, s)

/-- A write command whose table the channel may write: staged under its knot, or performed. -/
def State.writeOne (s : State) (w : KnotWrite) : Option (Nat × Nat × State) :=
  if tblGen w.table then let (st, s) := s.genStage w.table w.idx w.val; some (st, 1, s)
  else
    match s.knotOver w.table with
    | some (k, _) => let (st, s) := s.knotStage k w; some (st, if w.op = 0x01 then 1 else 0, s)
    | none => s.perform w

/-- The entries of a TBL_WRITE in index order, up to the first that fails: status, entries done, state. -/
def State.writeRun (s : State) (id : Nat) : Nat → Nat → List Nat → Option (Nat × Nat × State)
  | _, n, [] => some (0, n, s)
  | i, n, e :: l =>
    if tblCount (s.rd GRF_RS_CFG_WIDTH) id ≤ i then some (3, n, s)
    else
      match s.writeOne ⟨0x01, id, i, e⟩ with
      | none => none
      | some (0, _, s) => State.writeRun s id (i + 1) (n + 1) l
      | some (st, _, s) => some (st, n, s)

/-- R377: what a staged write asks of the Trunk bus is a HOST transfer, whatever its table. -/
def State.askedAsHost (s : State) (n : Nat) : State :=
  { s with trk.want := s.trk.want.take n ++ (s.trk.want.drop n).map (fun (t : TrkReq) => { t with r := trkHost }) }

/-- The staged writes of a knot in staging order: those that fail change nothing; the first failure's status, the writes
applied, the state. -/
def State.knotRun (s : State) : Nat → Nat → List KnotWrite → Option (Nat × Nat × State)
  | st, n, [] => some (st, n, s)
  | st, n, w :: l =>
    match s.perform w with
    | none => none
    | some (0, _, t) => State.knotRun (t.askedAsHost s.trk.want.length) st (n + 1) l
    | some (x, _, t) => State.knotRun (t.askedAsHost s.trk.want.length) (if st = 0 then x else st) n l

end Sys2Proof.Machine
end

