-- ==== Sys2Proof/Machine/Commands.lean ====
section
/-!
DEFINITION. The commands of COMMAND, INJECT, RECEIVE and EVENT channels (R368 to R378), and the copies to the host (R374).
-/
namespace Sys2Proof.Machine

/-- The command ends with a status and a result. -/
def State.endOf (s : State) (c : Nat) (m : Cmd) (st res : Nat) : State := s.cmdEnd c m.idx st res

/-- Flow commands while the Grove is not READY (R187). -/
def State.flowsOff (s : State) (id : Nat) : Bool := (id == 0x40 || id == 0x41) && !s.on GRV_STS_READY

/-! ### Table commands (R370) -/

/-- The entries' numbers in a command's data. -/
def entriesOf (n count : Nat) (d : List Byte) : List Nat := (List.range count).map (fun i => leAt d (n * i) n)

/-- What a TBL_WRITE or TBL_READ is refused for as a whole; `wr` a write. -/
def State.tblRefused (s : State) (c : Nat) (m : Cmd) (wr : Bool) : Option Nat :=
  if tblCount (s.rd GRF_RS_CFG_WIDTH) m.table = 0 then some 2
  else if s.flowsOff m.table then some 19
  else if m.count = 0 ∨ 4096 < m.count then some 3
  else if wr then s.writeGate c m.table
  else none

/-- TBL_WRITE; during a profile switch it waits (R443). -/
def State.tblWrite (s : State) (c : Nat) (m : Cmd) (d : Option (List Byte)) : State :=
  if s.sw.isSome then s
  else
    match s.tblRefused c m true with
    | some st => s.endOf c m st 0
    | none =>
      s.withData c m.idx d (fun d =>
        match s.writeRun m.table m.index 0 (entriesOf (tblBytes (s.rd GRF_RS_CFG_WIDTH) m.table) m.count d) with
        | some (st, n, t) => t.endOf c m st n
        | none => s)

def execTblWrite (c : BitVec 10) (idx : BitVec 16) (d : Option (List Byte)) (s : State) : Out :=
  onCmd c idx 0x01 s (fun m s => s.tblWrite c.toNat m d)

/-- The copy of a table that a host read returns (R369): the current generation's, or the staging copy. -/
def State.readCopy (s : State) (id i : Nat) : Nat :=
  if tblGen id then s.rd GRF_GEN_CUR_GEN % 2
  else if id = 0x51 then (s.rd TWG_EPOCH_CUR + 1) % 2
  else if id = 0x71 then b2n (!(s.tmPort (i / 256)).side)
  else 0

/-- What one entry's read finds. -/
inductive ReadRes where
  /-- its bytes -/
  | bytes (b : List Byte)
  /-- a failure of R371 -/
  | fail (st : Nat)
  /-- the read waits for a repair (R345) -/
  | wait
  deriving DecidableEq, Repr

/-- One entry read for the host. -/
def State.entryGet (s : State) (id i : Nat) : ReadRes × State :=
  let w := s.rd GRF_RS_CFG_WIDTH
  if tblCount w id ≤ i then (.fail 3, s)
  else if id = 0x40 then
    if !s.isFlow i then (.fail 12, s)
    else
      match s.flowRead i with
      | (some b, s) => (.bytes b, s.trunkAsk trkHost 5)
      | (none, s) => (.fail 10, s)
  else
    match s.entRead id (s.readCopy id i) i with
    | (some v, s) => (.bytes (natLe (tblBytes w id) v), s.trunkAsk trkHost (entryPhases (tblBytes w id)))
    | (none, s) => (.wait, s)

/-- Entries read in index order to host memory, up to the first that fails: status, entries done, state; `none` while one
must wait. -/
def State.readRun (s : State) (id sz a : Nat) : Nat → Nat → Nat → Option (Nat × Nat × State) × State
  | _, n, 0 => (some (0, n, s), s)
  | i, n, k + 1 =>
    match s.entryGet id i with
    | (.bytes b, s) => (s.hostPut (a + sz * n) b).readRun id sz a (i + 1) (n + 1) k
    | (.fail st, s) => (some (st, n, s), s)
    | (.wait, s) => (none, s)

/-- TBL_READ. -/
def State.tblRead (s : State) (c : Nat) (m : Cmd) : State :=
  match s.tblRefused c m false with
  | some st => s.endOf c m st 0
  | none =>
    s.withDma c m.idx (
      match s.readRun m.table (tblBytes (s.rd GRF_RS_CFG_WIDTH) m.table) m.host m.index 0 m.count with
      | (some (st, n, s), _) => if st = 10 then s.cmdPoison c m.idx n else s.endOf c m st n
      | (none, s) => s)

def execTblRead (c : BitVec 10) (idx : BitVec 16) (s : State) : Out := onCmd c idx 0x02 s (fun m s => s.tblRead c.toNat m)

/-- A write command of one entry: refused, staged or performed; it waits during a profile switch (R443). -/
def State.oneWrite (s : State) (c : Nat) (m : Cmd) (w : KnotWrite) : State :=
  match s.writeGate c w.table with
  | some st => s.endOf c m st 0
  | none =>
    match s.writeOne w with
    | some (st, r, t) => t.endOf c m st r
    | none => s

/-- A command by key: allowed on tables 0x30 and 0x41; `f` takes the entry it carries. -/
def State.keyCmd (s : State) (c : Nat) (m : Cmd) (d : Option (List Byte)) (f : List Byte → State) : State :=
  if m.table ≠ 0x30 ∧ m.table ≠ 0x41 then s.endOf c m 2 0
  else if s.flowsOff m.table then s.endOf c m 19 0
  else s.withData c m.idx d (fun d => f (slice0 d 0 (tblBytes 0 m.table)))

def execKeyWrite (c : BitVec 10) (idx : BitVec 16) (d : Option (List Byte)) (s : State) : Out :=
  onCmd c idx 0x03 s (fun m s => if s.sw.isSome then s else
    s.keyCmd c.toNat m d (fun e => s.oneWrite c.toNat m ⟨0x03, m.table, 0, leNat e⟩))

def execKeyDelete (c : BitVec 10) (idx : BitVec 16) (d : Option (List Byte)) (s : State) : Out :=
  onCmd c idx 0x04 s (fun m s => if s.sw.isSome then s else
    s.keyCmd c.toNat m d (fun e => s.oneWrite c.toNat m ⟨0x04, m.table, 0, leNat e⟩))

/-- IDX_DELETE, on tables 0x30 and 0x40. -/
def State.idxCmd (s : State) (c : Nat) (m : Cmd) : State :=
  if m.table ≠ 0x30 ∧ m.table ≠ 0x40 then s.endOf c m 2 0
  else if s.flowsOff m.table then s.endOf c m 19 0
  else if tblCount 0 m.table ≤ m.index then s.endOf c m 3 0
  else s.oneWrite c m ⟨0x05, m.table, m.index, 0⟩

def execIdxDelete (c : BitVec 10) (idx : BitVec 16) (s : State) : Out :=
  onCmd c idx 0x05 s (fun m s => if s.sw.isSome then s else s.idxCmd c.toNat m)

/-- KEY_FIND: the entry found is written back to HOST_ADDR. -/
def State.keyFind (s : State) (c : Nat) (m : Cmd) (e : List Byte) : State :=
  if m.table = 0x30 then
    match s.brgFind (fget (leNat e) BR_VID) (brMac (leNat e)) with
    | none => s.endOf c m 12 0
    | some (i, _) =>
      match s.entryGet 0x30 i with
      | (.bytes b, s) => (s.hostPut m.host b).endOf c m 0 i
      | (.fail st, s) => s.endOf c m st 0
      | (.wait, s) => s
  else
    match s.flowByKey (keyOf e) with
    | (none, s) => s.endOf c m 12 0
    | (some i, s) =>
      match s.entryGet 0x40 i with
      | (.bytes b, s) => (s.hostPut m.host b).endOf c m 0 i
      | (.fail st, s) => if st = 10 then s.cmdPoison c m.idx 0 else s.endOf c m st 0
      | (.wait, s) => s

def execKeyFind (c : BitVec 10) (idx : BitVec 16) (d : Option (List Byte)) (s : State) : Out :=
  onCmd c idx 0x06 s (fun m s => s.keyCmd c.toNat m d (fun e => s.keyFind c.toNat m e))

/-- BRG_FLUSH, on table 0x30. -/
def State.flushOp (s : State) (c : Nat) (m : Cmd) : State :=
  if m.table ≠ 0x30 then s.endOf c m 2 0 else s.oneWrite c m ⟨0x07, 0x30, 0, m.param⟩

def execBrgFlush (c : BitVec 10) (idx : BitVec 16) (s : State) : Out :=
  onCmd c idx 0x07 s (fun m s => if s.sw.isSome then s else s.flushOp c.toNat m)

/-- FLOW_PAIR, on table 0x40. -/
def State.pairOp (s : State) (c : Nat) (m : Cmd) : State :=
  if m.table ≠ 0x40 then s.endOf c m 2 0
  else if s.flowsOff 0x40 then s.endOf c m 19 0
  else if 2 ^ 26 ≤ m.index then s.endOf c m 3 0
  else s.oneWrite c m ⟨0x08, 0x40, m.index, m.param⟩

def execFlowPair (c : BitVec 10) (idx : BitVec 16) (s : State) : Out :=
  onCmd c idx 0x08 s (fun m s => if s.sw.isSome then s else s.pairOp c.toNat m)

/-! ### Knots, grafts, patches (R376 to R378, R120, R247) -/

/-- Why a KNOT_ACQ is refused. That the knot or the channel is taken goes before a busy graft (DESIGN CHOICE, assumption
101). -/
def State.acqRefused (s : State) (c k mask : Nat) : Option Nat :=
  if 15 < k then some 2
  else if (s.svn.knots.find? k).isSome || (s.knotOf c).isSome then some 5
  else if k = 0 then
    if s.sw.isSome then some 5 else if 2 ≤ s.graftSt then some 7 else none
  else if s.svn.knots.any (fun e => e.1 != 0 && (e.2.mask &&& mask) != 0) then some 5
  else none

/-- A knot given to a channel for a lease in ms; the graft knot empties the log and starts STAGING (R120). -/
def State.knotGive (s : State) (c k mask lease : Nat) : State :=
  let s := { s with svn.knots := s.svn.knots.insert k ⟨c, mask, lease, 0, []⟩ }
  let s := s.wr SVN_KNOT_STS_HELD (s.rd SVN_KNOT_STS_HELD ||| 2 ^ k)
  let s := ((s.wr (SVN_KNOT_OWN_CH k) c).wr (SVN_KNOT_OWN_HELD k) 1).leaseStart k
  if k = 0 then (s.putLog []).setGraft 1 else s

/-- KNOT_ACQ. -/
def State.knotAcq (s : State) (c : Nat) (m : Cmd) : State :=
  let mask := if m.table = 0 then 0 else getBits m.param 16 6
  match s.acqRefused c m.table mask with
  | some st => s.endOf c m st 0
  | none =>
    let l := m.param % 2 ^ 16
    let lease := if l = 0 then max 1 (s.rd SVN_KNOT_CFG_LEASE) else l
    (s.knotGive c m.table mask lease).endOf c m 0 m.table

def execKnotAcq (c : BitVec 10) (idx : BitVec 16) (s : State) : Out := onCmd c idx 0x10 s (fun m s => s.knotAcq c.toNat m)

/-- Whether a channel holds a knot. -/
def State.holds (s : State) (c k : Nat) : Bool := (s.svn.knots.find? k).any (fun x => x.ch == c)

/-- A command has started and ends later. -/
def State.cmdStarted (s : State) (c idx : Nat) : State := s.modCmd c idx ({ · with started := true })

/-- GRAFT: the knot is released and the batch committed; it completes at the entry to DRAIN (R120). -/
def State.graftCmd (s : State) (c : Nat) (m : Cmd) : State :=
  if !s.holds c 0 then s.endOf c m 6 0
  else ((s.knotFree 0).graftStart (some (c, m.idx)) m.host).cmdStarted c m.idx

def execGraft (c : BitVec 10) (idx : BitVec 16) (s : State) : Out := onCmd c idx 0x13 s (fun m s => s.graftCmd c.toNat m)

/-- The staged writes of a knot discarded, and the knot freed; the graft knot's release ends STAGING. -/
def State.knotDrop (s : State) (k : Nat) : State :=
  let s := s.knotFree k
  if k = 0 then (s.putLog []).setGraft 0 else s

/-- KNOT_REL: with APPLY the staged writes are written in staging order; otherwise they are discarded. -/
def State.knotRel (s : State) (c : Nat) (m : Cmd) : State :=
  let k := m.table
  if 15 < k then s.endOf c m 2 0
  else if !s.holds c k then s.endOf c m 6 0
  else if !bit m.param 0 then (s.knotDrop k).endOf c m 0 0
  else if s.sw.isSome then s
  else if k = 0 then s.graftCmd c m
  else
    match s.knotRun 0 0 (((s.svn.knots.find? k).map (·.staged)).getD []) with
    | none => s
    | some (st, n, t) => (t.knotFree k).endOf c m st n

def execKnotRel (c : BitVec 10) (idx : BitVec 16) (s : State) : Out := onCmd c idx 0x11 s (fun m s => s.knotRel c.toNat m)

/-- KNOT_RENEW. -/
def State.knotRenew (s : State) (c : Nat) (m : Cmd) : State :=
  if 15 < m.table then s.endOf c m 2 0
  else
    match s.svn.knots.find? m.table with
    | some x => if x.ch = c then (s.leaseStart m.table).endOf c m 0 x.lease else s.endOf c m 6 0
    | none => s.endOf c m 6 0

def execKnotRenew (c : BitVec 10) (idx : BitVec 16) (s : State) : Out := onCmd c idx 0x12 s (fun m s => s.knotRenew c.toNat m)

/-- R378: a lease runs out. -/
def State.leaseExpire (s : State) (k : Nat) : State :=
  match s.svn.knots.find? k with
  | some x => (s.waitMono x.until_).knotAbandon k 1
  | none => s

def execKnotLeaseExpire (k : Fin 16) (s : State) : Out := onIsl islMgmt s (·.leaseExpire k.val)

/-- PATCH: it completes at the entry to DRAIN (R247, R370); refused outside IDLE and during a profile switch (R443). -/
def State.patchCmd (s : State) (c : Nat) (m : Cmd) : State :=
  if s.patchBusy || s.sw.isSome then (s.wr TWG_PATCH_STS_REJ_STK 1).endOf c m 9 0
  else (s.patchStart (m.param % 2 ^ 32) (some (c, m.idx))).cmdStarted c m.idx

def execPatch (c : BitVec 10) (idx : BitVec 16) (s : State) : Out := onCmd c idx 0x14 s (fun m s => s.patchCmd c.toNat m)

/-! ### Memory, journal and counters (R252, R370, R397) -/

/-- The user region's size, and the journal range's base and size. -/
def userSize : Nat := 0x400000000
def jrnBase : Nat := 0x500000000
def jrnSize : Nat := 0x200000000

/-- Bytes of the Root store read to host memory, in transfers of 256 bytes; poison ends the command (R347). Both stacks must
be ready. -/
def State.memToHost (s : State) (c : Nat) (m : Cmd) (base size most : Nat) : State :=
  let n := m.count
  if n = 0 ∨ most < n then s.endOf c m 3 0
  else if size < m.param + n then s.endOf c m 13 0
  else if s.rd RTS_STS_READY ≠ 3 then s
  else
    s.withDma c m.idx (
      let s := ((s.trunkAsk trkHost 6 (ceilDiv n 256)).rtsUse clsHost (base + m.param) n false).rsScan (base + m.param) n
      if s.rsPoisoned (base + m.param) n then s.cmdPoison c m.idx 0
      else (s.hostPut m.host (s.rsRead (base + m.param) n)).endOf c m 0 n)

def execMemRead (c : BitVec 10) (idx : BitVec 16) (s : State) : Out :=
  onCmd c idx 0x20 s (fun m s => s.memToHost c.toNat m userBase userSize (2 ^ 24))

def execJrnRead (c : BitVec 10) (idx : BitVec 16) (s : State) : Out :=
  onCmd c idx 0x22 s (fun m s => s.memToHost c.toNat m jrnBase jrnSize (2 ^ 32))

/-- Whether two ranges, given by start and length, meet. -/
def meets (a n b m : Nat) : Bool := decide (a < b + m) && decide (b < a + n) && decide (0 < n) && decide (0 < m)

/-- R371: a write that reaches the graft log while the graft is not IDLE, or a held knot's staging area. -/
def State.protected (s : State) (off n : Nat) : Bool :=
  (s.graftSt != 0 && meets off n s.logBase (s.logMib * 2 ^ 20))
    || s.svn.knots.any (fun e => e.1 != 0 && meets off n ((s.rd SVN_KNOT_CFG_BASE + e.1 - 1) * 2 ^ 20) (2 ^ 20))

/-- Bytes written to the Root store: those before the first unit that refuses its part (R348); the number written. -/
def State.memPut (s : State) (a : Nat) (bs : List Byte) : Bool × Nat × State :=
  let n := bs.length
  let h := min n (64 - a % 64)
  let t := if h < n then (a + n) % 64 else 0
  if s.rsRefused a h then (false, 0, s.rsWrite a (bs.take h))
  else
    let s := s.rsWrite a (bs.take (n - t))
    if t = 0 then (true, n, s)
    else if s.rsRefused (a + (n - t)) t then (false, n - t, s.rsWrite (a + (n - t)) (bs.drop (n - t)))
    else (true, n, s.rsWrite (a + (n - t)) (bs.drop (n - t)))

/-- MEM_WRITE. -/
def State.memWrite (s : State) (c : Nat) (m : Cmd) (d : Option (List Byte)) : State :=
  let n := m.count
  if n = 0 then s.endOf c m 3 0
  else if userSize < m.param + n then s.endOf c m 13 0
  else if s.protected m.param n then s.endOf c m 14 0
  else if s.rd RTS_STS_READY ≠ 3 then s
  else
    s.withData c m.idx d (fun d =>
      let (ok, k, s) := ((s.trunkAsk trkHost 6 (ceilDiv n 256)).rtsUse clsHost (userBase + m.param) n true).memPut (userBase + m.param) (slice0 d 0 n)
      s.endOf c m (if ok then 0 else 10) k)

def execMemWrite (c : BitVec 10) (idx : BitVec 16) (d : Option (List Byte)) (s : State) : Out :=
  onCmd c idx 0x21 s (fun m s => s.memWrite c.toNat m d)

/-- The 8-byte slot at an offset of BAR4 (R393, R396). -/
def State.bar4Slot (s : State) (off : Nat) : Nat :=
  if off < 0x1000000 then s.liveSlot (off / 8)
  else if off < 0x3000000 then (s.bank (off / 0x1000000 - 1)).slots.get 0 (off % 0x1000000 / 8)
  else if off = 0x3000000 ∨ off = 0x3000040 then leAt (bankHeader (s.bank ((off - 0x3000000) / 64))) 0 8
  else if off = 0x3000008 ∨ off = 0x3000048 then (s.bank ((off - 0x3000000) / 64)).t
  else 0

/-- The slots read to host memory from BAR4 offset `off` on. -/
def State.cntToHost (s : State) (c : Nat) (m : Cmd) (off : Nat) : State :=
  let s := s.trunkAsk trkHost 6 (ceilDiv (8 * m.count) 256)
  (s.hostPut m.host ((List.range m.count).flatMap (fun i => natLe 8 (s.bar4Slot (off + 8 * i))))).endOf c m 0 m.count

/-- A CNT_READ begins: refused, done at once, or its snapshot scheduled 2 µs ahead (R395). -/
def State.cntRead (s : State) (c : Nat) (m : Cmd) : State :=
  let off := m.param % 2 ^ 63
  if m.count = 0 then s.endOf c m 3 0
  else if off % 8 ≠ 0 ∨ 0x4000000 < off + 8 * m.count then s.endOf c m 13 0
  else
    s.withDma c m.idx (
      if bit m.param 63 && decide (off < 0x1000000) then
        let t := s.now islMgmt + 2000
        let s := { s with svn.snapAt := s.svn.snapAt.insert (65536 * c + m.idx) t }
        (s.snapAsk t).cmdStarted c m.idx
      else s.cntToHost c m off)

/-- A CNT_READ whose snapshot is due goes on: from that epoch's bank once it is DONE, from the live bank when the epoch was
skipped. -/
def State.cntGoOn (s : State) (c : Nat) (m : Cmd) (t : Nat) : State :=
  if s.obs.snapDue.contains t then s
  else
    let off := m.param % 2 ^ 63
    let go (s : State) (base : Nat) : State :=
      ({ s with svn.snapAt := s.svn.snapAt.erase (65536 * c + m.idx) } : State).cntToHost c m (base + off)
    if s.obs.bank0.t = t then (if s.obs.bank0.done then go s 0x1000000 else s)
    else if s.obs.bank1.t = t then (if s.obs.bank1.done then go s 0x2000000 else s)
    else go s 0

/-- CNT_READ: begun, or gone on with. -/
def State.cntCmd (s : State) (c idx : Nat) : State :=
  match (s.chan c).flight.find? (fun m => m.idx == idx && m.started && m.fin.isNone), s.svn.snapAt.find? (65536 * c + idx) with
  | some m, some t => s.withDma c idx (s.cntGoOn c m t)
  | _, _ => s.cmdRun c idx 0x23 (fun m s => s.cntRead c m)

def execCntRead (c : BitVec 10) (idx : BitVec 16) (s : State) : Out := onIsl islMgmt s (·.cntCmd c.toNat idx.toNat)

/-! ### Injection (R372, R373) -/

/-- INJ_PIPE (`cls` none) or INJ_PORT: completed once the frame is in the ingress store; held while no tag or buffer is
free, which counts once; owner 8 allocates in its turn (R273). -/
def State.injCmd (s : State) (c : Nat) (m : Cmd) (t : Nat) (cls : Option Nat) (d : Option (List Byte)) : State :=
  let port := leAt m.desc 2 1
  let len := leAt m.desc 8 2
  if !s.injValid port len then s.endOf c m 3 0
  else
    s.withData c m.idx d (fun d =>
      if !s.allocMay (portBough port) (len + 4) 8 then s
      else
      match s.inject port t cls false (slice0 d 0 len) with
      | some s => (s.cnt SVN_INJ_CNT).endOf c m 0 0
      | none => if m.held then s else (s.modCmd c m.idx ({ · with held := true })).cnt SVN_INJ_WAIT_CNT)

def execInjPipe (c : BitVec 10) (idx : BitVec 16) (t : Fin 8192) (d : Option (List Byte)) (s : State) : Out :=
  onCmd c idx 0x30 s (fun m s => s.injCmd c.toNat m t.val none d)

def execInjPort (c : BitVec 10) (idx : BitVec 16) (t : Fin 8192) (d : Option (List Byte)) (s : State) : Out :=
  onCmd c idx 0x31 s (fun m s => s.injCmd c.toNat m t.val (some (leAt m.desc 3 1 % 16)) d)

/-! ### Posted buffers and copies to the host (R374, R375) -/

/-- RX_BUF, EV_BUF: the buffer at HOST_ADDR is posted. -/
def State.bufPost (s : State) (c : Nat) (m : Cmd) : State :=
  let x := s.chan c
  s.putChan c { x with flight := x.flight.filter (fun (q : Cmd) => q.idx != m.idx)
                       bufs := x.bufs ++ [⟨m.host, m.idx, m.irq⟩] }

def execRxBuf (c : BitVec 10) (idx : BitVec 16) (s : State) : Out := onCmd c idx 0x40 s (fun m s => s.bufPost c.toNat m)

def execEvBuf (c : BitVec 10) (idx : BitVec 16) (s : State) : Out := onCmd c idx 0x41 s (fun m s => s.bufPost c.toNat m)

/-- The bytes a posted buffer of a channel takes. -/
def ChSt.bufBytes (x : ChSt) : Nat := 256 * x.bufUnits

/-- Content written over posted buffers in order: host writes and one completion each, SOP on the first and EOP on the last.
`first` marks the first. -/
def fillBufs (size op info : Nat) : Bool → List PostedBuf → List Byte → List (Nat × List Byte) × List RxComp
  | _, [], _ => ([], [])
  | first, b :: l, bs =>
    let part := bs.take size
    let rest := bs.drop size
    let r := fillBufs size op info false l rest
    ((b.addr, part) :: r.1, ⟨b.idx, b.irq, first, l.isEmpty, part.length, info, op⟩ :: r.2)

/-- A channel's first `n` posted buffers filled with content. -/
def State.putBufs (s : State) (c n op info : Nat) (bs : List Byte) : State :=
  let x := s.chan c
  let (w, r) := fillBufs x.bufBytes op info true (x.bufs.take n) bs
  let s := w.foldl (fun s p => s.hostPut p.1 p.2) s
  s.putChan c { s.chan c with bufs := x.bufs.drop n, comps := x.comps ++ r }

/-- The first copy of a packet for a channel. -/
def Pkt.copyTo (p : Pkt) (c : Nat) : Option HostCopy := p.hostCopies.find? (fun (h : HostCopy) => h.ch == c)

/-- A packet's first copy for a channel is gone. -/
def State.copyGone (s : State) (k c : Nat) : State :=
  s.modPkt k (fun p => { p with hostCopies := p.hostCopies.eraseP (fun (h : HostCopy) => h.ch == c) })

/-- Whether a channel takes copies: a RECEIVE channel in STATE 1. -/
def ChSt.takesCopies (x : ChSt) : Bool := x.st == 1 && x.typ == 3

/-- Buffers that a copy of a frame needs. -/
def ChSt.copyBufs (x : ChSt) (p : Pkt) : Nat := ceilDiv (48 + p.bytes.length) (max 1 x.bufBytes)

/-- When a packet's first copy for a channel became ready: it is asked for, and the frame's end has arrived. -/
def Pkt.readyAt (p : Pkt) (c : Nat) : Option Nat := if p.ended then (p.copyTo c).map (fun h => max h.at_ p.endAt) else none

/-- Another packet's copy for the channel has been ready for longer. -/
def State.copyBehind (s : State) (k c : Nat) (p : Pkt) : Bool :=
  s.pkts.any (fun e => e.1 != k && (match e.2.readyAt c, p.readyAt c with | some a, some b => decide (a < b) | _, _ => false))

/-- R374: a packet's copy is written to its channel: the bark, then the frame as received; bytes that cannot be read discard
it (R293). -/
def State.hostCopyDeliver (s : State) (k c : Nat) : State :=
  match s.pkt? k with
  | none => s
  | some p =>
    let x := s.chan c
    match p.copyTo c with
    | none => s
    | some h =>
      let n := x.copyBufs p
      if p.stUe then (s.modPkt k ({ · with hostCopies := [] })).settle k
      else if !p.ended || !x.takesCopies || x.cqFull || !s.cached c || x.bufs.length < n || s.copyBehind k c p then s
      else if !s.dmaOk then s.chHalt c 4
      else
        let s := (s.touch c).putBufs c n 0x40 h.info (barkBytes p.bark ++ p.bytes)
        ((s.cnt SVN_RX_CNT).copyGone k c).settle k

def execHostCopyDeliver (b : Fin 32) (t : BitVec 13) (c : BitVec 10) (s : State) : Out :=
  onIsl islPcie s (·.hostCopyDeliver (pkey b.val t.toNat) c.toNat)

/-- R374: a packet's copy is given up: WAIT µs after the frame's end while buffers lack, or at once on a channel that takes
no copies. -/
def State.rxGiveup (s : State) (k c : Nat) : State :=
  match s.pkt? k with
  | none => s
  | some p =>
    let give (s : State) : State := (((s.copyGone k c).cnt SVN_RX_GIVEUP_CNT).raise SVN_INT_RX_GIVEUP).settle k
    if (p.copyTo c).isNone then s
    else if !(s.chan c).takesCopies then give s
    else if !p.ended || decide ((s.chan c).copyBufs p ≤ (s.chan c).bufs.length) then s
    else give (s.waitMono (p.endAt + s.rd SVN_RX_CFG_WAIT * 8000))

def execRxCopyGiveup (b : Fin 32) (t : BitVec 13) (c : BitVec 10) (s : State) : Out :=
  onIsl islPcie s (·.rxGiveup (pkey b.val t.toNat) c.toNat)

end Sys2Proof.Machine
end

