-- ==== Sys2Proof/Machine/Streams.lean ====
section
/-!
DEFINITION. Event channels (R375, R421): the streams' entries written into posted buffers, and the flush of a buffer partly
filled.
-/
namespace Sys2Proof.Machine

/-- The channel a stream goes to: the lowest-numbered one in STATE 1 that selects it. -/
def State.streamChan (s : State) (stream : Nat) : Option Nat :=
  (s.svn.ch.first (fun e => e.2.st == 1 && e.2.typ == 4 && bit e.2.evSel stream)).map (·.1)

/-- The next journal record that a channel reads, once those overwritten are skipped and counted. -/
def State.jrnSkip (s : State) (c : Nat) : State :=
  let n := s.obs.evJrn.get 0 c
  let w := s.rd64 OBS_JRN_WPTR
  if w ≤ n + 2 ^ 28 then s
  else ({ s with obs.evJrn := s.obs.evJrn.set 0 c (w - 2 ^ 28) } : State).cnt OBS_EV_SKIP_CNT (w - 2 ^ 28 - n)

/-- The body of a stream's next entry for channel `c`. -/
def State.evBody (s : State) (stream c : Nat) : Option (List Byte) :=
  match stream with
  | 0 =>
    let n := s.obs.evJrn.get 0 c
    if s.rd64 OBS_JRN_WPTR ≤ n || !s.rsReady (jrnAddr n) then none else some (s.rsRead (jrnAddr n) 32)
  | 1 => s.obs.psBuf.head?
  | 2 =>
    match s.obs.psmpQ with
    | (_, x :: _) :: _ => some (barkBytes x.bark ++ x.bytes)
    | _ => none
  | _ => (s.obs.evQ.get [] stream).head?

/-- The entry has been delivered: it leaves its source. -/
def State.evTake (s : State) (stream c : Nat) : State :=
  let s := { s with obs.evCount := s.obs.evCount.modify 0 stream (fun n => (n + 1) % 2 ^ 32) }
  match stream with
  | 0 => { s with obs.evJrn := s.obs.evJrn.modify 0 c (· + 1) }
  | 1 =>
    let l := s.obs.psBuf.drop 1
    ({ s with obs.psBuf := l } : State).wr OBS_PS_STS_USE l.length
  | 2 =>
    match s.obs.psmpQ with
    | (b, q) :: _ => { s with obs.psmpQ := s.obs.psmpQ.set [] b (q.drop 1) }
    | [] => s
  | _ => { s with obs.evQ := s.obs.evQ.set [] stream ((s.obs.evQ.get [] stream).drop 1) }

/-- An entry's bytes: header, then the body padded to a multiple of 8. -/
def evEntry (stream count : Nat) (body : List Byte) : List Byte :=
  natLe 1 stream ++ [0] ++ natLe 2 body.length ++ natLe 4 count ++ slice0 body 0 (8 * ceilDiv body.length 8)

/-- A channel's partly filled buffer is completed as it stands. -/
def State.evClose (s : State) (c : Nat) : State :=
  let x := s.chan c
  match x.bufs with
  | b :: l =>
    if x.evFill = 0 then s
    else s.putChan c { x with bufs := l, evFill := 0, comps := x.comps ++ [⟨b.idx, b.irq, true, true, x.evFill, 0, 0x41⟩] }
  | [] => s

/-- An entry that fits the rest of the current buffer is written there; a full buffer is completed. -/
def State.evFit (s : State) (c : Nat) (e : List Byte) : State :=
  let x := s.chan c
  match x.bufs with
  | [] => s
  | b :: _ =>
    let fill := x.evFill + e.length
    let s := (s.hostPut (b.addr + x.evFill) e).putChan c
      { x with evFill := fill, evAt := if x.evFill = 0 then s.time.mono else x.evAt }
    if fill = x.bufBytes then s.evClose c else s

/-- An entry written into a channel's buffers, when it has enough of them. -/
def State.evWrite (s : State) (c : Nat) (e : List Byte) : Option State :=
  let x := s.chan c
  let size := x.bufBytes
  let close := 0 < x.evFill && decide (size < x.evFill + e.length)
  let need := b2n close + (if size < e.length then ceilDiv e.length (max 1 size) else 1)
  if x.bufs.length < need then none
  else
    let s := if close then s.evClose c else s
    some (if size < e.length then s.putBufs c (ceilDiv e.length (max 1 size)) 0x41 0 e else s.evFit c e)

/-- R421: a stream's next entry is written. A journal record that is poisoned halts the channel (R382). -/
def State.evEntryPut (s : State) (stream : Nat) : State :=
  match s.streamChan stream with
  | none => s
  | some c =>
    if !s.cached c || (s.chan c).cqFull then s
    else if !s.dmaOk then s.chHalt c 4
    else
      let s := if stream = 0 then s.jrnSkip c else s
      match s.evBody stream c with
      | none => s
      | some body =>
        let a := jrnAddr (s.obs.evJrn.get 0 c)
        let s := if stream = 0 then (s.rtsUse clsHost a 32 false).rsScan a 32 else s
        if stream = 0 && s.rsPoisoned a 32 then s.chHalt c 2
        else
          match s.evWrite c (evEntry stream (s.obs.evCount.get 0 stream) body) with
          | some s => (s.touch c).evTake stream c
          | none => s

def execEvStreamEntry (stream : Fin 5) (s : State) : Out := onIsl islPcie s (·.evEntryPut stream.val)

/-- R421: a buffer has held a partial content for FLUSH µs. -/
def State.evFlush (s : State) (c : Nat) : State :=
  let x := s.chan c
  if x.evFill = 0 || x.st != 1 || x.cqFull then s
  else (s.waitMono (x.evAt + 8000 * max 1 (s.rd OBS_EV_CFG_FLUSH))).evClose c

def execEvBufferFlush (c : BitVec 10) (s : State) : Out := onIsl islPcie s (·.evFlush c.toNat)

end Sys2Proof.Machine
end

