-- ==== Sys2Proof/Machine/Bar0.lean ====
section
/-!
DEFINITION. A host write of any register of BAR0 with the effect its chapter gives it (R7, R10, R427): the operations that
chapters attach to a write, one block at a time; every other register takes the write by its access codes. Profile records
of type REG are applied by the same operation (R435).
-/
namespace Sys2Proof.Machine

/-- The register number of `a` in an array of `n` that starts at `base` with stride `st`; the offset lies inside `w`. -/
def arrIdx (base n st w a : Nat) : Option Nat :=
  if base ≤ a ∧ (a - base) / st < n ∧ (a - base) % st < w then some ((a - base) / st) else none

/-- An interrupt register or its mask written: the block's message is due after any such write that leaves its summary at 1 (R380). -/
def State.intWrite (s : State) (b a v : Nat) : State :=
  let t := s.hostWrite a v
  if t.summary b then t.msiDue b else t

/-! ### Block by block -/

/-- GLB: the junction temperature's high-water mark (R475). -/
def State.glbApply (s : State) (a v : Nat) : State :=
  if a = GLB_TJ_CFG ∧ bit v 14 then s.tjHwmClr v else s.hostWrite a v

/-- CLK: the time reference and measurements (R449, R452). -/
def State.clkApply (s : State) (a v : Nat) : State :=
  if a = CLK_CFG then s.tclkSel (v % 2)
  else if a = CLK_MEAS_CTL ∧ bit v 8 then s.measStart (v % 256)
  else s.hostWrite a v

/-- TIM_ADJ_CMD (R328 to R330): 1 STEP, 2 SLEW, 3 SET. -/
def State.adjCmd (s : State) (v : Nat) : State :=
  match v % 4 with
  | 1 => s.timeReq 1 (bit v 2)
  | 2 => s.timeSlew
  | 3 => s.timeReq 3 (bit v 2)
  | _ => s

/-- TIM (R323, R328, R336). -/
def State.timApply (s : State) (a v : Nat) : State :=
  if a = TIM_FREQ then s.timFreqWrite (BitVec.ofNat 32 v)
  else if a = TIM_SNAP then (if bit v 0 then s.timeSnap else s)
  else if a = TIM_ADJ_CMD then s.adjCmd v
  else
    match arrIdx (TIM_TRG_CFG 0) 8 0x40 0x40 a with
    | some k => s.trgWrite k ((a - TIM_TRG_CFG k) / 4) v
    | none => s.hostWrite a v

/-- PRT_CFG of a port: enabled or disabled, with the rest of the word (R60, R75, R312). -/
def State.prtCfg (s : State) (p v : Nat) : State := if bit v 0 then s.portEnable p v else s.portDisable p v

/-- PRT (R45, R62, R75, R76). -/
def State.prtApply (s : State) (a v : Nat) : State :=
  let p := (a - 0x1000000) / 0x1000
  if a = PRT_CFG p then s.prtCfg p v
  else if p % 8 = 0 ∧ a = PRT_GRP_CFG (p / 8) then s.modeWrite (p / 8) (v % 8)
  else if PRT_TRC_EXP_CHS p 0 ≤ a ∧ a ≤ PRT_TRC_EXP_LEN p then s.traceExpWrite p a v
  else if a = PRT_LN_TXEQ p then s.txeqWrite p v
  else s.hostWrite a v

/-- BGH: the tag high-water mark. -/
def State.bghApply (s : State) (a v : Nat) : State :=
  let b := (a - 0x2000000) / 0x40000
  if a = BGH_TAG_CFG b ∧ bit v 13 then s.tagHwmClr b v else s.hostWrite a v

/-- GRF and BRG (R106, R122, R94). -/
def State.grfApply (s : State) (a v : Nat) : State :=
  if a = GRF_RS_CFG then s.wr GRF_GRAFT_STS_CFG_REJ_STK 1
  else if a = GRF_LOG_CFG then s.logCfgWrite v
  else if a = BRG_FRAG_CFG ∧ bit v 0 = false then s.fragDisable v
  else s.hostWrite a v

/-- GRV and TWG (R104, R184, R244). -/
def State.grvApply (s : State) (a v : Nat) : State :=
  if a = GRV_CFG then s.grvCfgWrite v
  else if a = GRV_HASH_SEED_A ∨ a = GRV_HASH_SEED_B then (if s.on GRV_CFG_EN then s else s.hostWrite a v)
  else if a = GRV_MISS_CFG then s.missCfgWrite v
  else if a = TWG_HALT then s.twigHalt v
  else if a = TWG_COLD_CFG then s.coldCfgWrite v
  else s.hostWrite a v

/-- RTS (R256, R263, R267). -/
def State.rtsApply (s : State) (a v : Nat) : State :=
  if a = RTS_CFG then s.rtsCfgWrite v
  else
    match arrIdx RTS_MAP_STK 10 4 4 a with
    | some i => s.rtsMapWrite i v
    | none =>
      match arrIdx (RTS_BW_CFG 1) 6 4 4 a with
      | some n => s.rtsBwWrite (n + 1) v
      | none => s.hostWrite a v

/-- R272: a reserve written; refused when the counted reserves of the pool would sum above its COUNT. -/
def State.rsvWrite (s : State) (b o q v : Nat) : State :=
  let t := s.hostWrite (CRN_RSV_CFG b o q) v
  let sum := (List.range 9).foldl (fun n i => if t.ownerCounts b i then n + t.rd (CRN_RSV_CFG_RSV b i q) else n) 0
  if t.rd (CRN_POOL_CFG_COUNT b q) < sum then s.wr (CRN_STORE_STS_CFG_REJ_STK b) 1 else t

/-- CRN (R270, R272). -/
def State.crnApply (s : State) (a v : Nat) : State :=
  match arrIdx 0x6010000 32 0x10000 0x10000 a with
  | none => s.hostWrite a v
  | some b =>
    match arrIdx (CRN_POOL_CFG b 0) 4 4 4 a with
    | some q => s.poolWrite b q v
    | none =>
      match arrIdx (CRN_RSV_CFG b 0 0) 36 4 4 a with
      | some i => s.rsvWrite b (i / 4) (i % 4) v
      | none => s.hostWrite a v

/-- TMG_PORT_CFG: the port shaper's credit (R307) and, at a change of GCL_EN, the gate terms (R312). -/
def State.tmgPortCfg (s : State) (p v : Nat) : State :=
  let was := s.on (TMG_PORT_CFG_PSHP_EN p)
  let gcl := s.on (TMG_PORT_CFG_GCL_EN p)
  let s := s.hostWrite (TMG_PORT_CFG p) v
  let s := s.wr (TMG_PSHP_CREDIT_CREDIT p) (shaperNow was (s.on (TMG_PORT_CFG_PSHP_EN p)) (s.rd (TMG_PSHP_BURST_BURST p))
    (s.rd (TMG_PSHP_CREDIT_CREDIT p)))
  if s.on (TMG_PORT_CFG_GCL_EN p) == gcl then s else s.gateCalc p

/-- TMG_QSHP_RATE: the queue shaper's credit (R307). -/
def State.qshpWrite (s : State) (p q v : Nat) : State :=
  let was := s.on (TMG_QSHP_RATE_EN p q)
  let s := s.hostWrite (TMG_QSHP_RATE p q) v
  s.wr (TMG_QSHP_CREDIT_CREDIT p q) (shaperNow was (s.on (TMG_QSHP_RATE_EN p q)) (s.rd (TMG_QSHP_BURST_BURST p q))
    (s.rd (TMG_QSHP_CREDIT_CREDIT p q)))

/-- TMG (R303, R307, R310). -/
def State.tmgApply (s : State) (a v : Nat) : State :=
  match arrIdx 0x7100000 256 0x1000 0x1000 a with
  | none => s.hostWrite a v
  | some p =>
    if a = TMG_PORT_CFG p then s.tmgPortCfg p v
    else if a = TMG_GCL_CFG p then s.gclCfgWrite p v
    else if a = TMG_GCL_BASE p ∨ a = TMG_GCL_BASE_HI p then
      (if s.on (TMG_GCL_STS_PEND p) then s.wr (TMG_PORT_STS_CFG_REJ_STK p) 1 else s.hostWrite a v)
    else
      match arrIdx (TMG_Q_SHARE p 0) 16 0x20 0x20 a with
      | some q =>
        if a = TMG_Q_SHARE p q then s.shareWrite p q v
        else if a = TMG_QSHP_RATE p q then s.qshpWrite p q v
        else s.hostWrite a v
      | none => s.hostWrite a v

/-- ECC and TRK (R354, R387). -/
def State.eccApply (s : State) (a v : Nat) : State :=
  if a = ECC_CFG then s.eccCfgWrite v
  else if a = ECC_INJ_CFG then s.injCfgWrite v
  else if a = ECC_SCRUB_CFG 1 then (s.hostWrite a v).scrubBehind 1
  else s.hostWrite a v

def State.trkApply (s : State) (a v : Nat) : State :=
  if a = TRK_PRIO_MAP then s.prioMapWrite v
  else if a = TRK_CFG then s.trkCfgWrite v
  else s.hostWrite a v

/-- SVN_CH_CMD as a plain write (R360): DISABLE and RESET act; ENABLE and REFRESH, which read host memory, are rows of their
own with what they read. -/
def State.chCmdWrite (s : State) (v : Nat) : State :=
  match getBits v 12 3 with
  | 2 => s.chOp (·.chDisable (v % 1024))
  | 4 => s.chOp (·.chReset (v % 1024))
  | _ => s.chOp id

/-- SVN and the MSI-X table (R360, R380). -/
def State.svnApply (s : State) (a v : Nat) : State :=
  if a = SVN_CH_CMD then s.chCmdWrite v
  else
    match arrIdx (MSIX_ADDR 0) 64 0x10 0x10 a with
    | some n => if a = MSIX_CTL n then s.msixCtlWrite n v else s.hostWrite a v
    | none => s.hostWrite a v

/-- OBS_PS_CFG: sampling that starts starts every cluster's sequence anew (R402, R406). -/
def State.psCfgWrite (s : State) (v : Nat) : State :=
  let old := s.rd OBS_PS_CFG_PERIOD
  let s := s.hostWrite OBS_PS_CFG v
  if old = 0 ∧ s.rd OBS_PS_CFG_PERIOD ≠ 0 then
    { s with
      obs.psCount := []
      obs.psSeq := (List.range 16).foldl (fun (t : Tab Nat) k => t.set 0 k (seqStart (s.reg OBS_PSMP_SEED) (256 + k))) s.obs.psSeq }
  else s

/-- OBS_PSMP_CFGp: a port's sampling that starts starts its sequence anew (R405, R406). -/
def State.psmpCfgWrite (s : State) (p v : Nat) : State :=
  let old := s.rd (OBS_PSMP_CFG_N p)
  let s := s.hostWrite (OBS_PSMP_CFG p) v
  if old = 0 ∧ s.rd (OBS_PSMP_CFG_N p) ≠ 0 then
    { s with obs.psmpSeq := s.obs.psmpSeq.set 0 p (seqStart (s.reg OBS_PSMP_SEED) p) }
  else s

/-- OBS (R395, R400, R402, R405, R409, R413). -/
def State.obsApply (s : State) (a v : Nat) : State :=
  if a = OBS_SNAP_CTL then (if bit v 0 then s.snapReq else s)
  else if a = OBS_PMU_CTL then s.pmuCtlWrite v
  else if a = OBS_EXP_CFG then s.expCfgWrite v
  else if a = OBS_JRN_WPTR ∨ a = OBS_JRN_WPTR + 4 then (if s.on OBS_JRN_CFG_EN then s else s.hostWrite a v)
  else if a = OBS_PS_CFG then s.psCfgWrite v
  else
    match arrIdx (OBS_PSMP_CFG 0) 256 4 4 a with
    | some p => s.psmpCfgWrite p v
    | none => s.hostWrite a v

/-- A host write of the register at `a` with all its effects; GLB_RST_CMD and GLB_PROF_CMD stand with the resets. -/
def State.regApply (s : State) (a v : Nat) : State :=
  match intBlock a with
  | some b => s.intWrite b a v
  | none =>
    match (if 4 ≤ a then intBlock (a - 4) else none) with
    | some b => s.intWrite b a v
    | none =>
      if a < 0x100000 then s.glbApply a v
      else if a < 0x200000 then s.clkApply a v
      else if a < 0x1000000 then s.timApply a v
      else if a < 0x2000000 then s.prtApply a v
      else if a < 0x3000000 then s.bghApply a v
      else if a < 0x4000000 then s.grfApply a v
      else if a < 0x5000000 then s.grvApply a v
      else if a < 0x6000000 then s.rtsApply a v
      else if a < 0x7000000 then s.crnApply a v
      else if a < 0x8000000 then s.tmgApply a v
      else if a < 0x9000000 then s.eccApply a v
      else if a < 0xA000000 then s.svnApply a v
      else if a < 0xB000000 then s.obsApply a v
      else s.trkApply a v

end Sys2Proof.Machine
end

