-- ==== Sys2Proof/Machine/Boot.lean ====
section
/-!
DEFINITION. Resets (R422 to R427, R459, R477), the boot sequence (R428 to R431), the Seedbank image and its check (R432 to
R439), profile switches at run time (R440 to R443), and the plain write of any BAR0 register.
-/
namespace Sys2Proof.Machine

/-! ### The power-on reset (R422, R424, R459) -/

/-- The device as the power-on reset makes it: what lies outside it stays (reference clocks, the test access port, host
memory and the messages that reached it), and the reset inputs as given. -/
def State.porState (s : State) (r : RstSt) : State :=
  { State.reset with
    pending := s.pending, free := s.free, lastRead := s.lastRead, jtag := s.jtag
    svn := { mem := s.svn.mem }, msi := { sent := s.msi.sent }, clk := { refLost := s.clk.refLost }
    rst := { r with tripped := false, pulseEnd := none, pinsTaken := s.jtag.driven || s.jtag.hiz } }

def execPorstNAssert (s : State) : Out := done (s.porState { s.rst with porstLow := true })

def execPorstNRelease (s : State) : Out :=
  done (if s.rst.porstLow then s.porState { s.rst with porstLow := false } else s)

/-- R459: rails are monitored while PORST_N is high. -/
def execRailUndervoltage (s : State) : Out :=
  done (if s.rst.porstLow then s else s.porState { s.rst with railReset := true })

def execRailRecovery (s : State) : Out :=
  done (if s.rst.railReset then s.porState { s.rst with railReset := false } else s)

/-! ### The system reset (R423, R424, R263) -/

/-- Registers that keep their value whole: the TIM block (R324), and the state of parts that the reset leaves alone
(R12): references, locks, junction temperatures. -/
def sysKept (a : Nat) : Bool :=
  (decide (0x200000 ≤ a) && decide (a < 0x1000000)) || a == CLK_REF_STS || (List.range 6).any (fun i => a == CLK_ISL_LOCK i)
    || (decide (GLB_TJ_SNS 0 ≤ a) && decide (a ≤ GLB_TJ_HWM))

/-- A register's value after the reset: its RWS fields keep theirs, the others take their reset values (R12). -/
def sysReg (a v : Nat) : Nat :=
  if sysKept a then v
  else
    let keep := maskOf (fieldsAt a) (fun c => c == .rws)
    (v &&& keep) + ((resetOf a).toNat - ((resetOf a).toNat &&& keep))

/-- The register file after the reset. -/
def sysRegs (r : Tab Word) : Tab Word :=
  r.foldl (fun t e => t.set (resetOf e.1) e.1 (BitVec.ofNat 32 (sysReg e.1 e.2.toNat))) []

/-- R263: whether a stack keeps its content. -/
def State.stackKept (s : State) (c : Nat) : Bool :=
  bit (s.rd RTS_STS_READY) c || ((s.rts c).selfRef && bit (s.rd RTS_STS_KEPT) c)

/-- What error protection holds of the stacks. -/
def EccSt.stacks (e : EccSt) : EccSt :=
  let rs (k : Nat) : Bool := k / 2 ^ 40 == 1 || k / 2 ^ 40 == 2
  { diff := e.diff.filter (fun x => rs x.1), pageDiff := e.pageDiff.filter (fun x => rs x.1), poison := e.poison.filter rs
    symErr := e.symErr.filter (fun x => rs (x.1 / 16)) }

/-- Device time's part (R324); an island that had stopped starts again from the time island's time and rate. -/
def State.timeKept (s : State) : TimeSt :=
  { s.time with isl := (List.range 168).foldl (fun (t : Tab IslClk) i =>
      if s.islStopped i then t.set {} i ⟨s.time.acc, s.time.mono, s.sentRate, none⟩ else t) s.time.isl }

/-- R424: SYSRST_N, the pulse of GLB_RST_CMD, or a thermal trip takes hold; `src` is RST_SRC. -/
def State.sysReset (s : State) (src : Nat) : State :=
  let k0 := s.stackKept 0
  let k1 := s.stackKept 1
  let keepOk := k0 && k1 && s.gv.everReady
  let t : State := {
    pending := s.pending, free := s.free, lastRead := s.lastRead
    time := s.timeKept, rst := s.rst, clk := { refLost := s.clk.refLost, relock := s.clk.relock }, tj := s.tj, jtag := s.jtag
    regs := sysRegs s.regs, rs := s.rs, ecc := s.ecc.stacks, rts0 := { selfRef := k0 }, rts1 := { selfRef := k1 }
    gv := { everReady := s.gv.everReady, quarantine := if keepOk then s.gv.quarantine else [] }
    svn := { mem := s.svn.mem }, msi := { s.msi with due := [] }, pcie := s.pcie
    jrn := { restart := true, knots := s.jrn.knots ++ s.svn.knots.map (fun e => (e.1, e.2.ch)) } }
  let t := (t.wr RTS_STS_KEPT (b2n k0 + 2 * b2n k1)).wr GLB_BOOT_STS_RST_SRC src
  let t := (t.wrB GRV_STS_KEEP_OK keepOk).wr CLK_STS_ALL_LOCKED (s.rd CLK_STS_ALL_LOCKED)
  if keepOk then t.setReg GRV_DIR_STS (s.reg GRV_DIR_STS) else t

/-- R423: SYSRST_N goes low; while the power-on reset holds, only the pin's level is noted. -/
def State.sysrstAssert (s : State) : State :=
  if s.rst.sysrstLow then s
  else
    let s := { s with rst.sysrstLow := true }
    if s.inPor then s else s.sysReset 1

def execSysrstNAssert (s : State) : Out := done s.sysrstAssert

def execSysrstNRelease (s : State) : Out := done { s with rst.sysrstLow := false }

/-- R426: the key starts a pulse of 10 µs (80,000 ticks). -/
def State.rstCmd (s : State) (v : Nat) : State :=
  if v % 65536 = 0x5EED then { s.sysReset 2 with rst.pulseEnd := some (s.time.mono + 80000) } else s

def execGlbRstCmd (v : Word) (s : State) : Out := onBar0 GLB_RST_CMD s (·.rstCmd v.toNat)

def State.pulseDone (s : State) : State :=
  match s.rst.pulseEnd with
  | some e => { s.waitMono e with rst.pulseEnd := none }
  | none => s

def execSysrstPulseEnd (s : State) : Out := done s.pulseDone

/-- R475 to R477: a reading; at 120.0 °C or more the device trips, and stays in reset until PORST_N. -/
def State.tjSensor (s : State) (n temp : Nat) : State :=
  let s := s.tjReading n temp
  if toSigned 10 temp < 480 || s.rst.tripped then s
  else
    let s := if s.inReset then s else s.sysReset 1
    { s with rst.tripped := true }

def execTjSensorReading (n : Fin 16) (temp : BitVec 10) (s : State) : Out :=
  .next (if s.inPor then s else s.tjSensor n.val temp.toNat)

/-! ### The Seedbank image (R432 to R436) -/

/-- One byte into CRC-32C (R436). -/
def crc32cByte (c : Nat) (b : Byte) : Nat :=
  (List.range 8).foldl (fun c _ => if c % 2 = 1 then c / 2 ^^^ 0x82F63B78 else c / 2) (c ^^^ b.toNat)

/-- CRC-32C (R436). -/
def crc32c (bs : List Byte) : Nat := bs.foldl crc32cByte 0xFFFFFFFF ^^^ 0xFFFFFFFF

/-- Whether a header copy is valid (R433). -/
def hdrOk (h : List Byte) : Bool :=
  leAt h 0 4 == 0x4B4E4253 && leAt h 4 2 == 1 && leAt h 124 4 == crc32c (slice0 h 0 124)

/-- The header copy used. -/
def hdrPick (h0 h1 : List Byte) : Option (Nat × List Byte) :=
  if hdrOk h0 then some (0, h0) else if hdrOk h1 then some (1, h1) else none

/-- A record of a profile: its type and body. -/
abbrev ProfRec := Nat × List Byte

/-- The `n` records that fill the bytes exactly (R434). -/
def profRecs : Nat → List Byte → Option (List ProfRec)
  | 0, bs => if bs.isEmpty then some [] else none
  | n + 1, bs =>
    let len := leAt bs 4 4
    if bs.length < 8 + len ∨ len % 8 ≠ 0 then none
    else (profRecs n (bs.drop (8 + len))).map ((leAt bs 0 1, slice bs 8 len) :: ·)

/-- The writes of a REG record. -/
def regPairs (body : List Byte) : List (Nat × Nat) :=
  (List.range (body.length / 8)).map (fun i => (leAt body (8 * i) 4, leAt body (8 * i + 4) 4))

/-- TABLE, INDEX and COUNT of a TBL record, and its entries at `w` bytes each. -/
def tblId (b : List Byte) : Nat := leAt b 0 1
def tblFirst (b : List Byte) : Nat := leAt b 4 4
def tblNum (b : List Byte) : Nat := leAt b 8 4
def tblEntries (w : Nat) (b : List Byte) : List Nat := (List.range (tblNum b)).map (fun i => leAt b (16 + w * i) w)

/-- WIDTH after the REG records so far (R106). -/
def widthAfter (w : Nat) (r : ProfRec) : Nat :=
  if r.1 ≠ 1 then w
  else (regPairs r.2).foldl (fun w x => if x.1 = GRF_RS_CFG then getBits x.2 GRF_RS_CFG_WIDTH.lsb GRF_RS_CFG_WIDTH.w else w) w

/-- Each record with the WIDTH that the records before it have set. -/
def withWidth : Nat → List ProfRec → List (Nat × ProfRec)
  | _, [] => []
  | w, r :: l => (w, r) :: withWidth (widthAfter w r) l

/-! ### Twig images (R249) -/

def imgVer (b : List Byte) : Nat := leAt b 4 4
def imgWords (b : List Byte) : Nat := leAt b 8 2
def imgRouts (b : List Byte) : Nat := leAt b 10 2
def imgAddr (b : List Byte) : Nat := leAt b 12 2
def imgSize (b : List Byte) : Nat := 32 + 20 * imgRouts b + 24 * imgWords b

/-- Routine records: number and entry. -/
def imgRoutines (b : List Byte) : List (Nat × Nat) :=
  (List.range (imgRouts b)).map (fun i => (leAt b (32 + 20 * i) 2, leAt b (36 + 20 * i) 16))

/-- Microwords: address and word. -/
def imgMicro (b : List Byte) : List (Nat × Nat) :=
  (List.range (imgWords b)).map (fun i => (imgAddr b + i, leAt b (32 + 20 * imgRouts b + 24 * i) 24))

/-- What is wrong with an image: 1 MAGIC, 2 sizes, 3 CRC; 0 nothing. -/
def imgBad (b : List Byte) : Nat :=
  if leAt b 0 4 ≠ 0x31475754 then 1
  else if 16384 < imgWords b ∨ 4096 < imgRouts b ∨ 16384 < imgAddr b + imgWords b ∨ b.length < imgSize b then 2
  else if leAt b 16 4 ≠ crc32c (slice b 32 (imgSize b - 32)) then 3
  else 0

/-! ### The check (R437, R439) -/

/-- Whether a REG record's writes are all of assigned, aligned registers outside the GLB and SVN blocks. -/
def regRecOk (b : List Byte) : Bool :=
  (regPairs b).all (fun x => x.1 % 4 == 0 && !(fieldsAt x.1).isEmpty && decide (0x100000 ≤ x.1)
    && !(decide (0x9000000 ≤ x.1) && decide (x.1 < 0xA000000)))

/-- Whether a TBL record names a table and a range in it, and holds its entries. -/
def tblRecOk (w : Nat) (b : List Byte) : Bool :=
  let id := tblId b
  tblCount w id != 0 && id != 0x40 && id != 0x50 && id != 0x51 && decide (1 ≤ tblNum b)
    && decide (tblFirst b + tblNum b ≤ tblCount w id) && decide (16 + tblNum b * tblBytes w id ≤ b.length)

/-- The structure of the records. -/
def recsOk (w : Nat) (l : List ProfRec) : Bool :=
  l.all (fun r => decide (1 ≤ r.1) && decide (r.1 ≤ 3)) && decide ((l.filter (fun r => r.1 == 3)).length ≤ 1)
    && l.all (fun r => r.1 != 1 || regRecOk r.2) && (withWidth w l).all (fun x => x.2.1 != 2 || tblRecOk x.1 x.2.2)

/-- Entries of a table that is not generation-bound written from `i` on, as by TBL_WRITE; false when one is refused. -/
def State.tblRun (s : State) (id : Nat) : Nat → List Nat → Bool × State
  | _, [] => (true, s)
  | i, e :: l =>
    match s.tblPut id i e with
    | some (0, t) => State.tblRun t id (i + 1) l
    | _ => (false, s)

/-- Every TBL record that is not generation-bound written in turn. -/
def State.tblRecs (s : State) : List ProfRec → Bool × State
  | [] => (true, s)
  | r :: l =>
    if r.1 ≠ 2 || tblGen (tblId r.2) then s.tblRecs l
    else
      let (ok, t) := s.tblRun (tblId r.2) (tblFirst r.2) (tblEntries (tblBytes 0 (tblId r.2)) r.2)
      if ok then t.tblRecs l else (false, t)

/-- Whether every entry would be taken: the tables' own refusals, and those of routine entries (R246). -/
def State.entriesOk (s : State) (l : List ProfRec) : Bool :=
  (s.tblRecs l).1 && l.all (fun r => r.1 != 3 || imgBad r.2 != 0
    || (imgRoutines r.2).all (fun x => decide (x.1 < 4096) && !rtBad x.2))

/-- The bad image of the records, if one is bad. -/
def badImg (l : List ProfRec) : Nat := ((l.filter (fun r => r.1 == 3)).map (fun r => imgBad r.2)).foldl max 0

/-- What a check finds: the first cause that applies (0: none), the profile's VERSION and its records, the copy used. -/
structure ProfCheck where
  cause : Nat := 0
  copy : Nat := 0
  ver : Nat := 0
  recs : List ProfRec := []
  deriving DecidableEq, Repr

/-- R437: the check of profile `n`. -/
def State.profCheck (s : State) (n : Nat) (h0 h1 prof : List Byte) : ProfCheck :=
  match hdrPick h0 h1 with
  | none => { cause := 1 }
  | some (cp, h) =>
    let o := 16 + 16 * n
    let len := leAt h (o + 4) 4
    let p := slice0 prof 0 len
    if !bit (leAt h (o + 12) 1) 0 || leAt h o 4 % 4096 != 0 || len % 8 != 0 || decide (len < 32) || decide (16777216 < len) then
      { cause := 2, copy := cp }
    else if leAt p 0 4 != 0x464F5250 || leAt p 4 1 % 4 != n || leAt p 8 4 != len || leAt p 12 4 != leAt h (o + 8) 4 then
      { cause := 3, copy := cp }
    else if leAt p 20 4 != crc32c (p.drop 32) then { cause := 4, copy := cp }
    else
      match profRecs (leAt p 16 4) (p.drop 32) with
      | none => { cause := 5, copy := cp }
      | some l =>
        if !recsOk (s.rd GRF_RS_CFG_WIDTH) l then { cause := 5, copy := cp }
        else if !s.entriesOk l then { cause := 6, copy := cp }
        else if badImg l ≠ 0 then { cause := 7, copy := cp }
        else { copy := cp, ver := leAt p 12 4, recs := l }

/-- R249: a refused image is reported: LOAD_ERR and its journal event. -/
def State.imgRefused (s : State) (c : ProfCheck) (h0 h1 prof : List Byte) (n : Nat) : State :=
  if c.cause ≠ 7 then s
  else
    let why := match hdrPick h0 h1 with
      | some (_, h) =>
        let p := slice0 prof 0 (leAt h (20 + 16 * n) 4)
        ((profRecs (leAt p 16 4) (p.drop 32)).map badImg).getD 0
      | none => 0
    (s.raise TWG_INT_LOAD_ERR).journal islMgmt 0x0504 0 (natLe 1 why)

/-! ### Application (R430, R435) -/

/-- One write of a REG record; `cold`: the boot after PORST_N, the only load that sets RWS fields and the TIM block
(R430). WIDTH is taken (R106). -/
def State.profReg (s : State) (cold : Bool) (a v : Nat) : State :=
  let rws := maskOf (fieldsAt a) (fun c => c == .rws)
  let all := maskOf (fieldsAt a) (fun _ => true)
  if !cold && ((decide (0x200000 ≤ a) && decide (a < 0x1000000)) || (rws != 0 && rws == all)) then s
  else
    let v := if cold then v else (v - (v &&& rws)) + (s.reg a &&& rws)
    if a = GRF_RS_CFG then s.hostWrite a v else s.regApply a v

def State.profRegs (s : State) (cold : Bool) (b : List Byte) : State :=
  (regPairs b).foldl (fun s x => s.profReg cold x.1 x.2) s

/-- The entries of a generation-bound TBL record, as stored: index and value. -/
def State.genEntries (s : State) (b : List Byte) : List Staged :=
  let w := s.rd GRF_RS_CFG_WIDTH
  let id := tblId b
  (tblEntries (tblBytes w id) b).zipIdx.map (fun x =>
    let v := x.1 &&& tblWritable w id
    ⟨id, tblFirst b + x.2, if id = 0x20 then ruleNorm w v else v⟩)

/-- A TBL record: a generation-bound table in both copies (R118), another as by TBL_WRITE. -/
def State.profTbl (s : State) (b : List Byte) : State :=
  let id := tblId b
  if tblGen id then
    (s.genEntries b).foldl (fun s e => (s.entWrite id 0 e.idx e.val).entWrite id 1 e.idx e.val) s
  else (s.tblRun id (tblFirst b) (tblEntries (tblBytes 0 id) b)).2

/-- The microwords of an image, then its routine records in the staging copy (R249). -/
def State.imgLoad (s : State) (b : List Byte) : State :=
  let s := (imgMicro b).foldl (fun s x => s.entWrite 0x50 0 x.1 (x.2 &&& tblWritable 0 0x50)) s
  (imgRoutines b).foldl (fun s x => s.entWrite 0x51 ((s.rd TWG_EPOCH_CUR + 1) % 2) x.1 (x.2 &&& tblWritable 0 0x51)) s

/-- A TWIG record: loaded and patched in, with nothing running that could hold the patch back. -/
def State.profTwig (s : State) (b : List Byte) : State :=
  (((s.imgLoad b).patchStart (imgVer b) none).patchFlip).patchRetire.patchSyncDone

/-- R435: the records applied in order. -/
def State.profApply (s : State) (cold : Bool) (l : List ProfRec) : State :=
  l.foldl (fun s r =>
    match r.1 with
    | 1 => s.profRegs cold r.2
    | 2 => s.profTbl r.2
    | _ => s.profTwig r.2) s

/-! ### The boot sequence (R428, R438, R439) -/

/-- Step 1: every island's PLL has locked (R448). -/
def State.bootLock (s : State) : State :=
  (List.range 169).foldl (fun s i => s.setLock i true) s.showRefs

/-- Whether every reference that a PLL follows is present: SYSCLK, PCIE_REFCLK, and TCLK_IN while TCLK_SEL selects it. -/
def State.refsHere (s : State) : Bool :=
  !bit s.clk.refLost 0 && !bit s.clk.refLost 1 && !(bit s.clk.refLost 2 && s.on CLK_CFG_TCLK_SEL)

/-- R438: the profile chosen, recorded; NEXT is used once. -/
def State.bootChoose (s : State) (psel : Nat) : State :=
  let nx := s.on GLB_PROF_SEL_NEXT_V
  let s := ((s.wr GLB_BOOT_STS_PROF (if nx then s.rd GLB_PROF_SEL_NEXT else psel)).wrB GLB_BOOT_STS_SEL_SRC nx)
  (s.wr GLB_PROF_SEL_NEXT_V 0).wr GLB_PROF_SEL_PSEL psel

/-- Steps 3 and 4: the profile checked, then applied or given up. The bus carries nothing yet. -/
def State.bootLoad (s : State) (h0 h1 prof : List Byte) : State :=
  let n := s.rd GLB_BOOT_STS_PROF
  let c := s.profCheck n h0 h1 prof
  let s := (s.wr GLB_BOOT_STS_HDR_COPY c.copy).wr GLB_BOOT_STS_CAUSE c.cause
  if c.cause = 0 then
    let t := s.profApply (s.rd GLB_BOOT_STS_RST_SRC == 0) c.recs
    ({ t with trk := s.trk } : State).setReg GLB_BOOT_VER c.ver |>.wr GLB_BOOT_STS_PROF_FALLBACK 0
  else
    (((s.imgRefused c h0 h1 prof n).wr GLB_BOOT_STS_PROF_FALLBACK 1).setReg GLB_BOOT_VER 0).raise GLB_BOOT_INT_FALLBACK

/-- R428: the boot sequence, once the reset is released and the PLLs can lock. -/
def State.boot (s : State) (psel : Nat) (h0 h1 prof : List Byte) : State :=
  if s.inReset || !s.on GLB_BOOT_STS_BUSY || !s.refsHere then s
  else
    let s := (s.bootLock.bootChoose psel).bootLoad h0 h1 prof
    ((s.wr GLB_BOOT_STS_DONE 1).wr GLB_BOOT_STS_BUSY 0).raise GLB_BOOT_INT_DONE

def execBootSequence (psel : BitVec 2) (h0 h1 prof : List Byte) (s : State) : Out := done (s.boot psel.toNat h0 h1 prof)

/-! ### Switching profile at run time (R440 to R443) -/

/-- A switch ends: RESULT, IDLE, and the interrupt. -/
def State.swEnd (s : State) (res : Nat) : State :=
  let s := (({ s with sw := none } : State).wr GLB_PROF_STS_RESULT res).wr GLB_PROF_STS_STATE 0
  if res = 0 then s.raise GLB_BOOT_INT_SWITCH_DONE else s.raise GLB_BOOT_INT_SWITCH_FAIL

/-- A switch succeeds: the profile and its version are shown (R443). -/
def State.swDone (s : State) (n ver : Nat) : State :=
  ((s.wr GLB_BOOT_STS_PROF n).setReg GLB_BOOT_VER ver).swEnd 0

/-- R440: a write of GLB_PROF_CMD outside IDLE is ignored and flagged; otherwise the switch starts: BUSY, then the check. -/
def State.swStart (s : State) (n : Nat) (h0 h1 prof : List Byte) (go : ProfCheck → State → State) : State :=
  if s.rd GLB_PROF_STS_STATE ≠ 0 then s.wr GLB_PROF_STS_REJ_STK 1
  else if s.graftSt ≠ 0 || s.patchBusy then s.swEnd 11
  else
    let c := s.profCheck n h0 h1 prof
    if c.cause = 0 then go c s else (s.imgRefused c h0 h1 prof n).swEnd c.cause

/-- R441: whether a REG write would change a field that only an idle device takes. -/
def State.loadOnly (s : State) (a v : Nat) : Bool :=
  ((List.range 32).any (fun g => a == PRT_GRP_CFG g || (List.range 4).any (fun q => a == CRN_POOL_CFG g q)) || a == GRF_RS_CFG)
    && hostWritten (fieldsAt a) (s.reg a) v != s.reg a

/-- The further causes of a HITLESS switch (R441). -/
def State.hitlessCause (s : State) (l : List ProfRec) : Nat :=
  if l.any (fun r => r.1 == 1 && (regPairs r.2).any (fun x => s.loadOnly x.1 x.2)) then 10
  else if l.any (fun r => r.1 == 3 && (imgMicro r.2).any (fun x => s.inExtent x.1)) then 9
  else if s.logSlots < (l.filter (fun r => r.1 == 2 && tblGen (tblId r.2))).foldl (fun n r => n + tblNum r.2) 0 then 8
  else 0

/-- R441: the switch proper: registers and tables, the staged entries (HOST transfers, R383), the image, GRAFT and PATCH with the profile's
VERSION. -/
def State.hitless (s : State) (n : Nat) (prof : List Byte) (c : ProfCheck) : State :=
  let s := c.recs.foldl (fun s r =>
    match r.1 with
    | 1 => s.profRegs false r.2
    | 2 => if tblGen (tblId r.2) then s else s.profTbl r.2
    | _ => s) s
  let s := (c.recs.filter (fun r => r.1 == 2 && tblGen (tblId r.2))).foldl (fun s r =>
    (s.logAppend (s.genEntries r.2)).trunkAsk trkHost (entryPhases (tblBytes (s.rd GRF_RS_CFG_WIDTH) (tblId r.2))) (s.genEntries r.2).length) s
  let s := (c.recs.filter (fun r => r.1 == 3)).foldl (fun s r => s.imgLoad r.2) s
  let s := { s with sw := some { bytes := prof, prof := n, drain := false } }
  ((s.wr GLB_PROF_STS_STATE 4).graftStart none 0).patchStart c.ver none

def execProfSwitchHitless (p : BitVec 2) (h0 h1 prof : List Byte) (s : State) : Out :=
  onBar0 GLB_PROF_CMD s (·.swStart p.toNat h0 h1 prof (fun c s =>
    let x := s.hitlessCause c.recs
    if x = 0 then s.hitless p.toNat prof c else s.swEnd x))

/-- R441: both have flipped. -/
def State.switchDone (s : State) : State :=
  match s.sw with
  | some w => if !w.drain && w.graftDone && w.patchDone then s.swDone w.prof (leAt w.bytes 12 4) else s
  | none => s

def execProfSwitchDone (s : State) : Out := onIsl islMgmt s (·.switchDone)

/-- R442: every tag is withheld until the boughs are empty, at most DRAIN_TMO ms. -/
def State.drainStart (s : State) (n : Nat) (prof : List Byte) : State :=
  let t := max 1 (s.rd GLB_PROF_CFG_DRAIN_TMO) * 8000000
  ({ s with sw := some { bytes := prof, prof := n, drain := true, until_ := s.time.mono + t } } : State).wr GLB_PROF_STS_STATE 2

def execProfSwitchDrain (p : BitVec 2) (h0 h1 prof : List Byte) (s : State) : Out :=
  onBar0 GLB_PROF_CMD s (·.swStart p.toNat h0 h1 prof (fun _ s => s.drainStart p.toNat prof))

/-- The records of a profile that has passed its check. -/
def swRecs (prof : List Byte) : List ProfRec :=
  (profRecs (leAt prof 16 4) (slice prof 32 (leAt prof 8 4 - 32))).getD []

/-- The lane groups whose MODE a profile changes. -/
def State.modeGroups (s : State) (l : List ProfRec) : List Nat :=
  (List.range 32).filter (fun g => l.any (fun r => r.1 == 1
    && (regPairs r.2).any (fun x => x.1 == PRT_GRP_CFG g && x.2 % 8 != s.rd (PRT_GRP_CFG_MODE g))))

/-- R442: V = 0 in every rule entry of both copies: the words of all of them are written, with new check bits. The other
bits, whose places WIDTH decides, are written 0 too (DESIGN CHOICE, assumption 103). -/
def State.rulesCleared (s : State) : State :=
  let rule (k : Nat) : Bool := k / 2 ^ 40 == 7 && (tblOfWord 7 (k % 2 ^ 40)).1 / 2 % 256 == 0x20
  { s with tbl := s.tbl.filter (fun e => e.1 / 2 ^ 33 != 0x20), ecc.diff := s.ecc.diff.filter (fun e => !rule e.1)
           ecc.repairDue := s.ecc.repairDue.filter (fun e => e.1 / 2 % 256 != 0x20) }

/-- R442: the records applied while the boughs are empty. -/
def State.drainApply (s : State) (w : ProfSw) : State :=
  let l := swRecs w.bytes
  let ports := (s.modeGroups l).flatMap (fun g => (List.range 8).map (8 * g + ·))
  let s := ports.foldl (fun s p => (s.portDisable p (s.reg (PRT_CFG p))).portDrained p) s
  let s := if l.foldl widthAfter (s.rd GRF_RS_CFG_WIDTH) = s.rd GRF_RS_CFG_WIDTH then s
    else s.rulesCleared
  (s.profApply false l).swDone w.prof (leAt w.bytes 12 4)

/-- R442: IN_USE of every bough is 0. -/
def State.drainDone (s : State) : State :=
  match s.sw with
  | some w =>
    if w.drain && decide (s.time.mono ≤ w.until_) && (List.range 32).all (fun b => s.rd (BGH_TAG_STS_IN_USE b) == 0) then
      s.drainApply w
    else s
  | none => s

def execProfDrainComplete (s : State) : Out := onIsl islMgmt s (·.drainDone)

/-- R442: the drain is not complete in time; the tags are made available again. -/
def State.drainTimeout (s : State) : State :=
  match s.sw with
  | some w => if w.drain then (s.waitMono w.until_).swEnd 12 else s
  | none => s

def execProfDrainTimeout (s : State) : Out := onIsl islMgmt s (·.drainTimeout)

/-! ### Any BAR0 register -/

/-- GLB_PROF_CMD as a plain write (R440): outside IDLE it is flagged; in IDLE a switch is a row of its own, with what it reads
from the flash. -/
def State.profCmdWrite (s : State) (v : Nat) : State :=
  if bit v 3 && s.rd GLB_PROF_STS_STATE != 0 then s.wr GLB_PROF_STS_REJ_STK 1 else s

/-- A write of the register at `a`, with every effect its chapter gives it. -/
def State.regWrite (s : State) (a v : Nat) : State :=
  if a % 4 ≠ 0 then s.badAccess a true
  else
    s.barWrite a (fun s =>
      if a = GLB_RST_CMD then s.rstCmd v else if a = GLB_PROF_CMD then s.profCmdWrite v else s.regApply a v)

def execRegWrite (off : BitVec 28) (v : Word) (s : State) : Out := done (s.regWrite off.toNat v.toNat)

/-! ### Output pins (R337, R339, R468, R476, R477) -/

/-- What an output pin shows. -/
inductive PinLevel where
  | low | high | released
  deriving DecidableEq, Repr

/-- Whether the device drives its timing pins: not while the power-on reset holds it, nor until the boot after it. -/
def State.pinsDriven (s : State) : Bool :=
  !s.inPor && !(s.on GLB_BOOT_STS_BUSY && s.rd GLB_BOOT_STS_RST_SRC == 0)

/-- PPS_OUT and TTRIGn: low until they are driven (R468); high while a pulse lasts. -/
def State.ppsPin (s : State) : PinLevel := if s.pinsDriven && s.ppsHigh then .high else .low
def State.ttrigPin (s : State) (n : Nat) : PinLevel := if s.pinsDriven && s.ttrigHigh n then .high else .low

/-- THERM_ALERT_N and THERM_TRIP_N: low or released. -/
def State.alertPin (s : State) : PinLevel := if s.tj.alertLow then .low else .released
def State.tripPin (s : State) : PinLevel := if s.rst.tripped then .low else .released

end Sys2Proof.Machine
end

