-- ==== Sys2Proof/Machine/Dispatch.lean ====
section
/-!
DEFINITION. Every command to its meaning, one arm per constructor.
-/
namespace Sys2Proof.Machine

def exec (i : Instr) (s : State) : Host.Outcome State Fault Refusal :=
  match i with
  | .glbRstCmd v => Sys2Proof.Machine.execGlbRstCmd v s
  | .bootSequence psel h0 h1 prof => Sys2Proof.Machine.execBootSequence psel h0 h1 prof s
  | .profSwitchHitless p h0 h1 prof => Sys2Proof.Machine.execProfSwitchHitless p h0 h1 prof s
  | .profSwitchDrain p h0 h1 prof => Sys2Proof.Machine.execProfSwitchDrain p h0 h1 prof s
  | .tjSensorReading n temp => Sys2Proof.Machine.execTjSensorReading n temp s
  | .snsFail n => Sys2Proof.Machine.execSnsFail n s
  | .tjHwmClr v => Sys2Proof.Machine.execTjHwmClr v s
  | .refClockLoss ref => Sys2Proof.Machine.execRefClockLoss ref s
  | .islandUnlock isl => Sys2Proof.Machine.execIslandUnlock isl s
  | .tclkSelWrite sel => Sys2Proof.Machine.execTclkSelWrite sel s
  | .clkMeasStart isl => Sys2Proof.Machine.execClkMeasStart isl s
  | .bar0BadAccess off write => Sys2Proof.Machine.execBar0BadAccess off write s
  | .bar0AccessTimeout off write => Sys2Proof.Machine.execBar0AccessTimeout off write s
  | .regWrite off v => Sys2Proof.Machine.execRegWrite off v s
  | .jtagExtest cells => Sys2Proof.Machine.execJtagExtest cells s
  | .jtagSamplePreload cells => Sys2Proof.Machine.execJtagSamplePreload cells s
  | .jtagExtestPulse cells => Sys2Proof.Machine.execJtagExtestPulse cells s
  | .jtagExtestTrain cells => Sys2Proof.Machine.execJtagExtestTrain cells s
  | .jtagBypass code => Sys2Proof.Machine.execJtagBypass code s
  | .modeWrite g mode => Sys2Proof.Machine.execModeWrite g mode s
  | .modeActive g => Sys2Proof.Machine.execModeActive g s
  | .portEnable p v => Sys2Proof.Machine.execPortEnable p v s
  | .portDisable p v => Sys2Proof.Machine.execPortDisable p v s
  | .portDrained p => Sys2Proof.Machine.execPortDrained p s
  | .anDone p agreed => Sys2Proof.Machine.execAnDone p agreed s
  | .anFail p => Sys2Proof.Machine.execAnFail p s
  | .ltDone p => Sys2Proof.Machine.execLtDone p s
  | .ltFail p => Sys2Proof.Machine.execLtFail p s
  | .amMatch p ln pos mk => Sys2Proof.Machine.execAmMatch p ln pos mk s
  | .amCandCheck p ln pos mk => Sys2Proof.Machine.execAmCandCheck p ln pos mk s
  | .amLockCheck p ln valid => Sys2Proof.Machine.execAmLockCheck p ln valid s
  | .linkUp p => Sys2Proof.Machine.execLinkUp p s
  | .linkDown p los lf rf => Sys2Proof.Machine.execLinkDown p los lf rf s
  | .fecCodeword p ucw syms => Sys2Proof.Machine.execFecCodeword p ucw syms s
  | .secondEnd p => Sys2Proof.Machine.execSecondEnd p s
  | .lldpFrame b t => Sys2Proof.Machine.execLldpFrame b t s
  | .traceTimeout p => Sys2Proof.Machine.execTraceTimeout p s
  | .traceExpWrite p j v => Sys2Proof.Machine.execTraceExpWrite p j v s
  | .txeqWrite p v => Sys2Proof.Machine.execTxeqWrite p v s
  | .frameSfd p t bytes => Sys2Proof.Machine.execFrameSfd p t bytes s
  | .bufferAlloc p => Sys2Proof.Machine.execBufferAlloc p s
  | .rxFifoOvf p got => Sys2Proof.Machine.execRxFifoOvf p got s
  | .bufferOverrun p => Sys2Proof.Machine.execBufferOverrun p s
  | .frameEnd p codeErr => Sys2Proof.Machine.execFrameEnd p codeErr s
  | .parseWindowRelease b t => Sys2Proof.Machine.execParseWindowRelease b t s
  | .fragTimeout fs way => Sys2Proof.Machine.execFragTimeout fs way s
  | .fragTableDisable v => Sys2Proof.Machine.execFragTableDisable v s
  | .decision b t => Sys2Proof.Machine.execDecision b t s
  | .hotBlockWriteback b => Sys2Proof.Machine.execHotBlockWriteback b s
  | .frameEndCorrection b => Sys2Proof.Machine.execFrameEndCorrection b s
  | .find g e => Sys2Proof.Machine.execFind g e s
  | .dirAltStep g e => Sys2Proof.Machine.execDirAltStep g e s
  | .dirPrimaryStep g e => Sys2Proof.Machine.execDirPrimaryStep g e s
  | .missTokenRefill c => Sys2Proof.Machine.execMissTokenRefill c s
  | .findReply g e => Sys2Proof.Machine.execFindReply g e s
  | .lineInstall g e => Sys2Proof.Machine.execLineInstall g e s
  | .parkRelease g => Sys2Proof.Machine.execParkRelease g s
  | .parkTimeout b t => Sys2Proof.Machine.execParkTimeout b t s
  | .joinServe b t => Sys2Proof.Machine.execJoinServe b t s
  | .parkReturn b t => Sys2Proof.Machine.execParkReturn b t s
  | .flowSweepStep c => Sys2Proof.Machine.execFlowSweepStep c s
  | .groveEnable keep flush => Sys2Proof.Machine.execGroveEnable keep flush s
  | .groveFlush v => Sys2Proof.Machine.execGroveFlush v s
  | .recircPass b => Sys2Proof.Machine.execRecircPass b s
  | .twigDispatch b t => Sys2Proof.Machine.execTwigDispatch b t s
  | .twigColdRead b t => Sys2Proof.Machine.execTwigColdRead b t s
  | .twigItemStart k e => Sys2Proof.Machine.execTwigItemStart k e s
  | .twigMicroword k e => Sys2Proof.Machine.execTwigMicroword k e s
  | .aluNop k e isA dst s1 s2 imm => Sys2Proof.Machine.execAluNop k e isA dst s1 s2 imm s
  | .aluAdd k e isA dst s1 s2 imm => Sys2Proof.Machine.execAluAdd k e isA dst s1 s2 imm s
  | .aluSub k e isA dst s1 s2 imm => Sys2Proof.Machine.execAluSub k e isA dst s1 s2 imm s
  | .aluAnd k e isA dst s1 s2 imm => Sys2Proof.Machine.execAluAnd k e isA dst s1 s2 imm s
  | .aluOr k e isA dst s1 s2 imm => Sys2Proof.Machine.execAluOr k e isA dst s1 s2 imm s
  | .aluXor k e isA dst s1 s2 imm => Sys2Proof.Machine.execAluXor k e isA dst s1 s2 imm s
  | .aluShl k e isA dst s1 s2 imm => Sys2Proof.Machine.execAluShl k e isA dst s1 s2 imm s
  | .aluShr k e isA dst s1 s2 imm => Sys2Proof.Machine.execAluShr k e isA dst s1 s2 imm s
  | .aluSar k e isA dst s1 s2 imm => Sys2Proof.Machine.execAluSar k e isA dst s1 s2 imm s
  | .aluMov k e isA dst s1 s2 imm => Sys2Proof.Machine.execAluMov k e isA dst s1 s2 imm s
  | .aluCmp k e isA dst s1 s2 imm => Sys2Proof.Machine.execAluCmp k e isA dst s1 s2 imm s
  | .aluTst k e isA dst s1 s2 imm => Sys2Proof.Machine.execAluTst k e isA dst s1 s2 imm s
  | .aluMinu k e isA dst s1 s2 imm => Sys2Proof.Machine.execAluMinu k e isA dst s1 s2 imm s
  | .aluMaxu k e isA dst s1 s2 imm => Sys2Proof.Machine.execAluMaxu k e isA dst s1 s2 imm s
  | .aluExt k e isA dst s1 s2 imm => Sys2Proof.Machine.execAluExt k e isA dst s1 s2 imm s
  | .aluCsum16 k e isA dst s1 s2 imm => Sys2Proof.Machine.execAluCsum16 k e isA dst s1 s2 imm s
  | .aluBswap k e isA dst s1 s2 imm => Sys2Proof.Machine.execAluBswap k e isA dst s1 s2 imm s
  | .aluMul32 k e isA dst s1 s2 imm => Sys2Proof.Machine.execAluMul32 k e isA dst s1 s2 imm s
  | .memNop k e reg off w => Sys2Proof.Machine.execMemNop k e reg off w s
  | .memLd k e reg off w => Sys2Proof.Machine.execMemLd k e reg off w s
  | .memLdn k e reg off w => Sys2Proof.Machine.execMemLdn k e reg off w s
  | .memSt k e src off w => Sys2Proof.Machine.execMemSt k e src off w s
  | .memStn k e src off w => Sys2Proof.Machine.execMemStn k e src off w s
  | .memLdi k e reg off w => Sys2Proof.Machine.execMemLdi k e reg off w s
  | .memLdni k e reg off w => Sys2Proof.Machine.execMemLdni k e reg off w s
  | .memSti k e src off w => Sys2Proof.Machine.execMemSti k e src off w s
  | .memStni k e src off w => Sys2Proof.Machine.execMemStni k e src off w s
  | .seqNext k e => Sys2Proof.Machine.execSeqNext k e s
  | .seqJmp k e target => Sys2Proof.Machine.execSeqJmp k e target s
  | .seqBr k e cond target => Sys2Proof.Machine.execSeqBr k e cond target s
  | .seqCall k e target => Sys2Proof.Machine.execSeqCall k e target s
  | .seqRet k e => Sys2Proof.Machine.execSeqRet k e s
  | .seqSwitch k e target src1 imm => Sys2Proof.Machine.execSeqSwitch k e target src1 imm s
  | .seqEnd k e => Sys2Proof.Machine.execSeqEnd k e s
  | .commitNone k e => Sys2Proof.Machine.execCommitNone k e s
  | .commitBark k e => Sys2Proof.Machine.execCommitBark k e s
  | .commitHot k e => Sys2Proof.Machine.execCommitHot k e s
  | .commitCold k e => Sys2Proof.Machine.execCommitCold k e s
  | .commitHdr k e => Sys2Proof.Machine.execCommitHdr k e s
  | .commitAll k e => Sys2Proof.Machine.execCommitAll k e s
  | .commitDrop k e => Sys2Proof.Machine.execCommitDrop k e s
  | .twigItemComplete b t => Sys2Proof.Machine.execTwigItemComplete b t s
  | .twigItemTimeout b t => Sys2Proof.Machine.execTwigItemTimeout b t s
  | .ordSlotReady b t => Sys2Proof.Machine.execOrdSlotReady b t s
  | .ordHoldExpire b t => Sys2Proof.Machine.execOrdHoldExpire b t s
  | .twigHaltReq v => Sys2Proof.Machine.execTwigHaltReq v s
  | .twigClusterHalted k => Sys2Proof.Machine.execTwigClusterHalted k s
  | .controlStoreRepair k => Sys2Proof.Machine.execControlStoreRepair k s
  | .genFlip b => Sys2Proof.Machine.execGenFlip b s
  | .grfLogCfgWrite v => Sys2Proof.Machine.execGrfLogCfgWrite v s
  | .grfRsCfgWrite v => Sys2Proof.Machine.execGrfRsCfgWrite v s
  | .learnMerge b => Sys2Proof.Machine.execLearnMerge b s
  | .trkPrioMapWrite v => Sys2Proof.Machine.execTrkPrioMapWrite v s
  | .waitClr v => Sys2Proof.Machine.execWaitClr v s
  | .rootStoreEnable v => Sys2Proof.Machine.execRootStoreEnable v s
  | .rootStoreReady c => Sys2Proof.Machine.execRootStoreReady c s
  | .rtsMapWrite j v => Sys2Proof.Machine.execRtsMapWrite j v s
  | .rtsBwCfgWrite n v => Sys2Proof.Machine.execRtsBwCfgWrite n v s
  | .rtsRequest tag cls a n data => Sys2Proof.Machine.execRtsRequest tag cls a n data s
  | .rtsAccess c pc => Sys2Proof.Machine.execRtsAccess c pc s
  | .rtsAccessComplete c tag dieCe => Sys2Proof.Machine.execRtsAccessComplete c tag dieCe s
  | .pageIdleClose c k => Sys2Proof.Machine.execPageIdleClose c k s
  | .hbmRefresh c k rfm => Sys2Proof.Machine.execHbmRefresh c k rfm s
  | .hbmTempRead c t => Sys2Proof.Machine.execHbmTempRead c t s
  | .retrain c pc ok => Sys2Proof.Machine.execRetrain c pc ok s
  | .dequeueOrder b => Sys2Proof.Machine.execDequeueOrder b s
  | .presenceNotice n => Sys2Proof.Machine.execPresenceNotice n s
  | .transmitOrder n => Sys2Proof.Machine.execTransmitOrder n s
  | .txComplete p => Sys2Proof.Machine.execTxComplete p s
  | .ctUnderrun n got => Sys2Proof.Machine.execCtUnderrun n got s
  | .cellUe mem b t n got word syn => Sys2Proof.Machine.execCellUe mem b t n got word syn s
  | .bufferFree b u q t => Sys2Proof.Machine.execBufferFree b u q t s
  | .xpStale n => Sys2Proof.Machine.execXpStale n s
  | .bufStaleSweep b => Sys2Proof.Machine.execBufStaleSweep b s
  | .shareWinEnd b t c => Sys2Proof.Machine.execShareWinEnd b t c s
  | .crnPoolCfgWrite b q v => Sys2Proof.Machine.execCrnPoolCfgWrite b q v s
  | .admission b t => Sys2Proof.Machine.execAdmission b t s
  | .schedulerSelect p => Sys2Proof.Machine.execSchedulerSelect p s
  | .headAgeCheck p q => Sys2Proof.Machine.execHeadAgeCheck p q s
  | .shaperRefill t => Sys2Proof.Machine.execShaperRefill t s
  | .qShareWrite p q v => Sys2Proof.Machine.execQShareWrite p q v s
  | .gclActReq p v => Sys2Proof.Machine.execGclActReq p v s
  | .gclActivate p => Sys2Proof.Machine.execGclActivate p s
  | .timFreqWrite v => Sys2Proof.Machine.execTimFreqWrite v s
  | .timeSyncLoss isl => Sys2Proof.Machine.execTimeSyncLoss isl s
  | .timeStep force => Sys2Proof.Machine.execTimeStep force s
  | .timeSet force => Sys2Proof.Machine.execTimeSet force s
  | .timeCapture pin falling => Sys2Proof.Machine.execTimeCapture pin falling s
  | .triggerCfgWrite k off v => Sys2Proof.Machine.execTriggerCfgWrite k off v s
  | .triggerFire k => Sys2Proof.Machine.execTriggerFire k s
  | .triggerGclAction k => Sys2Proof.Machine.execTriggerGclAction k s
  | .triggerPulseEnd k => Sys2Proof.Machine.execTriggerPulseEnd k s
  | .scrubStep t pat => Sys2Proof.Machine.execScrubStep t pat s
  | .pageCorrection src word err => Sys2Proof.Machine.execPageCorrection src word err s
  | .tableRepair id copy idx => Sys2Proof.Machine.execTableRepair id copy idx s
  | .ceLeak n => Sys2Proof.Machine.execCeLeak n s
  | .eccInjArm v => Sys2Proof.Machine.execEccInjArm v s
  | .chEnable c e => Sys2Proof.Machine.execChEnable c e s
  | .chDisable c => Sys2Proof.Machine.execChDisable c s
  | .chRefresh c e => Sys2Proof.Machine.execChRefresh c e s
  | .chReset c => Sys2Proof.Machine.execChReset c s
  | .chtLoad c e => Sys2Proof.Machine.execChtLoad c e s
  | .sqTail c v full => Sys2Proof.Machine.execSqTail c v full s
  | .cqHead c v full => Sys2Proof.Machine.execCqHead c v full s
  | .commandFetch c d => Sys2Proof.Machine.execCommandFetch c d s
  | .completionPost c refused => Sys2Proof.Machine.execCompletionPost c refused s
  | .cmdNop c idx => Sys2Proof.Machine.execCmdNop c idx s
  | .tblWrite c idx d => Sys2Proof.Machine.execTblWrite c idx d s
  | .tblRead c idx => Sys2Proof.Machine.execTblRead c idx s
  | .keyWrite c idx d => Sys2Proof.Machine.execKeyWrite c idx d s
  | .keyDelete c idx d => Sys2Proof.Machine.execKeyDelete c idx d s
  | .idxDelete c idx => Sys2Proof.Machine.execIdxDelete c idx s
  | .keyFind c idx d => Sys2Proof.Machine.execKeyFind c idx d s
  | .brgFlush c idx => Sys2Proof.Machine.execBrgFlush c idx s
  | .flowPair c idx => Sys2Proof.Machine.execFlowPair c idx s
  | .knotAcq c idx => Sys2Proof.Machine.execKnotAcq c idx s
  | .knotRel c idx => Sys2Proof.Machine.execKnotRel c idx s
  | .knotRenew c idx => Sys2Proof.Machine.execKnotRenew c idx s
  | .knotLeaseExpire k => Sys2Proof.Machine.execKnotLeaseExpire k s
  | .graft c idx => Sys2Proof.Machine.execGraft c idx s
  | .patch c idx => Sys2Proof.Machine.execPatch c idx s
  | .memRead c idx => Sys2Proof.Machine.execMemRead c idx s
  | .memWrite c idx d => Sys2Proof.Machine.execMemWrite c idx d s
  | .jrnRead c idx => Sys2Proof.Machine.execJrnRead c idx s
  | .cntRead c idx => Sys2Proof.Machine.execCntRead c idx s
  | .injPipe c idx t d => Sys2Proof.Machine.execInjPipe c idx t d s
  | .injPort c idx t d => Sys2Proof.Machine.execInjPort c idx t d s
  | .rxBuf c idx => Sys2Proof.Machine.execRxBuf c idx s
  | .evBuf c idx => Sys2Proof.Machine.execEvBuf c idx s
  | .hostCopyDeliver b t c => Sys2Proof.Machine.execHostCopyDeliver b t c s
  | .rxCopyGiveup b t c => Sys2Proof.Machine.execRxCopyGiveup b t c s
  | .holdoffExpire c => Sys2Proof.Machine.execHoldoffExpire c s
  | .channelHalt c cause => Sys2Proof.Machine.execChannelHalt c cause s
  | .pmuClr v => Sys2Proof.Machine.execPmuClr v s
  | .jrnLost cls unit => Sys2Proof.Machine.execJrnLost cls unit s
  | .activeExport idx => Sys2Proof.Machine.execActiveExport idx s
  | .templateLoad v => Sys2Proof.Machine.execTemplateLoad v s
  | .evStreamEntry stream => Sys2Proof.Machine.execEvStreamEntry stream s
  | .evBufferFlush c => Sys2Proof.Machine.execEvBufferFlush c s
  | .tagHwmClr b v => Sys2Proof.Machine.execTagHwmClr b v s
  | .coldReadTokenRefill k => Sys2Proof.Machine.execColdReadTokenRefill k s
  | .grvDirFull c => Sys2Proof.Machine.execGrvDirFull c s
  | .grvParkTmo g => Sys2Proof.Machine.execGrvParkTmo g s
  | .refClockReturn ref => Sys2Proof.Machine.execRefClockReturn ref s
  | .exportEnable v => Sys2Proof.Machine.execExportEnable v s
  | .prbsCheck p lock errs => Sys2Proof.Machine.execPrbsCheck p lock errs s
  | .porstNAssert => Sys2Proof.Machine.execPorstNAssert s
  | .porstNRelease => Sys2Proof.Machine.execPorstNRelease s
  | .sysrstNAssert => Sys2Proof.Machine.execSysrstNAssert s
  | .sysrstNRelease => Sys2Proof.Machine.execSysrstNRelease s
  | .sysrstPulseEnd => Sys2Proof.Machine.execSysrstPulseEnd s
  | .profDrainComplete => Sys2Proof.Machine.execProfDrainComplete s
  | .profDrainTimeout => Sys2Proof.Machine.execProfDrainTimeout s
  | .profSwitchDone => Sys2Proof.Machine.execProfSwitchDone s
  | .railUndervoltage => Sys2Proof.Machine.execRailUndervoltage s
  | .railRecovery => Sys2Proof.Machine.execRailRecovery s
  | .timePllRelock => Sys2Proof.Machine.execTimePllRelock s
  | .clkMeasDone => Sys2Proof.Machine.execClkMeasDone s
  | .jtagIdcode => Sys2Proof.Machine.execJtagIdcode s
  | .jtagClamp => Sys2Proof.Machine.execJtagClamp s
  | .jtagHighz => Sys2Proof.Machine.execJtagHighz s
  | .groveReady => Sys2Proof.Machine.execGroveReady s
  | .flushDone => Sys2Proof.Machine.execFlushDone s
  | .twigPatchFlip => Sys2Proof.Machine.execTwigPatchFlip s
  | .twigPatchRetire => Sys2Proof.Machine.execTwigPatchRetire s
  | .twigPatchSyncDone => Sys2Proof.Machine.execTwigPatchSyncDone s
  | .flipTimerExpire => Sys2Proof.Machine.execFlipTimerExpire s
  | .genRetire => Sys2Proof.Machine.execGenRetire s
  | .drainSlow => Sys2Proof.Machine.execDrainSlow s
  | .graftApplyDone => Sys2Proof.Machine.execGraftApplyDone s
  | .graftLogUe => Sys2Proof.Machine.execGraftLogUe s
  | .catchupDone => Sys2Proof.Machine.execCatchupDone s
  | .resyncDone => Sys2Proof.Machine.execResyncDone s
  | .learnRelease => Sys2Proof.Machine.execLearnRelease s
  | .pruneStep => Sys2Proof.Machine.execPruneStep s
  | .trunkArbitration => Sys2Proof.Machine.execTrunkArbitration s
  | .trunkTransferEnd => Sys2Proof.Machine.execTrunkTransferEnd s
  | .timeUpdate => Sys2Proof.Machine.execTimeUpdate s
  | .timeSnap => Sys2Proof.Machine.execTimeSnap s
  | .timeSlew => Sys2Proof.Machine.execTimeSlew s
  | .stepApply => Sys2Proof.Machine.execStepApply s
  | .slewDone => Sys2Proof.Machine.execSlewDone s
  | .ppsPulse => Sys2Proof.Machine.execPpsPulse s
  | .disableDone => Sys2Proof.Machine.execDisableDone s
  | .msixMessage => Sys2Proof.Machine.execMsixMessage s
  | .flr => Sys2Proof.Machine.execFlr s
  | .d3hot => Sys2Proof.Machine.execD3hot s
  | .snapReq => Sys2Proof.Machine.execSnapReq s
  | .snapshotEpoch => Sys2Proof.Machine.execSnapshotEpoch s
  | .snapshotDone => Sys2Proof.Machine.execSnapshotDone s
  | .pmuOvf => Sys2Proof.Machine.execPmuOvf s
  | .sampWinEnd => Sys2Proof.Machine.execSampWinEnd s
  | .journalWrite => Sys2Proof.Machine.execJournalWrite s
  | .jrnRestart => Sys2Proof.Machine.execJrnRestart s
  | .templateResend => Sys2Proof.Machine.execTemplateResend s
  | .exportMessage => Sys2Proof.Machine.execExportMessage s
  | .expLost => Sys2Proof.Machine.execExpLost s
  | .ppsPulseEnd => Sys2Proof.Machine.execPpsPulseEnd s
  | .jtagTestLogicReset => Sys2Proof.Machine.execJtagTestLogicReset s

end Sys2Proof.Machine
end

