-- ==== Sys2Proof/Safety.lean ====
section
/-!
DEFINITION. What a sound state is: every sparse store in its canonical form (keys strictly rising, no entry equal to what an
unlisted key reads as), so that equal contents are equal data.
-/
namespace Sys2Proof.Machine

/-- Setup registers: no listed register at its reset value. -/
def State.regsWf (s : State) : Bool := Tab.wf resetOf s.regs

/-- Tables: no listed entry at its default contents. -/
def State.tblWf (s : State) : Bool := Tab.wf tblKeyDefault s.tbl

/-- The Root store's bytes: no listed byte is 0. -/
def State.rsWf (s : State) : Bool := Tab.wf (fun _ => (0 : Byte)) s.rs

/-- The host memory that the device has written. -/
def State.memWf (s : State) : Bool := Tab.wf (fun _ => (0 : Byte)) s.svn.mem

/-- Every setup register but those listed reads in `t` as in `s`. -/
def regsKept (l : List Nat) (s t : State) : Prop := ∀ a, a ∉ l → t.reg a = s.reg a

/-- Beside MSI-X messages that became due, only the setup registers listed may differ. -/
def onlyRegs (l : List Nat) (s t : State) : Prop := t = { s with regs := t.regs, msi := t.msi } ∧ regsKept l s t

/-- The setup registers that handing a record to the journal may change: the lost records' counter and its cause. -/
def jrnRegs : List Nat := [OBS_JRN_LOST_CNT, OBS_JRN_LOST_CNT + 4, OBS_INT]

/-- Beside MSI-X messages and journal records, only the setup registers listed and the journal's may differ. -/
def onlyRegsJrn (l : List Nat) (s t : State) : Prop :=
  t = { s with regs := t.regs, msi := t.msi, jrn := t.jrn } ∧ regsKept (jrnRegs ++ l) s t

/-- A 48-bit counter stands `n` further. -/
def counted (a n : Nat) (s t : State) : Prop := t.cntAt a = (s.cntAt a + n) % 2 ^ 48

/-- The device held by the power-on reset: every setup register at its reset value, device time at its start, nothing in any
table, memory, queue or channel. -/
def State.heldAtReset (s : State) : Prop :=
  s.inPor = true ∧ (∀ a, s.reg a = (resetOf a).toNat) ∧ s.time.acc = 0 ∧ s.time.stepPend = none ∧ s.tbl = [] ∧ s.rs = [] ∧
    s.pkts = [] ∧ s.bufs = [] ∧ s.copies = [] ∧ s.qs = [] ∧ s.gv = {} ∧ s.brg = {} ∧ s.jrn = {} ∧ s.svn = { mem := s.svn.mem }

/-- The device held in reset with nothing in flight: no packet, buffer, copy, channel or knot. -/
def State.idleInReset (s : State) : Prop :=
  s.inReset = true ∧ s.pkts = [] ∧ s.bufs = [] ∧ s.copies = [] ∧ s.tbl = [] ∧ s.svn = { mem := s.svn.mem }

/-- Command `m` stands at submission index `idx` of a channel with opcode `op` and executes next: it is the first not begun
(FENCE and its tag let it, the completion ring has room), its tag is not the last completed one, and its TYPE allows it. -/
def State.readyCmd (s : State) (c idx op : Nat) (m : Cmd) : Prop :=
  (s.chan c).next = some m ∧ m.idx = idx ∧ m.op = op ∧ ((s.chan c).lastV = false ∨ m.tag ≠ (s.chan c).lastTag) ∧
    opAllowed (s.chan c).typ op = true

end Sys2Proof.Machine
end

