-- ==== Sys2Proof/Certificates/Slice0/Obligations.lean ====
section
/-!
DEFINITION. The statements for the provers. Each says what a command of the block does from every state that meets its
conditions, and what it leaves alone; a rule R<n> named in a docstring is the spec's.
-/
open Sys2Proof Sys2Proof.Machine

/-- A step takes the command at the front of the queue and runs it on the state with the queue's rest. On an empty queue
one tick passes: the model's choice, assumption 1. -/
def Obligations.StepRunsFront : Prop :=
  (∀ (c : Instr) (rest : List Instr) (s : State), step { s with pending := c :: rest } = exec c { s with pending := rest }) ∧
  ∀ s : State, s.pending = [] → step s = .next (s.advance 1)

/-- No command stops the block: each answers a next state from every state. -/
def Obligations.EveryCommandGoesOn : Prop :=
  (∀ (c : Instr) (s : State), ∃ t, exec c s = .next t) ∧ ∀ s : State, ∃ t, step s = .next t

/-- R323. A snapshot latches whole ns and the 16 visible fraction bits. A write of TIM_FREQ takes effect after a crossing of
1 or 2 cycles (8 or 16 ticks; which of them is a free value); beside that, only time passes. -/
def Obligations.TimeReadAndRate : Prop :=
  (∀ s : State, s.reaches TIM_SNAP = true → ∃ t, exec .timeSnap s = .next t ∧
    t.rd64 TIM_SNAP_NS = s.devNow % 2 ^ 64 ∧ t.reg TIM_SNAP_FRAC = s.time.acc / 2 ^ 32 % 2 ^ 16 ∧
    t = { s with regs := t.regs } ∧ regsKept [TIM_SNAP_NS, TIM_SNAP_NS + 4, TIM_SNAP_FRAC] s t) ∧
  ∀ (s : State) (v : Word), s.reaches TIM_FREQ = true → ∃ t n, exec (.timFreqWrite v) s = .next t ∧
    (n = 8 ∨ n = 16) ∧ t.reg TIM_FREQ = v.toNat ∧ t.free = s.free + 1 ∧
    t = { ({ s with free := s.free + 1 } : State).advance n with regs := t.regs } ∧
    regsKept [TIM_FREQ] (({ s with free := s.free + 1 } : State).advance n) t

/-- R330, R331. The request is held for T_s = device time + 2,000 ns; for a SET Δ = value − T_s. Beside it only STEP_PEND
changes. -/
def Obligations.StepRequestAccepted : Prop :=
  (∀ (s : State) (force : Bool), s.reaches TIM_ADJ_CMD = true → s.time.stepPend = none →
    0 ≤ (s.devNow : Int) + 2000 + toSigned 64 (s.rd64 TIM_ADJ) →
    (s.on TIM_STS_INIT = true ∨ force = true ∨ ((toSigned 64 (s.rd64 TIM_ADJ)).natAbs ≤ s.rd TIM_STEP_CFG_THR ∧
      ∀ e, s.time.lastStepEnd = some e → e + 2200000000 ≤ s.devNow)) →
    ∃ t, exec (.timeStep force) s = .next t ∧
      t.time = { s.time with stepPend := some ⟨s.devNow + 2000, toSigned 64 (s.rd64 TIM_ADJ), 1, force⟩ } ∧
      t.rd TIM_STS_STEP_PEND = 1 ∧ t = { s with time := t.time, regs := t.regs } ∧ regsKept [TIM_STS] s t) ∧
  ∀ (s : State) (force : Bool), s.reaches TIM_ADJ_CMD = true → s.time.stepPend = none →
    (s.on TIM_STS_INIT = true ∨ force = true) →
    ∃ t, exec (.timeSet force) s = .next t ∧
      t.time = { s.time with
        stepPend := some ⟨s.devNow + 2000, (s.rd64 TIM_ADJ : Int) - (s.devNow + 2000 : Nat), 3, force⟩ } ∧
      t.rd TIM_STS_STEP_PEND = 1 ∧ t = { s with time := t.time, regs := t.regs } ∧ regsKept [TIM_STS] s t

/-- R330. A refused request writes its cause, sets STEP_REJ_STK and TIM_INT.STEP_REJ, counts, and changes nothing else. -/
def Obligations.StepRequestRefused : Prop :=
  let refused (c : Instr) (s : State) (cause : Nat) : Prop := ∃ t, exec c s = .next t ∧
    t.rd TIM_STS_REJ_CAUSE = cause ∧ t.rd TIM_STS_STEP_REJ_STK = 1 ∧ t.rd TIM_INT_STEP_REJ = 1 ∧
    t.cntAt STEP_REJ_CNT = (s.cntAt STEP_REJ_CNT + 1) % 2 ^ 48 ∧ t = { s with regs := t.regs, msi := t.msi } ∧
    regsKept [TIM_STS, STEP_REJ_CNT, STEP_REJ_CNT + 4, TIM_INT] s t
  (∀ s : State, s.reaches TIM_ADJ_CMD = true → s.on TIM_STS_INIT = false →
    s.rd TIM_STEP_CFG_THR < (toSigned 64 (s.rd64 TIM_ADJ)).natAbs → refused (.timeStep false) s 1) ∧
  (∀ (s : State) (force : Bool), s.reaches TIM_ADJ_CMD = true → s.time.stepPend.isSome = true →
    (s.on TIM_STS_INIT = true ∨ force = true ∨ (toSigned 64 (s.rd64 TIM_ADJ)).natAbs ≤ s.rd TIM_STEP_CFG_THR) →
    refused (.timeStep force) s 2) ∧
  (∀ (s : State) (force : Bool), s.reaches TIM_ADJ_CMD = true → s.time.stepPend.isSome = true →
    refused (.timeSet force) s 2) ∧
  ∀ s : State, s.reaches TIM_ADJ_CMD = true → s.on TIM_STS_INIT = false → s.time.stepPend = none →
    (∀ e, s.time.lastStepEnd = some e → e + 2200000000 ≤ s.devNow) → refused (.timeSet false) s 5

/-- R329: a SLEW replaces what remains; at its end SLEW_BUSY falls and TIM_INT.SLEW_DONE is set. R331: an applied step
moves the accumulator by Δ, records T_s and Δ, clears INIT, counts (a forced one also in SET_FORCE_CNT). -/
def Obligations.SlewAndStepEffects : Prop :=
  (∀ s : State, s.reaches TIM_ADJ_CMD = true → ∃ t, exec .timeSlew s = .next t ∧
    t.time = { s.time with
      slewLeft := (toSigned 64 (s.rd64 TIM_ADJ)).natAbs * 2 ^ 48, slewNeg := decide (toSigned 64 (s.rd64 TIM_ADJ) < 0) } ∧
    t.rd TIM_STS_SLEW_BUSY = (if toSigned 64 (s.rd64 TIM_ADJ) = 0 then 0 else 1) ∧
    (toSigned 64 (s.rd64 TIM_ADJ) = 0 → t.rd TIM_INT_SLEW_DONE = 1) ∧
    t = { s with time := t.time, regs := t.regs, msi := t.msi } ∧ regsKept [TIM_STS, TIM_INT] s t) ∧
  (∀ s : State, s.timeUp = true → s.on TIM_STS_SLEW_BUSY = true → 0 < s.slewStep →
    ∃ t, exec .slewDone s = .next t ∧ t.time.slewLeft = 0 ∧ t.rd TIM_STS_SLEW_BUSY = 0 ∧ t.rd TIM_INT_SLEW_DONE = 1 ∧
      t = { s with time := t.time, regs := t.regs, msi := t.msi, obs := t.obs }) ∧
  ∀ (s : State) (r : StepReq), s.timeUp = true → s.time.stepPend = some r → r.ts ≤ s.devNow →
    ∃ t, exec .stepApply s = .next t ∧ t.time.acc = ((s.time.acc : Int) + r.delta * (2 ^ 48 : Nat)).toNat ∧
      t.time.stepPend = none ∧ t.rd64 TIM_STEP_AT = r.ts % 2 ^ 64 ∧ t.rd64 TIM_STEP_DELTA = ofSigned 64 r.delta ∧
      t.rd TIM_STS_INIT = 0 ∧ t.rd TIM_STS_STEP_PEND = 0 ∧ t.rd TIM_INT_STEP_DONE = 1 ∧
      t.cntAt STEP_CNT = (s.cntAt STEP_CNT + 1) % 2 ^ 48 ∧
      t.cntAt SET_FORCE_CNT = (s.cntAt SET_FORCE_CNT + b2n r.force) % 2 ^ 48 ∧ t.pkts = s.pkts ∧ t.tbl = s.tbl ∧ t.rs = s.rs

/-- R325. An update never makes a copy jump: it keeps its value and changes its rate, by at most ±200 ppm of the rate sent.
A copy that agrees is within 0.25 ns of the time island in a SerDes quad (islands 32 to 95), within 1.0 ns elsewhere. An
island without an update for 4 µs (32,000 ticks) clears its agreement bit. -/
def Obligations.CopiesOfDeviceTime : Prop :=
  (∀ (s : State) (i : Fin 168), s.timeUp = true → s.time.updNext ≤ s.devNow → s.islStopped i.val = false →
    (s.time.isl.get {} i.val).lag = none →
    ∃ t, exec .timeUpdate s = .next t ∧ t.time.updNext = (s.devNow / 256 + 1) * 256 ∧
      t.localAcc i.val = s.localAcc i.val ∧
      t.time.sync.get false i.val = (s.time.sync.get false i.val || decide ((s.islAhead i.val).natAbs ≤ islBound i.val)) ∧
      (t.time.isl.get {} i.val).at_ = s.time.mono ∧
      ((t.time.isl.get {} i.val).rate : Int) ≤ s.sentRate + (s.sentRate : Int) * 200 / 1000000 ∧
      (s.sentRate : Int) + (s.sentRate : Int) * (-200) / 1000000 ≤ (t.time.isl.get {} i.val).rate ∧
      t.time.acc = s.time.acc ∧ regsKept [TIM_STS] s t ∧ t.pkts = s.pkts ∧ t.rs = s.rs) ∧
  (∀ (s : State) (i : Fin 168), s.time.sync.get false i.val = true → s.islStopped i.val = false →
    (s.time.isl.get {} i.val).lag = none → s.time.stepPend = none →
    let b := if 32 ≤ i.val ∧ i.val < 96 then 2 ^ 46 else 2 ^ 48
    s.localAcc i.val ≤ s.accFine + b ∧ s.accFine ≤ s.localAcc i.val + b) ∧
  ∀ (s : State) (i : Fin 168), (s.alive i.val = true ∨ s.timeUp = true ∧ s.islStopped i.val = true) →
    s.time.sync.get false i.val = true → s.time.upd.get 0 i.val + 32000 ≤ s.time.mono →
    ∃ t, exec (.timeSyncLoss i) s = .next t ∧ t.time = { s.time with sync := s.time.sync.set false i.val false } ∧
      t.rd TIM_STS_SYNC_OK = 0 ∧ t.rd TIM_INT_SYNC = 1 ∧
      t = { s with time := t.time, regs := t.regs, msi := t.msi, jrn := t.jrn } ∧
      regsKept [TIM_STS, TIM_INT, OBS_JRN_LOST_CNT, OBS_JRN_LOST_CNT + 4, OBS_INT] s t

/-- R335: the edge's time in steps of 250 ps; 100 ns are 800 ticks. R339: the pulse of the whole second n lasts WIDTH µs (0
acts as 1). R337: a trigger pin's pulse ends. -/
def Obligations.CaptureAndPulses : Prop :=
  (∀ (s : State) (n : Fin 4) (fall : Bool), s.timeUp = true → bit (s.rd (TIM_CAP_CFG_EDGE n.val)) (b2n fall) = true →
    (∀ m, s.time.capAt.find? n.val = some m → m + 800 ≤ s.time.mono) →
    ∃ t, exec (.timeCapture n fall) s = .next t ∧
      t.rd64 (TIM_CAP_TS n.val) = (s.time.acc + s.time.mono % 8 / 2 * 2 ^ 46) / 2 ^ 48 % 2 ^ 64 ∧
      t.cntAt (TIM_CAP_CNT n.val) = (s.cntAt (TIM_CAP_CNT n.val) + 1) % 2 ^ 48 ∧
      bit (t.rd TIM_INT_CAP) n.val = true ∧ t.time.capAt = s.time.capAt.insert n.val s.time.mono ∧ t.time.acc = s.time.acc) ∧
  (∀ (s : State) (n : Fin 4) (fall : Bool) (m : Nat), s.timeUp = true →
    bit (s.rd (TIM_CAP_CFG_EDGE n.val)) (b2n fall) = true → s.time.capAt.find? n.val = some m → s.time.mono < m + 800 →
    exec (.timeCapture n fall) s = .next (s.cnt CAP_OVR_CNT)) ∧
  (∀ (s : State) (n : Nat), s.timeUp = true → s.on TIM_PPS_CFG_EN = true → s.devNow = n * 1000000000 → s.time.ppsNext ≤ n →
    exec .ppsPulse s = .next { s with
      time.ppsEnd := some (n * 1000000000 + max 1 (s.rd TIM_PPS_CFG_WIDTH) * 1000), time.ppsNext := n + 1 }) ∧
  (∀ (s : State) (e : Nat), s.timeUp = true → s.time.ppsEnd = some e → e ≤ s.devNow →
    exec .ppsPulseEnd s = .next { s with time.ppsEnd := none }) ∧
  ∀ (s : State) (k : Fin 8) (pin e : Nat), s.timeUp = true → s.time.pulse.find? k.val = some (pin, e) → e ≤ s.devNow →
    exec (.triggerPulseEnd k) s = .next { s with time.pulse := s.time.pulse.erase k.val }

/-- R336: F_j = START + j × PERIOD (a PERIOD below 64 acts as 64) and the first firing at least 1 µs after the enable. R337:
at F the pulse of the selected pin, WIDTH long (at least 8 ns); at F − 1,000 ns TMG_GCL_BASE := F. -/
def Obligations.TriggerGenerators : Prop :=
  (∀ (s : State) (k : Fin 8) (v : Word), s.reaches (TIM_TRG_CFG k.val) = true → s.on (TIM_TRG_CFG_EN k.val) = false →
    bit v.toNat 0 = true → getBits v.toNat 7 3 = 0 → 64 ≤ s.reg (TIM_TRG_PERIOD k.val) →
    ∃ t j, exec (.triggerCfgWrite k 0 v) s = .next t ∧ t.on (TIM_TRG_CFG_EN k.val) = true ∧
      t.time.trg.get {} k.val = ⟨some (s.rd64 (TIM_TRG_START k.val)), j, false⟩ ∧
      s.time.acc + 1000 * 2 ^ 48 ≤ (s.rd64 (TIM_TRG_START k.val) + j * s.reg (TIM_TRG_PERIOD k.val)) * 2 ^ 48 ∧
      (j = 0 ∨ (s.rd64 (TIM_TRG_START k.val) + (j - 1) * s.reg (TIM_TRG_PERIOD k.val)) * 2 ^ 48 < s.time.acc + 1000 * 2 ^ 48)) ∧
  (∀ (s : State) (k : Fin 8) (off : Fin 16) (v : Word), (off = 1 ∨ off = 2 ∨ off = 3 ∨ off = 5) →
    s.reaches (TIM_TRG_CFG k.val + 4 * off.val) = true → s.on (TIM_TRG_CFG_EN k.val) = true →
    exec (.triggerCfgWrite k off v) s = .next (s.wr TIM_STS_TRG_REJ_STK 1)) ∧
  (∀ (s : State) (k : Fin 8) (v : Word), s.reaches (TIM_TRG_PERIOD k.val) = true → s.on (TIM_TRG_CFG_EN k.val) = false →
    ∃ t, exec (.triggerCfgWrite k 3 v) s = .next t ∧ t.reg (TIM_TRG_PERIOD k.val) = v.toNat ∧ t = { s with regs := t.regs } ∧
      regsKept [TIM_TRG_PERIOD k.val] s t) ∧
  (∀ (s : State) (k : Fin 8) (st j : Nat), s.timeUp = true → s.on (TIM_TRG_CFG_EN k.val) = true →
    s.time.trg.get {} k.val = ⟨some st, j, false⟩ → st + j * s.trgPeriod k.val ≤ s.devNow →
    ∃ t, exec (.triggerFire k) s = .next t ∧
      t.time.trg.get {} k.val = (if s.reg (TIM_TRG_PERIOD k.val) = 0 then ⟨some st, j, true⟩ else ⟨some st, j + 1, false⟩) ∧
      (∀ pin, s.rd (TIM_TRG_CFG_PIN k.val) = pin → 1 ≤ pin → pin ≤ 4 →
        t.time.pulse.find? k.val = some (pin - 1, st + j * s.trgPeriod k.val + s.trgWidth k.val)) ∧
      t.time.acc = s.time.acc ∧ t.pkts = s.pkts ∧ t.tmPorts = s.tmPorts) ∧
  ∀ (s : State) (k : Fin 8) (p : Fin 256) (st j : Nat), s.timeUp = true → s.on (TIM_TRG_CFG_EN k.val) = true →
    s.on (TIM_TRG_CFG_GCL k.val) = true → s.time.trg.get {} k.val = ⟨some st, j, false⟩ →
    (s.trgPeriod k.val = 0 → j = 0) →
    st + j * s.trgPeriod k.val ≤ s.devNow + 1000 → s.time.gclDone.find? k.val = none → s.trgPorts k.val = [p.val] →
    s.on (TMG_GCL_STS_PEND p.val) = false →
    ∃ t, exec (.triggerGclAction k) s = .next t ∧ t.rd64 (TMG_GCL_BASE p.val) = (st + j * s.trgPeriod k.val) % 2 ^ 64 ∧
      t.time.gclDone.find? k.val = some (j + 1) ∧ t.time.trg = s.time.trg ∧ t.pkts = s.pkts

/-- R449 to R451. 1 µs is 8,000 ticks; CLK_REF_STS shows the three inputs that are present. -/
def Obligations.ReferenceClocks : Prop :=
  (∀ (s : State) (r : Fin 3), s.inPor = false → ∃ t, exec (.refClockLoss r) s = .next t ∧
    t.reg CLK_REF_STS = 7 - (s.clk.refLost ||| 2 ^ r.val) % 8 ∧ t.rd CLK_INT_REF_LOSS = 1 ∧
    t = { s.advance 8000 with clk := { s.clk with refLost := s.clk.refLost ||| 2 ^ r.val }, regs := t.regs, msi := t.msi } ∧
    regsKept [CLK_REF_STS, CLK_INT] (s.advance 8000) t) ∧
  (∀ (s : State) (r : Fin 3), s.inPor = false → ∃ t, exec (.refClockReturn r) s = .next t ∧
    bit (t.reg CLK_REF_STS) r.val = true ∧ bit t.clk.refLost r.val = false ∧
    t = { s with clk := t.clk, regs := t.regs } ∧ regsKept [CLK_REF_STS] s t) ∧
  (∀ (s : State) (i : Fin 169), s.alive i.val = true → ∃ t, exec (.islandUnlock i) s = .next t ∧
    t.islStopped i.val = true ∧ bit (t.rd (CLK_ISL_LOCK_ISL (i.val / 32))) (i.val % 32) = false ∧
    t.cntAt CLK_UNLOCK_CNT = (s.cntAt CLK_UNLOCK_CNT + 1) % 2 ^ 48 ∧ t.rd CLK_INT_UNLOCK = 1 ∧
    t.localAcc i.val = s.localAcc i.val ∧ (i.val ≠ islTime → (t.time.isl.get {} i.val).rate = 0) ∧
    t = { s with time := t.time, regs := t.regs, msi := t.msi }) ∧
  (∀ (s : State) (sel : Bool), s.reaches CLK_CFG = true → s.on TIM_STS_INIT = true →
    ∃ t, exec (.tclkSelWrite sel) s = .next t ∧ t.rd CLK_CFG_TCLK_SEL = b2n sel ∧ t.clk = { s.clk with relock := true } ∧
      bit (t.rd (CLK_ISL_LOCK_ISL 5)) 8 = false ∧ t = { s with clk := t.clk, regs := t.regs } ∧
      regsKept [CLK_CFG, CLK_ISL_LOCK 5, CLK_STS] s t) ∧
  (∀ (s : State) (sel : Bool), s.reaches CLK_CFG = true → s.on TIM_STS_INIT = false →
    exec (.tclkSelWrite sel) s = .next (s.wr CLK_STS_CFG_REJ_STK 1)) ∧
  ∀ s : State, s.timeUp = true → s.clk.relock = true → ∃ t, exec .timePllRelock s = .next t ∧
    t.clk = { s.clk with relock := false } ∧ bit (t.rd (CLK_ISL_LOCK_ISL 5)) 8 = true ∧
    t = { s with clk := t.clk, regs := t.regs } ∧ regsKept [CLK_ISL_LOCK 5, CLK_STS] s t

/-- R452: a window of 10^6 ns of device time; the result stands within ±2 cycles (the error is a free value). -/
def Obligations.ClockMeasurement : Prop :=
  (∀ (s : State) (i : BitVec 8), s.reaches CLK_MEAS_CTL = true → s.on CLK_MEAS_CTL_BUSY = false → i.toNat ≤ 168 →
    ∃ t, exec (.clkMeasStart i) s = .next t ∧ t.rd CLK_MEAS_CTL_ISL = i.toNat ∧ t.on CLK_MEAS_CTL_BUSY = true ∧
      t.clk = { s.clk with measEnd := some (s.devNow + 1000000), measFrom := s.time.mono } ∧
      t = { s with clk := t.clk, regs := t.regs } ∧ regsKept [CLK_MEAS_CTL] s t) ∧
  (∀ (s : State) (i : BitVec 8), s.reaches CLK_MEAS_CTL = true → (s.on CLK_MEAS_CTL_BUSY = true ∨ 168 < i.toNat) →
    exec (.clkMeasStart i) s = .next (s.wr CLK_STS_CFG_REJ_STK 1)) ∧
  ∀ (s : State) (e : Nat), s.alive islMgmt = true → s.clk.measEnd = some e → e ≤ s.devNow →
    s.islStopped (s.rd CLK_MEAS_CTL_ISL) = false →
    islCycles (s.rd CLK_MEAS_CTL_ISL) (s.time.mono - s.clk.measFrom) + 2 < 2 ^ 32 →
    ∃ t, exec .clkMeasDone s = .next t ∧ t.on CLK_MEAS_CTL_BUSY = false ∧ t.clk = { s.clk with measEnd := none } ∧
      t.reg CLK_MEAS_RES ≤ islCycles (s.rd CLK_MEAS_CTL_ISL) (s.time.mono - s.clk.measFrom) + 2 ∧
      islCycles (s.rd CLK_MEAS_CTL_ISL) (s.time.mono - s.clk.measFrom) ≤ t.reg CLK_MEAS_RES + 2 ∧
      t = { s with clk := t.clk, regs := t.regs, free := s.free + 1 } ∧ regsKept [CLK_MEAS_RES, CLK_MEAS_CTL] s t

/-- R475 to R477. Readings are signed quarter degrees; 1 ms is 8,000,000 ticks. -/
def Obligations.JunctionTemperature : Prop :=
  (∀ (s : State) (n : Fin 16) (temp : BitVec 10), s.inPor = false → toSigned 10 temp.toNat < 480 →
    ∃ t, exec (.tjSensorReading n temp) s = .next t ∧ t.rd (GLB_TJ_SNS_TEMP n.val) = temp.toNat ∧
      t.on (GLB_TJ_SNS_VALID n.val) = true ∧ t.tj.readAt.find? n.val = some s.time.mono ∧
      (toSigned 10 (s.rd GLB_TJ_CFG_ALERT) ≤ toSigned 10 temp.toNat → s.tj.alertLow = false →
        t.tj.alertLow = true ∧ t.rd GLB_TJ_INT_ALERT = 1) ∧
      t = { s with tj := t.tj, regs := t.regs, msi := t.msi }) ∧
  (∀ (s : State) (n : Fin 16) (temp : BitVec 10), s.inPor = false → 480 ≤ toSigned 10 temp.toNat →
    ∃ t, exec (.tjSensorReading n temp) s = .next t ∧ t.rst.tripped = true ∧ t.inReset = true ∧
      (s.inReset = false → t.pkts = [] ∧ t.rd GLB_BOOT_STS_RST_SRC = 1)) ∧
  (∀ (s : State) (n : Fin 16), s.inPor = false → s.tj.readAt.get 0 n.val + 8000000 ≤ s.time.mono →
    ∃ t, exec (.snsFail n) s = .next t ∧ t.on (GLB_TJ_SNS_VALID n.val) = false ∧ t.rd GLB_TJ_INT_SNS_FAIL = 1 ∧
      t = { s with regs := t.regs, msi := t.msi } ∧
      regsKept [GLB_TJ_SNS n.val, GLB_TJ_MAX, GLB_TJ_HWM, GLB_TJ_INT] s t) ∧
  ∀ (s : State) (v : Word), s.reaches GLB_TJ_CFG = true → ∃ t, exec (.tjHwmClr v) s = .next t ∧
    t.reg GLB_TJ_HWM = s.reg GLB_TJ_MAX ∧ t.rd GLB_TJ_CFG_ALERT = getBits v.toNat GLB_TJ_CFG_ALERT.lsb GLB_TJ_CFG_ALERT.w ∧
    t = { s with regs := t.regs } ∧ regsKept [GLB_TJ_CFG, GLB_TJ_HWM] s t

/-- R473. Codes 0, 1, 5 and 6 select the boundary-scan register, 2 IDCODE, every other value bypass. -/
def Obligations.TestAccessPort : Prop :=
  ∀ s : State,
    (∀ c, exec (.jtagExtest c) s = .next { s with jtag := ⟨0x00, c, true, false⟩, rst := { s.rst with pinsTaken := true } }) ∧
    (∀ c, exec (.jtagSamplePreload c) s = .next { s with jtag := ⟨0x01, c, false, false⟩ }) ∧
    exec .jtagIdcode s = .next { s with jtag := ⟨0x02, s.jtag.bsr, false, false⟩ } ∧
    exec .jtagClamp s = .next { s with jtag := ⟨0x03, s.jtag.bsr, true, false⟩, rst := { s.rst with pinsTaken := true } } ∧
    exec .jtagHighz s = .next { s with jtag := ⟨0x04, s.jtag.bsr, false, true⟩, rst := { s.rst with pinsTaken := true } } ∧
    (∀ c, exec (.jtagExtestPulse c) s = .next { s with jtag := ⟨0x05, c, true, false⟩, rst := { s.rst with pinsTaken := true } }) ∧
    (∀ c, exec (.jtagExtestTrain c) s = .next { s with jtag := ⟨0x06, c, true, false⟩, rst := { s.rst with pinsTaken := true } }) ∧
    (∀ code : BitVec 8, 6 < code.toNat → jtagDr code = .bypass ∧
      exec (.jtagBypass code) s = .next { s with jtag := ⟨code, s.jtag.bsr, false, false⟩ }) ∧
    exec .jtagTestLogicReset s = .next { s with jtag := ⟨0x02, s.jtag.bsr, false, false⟩ } ∧
    jtagDr 0x00 = .boundary ∧ jtagDr 0x01 = .boundary ∧ jtagDr 0x02 = .idcode ∧ jtagDr 0x03 = .bypass ∧
    jtagDr 0x04 = .bypass ∧ jtagDr 0x05 = .boundary ∧ jtagDr 0x06 = .boundary

/-- R426. KEY is the low half of the word; with it a reset pulse of 10 µs (80,000 ticks) starts. -/
def Obligations.ResetKey : Prop :=
  (∀ (s : State) (v : Word), s.reaches GLB_RST_CMD = true → v.toNat % 65536 ≠ 0x5EED → exec (.glbRstCmd v) s = .next s) ∧
  ∀ (s : State) (v : Word), s.reaches GLB_RST_CMD = true → v.toNat % 65536 = 0x5EED →
    ∃ t, exec (.glbRstCmd v) s = .next t ∧ t.rst.pulseEnd = some (s.time.mono + 80000) ∧ t.inReset = true ∧
      t.rd GLB_BOOT_STS_RST_SRC = 2 ∧ t.pkts = [] ∧ t.copies = []

/-- R422, R424, R324, R459. What lies outside the device stays: host memory, the waiting commands, the test access port. -/
def Obligations.PowerOnReset : Prop :=
  let clean (s t : State) : Prop := (∀ a, t.reg a = (resetOf a).toNat) ∧ t.time.acc = 0 ∧ t.time.stepPend = none ∧ t.pkts = [] ∧
    t.bufs = [] ∧ t.copies = [] ∧ t.tbl = [] ∧ t.rs = [] ∧ t.qs = [] ∧ t.svn = { mem := s.svn.mem } ∧
    t.pending = s.pending ∧ t.jtag = s.jtag
  (∀ s : State, ∃ t, exec .porstNAssert s = .next t ∧ clean s t ∧ t.rst.porstLow = true ∧ t.inReset = true) ∧
  (∀ s : State, s.rst.porstLow = true → ∃ t, exec .porstNRelease s = .next t ∧ clean s t ∧ t.rst.porstLow = false ∧
    t.on TIM_STS_INIT = true ∧ t.on GLB_BOOT_STS_BUSY = true) ∧
  (∀ s : State, s.rst.porstLow = false → ∃ t, exec .railUndervoltage s = .next t ∧ clean s t ∧ t.rst.railReset = true ∧
    t.inReset = true) ∧
  ∀ s : State, s.rst.railReset = true → ∃ t, exec .railRecovery s = .next t ∧ clean s t ∧ t.rst.railReset = false

/-- R423, R424, R324. SYSRST_N neither stops nor changes device time; the TIM configuration survives it. -/
def Obligations.SystemReset : Prop :=
  (∀ s : State, s.rst.sysrstLow = false → s.inPor = false → ∃ t, exec .sysrstNAssert s = .next t ∧ t.inReset = true ∧
    t.rst = { s.rst with sysrstLow := true } ∧ t.rd GLB_BOOT_STS_RST_SRC = 1 ∧ t.time.acc = s.time.acc ∧
    t.time.mono = s.time.mono ∧ t.reg TIM_FREQ = s.reg TIM_FREQ ∧ t.pkts = [] ∧ t.copies = [] ∧ t.bufs = [] ∧ t.tbl = [] ∧
    t.svn = { mem := s.svn.mem } ∧ (s.stackKept 0 = true → s.stackKept 1 = true → t.rs = s.rs) ∧ t.pending = s.pending) ∧
  (∀ s : State, s.rst.sysrstLow = false → s.inPor = true →
    exec .sysrstNAssert s = .next { s with rst := { s.rst with sysrstLow := true } }) ∧
  (∀ s : State, exec .sysrstNRelease s = .next { s with rst := { s.rst with sysrstLow := false } }) ∧
  ∀ (s : State) (e : Nat), s.rst.pulseEnd = some e → e ≤ s.time.mono →
    exec .sysrstPulseEnd s = .next { s with rst := { s.rst with pulseEnd := none } }

/-- R7, R10, R427, R446. 4 µs are 32,000 ticks. GLB_ACC_ADDR holds the first event's offset, with bit 31 for a write. -/
def Obligations.RegisterAccess : Prop :=
  (∀ (s : State) (a : BitVec 28) (v : Word), s.reaches a.toNat = true → a.toNat % 4 = 0 → a.toNat ≠ GLB_RST_CMD →
    a.toNat ≠ GLB_PROF_CMD → exec (.regWrite a v) s = .next (s.regApply a.toNat v.toNat)) ∧
  (∀ (s : State) (v : Word), exec (.regWrite (BitVec.ofNat 28 GLB_RST_CMD) v) s = exec (.glbRstCmd v) s) ∧
  (∀ (s : State) (a : BitVec 28) (v : Word), a.toNat % 4 ≠ 0 → exec (.regWrite a v) s = exec (.bar0BadAccess a true) s) ∧
  (∀ (s : State) (a v : Nat), (s.hostWrite a v).reg a = hostWritten (fieldsAt a) (s.reg a) v % 2 ^ 32 ∧
    (s.hostWrite a v).regs = s.regs.set (resetOf a) a (BitVec.ofNat 32 (hostWritten (fieldsAt a) (s.reg a) v))) ∧
  (∀ (fs : List RegField) (old v : Nat), fs.Pairwise (fun f g => f.lsb + f.w ≤ g.lsb ∨ g.lsb + g.w ≤ f.lsb) → ∀ f ∈ fs,
    getBits (hostWritten fs old v) f.lsb f.w = match f.acc with
      | .rw | .rws => getBits v f.lsb f.w
      | .ro => getBits old f.lsb f.w
      | .w1c => getBits old f.lsb f.w - (getBits old f.lsb f.w &&& getBits v f.lsb f.w)
      | .w1s => getBits old f.lsb f.w ||| getBits v f.lsb f.w
      | .wo => 0) ∧
  (∀ (s : State) (n : Fin 64) (v : Word), n.val ≠ 0 → s.reaches (GRF_EXC_CFG n.val) = true →
    ∃ t, exec (.regWrite (BitVec.ofNat 28 (GRF_EXC_CFG n.val)) v) s = .next t ∧
      t.rd (GRF_EXC_CFG_ACT n.val) = getBits v.toNat (GRF_EXC_CFG_ACT n.val).lsb (GRF_EXC_CFG_ACT n.val).w ∧
      t.rd (GRF_EXC_CFG_HOST_CH n.val) = getBits v.toNat (GRF_EXC_CFG_HOST_CH n.val).lsb (GRF_EXC_CFG_HOST_CH n.val).w ∧
      t = { s with regs := t.regs } ∧ regsKept [GRF_EXC_CFG n.val] s t) ∧
  (∀ (s : State) (a : BitVec 28) (v : Word), s.inReset = true → exec (.regWrite a v) s = .next s) ∧
  (∀ (s : State) (a : BitVec 28) (v : Word), s.inReset = false → s.islStopped islPcie = false →
    s.islStopped islMgmt = false → s.on GLB_BOOT_STS_BUSY = true → 0x100000 ≤ a.toNat → a.toNat % 4 = 0 →
    fieldsAt a.toNat ≠ [] → exec (.regWrite a v) s = .next (s.wr GLB_BOOT_STS_WR_DROP_STK 1)) ∧
  (∀ (s : State) (off : BitVec 28) (w : Bool), s.inReset = false → s.islStopped islPcie = false →
    s.islStopped islMgmt = false → ∃ t, exec (.bar0BadAccess off w) s = .next t ∧
      t.on GLB_ACC_STS_ACC_ERR_STK = true ∧ t.rd GLB_INT_ACC_ERR = 1 ∧
      t.reg GLB_ACC_ADDR = (if s.reg GLB_ACC_STS = 0 then off.toNat + b2n w * 2 ^ 31 else s.reg GLB_ACC_ADDR) ∧
      t.lastRead = (if w then s.lastRead else 0xFFFFFFFF) ∧
      t = { s with regs := t.regs, msi := t.msi, lastRead := t.lastRead } ∧
      regsKept [GLB_ACC_STS, GLB_ACC_ADDR, GLB_INT] s t) ∧
  ∀ (s : State) (off : BitVec 28) (w : Bool), s.inReset = false → s.islStopped islPcie = false →
    s.islStopped islMgmt = false → s.islStopped (bar0Isl off.toNat) = true →
    ∃ t, exec (.bar0AccessTimeout off w) s = .next t ∧ t.time = (s.advance 32000).time ∧
      t.on GLB_ACC_STS_TMO_STK = true ∧ t.rd GLB_INT_ACC_TMO = 1 ∧ t.lastRead = (if w then s.lastRead else 0xFFFFFFFF) ∧
      t = { s.advance 32000 with regs := t.regs, msi := t.msi, lastRead := t.lastRead } ∧
      regsKept [GLB_ACC_STS, GLB_ACC_ADDR, GLB_INT] (s.advance 32000) t

/-- R45, R47, R48, R54, each with all that the command may change. -/
def Obligations.PortModesAndTraining : Prop :=
  (∀ (s : State) (g : Fin 32) (m : BitVec 3), s.reaches (PRT_GRP_CFG g.val) = true →
    (∀ k < 8, s.isPort (8 * g.val + k) = true →
      s.on (PRT_CFG_EN (8 * g.val + k)) = false ∧ s.on (PRT_STS_DRAINED (8 * g.val + k)) = true) →
    ∃ t, exec (.modeWrite g m) s = .next t ∧ t.rd (PRT_GRP_CFG_MODE g.val) = m.toNat ∧
      (t.port (8 * g.val)).modePend = true ∧ t = { s with ports := t.ports, regs := t.regs } ∧
      regsKept [PRT_GRP_CFG g.val] s t) ∧
  (∀ (s : State) (g : Fin 32) (m : BitVec 3), s.reaches (PRT_GRP_CFG g.val) = true →
    (∃ k < 8, s.isPort (8 * g.val + k) = true ∧
      (s.on (PRT_CFG_EN (8 * g.val + k)) = true ∨ s.on (PRT_STS_DRAINED (8 * g.val + k)) = false)) →
    exec (.modeWrite g m) s = .next (s.wr (PRT_GRP_STS_MODE_REJ_STK g.val) 1)) ∧
  (∀ (s : State) (p : Fin 256), s.alive (portQuad p.val) = true → s.lineOn p.val = true →
    s.on (PRT_CFG_AN_EN p.val) = true → ∃ t,
      exec (.anDone p true) s = .next t ∧ t.on (PRT_STS_AN_DONE p.val) = true ∧ onlyRegs [PRT_STS p.val] s t) ∧
  (∀ (s : State) (p : Fin 256), s.alive (portQuad p.val) = true → s.lineOn p.val = true →
    s.on (PRT_CFG_AN_EN p.val) = true → (∃ t, exec (.anDone p false) s = .next t ∧
      t.on (PRT_STS_AN_DONE p.val) = false ∧ counted (AN_FAIL_CNT p.val) 1 s t ∧ t.rd (PRT_INT_AN_FAIL p.val) = 1 ∧
      onlyRegs [PRT_STS p.val, AN_FAIL_CNT p.val, AN_FAIL_CNT p.val + 4, PRT_INT p.val] s t)) ∧
  (∀ (s : State) (p : Fin 256), s.alive (portQuad p.val) = true → s.lineOn p.val = true →
    s.on (PRT_CFG_AN_EN p.val) = true → s.on (PRT_STS_AN_DONE p.val) = false → ∃ t, exec (.anFail p) s = .next t ∧
      t.on (PRT_STS_AN_DONE p.val) = false ∧ counted (AN_FAIL_CNT p.val) 1 s t ∧ t.rd (PRT_INT_AN_FAIL p.val) = 1 ∧
      onlyRegs [PRT_STS p.val, AN_FAIL_CNT p.val, AN_FAIL_CNT p.val + 4, PRT_INT p.val] s t) ∧
  (∀ (s : State) (p : Fin 256), s.alive (portQuad p.val) = true → s.lineOn p.val = true →
    s.on (PRT_CFG_LT_EN p.val) = true → s.anOk p.val = true → ∃ t,
      exec (.ltDone p) s = .next t ∧ t.on (PRT_STS_LT_DONE p.val) = true ∧ onlyRegs [PRT_STS p.val] s t) ∧
  (∀ (s : State) (p : Fin 256), s.alive (portQuad p.val) = true → s.lineOn p.val = true →
    s.on (PRT_CFG_LT_EN p.val) = true → ∃ t,
      exec (.ltFail p) s = .next t ∧ t.on (PRT_STS_LT_DONE p.val) = false ∧ t.rd (PRT_INT_LT_FAIL p.val) = 1 ∧
      onlyRegs [PRT_STS p.val, PRT_INT p.val] s t) ∧
  ∀ (s : State) (p : Fin 256), s.alive (portQuad p.val) = true → s.lineOn p.val = true →
    let was := s.on (PRT_STS_LINK_UP p.val) = true
    let holds := s.on (PRT_STS_ALIGNED p.val) = true ∧
      (s.on (PRT_CFG_AN_EN p.val) = true → s.on (PRT_STS_AN_DONE p.val) = true) ∧
      (s.on (PRT_CFG_LT_EN p.val) = true → s.on (PRT_STS_LT_DONE p.val) = true)
    ∃ t, exec (.linkUp p) s = .next t ∧ t.on (PRT_STS_LOCAL_FAULT p.val) = false ∧ t.on (PRT_STS_REMOTE_FAULT p.val) = false ∧
      (t.on (PRT_STS_LINK_UP p.val) = true ↔ was ∨ holds) ∧ (¬ was → holds → t.rd (PRT_INT_LINK p.val) = 1) ∧
      (was ∨ ¬ holds → t.reg (PRT_INT p.val) = s.reg (PRT_INT p.val)) ∧ onlyRegs [PRT_STS p.val, PRT_INT p.val] s t

/-- R49 to R52. `N` is 2 to 8 and `M` 1 to 8, whatever is written. -/
def Obligations.AlignmentMarkers : Prop :=
  (∀ (s : State) (p : Fin 256) (ln mk : Fin 32) (pos : Nat), s.alive (portQuad p.val) = true → s.lineOn p.val = true →
    ln.val < modePcsLanes (s.portMode p.val) → (s.pcsLane p.val ln.val).lock = none →
    (∀ c ∈ (s.pcsLane p.val ln.val).cands, c.pos ≠ pos) → ∃ t, exec (.amMatch p ln pos mk) s = .next t ∧
      (∀ l ∈ s.portLanes p.val, t.on (PRT_LN_STS_SIG_DET l) = true ∧ t.on (PRT_LN_STS_CDR_LOCK l) = true) ∧
      ((s.pcsLane p.val ln.val).cands.length < 4 → t.pcsLane p.val ln.val = { s.pcsLane p.val ln.val with
        cands := (s.pcsLane p.val ln.val).cands ++ [⟨pos, mk.val, 1⟩] } ∧ t = { s with ports := t.ports, regs := t.regs }) ∧
      (4 ≤ (s.pcsLane p.val ln.val).cands.length → counted (AM_CAND_DROP_CNT p.val) 1 s t ∧ t = { s with regs := t.regs })) ∧
  (∀ (s : State) (p : Fin 256) (ln mk : Fin 32) (pos : Nat) (c : AmCand), s.alive (portQuad p.val) = true →
    s.lineOn p.val = true → (s.pcsLane p.val ln.val).cands.find? (·.pos == pos) = some c → mk.val = c.lane →
    ∃ t, exec (.amCandCheck p ln pos (some mk)) s = .next t ∧
      (s.amN p.val ≤ c.count + 1 → t.pcsLane p.val ln.val = { cands := [], lock := some (pos, c.lane), run := 0 } ∧
        t = { s with ports := t.ports, regs := t.regs } ∧ regsKept [PRT_STS p.val] s t) ∧
      (c.count + 1 < s.amN p.val → (t.pcsLane p.val ln.val).lock = (s.pcsLane p.val ln.val).lock ∧
        (t.pcsLane p.val ln.val).cands.find? (·.pos == pos) = some { c with count := c.count + 1 } ∧
        t = { s with ports := t.ports })) ∧
  (∀ (s : State) (p : Fin 256) (ln : Fin 32) (mk : Option (Fin 32)) (pos : Nat) (c : AmCand),
    s.alive (portQuad p.val) = true → s.lineOn p.val = true →
    (s.pcsLane p.val ln.val).cands.find? (·.pos == pos) = some c → mk.map (·.val) ≠ some c.lane →
    ∃ t, exec (.amCandCheck p ln pos mk) s = .next t ∧
      (t.pcsLane p.val ln.val).cands = (s.pcsLane p.val ln.val).cands.filter (·.pos != pos) ∧
      counted (AM_MIMIC_CNT p.val) 1 s t ∧ t = { s with ports := t.ports, regs := t.regs } ∧
      regsKept [AM_MIMIC_CNT p.val, AM_MIMIC_CNT p.val + 4] s t) ∧
  (∀ (s : State) (p : Fin 256) (ln : Fin 32) (v : Bool), s.alive (portQuad p.val) = true → s.isPort p.val = true →
    (s.pcsLane p.val ln.val).lock ≠ none → ((v && s.lineOn p.val) = true ∨ (s.pcsLane p.val ln.val).run + 1 < s.amM p.val) →
    exec (.amLockCheck p ln v) s = .next (s.setPcs p.val ln.val { s.pcsLane p.val ln.val with
      run := if v && s.lineOn p.val then 0 else (s.pcsLane p.val ln.val).run + 1 })) ∧
  ∀ (s : State) (p : Fin 256) (ln : Fin 32) (v : Bool), s.alive (portQuad p.val) = true → s.isPort p.val = true →
    (s.pcsLane p.val ln.val).lock ≠ none → (v && s.lineOn p.val) = false → s.amM p.val ≤ (s.pcsLane p.val ln.val).run + 1 →
    ∃ t, exec (.amLockCheck p ln v) s = .next t ∧ t.pcsLane p.val ln.val = {} ∧
      (t.port p.val).secLock = (s.port p.val).secLock + 1 ∧ counted (AM_LOCK_LOSS_CNT p.val) 1 s t ∧
      t.rd (PRT_INT_LOCK_LOSS p.val) = 1 ∧ t = { s with ports := t.ports, regs := t.regs, msi := t.msi } ∧
      regsKept [AM_LOCK_LOSS_CNT p.val, AM_LOCK_LOSS_CNT p.val + 4, PRT_INT p.val, PRT_STS p.val] s t

/-- R55 to R57, R60, R63, R389. -/
def Obligations.SecondsFecAndTrace : Prop :=
  (∀ (s : State) (p : Fin 256) (syms : List (Fin 4)), s.alive (portQuad p.val) = true → s.lineOn p.val = true →
    s.on (PRT_CFG_EN p.val) = true → s.on (PRT_STS_ALIGNED p.val) = true → ∃ t,
      exec (.fecCodeword p true syms) s = .next t ∧ counted (FEC_CW_CNT p.val) 1 s t ∧ counted (FEC_UCW_CNT p.val) 1 s t ∧
      (t.port p.val).secUcw = (s.port p.val).secUcw + 1 ∧ t = { s with ports := t.ports, regs := t.regs } ∧
      regsKept [FEC_CW_CNT p.val, FEC_CW_CNT p.val + 4, FEC_UCW_CNT p.val, FEC_UCW_CNT p.val + 4] s t) ∧
  (∀ (s : State) (p : Fin 256) (l : List (Fin 4)), s.alive (portQuad p.val) = true → s.lineOn p.val = true →
    s.on (PRT_CFG_EN p.val) = true → s.on (PRT_STS_ALIGNED p.val) = true → l.length ≤ 15 →
    exec (.fecCodeword p false l) s = .next (l.foldl (fun s k => s.cnt (PRT_LN_SYM_ERR_CNT (p.val + k.val)))
      (let c := ((s.cnt (FEC_CW_CNT p.val)).cnt (FEC_HIST_CNT p.val l.length)).cnt (FEC_CORR_SYM_CNT p.val) l.length
       if l = [] then c else c.cnt (FEC_CORR_CW_CNT p.val)))) ∧
  (∀ (s : State) (p : Fin 256), s.alive (portQuad p.val) = true → s.portOn p.val = true →
    s.cntAt STEP_CNT = (s.port p.val).secStep →
    ((s.port p.val).secStart / 1000000000 + 1) * 1000000000 ≤ s.now (portQuad p.val) →
    exec (.secondEnd p) s = .next (((s.secClassify p.val).secSettle p.val).secBegin p.val
      (((s.port p.val).secStart / 1000000000 + 1) * 1000000000))) ∧
  (∀ (s : State) (p : Fin 256), s.alive (portQuad p.val) = true → s.portOn p.val = true →
    s.cntAt STEP_CNT = (s.port p.val).secStep →
    ((s.port p.val).secStart / 1000000000 + 1) * 1000000000 ≤ s.now (portQuad p.val) → (s.port p.val).secs.length < 9 →
    ∃ t, exec (.secondEnd p) s = .next t ∧ t = { s with ports := t.ports } ∧
      (t.port p.val).secs = (s.port p.val).secs ++
        [⟨(s.port p.val).secStart, s.secClass p.val, s.on (PRT_STS_UAS p.val)⟩] ∧
      (t.port p.val).secStart = ((s.port p.val).secStart / 1000000000 + 1) * 1000000000 ∧
      (t.port p.val).secUcw = 0 ∧ (t.port p.val).secErr = 0 ∧ (t.port p.val).secLock = 0 ∧
      (t.port p.val).secSes = s.sesNow p.val) ∧
  (∀ (s : State) (p : Fin 256) (v : Word), s.reaches (PRT_CFG p.val) = true → ∃ t, exec (.portEnable p v) s = .next t ∧
      t.on (PRT_CFG_EN p.val) = true ∧ t.rd (PRT_CFG_MAX_FRAME p.val) = getBits v.toNat (PRT_CFG_MAX_FRAME p.val).lsb (PRT_CFG_MAX_FRAME p.val).w ∧
      (s.isPort p.val = true → s.on (PRT_CFG_EN p.val) = false → t.on (PRT_STS_DRAINED p.val) = false ∧
        t.on (PRT_STS_UAS p.val) = false ∧ (t.port p.val).secs = [] ∧ (t.port p.val).secStart = s.now (portQuad p.val)) ∧
      (s.isPort p.val = false ∨ s.on (PRT_CFG_EN p.val) = true → t.ports = s.ports ∧ t.reg (PRT_STS p.val) = s.reg (PRT_STS p.val)) ∧
      t = { s with ports := t.ports, regs := t.regs, qs := t.qs } ∧
      regsKept ([PRT_CFG p.val, PRT_STS p.val] ++ (List.range 16).map (fun q => (TMG_Q_GATE_OPEN p.val q).addr)) s t) ∧
  (∀ (s : State) (p : Fin 256), s.alive (portQuad p.val) = true → s.isPort p.val = true → s.rd (PRT_TRC_CFG_TMO p.val) ≠ 0 →
    s.rd (PRT_STS_TRACE p.val) = 1 ∨ s.rd (PRT_STS_TRACE p.val) = 2 →
    (s.port p.val).lastRx + s.rd (PRT_TRC_CFG_TMO p.val) * 1000000000 ≤ s.now (portQuad p.val) →
    ∃ t, exec (.traceTimeout p) s = .next t ∧ t.rd (PRT_STS_TRACE p.val) = 3 ∧
      onlyRegsJrn [PRT_STS p.val, PRT_INT p.val] s t) ∧
  (∀ (s : State) (p : Fin 256) (i : Fin 17) (v : Word), s.reaches (PRT_TRC_EXP_CHS p.val i.val) = true →
    exec (.traceExpWrite p i v) s = .next ((s.hostWrite (PRT_TRC_EXP_CHS p.val i.val) v.toNat).modPort p.val
      (fun q => { q with run := 0 }))) ∧
  ∀ (s : State) (p : Fin 256) (e : BitVec 48), s.alive (portQuad p.val) = true → s.laneTraffic p.val = false →
    s.laneUsed p.val = true →
    (∃ t, exec (.prbsCheck p true e) s = .next t ∧ t.on (PRT_LN_STS_PRBS_LOCK p.val) = true ∧
      counted (PRT_LN_PRBS_ERR_CNT p.val) e.toNat s t ∧
      onlyRegs [PRT_LN_STS p.val, PRT_LN_PRBS_ERR_CNT p.val, PRT_LN_PRBS_ERR_CNT p.val + 4] s t) ∧
    exec (.prbsCheck p false e) s = .next (s.wr (PRT_LN_STS_PRBS_LOCK p.val) 0)

/-- R76, R31. -/
def Obligations.LaneTapsAndTagMark : Prop :=
  (∀ (s : State) (p : Fin 256) (v : Word), s.reaches (PRT_LN_TXEQ p.val) = true → 63 < txeqSum v.toNat →
    exec (.txeqWrite p v) s = .next s) ∧
  (∀ (s : State) (p : Fin 256) (v : Word), s.reaches (PRT_LN_TXEQ p.val) = true → txeqSum v.toNat ≤ 63 →
    exec (.txeqWrite p v) s = .next (s.hostWrite (PRT_LN_TXEQ p.val) v.toNat)) ∧
  ∀ (s : State) (b : Fin 32) (v : Word), s.reaches (BGH_TAG_CFG b.val) = true →
    ∃ t, exec (.tagHwmClr b v) s = .next t ∧ t.rd (BGH_TAG_STS_HWM b.val) = s.rd (BGH_TAG_STS_IN_USE b.val) ∧
      onlyRegs [BGH_TAG_CFG b.val, BGH_TAG_STS b.val] s t

/-- R52: the checks of a marker period read N and M as they stand then, whatever they were when the candidate opened. -/
def Obligations.MarkerBounds : Prop :=
  (∀ (s : State) (p : Fin 256) (ln mk : Fin 32) (pos : Nat) (c : AmCand), s.alive (portQuad p.val) = true →
    s.lineOn p.val = true → (s.pcsLane p.val ln.val).lock = none →
    (s.pcsLane p.val ln.val).cands.find? (·.pos == pos) = some c → mk.val = c.lane →
    ∃ t, exec (.amCandCheck p ln pos (some mk)) s = .next t ∧
      ((t.pcsLane p.val ln.val).lock.isSome ↔ max 2 (min 8 (s.rd (PRT_AM_CFG_N p.val))) ≤ c.count + 1)) ∧
  ∀ (s : State) (p : Fin 256) (ln : Fin 32), s.alive (portQuad p.val) = true → s.lineOn p.val = true →
    (s.pcsLane p.val ln.val).lock ≠ none → ∃ t, exec (.amLockCheck p ln false) s = .next t ∧
      ((t.pcsLane p.val ln.val).lock = none ↔ max 1 (min 8 (s.rd (PRT_AM_CFG_M p.val))) ≤ (s.pcsLane p.val ln.val).run + 1)

/-- R20, R21, R31, R32, R64 (with no error injection armed for the receive FIFO). -/
def Obligations.FrameAtSfd : Prop :=
  (∀ (s : State) (p : Fin 256) (t : Fin 8192) (bytes : List Byte), s.alive (portQuad p.val) = true →
    s.portOn p.val = true → s.lineOn p.val = true → s.on (PRT_STS_LINK_UP p.val) = true → (s.rxPort p.val).cur = .idle →
    (s.on (PRT_CFG_TRACE_BLOCK_EN p.val) = false ∨ s.rd (PRT_STS_TRACE p.val) ≠ 2 ∨ isLldp bytes = true) →
    s.tagFree (portBough p.val) false = true → ∀ f, s.tagFrom (portBough p.val) 8192 t.val = some f → s.injArmed 4 0 = false →
    ∃ u, exec (.frameSfd p t bytes) s = .next u ∧
      u.pkt? (pkey (portBough p.val) f) = some { bark := { arrTs := s.arrTs p.val, seq := (s.port p.val).seq, ingPort := p.val, bough := portBough p.val, ct := s.on (PRT_CFG_CT_EN p.val), tag := f }, bytes := bytes } ∧
      (∀ k, k ≠ pkey (portBough p.val) f → u.pkt? k = s.pkt? k) ∧
      u.rxPort p.val = { cur := .frame f, fifo := (s.rxPort p.val).fifo ++ [f] } ∧
      (u.port p.val).seq = ((s.port p.val).seq + 1) % 2 ^ 32 ∧
      u.rd (BGH_TAG_STS_IN_USE (portBough p.val)) = s.rd (BGH_TAG_STS_IN_USE (portBough p.val)) + 1 ∧
      u = { s with ports := u.ports, rx := u.rx, pkts := u.pkts, regs := u.regs, msi := u.msi } ∧
      regsKept [BGH_TAG_STS (portBough p.val), BGH_TAG_INT (portBough p.val)] s u) ∧
  (∀ (s : State) (p : Fin 256) (t : Fin 8192) (bytes : List Byte), s.alive (portQuad p.val) = true →
    s.portOn p.val = true → s.lineOn p.val = true → s.on (PRT_STS_LINK_UP p.val) = true → (s.rxPort p.val).cur = .idle →
    (s.on (PRT_CFG_TRACE_BLOCK_EN p.val) = false ∨ s.rd (PRT_STS_TRACE p.val) ≠ 2 ∨ isLldp bytes = true) →
    s.tagFree (portBough p.val) false = false →
    exec (.frameSfd p t bytes) s = .next ((((((s.nextSeq p.val).cnt (BGH_TAG_EXHAUST_CNT (portBough p.val))).cnt
      (RX_CAUSE_CNT p.val 0)).raise (BGH_TAG_INT_EXHAUST (portBough p.val)))).setCur p.val (.skip bytes))) ∧
  ∀ (s : State) (p : Fin 256) (t : Fin 8192) (bytes : List Byte), s.alive (portQuad p.val) = true →
    s.portOn p.val = true → s.lineOn p.val = true → s.on (PRT_STS_LINK_UP p.val) = true → (s.rxPort p.val).cur = .idle →
    s.on (PRT_CFG_TRACE_BLOCK_EN p.val) = true → s.rd (PRT_STS_TRACE p.val) = 2 → isLldp bytes = false →
    exec (.frameSfd p t bytes) s = .next (((s.nextSeq p.val).cnt (RX_TRACE_DROP_CNT p.val)).setCur p.val (.skip bytes))

/-- R70, R271 to R274, R276 to R278. -/
def Obligations.BufferAllocation : Prop :=
  (∀ (s : State) (p : Fin 256) (k q : Nat) (x : Pkt), s.alive (islBough (portBough p.val)) = true →
    s.wantsBuf p.val = some (k, x) → k / 8192 = portBough p.val → x.promote = false →
    s.allocMay (portBough p.val) (s.injHeld (portBough p.val)) (p.val % 8) = true →
    s.allocPool (portBough p.val) (ownerOf x) 4 (firstFit (s.wantBytes x)) = some q →
    ∃ u, exec (.bufferAlloc p) s = .next u ∧
      u.pkt? k = some { x with est := some (s.wantBytes x), hasBuf := true, bark := { x.bark with buf := s.lowestBuf (portBough p.val) q, pool := q } } ∧
      (∀ j, j ≠ k → u.pkt? j = s.pkt? j) ∧
      u.bufs = s.bufs.insert (pkey (portBough p.val) (s.lowestBuf (portBough p.val) q)) ⟨k % 8192, q, ownerOf x, s.time.mono⟩ ∧
      u.rx = (if x.ended then (s.fifoOut x.bark.ingPort (k % 8192)).rx else s.rx) ∧
      counted (CRN_ALLOC_CNT (portBough p.val)) 1 s u ∧
      u = { s with pkts := u.pkts, bufs := u.bufs, rx := u.rx, turns := u.turns, regs := u.regs, obs := u.obs } ∧
      regsKept [CRN_USE (portBough p.val) (ownerOf x) q, CRN_POOL_STS (portBough p.val) q, CRN_STORE_STS (portBough p.val),
        CRN_ALLOC_CNT (portBough p.val), CRN_ALLOC_CNT (portBough p.val) + 4, CRN_SPILL_CNT (portBough p.val),
        CRN_SPILL_CNT (portBough p.val) + 4] s u) ∧
  (∀ (s : State) (p : Fin 256) (k : Nat) (x : Pkt), s.alive (islBough (portBough p.val)) = true →
    s.wantsBuf p.val = some (k, x) → k / 8192 = portBough p.val → x.promote = false → ownerOf x = p.val % 8 →
    s.allocPool (portBough p.val) (p.val % 8) 4 (firstFit (s.wantBytes x)) = none →
    ∃ u, exec (.bufferAlloc p) s = .next u ∧
      u.pkt? k = some { x with est := some (s.wantBytes x), nobuf := true } ∧ (∀ j, j ≠ k → u.pkt? j = s.pkt? j) ∧
      counted (CRN_NOBUF_CNT (portBough p.val)) (if x.nobuf then 0 else 1) s u ∧
      u = { s with pkts := u.pkts, regs := u.regs } ∧
      regsKept [CRN_NOBUF_CNT (portBough p.val), CRN_NOBUF_CNT (portBough p.val) + 4] s u) ∧
  (∀ (s : State) (p : Fin 256) (t : Nat) (x : Pkt), s.alive (islBough (portBough p.val)) = true →
    (s.rxPort p.val).cur = .frame t → s.pkt? (pkey (portBough p.val) t) = some x → x.hasBuf = true → x.promote = false →
    256 * poolSize x.bark.pool < s.macTakes p.val x.bytes.length →
    exec (.bufferOverrun p) s = .next (if s.transferBegun (pkey (portBough p.val) t) then
      ((s.cnt (CRN_OVERRUN_CNT (portBough p.val))).setCur p.val (.skip x.bytes)).frameBad (pkey (portBough p.val) t)
        (256 * poolSize x.bark.pool) x
      else (s.putPkt (pkey (portBough p.val) t) { x with promote := true }).bufAsk
        (pkey (portBough p.val) t) { x with promote := true })) ∧
  (∀ (s : State) (p : Fin 256) (t got : Nat) (x : Pkt), s.alive (portQuad p.val) = true →
    (s.rxPort p.val).cur = .frame t → s.pkt? (pkey (portBough p.val) t) = some x → got < s.macTakes p.val x.bytes.length →
    8192 * modeLanes (s.portMode p.val) ≤ s.fifoBytes p.val t got →
    exec (.rxFifoOvf p got) s = .next (
      let u := ((s.cnt (RX_FIFO_OVF_CNT p.val)).raise (PRT_INT_RX_FIFO_OVF p.val)).setCur p.val .gone
      if x.window then u.frameBad (pkey (portBough p.val) t) got x else u.frameDrop (pkey (portBough p.val) t) x)) ∧
  (∀ (s : State) (b : Fin 32) (u : BitVec 13) (q : BitVec 2) (t : Fin 8192) (x : BufSt), s.alive (islBough b.val) = true →
    s.bufPlaced b.val u.toNat q.toNat = true → s.bufs.find? (pkey b.val u.toNat) = some x → x.tag = t.val →
    ∃ v, exec (.bufferFree b u q t) s = .next v ∧ v.bufs = s.bufs.erase (pkey b.val u.toNat) ∧
      v.freedBufs = s.freedBufs.filter (fun (e : Nat × Nat × Nat) => s.thisCycle e.2.2) ++ [(pkey b.val u.toNat, q.toNat, s.time.mono)] ∧
      (s.pkt? (pkey b.val t.val) = none → v.pkts = s.pkts) ∧
      (∀ y, s.pkt? (pkey b.val t.val) = some y → v.pkts = s.pkts.insert (pkey b.val t.val)
        (if y.bark.buf = u.toNat then { y with hasBuf := false } else y)) ∧
      v = { s with bufs := v.bufs, freedBufs := v.freedBufs, pkts := v.pkts, regs := v.regs } ∧
      regsKept [CRN_USE b.val x.owner q.toNat, CRN_POOL_STS b.val q.toNat, CRN_STORE_STS b.val] s v) ∧
  (∀ (s : State) (b : Fin 32) (u : BitVec 13) (q : BitVec 2) (t : Fin 8192), s.alive (islBough b.val) = true →
    s.bufPlaced b.val u.toNat q.toNat = true → s.bufs.find? (pkey b.val u.toNat) = none →
    ∃ v, exec (.bufferFree b u q t) s = .next v ∧ counted (CRN_DBL_FREE_CNT b.val) 1 s v ∧ v.rd CRN_INT_BAD_FREE = 1 ∧
      onlyRegsJrn [CRN_DBL_FREE_CNT b.val, CRN_DBL_FREE_CNT b.val + 4, CRN_INT] s v) ∧
  ∀ (s : State) (b : Fin 32) (u : BitVec 13) (q : BitVec 2) (t : Fin 8192), s.alive (islBough b.val) = true →
    (s.bufPlaced b.val u.toNat q.toNat = false ∨ ∃ x, s.bufs.find? (pkey b.val u.toNat) = some x ∧ x.tag ≠ t.val) →
    ∃ v, exec (.bufferFree b u q t) s = .next v ∧ counted (CRN_FOREIGN_FREE_CNT b.val) 1 s v ∧ v.rd CRN_INT_BAD_FREE = 1 ∧
      onlyRegsJrn [CRN_FOREIGN_FREE_CNT b.val, CRN_FOREIGN_FREE_CNT b.val + 4, CRN_INT] s v

/-- R25, R61, R65, R67, R125, R275. -/
def Obligations.FrameEndAndWindow : Prop :=
  (∀ (s : State) (p : Fin 256) (e : Bool), s.alive (portQuad p.val) = true → (s.rxPort p.val).cur = .gone →
    exec (.frameEnd p e) s = .next (s.setCur p.val .idle)) ∧
  (∀ (s : State) (p : Fin 256) (e : Bool) (f : List Byte), s.alive (portQuad p.val) = true →
    (s.rxPort p.val).cur = .skip f →
    exec (.frameEnd p e) s = .next (
      let u := (s.macCount p.val f (macCause f e (s.maxFrame p.val))).setCur p.val .idle
      if (macCause f e (s.maxFrame p.val)).isNone && isMacCtrl f then u.cnt (RX_MAC_CTRL_CNT p.val) else u)) ∧
  (∀ (s : State) (p : Fin 256) (e : Bool) (t c : Nat) (x : Pkt), s.alive (portQuad p.val) = true → t < 8192 →
    (s.rxPort p.val).cur = .frame t → s.pkt? (pkey (portBough p.val) t) = some x → x.window = false →
    macCause x.bytes (e || x.ue) (s.maxFrame p.val) = some c →
    exec (.frameEnd p e) s = .next (((s.setCur p.val .idle).macCount p.val x.bytes (some c)).frameDrop (pkey (portBough p.val) t) x)) ∧
  (∀ (s : State) (p : Fin 256) (e : Bool) (t : Nat) (x : Pkt), s.alive (portQuad p.val) = true → t < 8192 →
    (s.rxPort p.val).cur = .frame t → s.pkt? (pkey (portBough p.val) t) = some x → x.window = false →
    macCause x.bytes (e || x.ue) (s.maxFrame p.val) = none → isMacCtrl x.bytes = true →
    exec (.frameEnd p e) s = .next ((((s.setCur p.val .idle).macCount p.val x.bytes none).cnt (RX_MAC_CTRL_CNT x.bark.ingPort)).frameDrop
      (pkey (portBough p.val) t) x)) ∧
  (∀ (s : State) (p : Fin 256) (e : Bool) (t : Nat) (x : Pkt), s.alive (portQuad p.val) = true → t < 8192 →
    (s.rxPort p.val).cur = .frame t → s.pkt? (pkey (portBough p.val) t) = some x → x.window = false →
    macCause x.bytes (e || x.ue) (s.maxFrame p.val) = none → isMacCtrl x.bytes = false →
    ∃ u, exec (.frameEnd p e) s = .next u ∧
      u.pkt? (pkey (portBough p.val) t) = some { x with ended := true, endAt := s.time.mono, stage := if isLldp x.bytes then .lldp else .rx } ∧
      u.rx = (if x.hasBuf && !x.promote then ((s.setCur p.val .idle).fifoOut x.bark.ingPort t).rx else (s.setCur p.val .idle).rx) ∧
      counted (RX_FRAMES_CNT p.val) 1 s u ∧ counted (RX_BYTES_CNT p.val) x.bytes.length s u ∧
      u = { s with rx := u.rx, pkts := u.pkts, regs := u.regs } ∧
      regsKept [RX_FRAMES_CNT p.val, RX_FRAMES_CNT p.val + 4, RX_BYTES_CNT p.val, RX_BYTES_CNT p.val + 4] s u) ∧
  (∀ (s : State) (b : Fin 32) (t : Fin 8192) (x : Pkt), s.alive (islBough b.val) = true →
    s.pkt? (pkey b.val t.val) = some x → x.stage = .rx → x.hasBuf = true → x.promote = false → x.window = false →
    (x.ended = true ∨ (x.bark.ct = true ∧ 256 < x.bytes.length ∧ isLldp x.bytes = false ∧ isMacCtrl x.bytes = false)) →
    ∃ u y, exec (.parseWindowRelease b t) s = .next u ∧ u.pkt? (pkey b.val t.val) = some y ∧
      y.stage = .parsed ∧ y.window = true ∧ y.genHeld = true ∧ y.bark.gen = s.boughGen b.val ∧ y.rel = s.nextRel ∧
      y.bark.len = (if x.ended then x.bytes.length else u.ctLen y) ∧ y.bytes = x.bytes ∧ y.ended = x.ended ∧
      y.bark.arrTs = x.bark.arrTs ∧ y.bark.seq = x.bark.seq ∧
      u.nextRel = s.nextRel + 1 ∧ (s.ecc.diff = [] → (∀ k, k ≠ pkey b.val t.val → u.pkt? k = s.pkt? k) ∧
      u = { s with pkts := u.pkts, nextRel := u.nextRel, frags := u.frags, regs := u.regs, msi := u.msi, jrn := u.jrn })) ∧
  (∀ (s : State) (b : Fin 32) (t : Fin 8192) (x : Pkt), s.alive (islBough b.val) = true →
    s.pkt? (pkey b.val t.val) = some x → x.stage = .lldp → x.hasBuf = true → x.bark.ingPort < 256 → x.bark.bad = false →
    s.on (PRT_CFG_LLDP_COPY_EN x.bark.ingPort) = true →
    ∃ u, exec (.lldpFrame b t) s = .next u ∧
      u.pkt? (pkey b.val t.val) = some { x with stage := .sent, bark := { x.bark with len := x.bytes.length, copy := true }, hostCopies := x.hostCopies ++ [⟨s.rd (PRT_CFG_LLDP_CH x.bark.ingPort), 4, s.time.mono⟩] } ∧
      (∀ k, k ≠ pkey b.val t.val → u.pkt? k = s.pkt? k) ∧
      counted (RX_LLDP_CNT x.bark.ingPort) 1 s u ∧
      (lldpIds ((x.bytes.take (x.bytes.length - 4)).drop 14) = none → counted (TRACE_BAD_CNT x.bark.ingPort) 1 s u ∧
        u = { s with pkts := u.pkts, regs := u.regs } ∧ regsKept [RX_LLDP_CNT x.bark.ingPort, RX_LLDP_CNT x.bark.ingPort + 4,
          TRACE_BAD_CNT x.bark.ingPort, TRACE_BAD_CNT x.bark.ingPort + 4] s u) ∧
      ∀ c q, lldpIds ((x.bytes.take (x.bytes.length - 4)).drop 14) = some (c, q) →
        u = { (s.cnt (RX_LLDP_CNT x.bark.ingPort)).traceRx x.bark.ingPort c q with pkts := u.pkts }) ∧
  ∀ (s : State) (b : Fin 32) (t : Fin 8192) (x : Pkt), s.alive (islBough b.val) = true →
    s.pkt? (pkey b.val t.val) = some x → x.stage = .lldp → x.hasBuf = true → x.bark.ingPort < 256 →
    s.on (PRT_CFG_LLDP_COPY_EN x.bark.ingPort) = false → x.hostCopies = [] → s.copiesOf (pkey b.val t.val) = [] →
    ∃ u, exec (.lldpFrame b t) s = .next u ∧ u.pkt? (pkey b.val t.val) = none ∧ counted (RX_LLDP_CNT x.bark.ingPort) 1 s u

/-- R45, R54, R60, R63, R74, R75, R321. -/
def Obligations.LinkFallsAndPortStops : Prop :=
  (∀ (s : State) (p : Fin 256) (los lf : Bool), s.alive (portQuad p.val) = true → s.isPort p.val = true →
    s.on (PRT_STS_LINK_UP p.val) = true → s.leaving p.val = [] → (∀ q < 16, (s.q (qkey p.val q)).copies = []) →
    s.on (BRG_PORT_CFG_FLUSH_ON_DOWN p.val) = false → ∃ t, exec (.linkDown p los lf true) s = .next t ∧
      t.on (PRT_STS_LINK_UP p.val) = false ∧ t.on (PRT_STS_REMOTE_FAULT p.val) = true ∧
      (lf = true → t.on (PRT_STS_LOCAL_FAULT p.val) = true) ∧ (los = true → t.on (PRT_STS_ALIGNED p.val) = false ∧
        (∀ ln < modePcsLanes (s.portMode p.val), (t.pcsLane p.val ln).lock = none)) ∧
      counted (AM_LOCK_LOSS_CNT p.val) (if los then ((List.range (modePcsLanes (s.portMode p.val))).filter
        (fun ln => (s.pcsLane p.val ln).lock.isSome)).length else 0) s t ∧
      t.rd (PRT_INT_LINK p.val) = 1 ∧ counted (LINK_DOWN_CNT p.val) 1 s t ∧ (t.port p.val).run = 0 ∧
      t = { s with ports := t.ports, regs := t.regs, msi := t.msi, jrn := t.jrn, tmPorts := t.tmPorts }) ∧
  (∀ (s : State) (p : Fin 256) (v : Word), s.reaches (PRT_CFG p.val) = true → s.isPort p.val = true →
    s.on (PRT_CFG_EN p.val) = true → (s.port p.val).secs = [] → (s.rxPort p.val).fifo = [] → (s.rxPort p.val).cur = .idle →
    (∀ q < 16, (s.q (qkey p.val q)).copies = []) → ∃ t, exec (.portDisable p v) s = .next t ∧
      t.on (PRT_CFG_EN p.val) = false ∧ (t.port p.val).secs = [] ∧
      t = { s with ports := t.ports, regs := t.regs, tmPorts := t.tmPorts, qs := t.qs } ∧
      regsKept ([PRT_CFG p.val, UAS_CNT p.val, UAS_CNT p.val + 4, ES_CNT p.val, ES_CNT p.val + 4, SES_CNT p.val, SES_CNT p.val + 4] ++
        (List.range 16).map (fun q => (TMG_Q_GATE_OPEN p.val q).addr)) s t) ∧
  (∀ (s : State) (p : Fin 256) (v : Word), s.reaches (PRT_CFG p.val) = true → (s.isPort p.val = false ∨ s.on (PRT_CFG_EN p.val) = false) →
    ∃ t, exec (.portDisable p v) s = .next t ∧ t.on (PRT_CFG_EN p.val) = false ∧ t = { s with regs := t.regs, qs := t.qs } ∧
      regsKept (PRT_CFG p.val :: (List.range 16).map (fun q => (TMG_Q_GATE_OPEN p.val q).addr)) s t) ∧
  (∀ (s : State) (p : Fin 256), s.alive (portQuad p.val) = true → s.isPort p.val = true → s.on (PRT_CFG_EN p.val) = false →
    (s.rxPort p.val).fifo = [] → (s.rxPort p.val).cur = .idle → s.leaving p.val = [] →
    exec (.portDrained p) s = .next (s.wr (PRT_STS_DRAINED p.val) 1)) ∧
  ∀ (s : State) (g : Fin 32), s.alive (islQuad (2 * g.val)) = true → (s.port (8 * g.val)).modePend = true →
    (∀ k < 8, s.isPort (8 * g.val + k) = true → s.on (PRT_STS_LINK_UP (8 * g.val + k)) = false) →
    ∃ t, exec (.modeActive g) s = .next t ∧
      t.rd (PRT_GRP_STS_MODE_ACT g.val) = s.rd (PRT_GRP_CFG_MODE g.val) ∧ (t.port (8 * g.val)).modePend = false ∧
      (∀ k < 8, s.isPort (8 * g.val + k) = true → t.on (PRT_STS_ALIGNED (8 * g.val + k)) = false ∧
        t.on (PRT_STS_AN_DONE (8 * g.val + k)) = false ∧ t.on (PRT_STS_LT_DONE (8 * g.val + k)) = false ∧
        t.rd (PRT_STS_TRACE (8 * g.val + k)) = 0 ∧ (t.port (8 * g.val + k)).pcs = []) ∧
      (∀ k < 8, t.isPort (8 * g.val + k) = true → t.on (PRT_STS_DRAINED (8 * g.val + k)) = !s.on (PRT_CFG_EN (8 * g.val + k))) ∧
      t = { s with ports := t.ports, regs := t.regs, msi := t.msi } ∧
      regsKept (PRT_GRP_STS g.val :: (List.range 8).flatMap (fun k => [PRT_STS (8 * g.val + k), PRT_INT (8 * g.val + k)])) s t

/-- R282, R283, R289, R293 to R296, R30. -/
def Obligations.CopiesThroughTheCrown : Prop :=
  (∀ (s : State) (b : Fin 32) (n : Nat) (c : Copy), s.alive (islBough b.val) = true → s.nextOrder b.val = some (n, c) →
    c.ue = 1 → exec (.dequeueOrder b) s = .next (
      if c.inShare then (n :: (s.joined c.shareKey).map (·.1)).foldl (fun s m => (s.cnt (CRN_UE_DISCARD_CNT b.val)).endCopy m)
        (({ s with shares := s.shares.erase c.shareKey } : State).crownShow b.val c.col)
      else (s.cnt (CRN_UE_DISCARD_CNT b.val)).endCopy n)) ∧
  (∀ (s : State) (b : Fin 32) (n : Nat) (c : Copy), s.alive (islBough b.val) = true → s.nextOrder b.val = some (n, c) →
    c.ue ≠ 1 → s.injArmed 5 0 = false →
    exec (.dequeueOrder b) s = .next (((((((s.cnt (CRN_XFER_CNT b.val)).cnt (CRN_XFER_CELL_CNT b.val) (s.wholeCells c)).pmuEv 0x0A b.val
      (s.wholeCells c)).putCopy n { c with stage := .xp, xpAt := s.time.mono }).sharePresent c).crownShow b.val c.col).settle (pkey b.val c.tag))) ∧
  (∀ (s : State) (n : Nat) (c : Copy), s.copies.find? n = some c → s.alive (islCol c.col) = true → c.stage = .xp →
    (c.inShare = false ∨ ∃ x, s.shares.find? c.shareKey = some x ∧ x.present = true) → exec (.presenceNotice n) s = .next (s.putCopy n { c with stage := .noticed })) ∧
  (∀ (s : State) (n : Nat) (c : Copy), s.copies.find? n = some c → s.alive (islBough c.col) = true → c.stage = .noticed →
    s.rrPick (rrRead c.col) 8 (s.readWaits c.col) = some (c.port % 8) → ∀ u, u = s.rrServed (rrRead c.col) 8 (c.port % 8) →
    (c.ue = 2 → exec (.transmitOrder n) s = .next ((u.cnt (CRN_XP_UE_CNT c.col)).endCopy n)) ∧
    (c.ue ≠ 2 → lateBy (2 * s.now (islBough c.col) + s.ttx c.port) c.deadline = true →
      exec (.transmitOrder n) s = .next (u.crownLate n c)) ∧
    (∀ p, c.ue ≠ 2 → lateBy (2 * s.now (islBough c.col) + s.ttx c.port) c.deadline = false →
      s.pkt? (pkey c.bough c.tag) = some p →
      let e := if c.mirror then (mirrorBytes p c.len, u) else u.editCopy p c.port (s.egressTs c)
      let v := ((e.2.cnt (CRN_XP_CELL_CNT c.col) (e.2.wholeCells c)).pmuEv 0x0C c.col).putCopy n
        { c with stage := .tx, out := withFcs e.1, teg := s.egressTs c }
      let w := if c.port < 256 ∧ v.on (PRT_CFG_EN c.port) = false then v.wr (PRT_STS_DRAINED c.port) 0 else v
      exec (.transmitOrder n) s = .next ((if c.inShare then w.shareDown c.shareKey else w).crownShow c.bough c.col))) ∧
  (∀ (s : State) (p : Fin 256) (n : Nat) (c : Copy) (k : Pkt), s.alive (portQuad p.val) = true →
    s.firstLeaving p.val = some (n, c) → s.pkt? (pkey c.bough c.tag) = some k → k.ended = true →
    c.teg + ceilDiv (c.out.length * 8) (modeRate (s.portMode p.val)) ≤ s.now (portQuad p.val) →
    exec (.txComplete p) s = .next (((({ s with txLast := s.txLast.insert p.val (c.out, false) } : State).cnt (TX_FRAMES_CNT p.val)).cnt
      (TX_BYTES_CNT p.val) c.out.length).endCopy n)) ∧
  (∀ (s : State) (n got : Nat) (c : Copy) (k : Pkt), s.copies.find? n = some c → s.alive (portQuad c.port) = true →
    s.pkt? (pkey c.bough c.tag) = some k → c.stage = .tx → c.ct = true →
    exec (.ctUnderrun n got) s = .next (((s.cnt (CRN_UNDERRUN_CNT c.col)).raise CRN_INT_UNDERRUN).stompCopy n c got k.bytes.length)) ∧
  (∀ (s : State) (n : Nat) (c : Copy) (k : Pkt), s.copies.find? n = some c → s.alive (islCol c.col) = true →
    s.pkt? (pkey c.bough c.tag) = some k → c.inXp = true → c.xpAt + max 1 (s.rd CRN_AGE_CFG_XP_MAX) * 8000 ≤ s.time.mono →
    exec (.xpStale n) s = .next (((s.cnt (CRN_XP_STALE_CNT c.col)).raise CRN_INT_XP_STALE).endCopy n)) ∧
  (∀ (s : State) (n : Nat) (c : Copy) (k : Pkt), s.copies.find? n = some c → s.alive (islCol c.col) = true →
    s.pkt? (pkey c.bough c.tag) = some k → c.stage = .tx → c.xpAt + max 1 (s.rd CRN_AGE_CFG_XP_MAX) * 8000 ≤ s.time.mono →
    (k.ended = false ∨ s.leftBytes c < c.out.length) →
    exec (.xpStale n) s = .next (((s.cnt (CRN_XP_STALE_CNT c.col)).raise CRN_INT_XP_STALE).stompCopy n c
      (min k.bytes.length (s.leftBytes c)) k.bytes.length)) ∧
  ∀ (s : State) (b c : Fin 32) (t : Fin 8192) (x : ShareSt), s.alive (islTm (c.val / 8)) = true →
    s.shares.find? (shareKey (pkey b.val t.val) c.val) = some x → x.winEnd ≤ s.now (islTm (c.val / 8)) →
    exec (.shareWinEnd b t c) s = .next ((s.copies.filter (fun e => e.2.shareKey == shareKey (pkey b.val t.val) c.val
      && e.2.inShare && decide (e.2.stage = .queued))).foldl (fun s e =>
        (s.putCopy e.1 { e.2 with detached := true, ue := if e.2.ue = 2 then 0 else e.2.ue }).shareDown (shareKey (pkey b.val t.val) c.val)) s)

/-- R270, R293, R297, R345. -/
def Obligations.PacketMemoriesAndPools : Prop :=
  (∀ (s : State) (b : Fin 32) (t : Fin 8192) (n got : Nat) (w : BitVec 48) (y : BitVec 8) (x : Pkt),
    s.alive (islBough b.val) = true → s.pkt? (pkey b.val t.val) = some x → x.ended = false → synSt 64 y.toNat = .ue →
    exec (.cellUe 2 b t n got w y) s = .next (((s.cnt (UE_CNT 4)).pageFail 4 (pkey b.val t.val / 8192) y.toNat w.toNat
      (islBough (pkey b.val t.val / 8192))).putPkt (pkey b.val t.val) { x with ue := true })) ∧
  (∀ (s : State) (b : Fin 32) (t : Fin 8192) (n got : Nat) (w : BitVec 48) (y : BitVec 8) (x : Pkt),
    s.alive (islBough b.val) = true → s.pkt? (pkey b.val t.val) = some x →
    (synSt 64 y.toNat = .ue → exec (.cellUe 3 b t n got w y) s = .next (((((s.cnt (UE_CNT 4)).pageFail 4 (pkey b.val t.val / 8192) y.toNat w.toNat
      (islBough (pkey b.val t.val / 8192))).cnt ECC_PKT_DROP_CNT).cnt (RX_CAUSE_CNT x.bark.ingPort 6)).purge (pkey b.val t.val) x)) ∧
    (synSt 64 y.toNat = .poison → exec (.cellUe 3 b t n got w y) s = .next (((((s.cnt (POISON_RD_CNT 4)).eccLog 4 2 (pkey b.val t.val / 8192) y.toNat w.toNat
      (islBough (pkey b.val t.val / 8192))).cnt ECC_PKT_DROP_CNT).cnt (RX_CAUSE_CNT x.bark.ingPort 6)).purge (pkey b.val t.val) x)) ∧
    ∀ m, synSt 64 y.toNat = .ok → exec (.cellUe m b t n got w y) s = .next s) ∧
  (∀ (s : State) (b : Fin 32), s.alive (islBough b.val) = true →
    (∀ e ∈ s.bufs, e.1 / 8192 = b.val → s.time.mono ≤ e.2.at_ + max 2200 (s.rd CRN_AGE_CFG_STALE) * 8000000) →
    exec (.bufStaleSweep b) s = .next s) ∧
  (∀ (s : State) (b : Fin 32) (k : Nat) (x : BufSt), s.alive (islBough b.val) = true → s.bufs = [(k, x)] → k / 8192 = b.val →
    x.at_ + max 2200 (s.rd CRN_AGE_CFG_STALE) * 8000000 < s.time.mono →
    ∀ u, u = ((s.cnt (CRN_STALE_CNT b.val)).raise CRN_INT_STALE).journal (islBough b.val) 0x0702 b.val
      (natLe 2 (k % 8192) ++ natLe 1 x.pool ++ [0] ++ natLe 2 x.tag ++ [0, 0] ++ natLe 4 ((s.time.mono - x.at_) / 8000000)) →
    (s.pkt? (pkey b.val x.tag) = none →
      exec (.bufStaleSweep b) s = .next (u.bufFree b.val (k % 8192) x.pool x.tag)) ∧
    ∀ y, s.pkt? (pkey b.val x.tag) = some y → y.hasBuf = true → y.bark.buf = k % 8192 → y.hostCopies = [] →
      s.copiesOf (pkey b.val x.tag) = [] → exec (.bufStaleSweep b) s = .next (u.purge (pkey b.val x.tag) y)) ∧
  (∀ (s : State) (b : Fin 32) (q : Fin 4) (v : Word), s.reaches (CRN_POOL_CFG b.val q.val) = true →
    s.on (CRN_STORE_STS_IDLE b.val) = true → s.poolUnits b.val q.val (v.toNat % 2 ^ 14) ≤ 8192 →
    ∃ t, exec (.crnPoolCfgWrite b q v) s = .next t ∧ t.rd (CRN_POOL_CFG_COUNT b.val q.val) = v.toNat % 2 ^ 14 ∧
      t.rd (CRN_POOL_STS_FREE b.val q.val) = v.toNat % 2 ^ 14 ∧ t = { s with regs := t.regs } ∧
      regsKept [CRN_POOL_CFG b.val q.val, CRN_POOL_STS b.val q.val] s t) ∧
  ∀ (s : State) (b : Fin 32) (q : Fin 4) (v : Word), s.reaches (CRN_POOL_CFG b.val q.val) = true →
    (s.on (CRN_STORE_STS_IDLE b.val) = false ∨ 8192 < s.poolUnits b.val q.val (v.toNat % 2 ^ 14)) →
    exec (.crnPoolCfgWrite b q v) s = .next (s.wr (CRN_STORE_STS_CFG_REJ_STK b.val) 1)

/-- R37, R299 to R301, R317, R392 (with no error injection armed for the descriptor store). -/
def Obligations.AdmissionOfCopies : Prop :=
  (∀ (s : State) (b : Fin 32) (t : Fin 8192) (x : Pkt) (y : Nat), s.alive (islBough b.val) = true →
    s.pkt? (pkey b.val t.val) = some x → x.stage = .toAdmit → x.memUe = false → x.bark.bad = false →
    (x.ended = true ∨ s.mayCut x = true) → x.dec.eg = .port y →
    x.dec.mir = none → s.admCheck x y x.bark.cls (x.bark.len + 24) = none → s.injArmed 6 0 = false →
    lateBy (2 * (s.now (islTm (portTm y)) + s.tQueue y x.bark.cls (x.bark.len + 24) + 200) + s.ttx y) x.bark.deadline = false →
    ∃ u c, exec (.admission b t) s = .next u ∧ u.copies.find? s.nextCopy = some c ∧ u.nextCopy = s.nextCopy + 1 ∧
      c.bough = b.val ∧ c.tag = t.val ∧ c.port = y ∧ c.cls = x.bark.cls ∧ c.w = x.bark.len + 24 ∧ c.flen = x.bark.len ∧
      c.deadline = x.bark.deadline ∧ c.stage = .queued ∧ c.mirror = false ∧ c.ct = (!x.ended) ∧
      (u.q (qkey y x.bark.cls)).copies = (s.q (qkey y x.bark.cls)).copies ++ [s.nextCopy] ∧
      (u.q (qkey y x.bark.cls)).bytes = (s.q (qkey y x.bark.cls)).bytes + (x.bark.len + 24) ∧
      (∀ n, n ≠ s.nextCopy → u.copies.find? n = s.copies.find? n) ∧
      u = { s with pkts := u.pkts, copies := u.copies, nextCopy := u.nextCopy, qs := u.qs, regs := u.regs, msi := u.msi, obs := u.obs }) ∧
  (∀ (s : State) (b : Fin 32) (t : Fin 8192) (x : Pkt) (y slot sum : Nat), s.alive (islBough b.val) = true →
    s.pkt? (pkey b.val t.val) = some x → x.stage = .toAdmit → x.memUe = false → x.bark.bad = false →
    (x.ended = true ∨ s.mayCut x = true) → x.dec.eg = .port y → x.dec.mir = none →
    ∀ u, u = s.putPkt (pkey b.val t.val) { x with stage := .sent } →
    (s.admCheck x y x.bark.cls (x.bark.len + 24) = some (slot, sum) →
      exec (.admission b t) s = .next (((((if x.exp then u.cnt OBS_EXP_REFUSED_CNT else u).qcount y x.bark.cls slot).cnt sum).cnt
        (RX_CAUSE_CNT x.bark.ingPort 5)).pmuEv 0x51 (portTm y) |>.settle (pkey b.val t.val))) ∧
    (s.admCheck x y x.bark.cls (x.bark.len + 24) = none →
      lateBy (2 * (s.now (islTm (portTm y)) + s.tQueue y x.bark.cls (x.bark.len + 24) + 200) + s.ttx y) x.bark.deadline = true →
      exec (.admission b t) s = .next ((((((if x.exp then u.cnt OBS_EXP_REFUSED_CNT else u).qcount y x.bark.cls 4).cnt TMG_REF_BOUND_CNT).cnt
        (RX_CAUSE_CNT x.bark.ingPort 5)).pmuEv 0x51 (portTm y)).raise TMG_INT_REF_BOUND |>.settle (pkey b.val t.val)))) ∧
  ∀ (s : State) (b : Fin 32) (t : Fin 8192) (x : Pkt), s.alive (islBough b.val) = true →
    s.pkt? (pkey b.val t.val) = some x → x.stage = .toAdmit →
    (x.memUe = true → exec (.admission b t) s = .next (s.memDrop (pkey b.val t.val) x)) ∧
    (x.memUe = false → x.bark.bad = true →
      exec (.admission b t) s = .next ((s.putPkt (pkey b.val t.val) { x with stage := .sent }).settle (pkey b.val t.val)))

/-- R36, R303 to R305, R307, R310, R320. -/
def Obligations.SelectionShapersAndGates : Prop :=
  (∀ (s : State) (p : Fin 256) (q n o : Nat) (c : Copy), s.alive (islTm (portTm p.val)) = true →
    ∀ u, u = (s.sharesDue (portBough p.val) (s.now (islTm (portTm p.val)))).foldl State.shareEnd s →
    (u.gclOn p.val = false ∨ u.ecc.diff = []) → u.pickQueue p.val = some q → u.eligible (qkey p.val q) = some (n, c, o) →
    ∀ v, v = u.putTm p.val { u.tmPort p.val with v := (u.q (qkey p.val q)).f } →
    exec (.schedulerSelect p) s = .next (
      if c.ue = 3 then (v.cnt ECC_PKT_DROP_CNT).endCopy n else if u.copyBad c then (v.cnt (CRN_CT_DISCARD_CNT c.bough)).endCopy n
      else if u.tooLate c then v.boundMiss n c 0 else v.sendCopy n c o)) ∧
  (∀ (s : State) (p : Fin 256) (q : Fin 16) (n : Nat) (l : List Nat) (c : Copy), s.alive (islTm (portTm p.val)) = true →
    (s.q (qkey p.val q.val)).copies = n :: l → s.copies.find? n = some c →
    (s.eligible (qkey p.val q.val) = none → s.tooLate c = true → exec (.headAgeCheck p q) s = .next (s.boundMiss n c 1)) ∧
    (s.tooLate c = false → exec (.headAgeCheck p q) s = .next s)) ∧
  (∀ (s : State) (t : Fin 4), s.alive (islTm t.val) = true → s.refillAt.get 0 t.val ≤ s.now (islTm t.val) →
    exec (.shaperRefill t) s = .next (((List.range 64).map (64 * t.val + ·)).foldl State.portRefill
      { s with refillAt := s.refillAt.set 0 t.val ((s.now (islTm t.val) / 125 + 1) * 125) })) ∧
  (∀ (s : State) (p : Fin 256) (q : Fin 16) (v : Word), s.reaches (TMG_Q_SHARE p.val q.val) = true →
    s.shareSum p.val q.val (v.toNat % 2 ^ 17) ≤ 65536 → ∃ t, exec (.qShareWrite p q v) s = .next t ∧
      t.share (qkey p.val q.val) = v.toNat % 2 ^ 17 ∧
      t.rd (TMG_PORT_STS_NQ p.val) = ((List.range 16).filter (fun r =>
        (if r = q.val then v.toNat % 2 ^ 17 else s.share (qkey p.val r)) != 0)).length ∧
      t = { s with qs := t.qs, regs := t.regs } ∧
      ∀ a, a ≠ TMG_Q_SHARE p.val q.val → a ≠ TMG_PORT_STS p.val → (∀ r < 16, a ≠ TMG_Q_GATE p.val r) → t.reg a = s.reg a) ∧
  (∀ (s : State) (p : Fin 256) (q : Fin 16) (v : Word), s.reaches (TMG_Q_SHARE p.val q.val) = true →
    65536 < s.shareSum p.val q.val (v.toNat % 2 ^ 17) →
    exec (.qShareWrite p q v) s = .next (s.wr (TMG_PORT_STS_CFG_REJ_STK p.val) 1)) ∧
  (∀ (s : State) (p : Fin 256) (v : Word), s.reaches (TMG_GCL_CFG p.val) = true → s.on (TMG_GCL_STS_PEND p.val) = true →
    exec (.gclActReq p v) s = .next ((s.wr (TMG_PORT_STS_CFG_REJ_STK p.val) 1).raise TMG_INT_GCL_ERR)) ∧
  (∀ (s : State) (p : Fin 256) (v : Word), s.reaches (TMG_GCL_CFG p.val) = true → s.on (TMG_GCL_STS_PEND p.val) = false →
    let r := s.wr (TMG_GCL_CFG_LEN p.val) (v.toNat ||| 2 ^ 16)
    let cyc := gclCycle (r.gclList p.val (!(s.tmPort p.val).side) (r.gclLen p.val))
    let base := s.rd64 (TMG_GCL_BASE p.val)
    let first := s.now (islTm (portTm p.val)) + 1000
    (1000000000 < cyc → exec (.gclActReq p v) s = .next (r.raise TMG_INT_GCL_ERR)) ∧
    (cyc ≤ 1000000000 → ∃ t, exec (.gclActReq p v) s = .next t ∧ t.on (TMG_GCL_STS_PEND p.val) = true ∧
      (t.tmPort p.val).pend = some (if first ≤ base then base else base + ceilDiv (first - base) cyc * cyc, r.gclLen p.val) ∧
      t = { s with tmPorts := t.tmPorts, regs := t.regs } ∧ regsKept [TMG_GCL_CFG p.val, TMG_GCL_STS p.val] s t)) ∧
  ∀ (s : State) (p : Fin 256) (ta len : Nat), s.alive (islTm (portTm p.val)) = true →
    (s.tmPort p.val).pend = some (ta, len) → ta ≤ s.now (islTm (portTm p.val)) →
    ∃ t, exec (.gclActivate p) s = .next t ∧
      t.tmPort p.val = { s.tmPort p.val with side := !(s.tmPort p.val).side, len := len, base := ta, pend := none } ∧
      t.on (TMG_GCL_STS_PEND p.val) = false ∧ t.on (TMG_GCL_STS_ACTIVE p.val) = true ∧ t.rd TMG_INT_GCL_ACT = 1 ∧
      t = { s with tmPorts := t.tmPorts, qs := t.qs, regs := t.regs, msi := t.msi, jrn := t.jrn }

/-- R428, R433, R437 to R439. -/
def Obligations.BootSequence : Prop :=
  (∀ (s : State) (psel : BitVec 2) (h0 h1 prof : List Byte), s.inReset = false → s.on GLB_BOOT_STS_BUSY = true →
    s.refsHere = true → ∃ t, exec (.bootSequence psel h0 h1 prof) s = .next t ∧ t.on GLB_BOOT_STS_BUSY = false ∧
      t.on GLB_BOOT_STS_DONE = true ∧ t.rd GLB_BOOT_INT_DONE = 1) ∧
  (∀ (s : State) (psel : BitVec 2) (h0 h1 prof : List Byte), s.inReset = false → s.on GLB_BOOT_STS_BUSY = true →
    s.refsHere = true → hdrPick h0 h1 = none → ∃ t, exec (.bootSequence psel h0 h1 prof) s = .next t ∧
      t.rd GLB_BOOT_STS_CAUSE = 1 ∧ t.rd GLB_BOOT_STS_PROF_FALLBACK = 1 ∧ t.reg GLB_BOOT_VER = 0 ∧
      t.rd GLB_BOOT_INT_FALLBACK = 1 ∧ t.on GLB_PROF_SEL_NEXT_V = false ∧ t.rd GLB_PROF_SEL_PSEL = psel.toNat ∧
      t.rd GLB_BOOT_STS_PROF = (if s.on GLB_PROF_SEL_NEXT_V then s.rd GLB_PROF_SEL_NEXT else psel.toNat) ∧
      t.tbl = s.tbl ∧ t.pkts = s.pkts ∧ t.rs = s.rs ∧ t.svn = s.svn ∧ t.jrn = s.jrn) ∧
  ∀ (s : State) (psel : BitVec 2) (h0 h1 prof : List Byte),
    (s.inReset = true ∨ s.on GLB_BOOT_STS_BUSY = false ∨ s.refsHere = false) →
    exec (.bootSequence psel h0 h1 prof) s = .next s

/-- R437, R440 to R443. -/
def Obligations.ProfileSwitch : Prop :=
  (∀ (s : State) (p : BitVec 2) (h0 h1 prof : List Byte), s.reaches GLB_PROF_CMD = true → s.rd GLB_PROF_STS_STATE ≠ 0 →
    exec (.profSwitchHitless p h0 h1 prof) s = .next (s.wr GLB_PROF_STS_REJ_STK 1) ∧
    exec (.profSwitchDrain p h0 h1 prof) s = .next (s.wr GLB_PROF_STS_REJ_STK 1)) ∧
  (∀ (s : State) (p : BitVec 2) (h0 h1 prof : List Byte), s.reaches GLB_PROF_CMD = true → s.rd GLB_PROF_STS_STATE = 0 →
    (s.graftSt ≠ 0 ∨ s.patchBusy = true) → ∃ t, exec (.profSwitchHitless p h0 h1 prof) s = .next t ∧
      exec (.profSwitchDrain p h0 h1 prof) s = .next t ∧ t.rd GLB_PROF_STS_RESULT = 11 ∧ t.rd GLB_PROF_STS_STATE = 0 ∧
      t.rd GLB_BOOT_INT_SWITCH_FAIL = 1 ∧ t = { s with sw := none, regs := t.regs, msi := t.msi } ∧
      regsKept [GLB_PROF_STS, GLB_BOOT_INT] s t) ∧
  (∀ (s : State) (p : BitVec 2) (h0 h1 prof : List Byte), s.reaches GLB_PROF_CMD = true → s.rd GLB_PROF_STS_STATE = 0 →
    s.graftSt = 0 → s.patchBusy = false → (s.profCheck p.toNat h0 h1 prof).cause = 0 →
    (∃ t, exec (.profSwitchDrain p h0 h1 prof) s = .next t ∧ t.rd GLB_PROF_STS_STATE = 2 ∧
      t.sw = some { bytes := prof, prof := p.toNat, drain := true, until_ := s.time.mono + max 1 (s.rd GLB_PROF_CFG_DRAIN_TMO) * 8000000 } ∧
      t = { s with sw := t.sw, regs := t.regs } ∧ regsKept [GLB_PROF_STS] s t) ∧
    (s.hitlessCause (s.profCheck p.toNat h0 h1 prof).recs ≠ 0 → ∃ t, exec (.profSwitchHitless p h0 h1 prof) s = .next t ∧
      t.rd GLB_PROF_STS_RESULT = s.hitlessCause (s.profCheck p.toNat h0 h1 prof).recs ∧ t.rd GLB_PROF_STS_STATE = 0 ∧
      t.rd GLB_BOOT_INT_SWITCH_FAIL = 1 ∧ t = { s with sw := none, regs := t.regs, msi := t.msi } ∧
      regsKept [GLB_PROF_STS, GLB_BOOT_INT] s t) ∧
    (s.hitlessCause (s.profCheck p.toNat h0 h1 prof).recs = 0 → ∃ t, exec (.profSwitchHitless p h0 h1 prof) s = .next t ∧
      t = s.hitless p.toNat prof (s.profCheck p.toNat h0 h1 prof) ∧ t.rd GLB_PROF_STS_STATE = 4 ∧ t.graftSt ≠ 0 ∧
      t.rd TWG_PATCH_STS_STATE = 1 ∧ t.twig.patchVer = (s.profCheck p.toNat h0 h1 prof).ver ∧
      t.sw = some { bytes := prof, prof := p.toNat, drain := false })) ∧
  (∀ (s : State) (p : BitVec 2) (h0 h1 prof : List Byte), s.reaches GLB_PROF_CMD = true → s.rd GLB_PROF_STS_STATE = 0 →
    s.graftSt = 0 → s.patchBusy = false → (s.profCheck p.toNat h0 h1 prof).cause ≠ 0 → ∃ t, exec (.profSwitchHitless p h0 h1 prof) s = .next t ∧
      exec (.profSwitchDrain p h0 h1 prof) s = .next t ∧ t.rd GLB_PROF_STS_RESULT = (s.profCheck p.toNat h0 h1 prof).cause ∧ t.rd GLB_PROF_STS_STATE = 0 ∧
      t.rd GLB_BOOT_INT_SWITCH_FAIL = 1 ∧ t = { s with sw := none, regs := t.regs, msi := t.msi, jrn := t.jrn } ∧
      regsKept (jrnRegs ++ [GLB_PROF_STS, GLB_BOOT_INT, TWG_INT]) s t) ∧
  (∀ (s : State) (w : ProfSw), s.alive islMgmt = true → s.sw = some w →
    (w.drain = false → w.graftDone = true → w.patchDone = true → ∃ t, exec .profSwitchDone s = .next t ∧ t.sw = none ∧
      t.rd GLB_BOOT_STS_PROF = w.prof % 4 ∧ t.reg GLB_BOOT_VER = leAt w.bytes 12 4 % 2 ^ 32 ∧ t.rd GLB_PROF_STS_RESULT = 0 ∧
      t.rd GLB_PROF_STS_STATE = 0 ∧ t.rd GLB_BOOT_INT_SWITCH_DONE = 1 ∧
      t = { s with sw := none, regs := t.regs, msi := t.msi } ∧ regsKept [GLB_BOOT_STS, GLB_BOOT_VER, GLB_PROF_STS, GLB_BOOT_INT] s t) ∧
    (w.drain = true → s.time.mono ≤ w.until_ → (∀ b < 32, s.rd (BGH_TAG_STS_IN_USE b) = 0) →
      exec .profDrainComplete s = .next (s.drainApply w)) ∧
    (w.drain = true → s.time.mono ≤ w.until_ → (∀ b < 32, s.rd (BGH_TAG_STS_IN_USE b) = 0) → swRecs w.bytes = [] →
      ∃ t, exec .profDrainComplete s = .next t ∧ t.sw = none ∧ t.rd GLB_PROF_STS_RESULT = 0 ∧ t.rd GLB_PROF_STS_STATE = 0 ∧
        t.rd GLB_BOOT_STS_PROF = w.prof % 4 ∧ t = { s with sw := none, regs := t.regs, msi := t.msi }) ∧
    (w.drain = true → w.until_ ≤ s.time.mono → ∃ t, exec .profDrainTimeout s = .next t ∧ t.sw = none ∧
      t.rd GLB_PROF_STS_RESULT = 12 ∧ t.rd GLB_PROF_STS_STATE = 0 ∧ t.rd GLB_BOOT_INT_SWITCH_FAIL = 1 ∧
      t = { s with sw := none, regs := t.regs, msi := t.msi } ∧ regsKept [GLB_PROF_STS, GLB_BOOT_INT] s t))

/-- R24, R102, R110 to R113: the record is that of the rule found under the packet's generation. -/
def Obligations.DecisionOfAPacket : Prop :=
  (∀ (s : State) (b : Fin 32) (t : BitVec 13) (x : Pkt), s.alive (islBough b.val) = true →
    s.pkt? (pkey b.val t.toNat) = some x → x.stage = .parsed → s.slotFirst b.val x.host = some (pkey b.val t.toNat) →
    (x.host = false ∨ s.slotMay b.val 1 = true) → ∃ u, exec (.decision b t) s = .next u ∧
      ∀ y, u.pkt? (pkey b.val t.toNat) = some y → y.stage ≠ .parsed ∧ y.bark.hash = (s.hashes x.ps.key x.ps.prof).1 ∧
        y.bark.arrTs = x.bark.arrTs ∧ y.bark.seq = x.bark.seq) ∧
  ∀ (s : State) (b : Fin 32) (t : BitVec 13) (x : Pkt), s.alive (islBough b.val) = true →
    s.pkt? (pkey b.val t.toNat) = some x → x.stage = .parsed → s.slotFirst b.val x.host = some (pkey b.val t.toNat) →
    (x.host = false ∨ s.slotMay b.val 1 = true) → x.ps.flowEn = false → x.bark.pass = false → x.ps.act = 0 →
    x.slot = none → s.portBit TWG_ORD_EN x.bark.ingPort = false → s.ecc.diff = [] → s.injArmed 4 0 = false →
    let a := s.ruleLookup (b.val / 4) (x.bark.gen % 2) x.ps.rkey
    let r := s.actRec x.bark.gen a
    fget r AR_OP = 1 → fon r AR_COPY = false → fon r AR_RECIRC = false → fon r AR_TWIG_V = false → fon r AR_POL_V = false →
    fon r AR_TTL_DEC = false →
    ∃ u y, exec (.decision b t) s = .next u ∧ u.pkt? (pkey b.val t.toNat) = some y ∧ y.stage = .toAdmit ∧
      y.dec.eg = .port (fget r AR_EGR) ∧ y.dec.drop = none ∧ y.bark.action = a ∧ y.bark.cls = fget r AR_CLASS ∧
      y.bark.egr = fget r AR_EGR ∧ y.bark.mcast = false ∧ y.bark.colour = 3 ∧ y.bark.twig = false ∧
      y.bark.hash = (s.hashes x.ps.key x.ps.prof).1 ∧ y.bark.deadline = s.deadline x.bark.arrTs (fget r AR_CLASS) ∧
      y.bark.arrTs = x.bark.arrTs ∧ y.bark.seq = x.bark.seq ∧ y.bytes = x.bytes ∧
      (∀ k, k ≠ pkey b.val t.toNat → u.pkt? k = s.pkt? k) ∧ (s.rd (OBS_PSMP_CFG_N x.bark.ingPort) = 0 →
      u = { s with pkts := u.pkts, regs := u.regs, msi := u.msi, brg := u.brg, obs := u.obs, turns := u.turns })

/-- R94, R97, R128, R190. -/
def Obligations.SecondPassParkReturnFragments : Prop :=
  (∀ (s : State) (b : Fin 32) (k : Nat) (q : List Nat) (x : Pkt), s.alive (islBough b.val) = true →
    s.recircQ.get [] b.val = k :: q → s.pkt? k = some x → s.slotMay b.val 0 = true →
    ∀ u, u = ({ s.rrServed (rrSlots b.val) 2 0 with recircQ := s.recircQ.set [] b.val q } : State).recircShow b.val →
    exec (.recircPass b) s = .next (if x.memUe then u.memDrop k x
      else (u.parsePkt k { x with bark := { x.bark with pass := true, parked := false } }).decidePkt k)) ∧
  (∀ (s : State) (b : Fin 32) (t : BitVec 13) (x : Pkt), s.alive (islBough b.val) = true →
    s.pkt? (pkey b.val t.toNat) = some x → x.stage = .returned →
    (x.memUe = true → exec (.parkReturn b t) s = .next (s.memDrop (pkey b.val t.toNat) x)) ∧
    (x.memUe = false → (x.flow.unst.isSome = true ∨ x.dec.fa = 0 ∨ x.flow.line = none) →
      exec (.parkReturn b t) s = .next (s.afterAction (pkey b.val t.toNat))) ∧
    (x.memUe = false → x.flow.unst = none → x.dec.fa ≠ 0 → x.flow.line.isSome = true →
      let r := s.actionStage x x.dec.fa (hotNat x.dec.hot)
      exec (.parkReturn b t) s = .next ((r.2.putPkt (pkey b.val t.toNat) r.1).afterAction (pkey b.val t.toNat)))) ∧
  (∀ (s : State) (fs : BitVec 12) (w : Fin 4) (e : FragEnt), s.alive islMgmt = true →
    s.frags.find? (4 * fs.toNat + w.val) = some e → e.inst + max 1 (s.rd BRG_FRAG_CFG_TMO) * 1000000 ≤ s.now islMgmt →
    ∃ t, exec (.fragTimeout fs w) s = .next t ∧ t.frags = s.frags.erase (4 * fs.toNat + w.val) ∧ counted FRAG_TMO_CNT 1 s t ∧
      t = { s with frags := t.frags, regs := t.regs } ∧
      regsKept [FRAG_TMO_CNT, FRAG_TMO_CNT + 4, BRG_FRAG_STS] s t) ∧
  ∀ (s : State) (v : Word), s.reaches BRG_FRAG_CFG = true → ∃ t, exec (.fragTableDisable v) s = .next t ∧ t.frags = [] ∧
    t.on BRG_FRAG_CFG_EN = false ∧ t.rd BRG_FRAG_STS_IN_USE = 0 ∧ t = { s with frags := [], regs := t.regs } ∧
    regsKept [BRG_FRAG_CFG, BRG_FRAG_STS] s t

/-- R215, R220, R221, R223. Flags are Z, N, C, V. -/
def Obligations.TwigAluOperations : Prop :=
  (∀ (s : State) (k : Fin 16) (e : Fin 32) (dst s1 s2 : BitVec 6) (imm : BitVec 64) (i : Nat) (it : Item),
    s.alive (islCluster k.val) = true → s.runningOn k.val e.val = some (i, it) →
    let a := it.eng.operand s1.toNat imm (s.now (islCluster k.val))
    let b := it.eng.operand s2.toNat imm (s.now (islCluster k.val))
    let becomes (c : Instr) (en : EngSt) : Prop := exec c s = .next (s.putItem i { it with eng := en })
    let eff (c : Bool → Instr) (v : BitVec 64) (f : BitVec 4) : Prop :=
      becomes (c true) { it.eng.writeSel dst.toNat v with flags := f } ∧ becomes (c false) (it.eng.writeSel dst.toNat v)
    let zn (c : Bool → Instr) (v : BitVec 64) : Prop := eff c v (flagWord (v == 0) v.msb false false)
    let sub := flagWord (a - b == 0) (a - b).msb (decide (a.toNat < b.toNat)) (a.msb != b.msb && (a - b).msb != a.msb)
    (∀ x, becomes (.aluNop k e x dst s1 s2 imm) it.eng) ∧
    eff (fun x => .aluAdd k e x dst s1 s2 imm) (a + b) (flagWord (a + b == 0) (a + b).msb (decide (2 ^ 64 ≤ a.toNat + b.toNat))
      (a.msb == b.msb && (a + b).msb != a.msb)) ∧
    eff (fun x => .aluSub k e x dst s1 s2 imm) (a - b) sub ∧
    zn (fun x => .aluAnd k e x dst s1 s2 imm) (a &&& b) ∧ zn (fun x => .aluOr k e x dst s1 s2 imm) (a ||| b) ∧
    zn (fun x => .aluXor k e x dst s1 s2 imm) (a ^^^ b) ∧
    zn (fun x => .aluShl k e x dst s1 s2 imm) (a <<< (b.toNat % 64)) ∧
    zn (fun x => .aluShr k e x dst s1 s2 imm) (a >>> (b.toNat % 64)) ∧
    zn (fun x => .aluSar k e x dst s1 s2 imm) (a.sshiftRight (b.toNat % 64)) ∧
    zn (fun x => .aluMov k e x dst s1 s2 imm) a ∧
    (becomes (.aluCmp k e true dst s1 s2 imm) { it.eng with flags := sub } ∧ becomes (.aluCmp k e false dst s1 s2 imm) it.eng) ∧
    (becomes (.aluTst k e true dst s1 s2 imm) { it.eng with flags := flagWord (a &&& b == 0) (a &&& b).msb false false } ∧
      becomes (.aluTst k e false dst s1 s2 imm) it.eng) ∧
    zn (fun x => .aluMinu k e x dst s1 s2 imm) (if a.toNat ≤ b.toNat then a else b) ∧
    zn (fun x => .aluMaxu k e x dst s1 s2 imm) (if a.toNat ≤ b.toNat then b else a) ∧
    zn (fun x => .aluExt k e x dst s1 s2 imm) (BitVec.ofNat 64 (a.toNat / 2 ^ (b.toNat % 64) % 2 ^ (b.toNat / 256 % 64 + 1))) ∧
    eff (fun x => .aluCsum16 k e x dst s1 s2 imm) (csum16 a b) (flagWord (csum16 a b == 0) false false false) ∧
    zn (fun x => .aluBswap k e x dst s1 s2 imm) (bswap64 a) ∧
    zn (fun x => .aluMul32 k e x dst s1 s2 imm) (BitVec.ofNat 64 (a.toNat % 2 ^ 32 * (b.toNat % 2 ^ 32)))) ∧
  (∀ (e : EngSt) (sel : Nat) (v : BitVec 64), 48 ≤ sel → e.writeSel sel v = e) ∧
  ∀ (e : EngSt) (sel r : Nat) (v : BitVec 64), e.x.length = 48 → sel < 48 →
    (e.writeSel sel v).xr r = (if r = sel then v else e.xr r) ∧ (e.writeSel sel v).flags = e.flags ∧
    (e.writeSel sel v).pc = e.pc ∧ (e.writeSel sel v).frame = e.frame

/-- R217, R220, R222. -/
def Obligations.TwigFrameAccess : Prop :=
  (∀ (s : State) (k : Fin 16) (e : Fin 32) (reg : BitVec 6) (off : BitVec 9) (w : BitVec 2) (i : Nat) (it : Item),
    s.alive (islCluster k.val) = true → s.runningOn k.val e.val = some (i, it) →
    let n := 2 ^ w.toNat
    let idx := (off.toNat + (it.eng.xr 47).toNat % 512) % 512
    let becomes (c : Instr) (en : EngSt) : Prop := exec c s = .next (s.putItem i { it with eng := en })
    let bytes (a : Nat) := slice0 (it.eng.frame.take 512) a n
    becomes (.memNop k e reg off w) it.eng ∧
    becomes (.memLd k e reg off w) (it.eng.writeSel reg.toNat (BitVec.ofNat 64 (leNat (bytes off.toNat)))) ∧
    becomes (.memLdn k e reg off w) (it.eng.writeSel reg.toNat (BitVec.ofNat 64 (beNat (bytes off.toNat)))) ∧
    becomes (.memLdi k e reg off w) (it.eng.writeSel reg.toNat (BitVec.ofNat 64 (leNat (bytes idx)))) ∧
    becomes (.memLdni k e reg off w) (it.eng.writeSel reg.toNat (BitVec.ofNat 64 (beNat (bytes idx))))) ∧
  ∀ (s : State) (k : Fin 16) (e : Fin 32) (reg : BitVec 6) (off : BitVec 9) (w : BitVec 2) (i : Nat) (it : Item),
    s.alive (islCluster k.val) = true → s.runningOn k.val e.val = some (i, it) → it.eng.frame.length = 512 → ∀ imm : BitVec 64,
    let n := 2 ^ w.toNat
    let idx := (off.toNat + (it.eng.xr 47).toNat % 512) % 512
    let v := it.eng.operand reg.toNat imm (s.now (islCluster k.val))
    let stores (c : Instr) (at_ : Nat) (bs : List Byte) : Prop := ∃ en : EngSt,
      exec c s = .next (s.putItem i { it with eng := en }) ∧ en.x = it.eng.x ∧ en.flags = it.eng.flags ∧
      en.stack = it.eng.stack ∧ en.pc = it.eng.pc ∧ en.frame.length = 512 ∧
      (∀ a < 512, nth en.frame a 0 = if at_ ≤ a ∧ a < at_ + n then
          (nth bs (a - at_) 0 &&& writable a) ||| (nth it.eng.frame a 0 &&& ~~~writable a) else nth it.eng.frame a 0) ∧
      ∀ a, bit en.mask a = (bit it.eng.mask a || (decide (a < 512) && decide (at_ ≤ a) && decide (a < at_ + n) && writable a != 0))
    stores (.memSt k e ⟨reg, imm⟩ off w) off.toNat (natLe n v.toNat) ∧ stores (.memStn k e ⟨reg, imm⟩ off w) off.toNat (natBe n v.toNat) ∧
    stores (.memSti k e ⟨reg, imm⟩ off w) idx (natLe n v.toNat) ∧ stores (.memStni k e ⟨reg, imm⟩ off w) idx (natBe n v.toNat)

/-- R219, R223 to R225, R229, R242, R243; the microword with no stored error. -/
def Obligations.TwigSequenceAndMicroword : Prop :=
  (∀ (s : State) (k : Fin 16) (e : Fin 32) (i : Nat) (it : Item), s.alive (islCluster k.val) = true →
    s.runningOn k.val e.val = some (i, it) →
    let goes (c : Instr) (pc : Nat) (st : List Nat) : Prop := ∃ t, exec c s = .next t ∧
      t.twig.items.find? i = some { it with eng := { it.eng with pc := pc, stack := st } } ∧
      (∀ j, j ≠ i → t.twig.items.find? j = s.twig.items.find? j) ∧ t = { s with twig.items := t.twig.items }
    let traps (c : Instr) : Prop := exec c s = .next ((s.putItem i it).twigTrap i it 3 it.eng.pc)
    let nxt := (it.eng.pc + 1) % 2 ^ 14
    goes (.seqNext k e) nxt it.eng.stack ∧
    (∀ t : BitVec 14, goes (.seqJmp k e t) t.toNat it.eng.stack) ∧
    (∀ (c : BitVec 4) (t : BitVec 14), goes (.seqBr k e c t) (if condHolds c.toNat it.eng.flags then t.toNat else nxt) it.eng.stack) ∧
    (∀ t : BitVec 14, it.eng.stack.length < 4 → goes (.seqCall k e t) t.toNat (nxt :: it.eng.stack)) ∧
    (∀ t : BitVec 14, 4 ≤ it.eng.stack.length → traps (.seqCall k e t)) ∧
    (∀ a l, it.eng.stack = a :: l → goes (.seqRet k e) a l) ∧ (it.eng.stack = [] → traps (.seqRet k e)) ∧
    (∀ (t : BitVec 14) (r : BitVec 6) (m : BitVec 64), goes (.seqSwitch k e t r m)
      ((t.toNat + (it.eng.operand r.toNat m (s.now (islCluster k.val))).toNat % 16) % 2 ^ 14) it.eng.stack) ∧
    ∃ t, exec (.seqEnd k e) s = .next t ∧ t.twig.items.find? i = some { it with ph := .ended } ∧
      counted TWG_UNCOMMIT_CNT (if it.eng.mask = 0 then 0 else 1) s t ∧ t = { s with twig.items := t.twig.items, regs := t.regs } ∧
      regsKept [TWG_UNCOMMIT_CNT, TWG_UNCOMMIT_CNT + 4] s t) ∧
  (∀ (s : State) (k : Fin 16) (e : Fin 32) (i a : Nat) (it : Item) (en : EngSt), s.alive (islCluster k.val) = true →
    s.runningOn k.val e.val = some (i, it) →
    let ent := s.rtEntry k.val (it.epoch % 2) it.rt
    let w := fget (s.ent 0x50 0 it.eng.pc) ⟨0, 160⟩
    fget ent RT_BASE ≤ it.eng.pc → it.eng.pc < fget ent RT_BASE + fget ent RT_LEN → it.run < max 1 (fget ent RT_MAXW) →
    s.ecc.diff = [] → s.rd OBS_PS_CFG_PERIOD = 0 → fget w MW_C_OP = 0 → it.patch.length ≤ 64 →
    it.eng.slots w (s.now (islCluster k.val)) = .ok (en, .at_ a) →
    ∃ t, exec (.twigMicroword k e) s = .next t ∧
      t.twig.items.find? i = some { it with run := it.run + 1, eng := { en with pc := a } } ∧
      (∀ j, j ≠ i → t.twig.items.find? j = s.twig.items.find? j) ∧ counted TWG_UWORD_CNT 1 s t ∧
      t = { s with twig.items := t.twig.items, regs := t.regs, obs := t.obs } ∧ regsKept [TWG_UWORD_CNT, TWG_UWORD_CNT + 4] s t) ∧
  (∀ (s : State) (k : Fin 16) (e : Fin 32) (i : Nat) (it : Item), s.alive (islCluster k.val) = true →
    s.runningOn k.val e.val = some (i, it) →
    let ent := s.rtEntry k.val (it.epoch % 2) it.rt
    let w := fget (s.ent 0x50 0 it.eng.pc) ⟨0, 160⟩
    let it' := { it with run := it.run + 1 }
    let u := (s.cnt TWG_UWORD_CNT).pmuEv 0x20 k.val
    let now := s.now (islCluster k.val)
    fget ent RT_BASE ≤ it.eng.pc → it.eng.pc < fget ent RT_BASE + fget ent RT_LEN → it.run < max 1 (fget ent RT_MAXW) →
    s.ecc.diff = [] →
    (∀ en n rs v, it.eng.slots w now = .ok (en, n) → commitRegions (fget w MW_C_OP) = some rs →
      u.twigCommit i { it' with eng := en } (fget w MW_C_OP) rs = some v → exec (.twigMicroword k e) s = .next
        ((v.psample it (fon w MW_SAMP) (match n with | .ended => 2 | _ => if fget w MW_C_OP = 0 then 0 else 1) now).twigNext i n (fget w MW_C_OP != 0))) ∧
    (∀ en n rs, it.eng.slots w now = .ok (en, n) → commitRegions (fget w MW_C_OP) = some rs →
      u.twigCommit i { it' with eng := en } (fget w MW_C_OP) rs = none → exec (.twigMicroword k e) s = .next
        ((u.psample it (fon w MW_SAMP) 3 now).twigTrap i it' 4 it.eng.pc)) ∧
    (∀ c, it.eng.slots w now = .error c → exec (.twigMicroword k e) s = .next
      ((u.psample it (fon w MW_SAMP) 3 now).twigTrap i it' c it.eng.pc)) ∧
    (∀ en n, it.eng.slots w now = .ok (en, n) → commitRegions (fget w MW_C_OP) = none → exec (.twigMicroword k e) s = .next
      ((u.psample it (fon w MW_SAMP) 3 now).twigTrap i it' 2 it.eng.pc))) ∧
  ∀ (s : State) (k : Fin 16) (e : Fin 32) (i : Nat) (it : Item), s.alive (islCluster k.val) = true →
    s.runningOn k.val e.val = some (i, it) →
    let ent := s.rtEntry k.val (it.epoch % 2) it.rt
    let out := it.eng.pc < fget ent RT_BASE ∨ fget ent RT_BASE + fget ent RT_LEN ≤ it.eng.pc
    (out ∨ max 1 (fget ent RT_MAXW) ≤ it.run) → ∃ t, exec (.twigMicroword k e) s = .next t ∧
      t.twig.items.find? i = some { it with ph := .failed } ∧ counted TWG_TRAP_CNT 1 s t ∧ t.rd TWG_INT_TRAP = 1 ∧
      (s.on TWG_TRAP_LOG0_VALID = true → t.reg TWG_TRAP_LOG0 = s.reg TWG_TRAP_LOG0) ∧
      t = { s with twig.items := t.twig.items, regs := t.regs, msi := t.msi, jrn := t.jrn } ∧
      regsKept (jrnRegs ++ [TWG_TRAP_CNT, TWG_TRAP_CNT + 4, TWG_INT, TWG_TRAP_LOG0, TWG_TRAP_LOG1]) s t

/-- R226 to R229, R242. -/
def Obligations.TwigCommits : Prop :=
  ∀ (s : State) (k : Fin 16) (e : Fin 32) (i : Nat) (it : Item), s.alive (islCluster k.val) = true →
    s.runningOn k.val e.val = some (i, it) → it.patch.length ≤ 64 →
    let becomes (c : Instr) (it' : Item) (n : Nat) : Prop := ∃ t, exec c s = .next t ∧ t.twig.items.find? i = some it' ∧
      (∀ j, j ≠ i → t.twig.items.find? j = s.twig.items.find? j) ∧ counted TWG_COMMIT_CNT n s t ∧
      t = { s with twig.items := t.twig.items, regs := t.regs } ∧ regsKept [TWG_COMMIT_CNT, TWG_COMMIT_CNT + 4] s t
    let has (r : Nat) : Bool := !(it.eng.staged r).isEmpty
    let hdr := overBytes it.patch ((it.eng.staged 4).map (fun x => (x.1 - 256, x.2)))
    becomes (.commitNone k e) it 0 ∧
    becomes (.commitBark k e) { it with eng := it.eng.unstage 1, bark := overBytes it.bark (it.eng.staged 1), committed := it.committed || has 1 } (b2n (has 1)) ∧
    (hdr.length ≤ 64 → becomes (.commitHdr k e) { it with eng := it.eng.unstage 4, patch := hdr, committed := it.committed || has 4 } (b2n (has 4))) ∧
    (64 < hdr.length → exec (.commitHdr k e) s = .next (s.twigTrap i it 4 it.eng.pc) ∧
      exec (.commitAll k e) s = .next (s.twigTrap i it 4 it.eng.pc) ∧ exec (.commitDrop k e) s = .next (s.twigTrap i it 4 it.eng.pc)) ∧
    (has 2 = true → exec (.commitHot k e) s = .next (((s.putItem i { it with eng := it.eng.unstage 2, patch := overBytes it.patch [], bark := overBytes it.bark [], committed := true }).cnt
      TWG_COMMIT_CNT).commitHot it (it.eng.staged 2))) ∧
    (has 3 = true → exec (.commitCold k e) s = .next (((s.putItem i { it with eng := it.eng.unstage 3, patch := overBytes it.patch [], bark := overBytes it.bark [], committed := true }).cnt
      TWG_COMMIT_CNT).commitCold it (it.eng.staged 3))) ∧
    (has 2 = false → becomes (.commitHot k e) { it with eng := it.eng.unstage 2 } 0) ∧
    (has 3 = false → becomes (.commitCold k e) { it with eng := it.eng.unstage 3 } 0) ∧
    (hdr.length ≤ 64 →
      let any := has 1 || has 2 || has 3 || has 4
      let all (drop : Bool) : State :=
        let u := s.putItem i { it with eng := [1, 2, 3, 4].foldl EngSt.unstage it.eng, bark := overBytes it.bark (it.eng.staged 1), patch := hdr, drop := it.drop || drop, committed := it.committed || (any || drop) }
        ((if any || drop then u.cnt TWG_COMMIT_CNT else u).commitHot it (it.eng.staged 2)).commitCold it (it.eng.staged 3)
      exec (.commitAll k e) s = .next (all false) ∧ exec (.commitDrop k e) s = .next (all true)) ∧
    (it.eng.mask = 0 → becomes (.commitAll k e) it 0 ∧ becomes (.commitDrop k e) { it with drop := true, committed := true } 1)

/-- R218, R231, R232, R236 to R240, R243. -/
def Obligations.TwigItemsAndOrder : Prop :=
  (∀ (s : State) (b : Fin 32) (t : BitVec 13) (i : Nat) (it : Item), s.inReset = false →
    s.itemOf (pkey b.val t.toNat) = some (i, it) → it.entered = false → s.alive (islCluster it.cluster) = true →
    (2048 ≤ (s.twig.items.filter (fun e => e.2.waits it.cluster)).length →
      exec (.twigDispatch b t) s = .next ((s.endItem i it).twigRefuse (pkey b.val t.toNat) it.rt TWG_DISP_FULL_CNT)) ∧
    ((s.twig.items.filter (fun e => e.2.waits it.cluster)).length < 2048 → ∃ u y, exec (.twigDispatch b t) s = .next u ∧ u.twig.items.find? s.twig.nextItem = some y ∧
      u.twig.nextItem = s.twig.nextItem + 1 ∧ y.entered = true ∧ y.engine = s.pruneCommits.engineFor it.cluster it.aff ∧
      y.enteredAt = s.time.mono ∧ y.img = (if it.flow = 0 then it.img else patched it.img 48 (s.pruneCommits.keptCommits it.cluster it.flow)) ∧ y.pkt = it.pkt ∧ y.ph = it.ph ∧ u = { s with twig := u.twig, regs := u.regs } ∧
      regsKept [TWG_CLU_STS it.cluster] s u)) ∧
  (∀ (s : State) (k : Fin 16), s.alive (islCluster k.val) = true → exec (.coldReadTokenRefill k) s = .next { s with twig := { s.twig with
    coldUsed := s.twig.coldUsed.set 0 k.val (s.twig.coldUsed.get 0 k.val -
      max 1 (s.rd TWG_COLD_CFG_RATE) * (s.time.mono / 8 - s.twig.coldAt.get 0 k.val))
    coldAt := s.twig.coldAt.set 0 k.val (s.time.mono / 8) } }) ∧
  (∀ (s : State) (b : Fin 32) (t : BitVec 13) (i : Nat) (it : Item), s.inReset = false →
    s.itemOf (pkey b.val t.toNat) = some (i, it) → it.entered = true → it.cold = .wanted → it.ph = .queued →
    s.alive (islCluster it.cluster) = true → s.twig.coldUsed.get 0 it.cluster + 1000 ≤ 64000 →
    (∀ e ∈ s.twig.items, e.1 < i → e.2.cluster = it.cluster → e.2.aff = it.aff → e.2.active = false) →
    let r := ((({ s with twig := { s.twig with coldUsed := s.twig.coldUsed.set 0 it.cluster (s.twig.coldUsed.get 0 it.cluster + 1000) } } : State).cnt
      TWG_COLD_CNT).rtsUseFrom (s.bucketStack (it.flow / 4)) clsTwig (slotAddr it.flow + 128) 128 false).rsScan (slotAddr it.flow + 128) 128
    let x := r.putItem i { it with cold := .read, ph := .failed }
    (s.rtsHas clsTwig (slotAddr it.flow + 128) = false → exec (.twigColdRead b t) s = .next (s.rtsHeldBack (slotAddr it.flow + 128))) ∧
    (s.rtsHas clsTwig (slotAddr it.flow + 128) = true → r.rsPoisoned (slotAddr it.flow + 128) 128 = true → exec (.twigColdRead b t) s =
      .next ((if x.wayUsed it.flow then x.flowPoisonWait it.flow else x).dispShow it.cluster)) ∧
    (s.rtsHas clsTwig (slotAddr it.flow + 128) = true → r.rsPoisoned (slotAddr it.flow + 128) 128 = false →
    exec (.twigColdRead b t) s = .next (r.putItem i { it with cold := .read, coldWait := (r.time.mono - it.enteredAt) / 5, img := splice it.img 112 (r.rsRead (slotAddr it.flow + 128) 128) }))) ∧
  (∀ (s : State) (k : Fin 16) (e : Fin 32) (i : Nat) (it : Item), s.alive (islCluster k.val) = true →
    bit (s.rd TWG_HALT_HALT_REQ) k.val = false → (∀ x ∈ s.twig.items, x.2.onEngine k.val e.val = false) →
    s.twig.items.first (fun x => x.2.waits k.val && x.2.engine == e.val) = some (i, it) →
    let ent := s.rtEntry k.val (s.rd TWG_EPOCH_CUR % 2) it.rt
    let r := (s.rtRead k.val (s.rd TWG_EPOCH_CUR % 2) it.rt).2
    let lacks := fon ent RT_V && fon ent RT_COLD && it.flow != 0 && it.cold != .read
    (∀ x, r.pkt? it.pkt = some x → x.memUe = true → exec (.twigItemStart k e) s = .next ((r.endItem i it).memDrop it.pkt x)) ∧
    ((r.pkt? it.pkt).any (·.memUe) = false → lacks = true →
      exec (.twigItemStart k e) s = .next (r.putItem i { it with cold := .wanted })) ∧
    ((r.pkt? it.pkt).any (·.memUe) = false → lacks = false → ∃ u y, exec (.twigItemStart k e) s = .next u ∧ u.twig.items.find? i = some y ∧ y.startedAt = s.time.mono ∧
      y.epoch = s.rd TWG_EPOCH_CUR ∧ (fon ent RT_V = true → y.ph = .running ∧ y.eng = { pc := fget ent RT_BASE, frame := it.img }) ∧
      (fon ent RT_V = false → y.ph = .failed) ∧ (∀ j, j ≠ i → u.twig.items.find? j = r.twig.items.find? j) ∧
      u = { r with twig.items := u.twig.items, regs := u.regs, obs := u.obs } ∧ regsKept [TWG_CLU_STS k.val] r u) ∧
    (s.ecc.diff = [] → r = s)) ∧
  (∀ (s : State) (b : Fin 32) (t : BitVec 13) (i : Nat) (it : Item), s.inReset = false →
    s.itemOf (pkey b.val t.toNat) = some (i, it) → s.alive (islCluster it.cluster) = true →
    (it.ph = .ended → exec (.twigItemComplete b t) s = .next ((((s.endItem i it).cnt TWG_DONE_CNT).takePatch
      (pkey b.val t.toNat) it).itemDone (pkey b.val t.toNat) it)) ∧
    (it.ph = .failed → exec (.twigItemComplete b t) s = .next (((s.endItem i it).takePatch (pkey b.val t.toNat) it).itemFailed
      (pkey b.val t.toNat) it)) ∧
    (it.ph = .queued ∨ it.ph = .running ∨ it.ph = .stopped → exec (.twigItemComplete b t) s = .next s)) ∧
  (∀ (s : State) (b : Fin 32) (t : BitVec 13) (i : Nat) (it : Item), s.inReset = false →
    s.itemOf (pkey b.val t.toNat) = some (i, it) → it.ph ≠ .ended → it.ph ≠ .failed →
    it.createdAt + 8 * max 100 (s.rd TWG_CFG_ITEM_TMAX) ≤ s.time.mono →
    exec (.twigItemTimeout b t) s = .next (((((s.cnt TWG_TMO_CNT).raise TWG_INT_TMO).endItem i it).takePatch
      (pkey b.val t.toNat) it).itemFailed (pkey b.val t.toNat) { it with epoch := if it.ph = .queued then s.rd TWG_EPOCH_CUR else it.epoch })) ∧
  (∀ (s : State) (b : Fin 32) (t : BitVec 13) (x : Pkt) (o : OrdSlot), s.inReset = false →
    s.pkt? (pkey b.val t.toNat) = some x → x.stage = .ordered → x.slot = some o.id → o.pkt = pkey b.val t.toNat → o.live = true →
    o.ready = false →
    (s.twig.slots = [o] → ∃ u, exec (.ordSlotReady b t) s = .next u ∧
      u.twig.slots = [] ∧ u.pkt? (pkey b.val t.toNat) = some { x with slot := none, stage := .toAdmit } ∧
      u = { s with twig.slots := u.twig.slots, pkts := u.pkts, regs := u.regs } ∧ regsKept [TWG_CLU_STS o.win] s u) ∧
    ∀ q, s.twig.slots = [q, o] → q.id ≠ o.id → q.port = o.port → q.ready = false → s.rd TWG_CFG_HOLD ≠ 0 →
      exec (.ordSlotReady b t) s = .next { s with twig.slots := [q, { o with ready := true, readyAt := s.time.mono }] }) ∧
  ∀ (s : State) (b : Fin 32) (t : BitVec 13) (o : OrdSlot), s.inReset = false →
    s.twig.slots.find? (fun x => x.pkt == pkey b.val t.toNat && x.ready) = some o →
    o.readyAt + 8 * s.rd TWG_CFG_HOLD ≤ s.time.mono → exec (.ordHoldExpire b t) s = .next (((({ s with twig := { s.twig with
      slots := s.twig.slots.filter (fun x => x.id != o.id) } } : State).cnt TWG_ORD_SKIP_CNT).raise TWG_INT_ORD_SKIP).slotGo o)

/-- R244, R247, R345. -/
def Obligations.TwigHaltPatchAndRepair : Prop :=
  (∀ (s : State) (v : Word), s.reaches TWG_HALT = true → ∃ t, exec (.twigHaltReq v) s = .next t ∧
    t.rd TWG_HALT_HALT_REQ = getBits v.toNat TWG_HALT_HALT_REQ.lsb TWG_HALT_HALT_REQ.w ∧
    t.twig.items = s.twig.items.map (fun x => if x.2.ph = .stopped && !bit (t.rd TWG_HALT_HALT_REQ) x.2.cluster then
      (x.1, { x.2 with ph := .running }) else x) ∧
    t = { s with twig.items := t.twig.items, regs := t.regs } ∧ regsKept [TWG_HALT, TWG_HALT_STS] s t) ∧
  (∀ (s : State) (k : Fin 16), s.alive (islCluster k.val) = true → bit (s.rd TWG_HALT_HALT_REQ) k.val = true →
    bit (s.rd TWG_HALT_STS_HALTED) k.val = false → (∀ x ∈ s.twig.items, x.2.cluster = k.val → x.2.ph ≠ .running) →
    ∃ t, exec (.twigClusterHalted k) s = .next t ∧ bit (t.rd TWG_HALT_STS_HALTED) k.val = true ∧ t.rd TWG_INT_HALTED = 1 ∧
      onlyRegs [TWG_HALT_STS, TWG_INT] s t) ∧
  (∀ s : State, s.alive islMgmt = true → s.rd TWG_PATCH_STS_STATE = 1 →
    (∀ k < 16, s.twig.patchT ≤ s.now (islCluster k)) → ∃ t,
      (match s.twig.by_ with
      | none => exec .twigPatchFlip s = .next t
      | some (c, i) => exec .twigPatchFlip s = .next (t.cmdEnd c i 0 ((s.rd TWG_EPOCH_CUR + 1) % 65536))) ∧
      t.rd TWG_EPOCH_CUR = (s.rd TWG_EPOCH_CUR + 1) % 65536 ∧ t.on TWG_EPOCH_PREV_LIVE = true ∧
      t.rd TWG_IMG_VER_VER = s.twig.patchVer % 2 ^ 32 ∧ t.rd TWG_PATCH_STS_STATE = 2 ∧ t.on TWG_PATCH_STS_BUSY = true ∧
      t.rd TWG_INT_FLIPPED = 1 ∧ t = { s with twig.by_ := none, sw := t.sw, regs := t.regs, msi := t.msi, jrn := t.jrn } ∧
      regsKept (jrnRegs ++ [TWG_EPOCH, TWG_IMG_VER, TWG_PATCH_STS, TWG_INT]) s t) ∧
  (∀ s : State, s.alive islMgmt = true → s.rd TWG_PATCH_STS_STATE = 2 →
    (∀ x ∈ s.twig.items, x.2.epoch = (s.rd TWG_EPOCH_CUR + 65535) % 65536 → x.2.ph ≠ .running ∧ x.2.ph ≠ .stopped) →
    ∃ t, exec .twigPatchRetire s = .next t ∧ t.on TWG_EPOCH_PREV_LIVE = false ∧ t.rd TWG_PATCH_STS_STATE = 3 ∧
      t.rd TWG_INT_RETIRED = 1 ∧ t = { s with twig := t.twig, regs := t.regs, msi := t.msi, jrn := t.jrn } ∧
      t.twig.items = s.twig.items ∧ regsKept (jrnRegs ++ [TWG_EPOCH, TWG_PATCH_STS, TWG_INT]) s t) ∧
  (∀ s : State, s.alive islMgmt = true → s.rd TWG_PATCH_STS_STATE = 3 → s.tblWf = true → s.ecc.repairDue = [] →
    ∃ t, exec .twigPatchSyncDone s = .next t ∧ t.rd TWG_PATCH_STS_STATE = 0 ∧ t.on TWG_PATCH_STS_BUSY = false ∧
      counted TWG_PATCH_CNT 1 s t ∧ (∀ j < 4096, t.ent 0x51 0 j = s.ent 0x51 (s.rd TWG_EPOCH_CUR % 2) j ∧
        t.ent 0x51 1 j = s.ent 0x51 (s.rd TWG_EPOCH_CUR % 2) j) ∧
      t = { s with tbl := t.tbl, regs := t.regs } ∧ regsKept [TWG_PATCH_STS, TWG_PATCH_CNT, TWG_PATCH_CNT + 4] s t) ∧
  ∀ (s : State) (k : Fin 16), s.alive (islCluster k.val) = true →
    ((∀ x ∈ s.ecc.pageDue, x.1 = 3 → x.2 / 160 ≠ k.val) → exec (.controlStoreRepair k) s = .next s) ∧
    ∀ x, s.ecc.pageDue.find? (fun x => x.1 == 3 && x.2 / 160 == k.val) = some x →
      let good (c : Nat) : Bool := c != k.val && s.ctlPageGood (c * 160 + x.2 % 160)
      ((∀ c < 16, good c = false) → exec (.controlStoreRepair k) s = .next s) ∧
      ∀ c, (List.range 16).find? good = some c →
        let left (w : Nat) : Nat :=
          if classify 80 (s.ecc.diff.get 0 (eccKey 3 w)) = .ce then afterCorrection 80 (s.ecc.diff.get 0 (eccKey 3 w)) else s.ecc.diff.get 0 (eccKey 3 w)
        let clean := (s.ctlPageWords x.2).foldl (fun (t : Tab Nat) w => t.erase (eccKey 3 w)) s.ecc.diff
        exec (.controlStoreRepair k) s = .next (({ s with ecc := { s.ecc with
          pageDue := s.ecc.pageDue.erase x
          diff := (s.ctlPageWords (c * 160 + x.2 % 160)).foldl
            (fun (t : Tab Nat) w => t.set 0 (eccKey 3 (w - c * 32768 + k.val * 32768)) (left w)) clean
          pageDiff := s.ecc.pageDiff.erase (eccKey 3 x.2) } } : State).repaired 3 k.val 0 (x.2 % 160 * 2048 / 20) (islCluster k.val))

/-- R168 to R171, R174, R257. Tokens are kept as thousandths used. -/
def Obligations.FindAndInstall : Prop :=
  (∀ (s : State) (c : Fin 2), s.alive (islRts c.val) = true → exec (.missTokenRefill c) s = .next { s with gv := { s.gv with
    tokUsed := s.gv.tokUsed.set 0 c.val (s.gv.tokUsed.get 0 c.val -
      min 500 (s.rd GRV_MISS_CFG_RATE) * (s.time.mono / 8 - s.gv.tokAt.get 0 c.val))
    tokAt := s.gv.tokAt.set 0 c.val (s.time.mono / 8) } }) ∧
  (∀ (s : State) (g : Fin 16) (n : Fin 512) (e : PendEnt), s.alive (islGroup g.val) = true → s.ecc.diff = [] → s.ecc.poison = [] →
    s.gv.pends.find? (pendKey g.val n.val) = some e →
    let k := pendKey g.val n.val
    let b := e.hB % 2 ^ 24
    let c := s.bucketStack b
    let replies (i : Instr) (e' : PendEnt) : Prop := ∃ t, exec i s = .next t ∧ t.gv.pends.find? k = some e' ∧
      (∀ j, j ≠ k → t.gv.pends.find? j = s.gv.pends.find? j) ∧ t = { s with gv := t.gv, regs := t.regs, msi := t.msi, obs := t.obs, rts0 := t.rts0, rts1 := t.rts1 } ∧ t.gv.lines = s.gv.lines ∧ t.gv.wbq = s.gv.wbq
    let tokens (m : Nat) : Prop := s.gv.tokUsed.get 0 c + 1000 * m ≤ s.missBurst * 1000
    let a := altBucket b (fpOf e.hA e.hB)
    let taken := { e with inBudget := true, taken := s.gv.nextTake }
    let created (u : State) (x : PendEnt) (i : Nat) (alt : Bool) : State :=
      (((u.writeRecord clsMiss i x.key x.prof (fpOf x.hA x.hB) alt (x.cr.cold + ({} : Binding).cold)).putPend k
        { x with hot := hotBytes (x.cr.hotWith {}), isNew := true, heldWay := none }).bindCount {}).setFind k
        (if alt then .ovf [b] i else .line i true)
    (e.ph = .find → e.fs = .sent →
      (∀ i, tokens 1 → s.rtsHas clsMiss (wayAddr (4 * b)) = true → s.matchWay b e.key e.prof false = some i →
        replies (.find g n) { taken with fs := .line i false, heldWay := none }) ∧
      (∀ i, ¬ tokens 1 → s.rtsHas clsOb (wayAddr (4 * b)) = true → s.matchWay b e.key e.prof false = some i →
        replies (.find g n) { taken with inBudget := false, counted := true, fs := .line i false, heldWay := none }) ∧
      (¬ tokens 1 → s.rtsHas clsOb (wayAddr (4 * b)) = true → s.matchWay b e.key e.prof false = none → s.ovf b = 0 →
        replies (.find g n) { taken with inBudget := false, counted := true, fs := .none 0, heldWay := none }) ∧
      (∀ x, s.rtsHas x (wayAddr (4 * b)) = false → x = (if s.gv.tokUsed.get 0 c + 1000 ≤ s.missBurst * 1000 then clsMiss else clsOb) →
        exec (.find g n) s = .next (s.rtsHeldBack (wayAddr (4 * b)))) ∧
      (∀ i, tokens 1 → s.rtsHas clsMiss (wayAddr (4 * b)) = true → s.matchWay b e.key e.prof false = none → s.ovf b = 0 →
        s.freeWay b = some i → (s.revWaits taken = true → exec (.find g n) s = .next s) ∧
        (e.cr.bind ≠ 1 → e.cr.bind ≠ 2 →
          let u := ((s.takeToken c).2.rtsUse clsMiss (wayAddr (4 * b)) 256 false).putPend k taken
          exec (.find g n) s = .next (created { u with gv.nextTake := s.gv.nextTake + 1 } taken i false))) ∧
      (tokens 2 → s.rtsHas clsMiss (wayAddr (4 * b)) = true → s.matchWay b e.key e.prof false = none →
        (s.ovf b = 0 → s.freeWay b = none → replies (.find g n) { taken with fs := .alt }) ∧
        (s.ovf b ≠ 0 → replies (.find g n) { taken with fs := .alt, heldWay := s.freeWay b }))) ∧
    (e.ph = .find → e.fs = .alt → s.rtsHas (findCls e.inBudget) (wayAddr (4 * a)) = false →
      exec (.dirAltStep g n) s = .next (s.rtsHeldBack (wayAddr (4 * a)))) ∧
    (e.ph = .find → e.fs = .alt → s.rtsHas (findCls e.inBudget) (wayAddr (4 * a)) = true →
      (∀ i, s.matchWay a e.key e.prof true = some i → replies (.dirAltStep g n)
        { e with fs := if e.heldWay.isSome then .prim (some i) else .line i false, heldWay := none }) ∧
      (s.matchWay a e.key e.prof true = none → e.inBudget = false →
        replies (.dirAltStep g n) { e with fs := .none 0, heldWay := none }) ∧
      (s.matchWay a e.key e.prof true = none → e.inBudget = true → e.heldWay.isSome = true →
        replies (.dirAltStep g n) { e with fs := .prim none }) ∧
      (s.matchWay a e.key e.prof true = none → e.inBudget = true → e.heldWay = none → s.freeWay a = none →
        replies (.dirAltStep g n) { e with fs := .none 1, heldWay := none }) ∧
      (∀ i, s.matchWay a e.key e.prof true = none → e.inBudget = true → e.heldWay = none → s.freeWay a = some i →
        (s.revWaits e = true → exec (.dirAltStep g n) s = .next s) ∧
        (e.cr.bind ≠ 1 → e.cr.bind ≠ 2 → exec (.dirAltStep g n) s = .next
          (created ((s.toOwner c a).rtsUse clsMiss (wayAddr (4 * a)) 256 false) e i true)))) ∧
    (∀ i, e.ph = .find → e.fs = .prim (some i) → replies (.dirPrimaryStep g n) { e with fs := .line i false, heldWay := none }) ∧
    (∀ i, e.ph = .find → e.fs = .prim none → e.heldWay = some i →
      (s.revWaits e = true → exec (.dirPrimaryStep g n) s = .next s) ∧
      (e.cr.bind ≠ 1 → e.cr.bind ≠ 2 → exec (.dirPrimaryStep g n) s = .next (created s e i false))) ∧
    (∀ o os j, e.ph = .find → e.fs = .ovf (o :: os) j → exec (.dirPrimaryStep g n) s =
      .next ((s.ovfUp clsMiss o).setFind k (if os = [] then .line j true else .ovf os j))) ∧
    (∀ i w, e.ph = .find → e.fs = .line i w → replies (.findReply g n) { e with ph := .install }) ∧
    (∀ x, e.ph = .find → e.fs = .none x → (e.pkts ≠ [] → replies (.findReply g n) { e with ph := .release }) ∧
      (e.pkts = [] → exec (.findReply g n) s = .next (s.freePend k)))) ∧
  ∀ (s : State) (g : Fin 16) (n : Fin 512) (e : PendEnt) (i : Nat) (w : Bool), s.alive (islGroup g.val) = true →
    s.gv.pends.find? (pendKey g.val n.val) = some e → e.ph = .install → e.fs = .line i w →
    ∀ u v, s.victim e.hA (fpOf e.hA e.hB) = (v, u) →
    (v = none → exec (.lineInstall g n) s = .next u) ∧
    ∀ l, v = some l →
      let held := (u.line l).v && (u.line l).dirty && !u.rtsHas clsMiss (slotAddr (u.line l).idx + 64)
      let t := if (u.line l).v then u.evict l else u
      (held = true → exec (.lineInstall g n) s = .next (u.bufferWb l)) ∧
      (held = false → exec (.lineInstall g n) s = .next ((((t.setLine l { fp := fpOf e.hA e.hB, v := true, ref := true, pend := true, dirty := w, data := splice (t.way i) 63 [0] ++ (if w then e.hot else t.rsRead (slotAddr i + 64) 64) }).lineWritten l).putPend
        (pendKey g.val n.val) { e with ph := .release, line := some l }).pendEnd (pendKey g.val n.val)))

/-- R164, R172, R173, R177, R190, R192, R412, R484. -/
def Obligations.ParkAndWriteBack : Prop :=
  (∀ (s : State) (g : Fin 16) (ek k : Nat) (ks : List Nat) (e : PendEnt), s.alive (islGroup g.val) = true →
    s.nextOut g.val = .entry ek e → e.pkts = k :: ks →
    (∀ l, e.line = some l → let u := (s.lineRead l).2
      (s.ecc.diff = [] → u = s) ∧
      ((u.gv.pends.find? ek).any (fun x => x.line == some l) = true →
        exec (.parkRelease g) s = .next (((u.putPend ek { e with pkts := ks }).serveOn k l (e.isNew && e.crPkt == k)).pendEnd ek)) ∧
      ((u.gv.pends.find? ek).any (fun x => x.line == some l) = false → exec (.parkRelease g) s = .next u)) ∧
    (∀ c, e.line = none → e.fs = .none c →
      exec (.parkRelease g) s = .next ((((s.putPend ek { e with pkts := ks }).unpark k).unstated k c).pendEnd ek))) ∧
  (∀ (s : State) (g : Fin 16) (k : Nat) (x : Pkt), s.nextOut g.val = .join k x →
    let u := (s.lineRead (x.flow.joinLine.getD 0)).2
    let t := if (u.pkt? k).any u.joinReady then u.serveOn k (x.flow.joinLine.getD 0) false else u
    (s.alive (islGroup g.val) = true → exec (.parkRelease g) s = .next t) ∧
    ∀ (b : Fin 32) (tg : BitVec 13) (y : Pkt), s.alive (islBough b.val) = true → s.pkt? (pkey b.val tg.toNat) = some y →
      y.flow.grp = g.val → (pkey b.val tg.toNat = k → exec (.joinServe b tg) s = .next t) ∧
      (pkey b.val tg.toNat ≠ k → exec (.joinServe b tg) s = .next s)) ∧
  (∀ (s : State) (b : Fin 32) (t : BitVec 13) (x : Pkt), s.alive (islBough b.val) = true →
    s.pkt? (pkey b.val t.toNat) = some x → x.stage = .parked → x.flow.due ≤ s.time.mono → x.bark.cls < 16 →
    (∀ ek e, x.flow.entry = some ek → s.gv.pends.find? ek = some e → e.ph ≠ .release ∨ e.pkts.filter (· != pkey b.val t.toNat) ≠ []) →
    ∃ u y, exec (.parkTimeout b t) s = .next u ∧ u.pkt? (pkey b.val t.toNat) = some y ∧
      y.stage = .returned ∧ y.flow.unst = some (s.rd (GRV_UNS_CFG_ACT x.bark.cls)) ∧ y.bark.flowIdx = 0 ∧ y.bark.colour = 3 ∧
      y.bytes = x.bytes ∧ y.hostCopies = x.hostCopies ++ (if 2 ≤ s.rd (GRV_UNS_CFG_ACT x.bark.cls) ∧ x.bark.bad = false then
        [⟨s.rd (GRV_UNS_CFG_HOST_CH x.bark.cls), 3, s.time.mono⟩] else []) ∧ counted GRV_UNSTATED_CNT 1 s u ∧ counted (GRV_UNSTATED_CLS_CNT x.bark.cls) 1 s u ∧
      counted GRV_PARK_TMO_CNT 1 s u ∧ u.rd GRV_INT_UNSTATED = 1 ∧ u.rd GRV_INT_PARK_TMO = 1 ∧
      (∀ j, j ≠ pkey b.val t.toNat → u.pkt? j = s.pkt? j) ∧
      u = { s with pkts := u.pkts, regs := u.regs, msi := u.msi, jrn := u.jrn, gv := u.gv } ∧ u.gv.lines = s.gv.lines ∧
      u.gv.pends = (match x.flow.entry with
        | none => s.gv.pends
        | some ek => match s.gv.pends.find? ek with
          | none => s.gv.pends
          | some e => s.gv.pends.insert ek { e with pkts := e.pkts.filter (· != pkey b.val t.toNat) })) ∧
  (∀ (s : State) (b : Fin 32) (l : Nat) (h : Option (List Byte)) (r : List (Nat × Option (List Byte))), s.alive (islBough b.val) = true →
    s.gv.wbq.get [] b.val = (l, h) :: r →
    let p : State := { s with gv := { s.gv with wbq := s.gv.wbq.set [] b.val r } }
    ((s.line l).v = true → (s.line l).wbp = true → (s.line l).own = b.val →
      let q := match h with | some h => p.putHot l h | none => p
      exec (.hotBlockWriteback b) s = .next (((q.setLine l { q.line l with wbp := r.any (fun e => e.1 == l) }).lineClear (s.line l).idx).pmuEv
        0x40 (l / 16384 / 32))) ∧
    ((s.line l).v = false ∨ (s.line l).wbp = false ∨ (s.line l).own ≠ b.val → exec (.hotBlockWriteback b) s = .next p)) ∧
  (∀ (s : State) (b : Fin 32) (c : Corr), s.alive (islBough b.val) = true →
    s.gv.corrs.find? (fun c => c.bough == b.val && (s.corrGone c || s.lineFree c.line)) = some c →
    let p : State := { s with gv := { s.gv with corrs := s.gv.corrs.erase c } }
    (s.corrGone c = true → exec (.frameEndCorrection b) s = .next (p.cnt FA_CORR_LOST_CNT)) ∧
    (s.corrGone c = false → exec (.frameEndCorrection b) s = .next (p.applyCorr c))) ∧
  (∀ (s : State) (c : Fin 2) (sec n : Nat), s.alive (islRts c.val) = true → s.gv.dirFull.get (0, 0) c.val = (sec, n) → n ≠ 0 →
    sec + 1000000000 ≤ s.now (islRts c.val) → exec (.grvDirFull c) s = .next (({ s with gv := { s.gv with
      dirFull := s.gv.dirFull.erase c.val } } : State).journalAt (islRts c.val) sec 0x0404 c.val (natLe 4 n))) ∧
  ∀ (s : State) (g : Fin 16) (sec n : Nat), s.alive (islGroup g.val) = true → s.gv.parkTmo.get (0, 0) g.val = (sec, n) → n ≠ 0 →
    sec + 1000000000 ≤ s.now (islGroup g.val) → exec (.grvParkTmo g) s = .next (({ s with gv := { s.gv with
      parkTmo := s.gv.parkTmo.erase g.val } } : State).journalAt (islGroup g.val) sec 0x0405 g.val (natLe 4 n))

/-- R181, R184 to R186. READY comes within 25 ms (200,000,000 ticks). -/
def Obligations.GroveEnableFlushAndSweep : Prop :=
  (∀ (s : State) (f : Bool), s.reaches GRV_CFG = true → s.on GRV_CFG_EN = false → s.rtsReady = true → ∃ t,
    exec (.groveEnable false f) s = .next t ∧ t.on GRV_STS_FLUSH_BUSY = (f || s.on GRV_STS_FLUSH_BUSY) ∧ t.on GRV_CFG_EN = true ∧ t.on GRV_STS_INIT_BUSY = true ∧ t.gv.lines = [] ∧
    t.gv.seedA = s.reg GRV_HASH_SEED_A ∧ t.gv.seedB = s.reg GRV_HASH_SEED_B ∧ t.gv.tokUsed = [] ∧
    t.gv.initEnd = some (s.time.mono + 200000000) ∧ t.rd GRV_DIR_STS_FLOWS = 0 ∧
    t.rs = s.rs.filter (fun e => e.1 < 0x400000000 || 0x500000000 ≤ e.1) ∧
    t = { s with gv := t.gv, regs := t.regs, rs := t.rs, ecc := t.ecc } ∧ regsKept [GRV_CFG, GRV_STS, GRV_DIR_STS] s t) ∧
  (∀ (s : State) (f : Bool), s.reaches GRV_CFG = true → s.on GRV_CFG_EN = false → s.rtsReady = true → s.on GRV_STS_KEEP_OK = true → ∃ t,
    exec (.groveEnable true f) s = .next t ∧ t.on GRV_CFG_EN = true ∧ t.on GRV_STS_INIT_BUSY = true ∧ t.gv.lines = [] ∧
    t.gv.seedA = s.reg GRV_HASH_SEED_A ∧ t.gv.seedB = s.reg GRV_HASH_SEED_B ∧ t.gv.initEnd = some (s.time.mono + 800000) ∧
    t = { s with gv := t.gv, regs := t.regs } ∧ regsKept [GRV_CFG, GRV_STS] s t) ∧
  (∀ (s : State) (k : Bool), s.reaches GRV_CFG = true → s.on GRV_CFG_EN = true →
    exec (.groveEnable k false) s = .next (s.wr GRV_CFG_KEEP (b2n k))) ∧
  (∀ (s : State) (k f : Bool), s.reaches GRV_CFG = true → s.on GRV_CFG_EN = false → s.rtsReady = false → ∃ t,
    exec (.groveEnable k f) s = .next t ∧ t.on GRV_CFG_EN = true ∧ t.on GRV_STS_INIT_BUSY = true ∧ t.gv.heldEn = true ∧
    t.gv.lines = [] ∧ t.gv.seedA = s.reg GRV_HASH_SEED_A ∧ t = { s with gv := t.gv, regs := t.regs } ∧
    regsKept [GRV_CFG, GRV_STS] s t) ∧
  (∀ (s : State) (v : Word), s.reaches GRV_CFG = true → (s.on GRV_CFG_EN = true ∨ v.toNat % 2 = 0) → ∃ t,
    exec (.groveFlush v) s = .next t ∧ t.on GRV_STS_FLUSH_BUSY = true ∧
    t.on GRV_STS_CFG_REJ_STK = (s.on GRV_STS_CFG_REJ_STK || (s.on GRV_CFG_EN && v.toNat % 2 == 0)) ∧
    t.gv.flushLeft = s.gv.flushLeft ++ ((s.gv.lines.filter (fun e => e.2.v && e.2.dirty)).map (·.1)).filter
      (fun l => !s.gv.flushLeft.contains l) ∧ t = { s with gv := t.gv, regs := t.regs } ∧ regsKept [GRV_CFG, GRV_STS] s t) ∧
  (∀ (s : State) (e : Nat), s.alive islMgmt = true → s.gv.initEnd = some e → e ≤ s.time.mono → ∃ t,
    exec .groveReady s = .next t ∧ t.on GRV_STS_READY = true ∧ t.on GRV_STS_INIT_BUSY = false ∧ t.rd GRV_INT_READY = 1 ∧
    t.gv = { s.gv with initEnd := none, everReady := true } ∧ t = { s with gv := t.gv, regs := t.regs, msi := t.msi } ∧
    regsKept [GRV_STS, GRV_INT] s t) ∧
  (∀ (s : State), s.alive islMgmt = true → s.on GRV_STS_FLUSH_BUSY = true →
    let waits (l : Nat) : Bool := (s.line l).v && (s.line l).dirty && !s.rtsHas clsMaint (slotAddr (s.line l).idx + 64)
    (∀ l, s.gv.flushLeft.find? waits = some l → exec .flushDone s = .next (s.rtsHeldBack (slotAddr (s.line l).idx + 64))) ∧
    (s.gv.flushLeft.find? waits = none → exec .flushDone s = .next
    ((({ s.gv.flushLeft.foldl State.flushLine s with gv := { (s.gv.flushLeft.foldl State.flushLine s).gv with flushLeft := [] } } : State).wr
      GRV_STS_FLUSH_BUSY 0).raise GRV_INT_FLUSH_DONE))) ∧
  (∀ (s : State) (c : Fin 2), s.alive (islRts c.val) = true → (s.rd GRV_PRUNE_CFG_PERIOD = 0 ∨ s.on GRV_STS_READY = false) →
    exec (.flowSweepStep c) s = .next s) ∧
  ∀ (s : State) (c : Fin 2), s.alive (islRts c.val) = true → s.rd GRV_PRUNE_CFG_PERIOD ≠ 0 → s.on GRV_STS_READY = true →
    s.gv.sweepTm.get 0 c.val ≤ s.time.mono →
    let b := s.ownedFrom c.val 16 (s.gv.sweepAt.get 0 c.val)
    let p : State := { s with gv := { s.gv with
      sweepAt := s.gv.sweepAt.set 0 c.val ((b + 1) % 2 ^ 24)
      sweepTm := s.gv.sweepTm.set 0 c.val (s.time.mono + s.rd GRV_PRUNE_CFG_PERIOD * 8000000000 / 2 ^ 23) } }
    (s.rtsHas clsMaint (wayAddr (4 * b)) = false → exec (.flowSweepStep c) s = .next (s.rtsHeldBack (wayAddr (4 * b)))) ∧
    (s.rtsHas clsMaint (wayAddr (4 * b)) = true → exec (.flowSweepStep c) s = .next ((List.range 4).foldl (fun s w =>
      (s.sweepRead c.val (4 * b + w)).sweepFlow c.val (4 * b + w)) (p.bucketScan clsMaint b)).joinMisses)

/-- R384 to R387. -/
def Obligations.TrunkBusPhases : Prop :=
  (∀ (s : State) (q : TrkReq), s.alive islMgmt = true → s.trk.cur = none → s.trk.parked = true →
    s.trk.want.find? (fun x => x.r == s.rd TRK_STS_OWNER) = some q → s.trkMay (s.rd TRK_STS_OWNER) s.time.mono = true → ∃ t,
    exec .trunkArbitration s = .next t ∧ t.trk.cur = some (q, s.time.mono + 80 * q.phases) ∧ t.trk.next = none ∧
    t.rd TRK_STS_OWNER = q.r ∧ t.rd TRK_STS_BUSY = 1 ∧
    t.rd (TRK_WAIT_MAX_WAIT q.r) = max (s.rd (TRK_WAIT_MAX_WAIT q.r)) (min (2 ^ 20 - 1) ((s.time.mono - q.at_) / 8)) ∧
    counted (TRK_GRANT_CNT q.r) 1 s t ∧ counted (TRK_BUSY_NS_CNT q.r) (10 * q.phases) s t ∧
    t.trk.back = s.trk.back.erase q.r ∧ t.trk.want.length = (s.trk.want.erase q).length ∧
    t = { s with trk := t.trk, regs := t.regs, obs := { s.obs with pmuNow := t.obs.pmuNow } } ∧
    regsKept [TRK_STS, TRK_WAIT_MAX q.r, TRK_GRANT_CNT q.r, TRK_GRANT_CNT q.r + 4, TRK_BUSY_NS_CNT q.r, TRK_BUSY_NS_CNT q.r + 4] s t) ∧
  (∀ (s : State) (w : Nat) (q : TrkReq), s.alive islMgmt = true → s.trk.cur = none →
    (s.trk.parked = false ∨ s.rd TRK_STS_OWNER ∉ s.trkWanting s.time.mono) → w ∈ s.trkWanting s.time.mono →
    (∀ r ∈ s.trkWanting s.time.mono, r ≠ w → prioOf (s.reg TRK_PRIO_MAP) r < prioOf (s.reg TRK_PRIO_MAP) w) →
    s.trk.want.find? (fun x => x.r == w) = some q →
    let b := s.trkSettle (s.trkWanting s.time.mono) w
    exec .trunkArbitration s = .next (({ b with trk := { b.trk with want := s.trk.want.erase q } } : State).trkStart q (s.time.mono + 80)) ∧
    (∀ r ∈ s.trkWanting s.time.mono, r ≠ w → b.trk.back.get (0, 0) r =
      (min s.backoffMax (2 * min s.backoffMax (max 1 (s.trk.back.get (0, 0) r).1)), min s.backoffMax (max 1 (s.trk.back.get (0, 0) r).1))) ∧
    b.trk.back.find? w = none ∧ b = { s with trk := { s.trk with back := b.trk.back } }) ∧
  (∀ (s : State) (c : TrkReq) (e : Nat), s.alive islMgmt = true → s.trk.cur = some (c, e) → s.trk.next = none →
    e - 80 ≤ s.time.mono →
    let out := (s.trkWanting e).filter (fun r => (s.trk.back.get (0, 0) r).2 == 0)
    let d : State := { s with trk := { s.trk with back := s.trk.back.map (fun (x : Nat × Nat × Nat) =>
      if (s.trkWanting e).contains x.1 then (x.1, (x.2.1, x.2.2 - 1)) else x) } }
    (out = [] → exec .trunkArbitration s = .next { d with trk := { d.trk with next := some none } }) ∧
    (∀ w q, w ∈ out → (∀ r ∈ out, r ≠ w → prioOf (s.reg TRK_PRIO_MAP) r < prioOf (s.reg TRK_PRIO_MAP) w) →
      s.trk.want.find? (fun x => x.r == w) = some q → exec .trunkArbitration s = .next { d with
        trk := { (d.trkSettle out w).trk with want := s.trk.want.erase q, next := some (some q) } })) ∧
  (∀ (s : State) (q : TrkReq) (e : Nat), s.alive islMgmt = true → s.trk.cur = some (q, e) → e ≤ s.time.mono →
    let i : State := ({ s with trk := { s.trk with cur := none, next := none } } : State).wr TRK_STS_BUSY 0
    (∀ n, s.trk.next = some (some n) → exec .trunkTransferEnd s = .next (i.trkStart n e)) ∧
    ((∀ n, s.trk.next ≠ some (some n)) → exec .trunkTransferEnd s = .next i ∧ i.rd TRK_STS_BUSY = 0 ∧
      i.rd TRK_STS_OWNER = s.rd TRK_STS_OWNER ∧ i.trk.parked = s.trk.parked)) ∧
  (∀ (s : State) (v : Word), s.reaches TRK_PRIO_MAP = true →
    ((∀ n < 8, ∃ r < 8, prioOf v.toNat r = n) → ∃ t, exec (.trkPrioMapWrite v) s = .next t ∧
      (∀ r < 8, prioOf (t.reg TRK_PRIO_MAP) r = prioOf v.toNat r) ∧
      t.trk.parked = (s.trk.parked && !(decide (prioOf v.toNat (s.rd TRK_STS_OWNER) ≠ prioOf (s.reg TRK_PRIO_MAP) (s.rd TRK_STS_OWNER))
        && s.trk.cur.isNone)) ∧
      t = { s with regs := t.regs, trk := { s.trk with parked := t.trk.parked } } ∧ regsKept [TRK_PRIO_MAP] s t) ∧
    ((∃ n < 8, ∀ r < 8, prioOf v.toNat r ≠ n) → ∃ t, exec (.trkPrioMapWrite v) s = .next t ∧ t.rd TRK_STS_MAP_REJ_STK = 1 ∧
      t.rd TRK_INT_MAP_REJ = 1 ∧ t.reg TRK_PRIO_MAP = s.reg TRK_PRIO_MAP ∧ onlyRegs [TRK_STS, TRK_INT] s t)) ∧
  ∀ (s : State) (v : Word), s.reaches TRK_CFG = true → ∃ t, exec (.waitClr v) s = .next t ∧
    (∀ r < 8, t.rd (TRK_WAIT_MAX_WAIT r) = 0) ∧ t.rd TRK_CFG_BACKOFF_MAX = v.toNat % 512 ∧
    onlyRegs (TRK_CFG :: (List.range 8).map TRK_WAIT_MAX) s t

/-- R142, R143, R146. -/
def Obligations.LearningAndPruning : Prop :=
  (∀ (s : State) (b : Fin 32) (q : LearnReq), s.alive (islBough b.val) = true →
    s.brg.learn.find? (fun r => r.port / 8 == b.val && !r.merged && r.hold.isNone) = some q →
    let l := s.brg.learn.map (fun (r : LearnReq) => if r = q then { r with merged := true } else r)
    exec (.learnMerge b) s = .next (({ s with brg := { s.brg with learn := l } } : State).wr BRG_STS_MRG_USE (l.filter (·.merged)).length)) ∧
  (∀ (s : State) (q : LearnReq), s.alive islMgmt = true → q ∈ s.brg.learn → q.merged = true →
    (∀ r ∈ s.brg.learn, r.merged = true → r ≠ q → q.before r = true) →
    q.ts + max 1 (s.rd BRG_LEARN_CFG_SETTLE) * 1000 ≤ s.now islMgmt →
    let l := s.brg.learn.erase q
    let p : State := ({ s with brg := { s.brg with learn := l } } : State).wr BRG_STS_MRG_USE (l.filter (·.merged)).length
    let hold := max 1 (s.rd BRG_LEARN_CFG_HOLD) * 1000000
    let gives (t : State) : Prop := exec .learnRelease s = .next t
    let place (i : Nat) : State := (p.brgPut i (learnedEntry q.vid q.mac q.port) q.ts).trunkAsk trkLearn 4
    (s.brgFind q.vid q.mac = none → s.brgFree = none →
      gives (((p.cnt LEARN_FAIL_CNT).raise BRG_INT_LEARN_FAIL).learnEvent 0x0304 q q.vid 0 0)) ∧
    (∀ i, s.brgFind q.vid q.mac = none → s.brgFree = some i → s.rd (BRG_PORT_CFG_LIMIT q.port) ≠ 0 →
      s.rd (BRG_PORT_CFG_LIMIT q.port) ≤ s.rd (BRG_PORT_STS_LEARNED q.port) → gives (p.cnt LEARN_LIMIT_CNT)) ∧
    (∀ i, s.brgFind q.vid q.mac = none → s.brgFree = some i → (s.rd (BRG_PORT_CFG_LIMIT q.port) = 0 ∨
      s.rd (BRG_PORT_STS_LEARNED q.port) < s.rd (BRG_PORT_CFG_LIMIT q.port)) →
      gives (((place i).cnt LEARN_CNT).learnEvent 0x0301 q q.vid 0 i)) ∧
    ∀ i e, s.brgFind q.vid q.mac = some (i, e) →
      let eg := fget e BR_EGR
      let ts := s.brg.ts.get 0 i
      let here := eg == q.port && !fon e BR_MCAST
      let first := decide (q.ts < ts) || (q.ts == ts && fon e BR_LEARNED && decide (q.port < eg))
      (here = false → fon e BR_STATIC = true →
        gives (((p.cnt LEARN_STATIC_CNT).learnEvent 0x0303 q (q.vid + 4096) (eg % 256) i).raise BRG_INT_FLAP)) ∧
      (here = true → fon e BR_AGE = false → gives p) ∧
      (here = true → fon e BR_AGE = true → gives ((p.brgPut i (fset e BR_AGE 0) ts).trunkAsk trkLearn 4)) ∧
      (here = false → fon e BR_STATIC = false → first = false → q.ts - ts < hold →
        gives (((p.cnt FLAP_CNT).learnEvent 0x0303 q q.vid (eg % 256) i).raise BRG_INT_FLAP)) ∧
      (here = false → fon e BR_STATIC = false → first = false → hold ≤ q.ts - ts →
        gives (((place i).cnt MOVE_CNT).learnEvent 0x0302 q q.vid (eg % 256) i)) ∧
      (here = false → fon e BR_STATIC = false → first = true → ts - q.ts < hold →
        gives (((((place i).cnt LEARN_LATE_CNT).cnt FLAP_CNT).learnEvent 0x0303 q (q.vid + 8192) (eg % 256) i).raise BRG_INT_FLAP)) ∧
      (here = false → fon e BR_STATIC = false → first = true → hold ≤ ts - q.ts → gives (p.cnt LEARN_LATE_CNT))) ∧
  (∀ (s : State), s.alive islMgmt = true → s.rd BRG_PRUNE_CFG_PERIOD = 0 → exec .pruneStep s = .next s) ∧
  ∀ (s : State), s.alive islMgmt = true → s.rd BRG_PRUNE_CFG_PERIOD ≠ 0 → s.brg.pruneAt ≤ s.now islMgmt →
    let per := s.rd BRG_PRUNE_CFG_PERIOD * 1000000000
    let i := s.brg.pruneIdx
    let e := s.ent 0x30 0 i
    let ts := s.brg.ts.get 0 i
    let p : State := { s with brg := { s.brg with pruneIdx := (i + 1) % 32768
                                                  pruneAt := s.now islMgmt + (per * (i + 1) / 32768 - per * i / 32768) } }
    let v : State := ({ p with brg := { p.brg with hit := s.brg.hit.erase i } } : State).trunkAsk trkPrune 4
    let gives (t : State) : Prop := exec .pruneStep s = .next t
    ((fon e BR_V = false ∨ fon e BR_STATIC = true) → gives p) ∧
    (fon e BR_V = true → fon e BR_STATIC = false →
      (s.brg.hit.get 0 i ≠ 0 → fon e BR_AGE = false → gives v) ∧
      (s.brg.hit.get 0 i ≠ 0 → fon e BR_AGE = true → gives ((v.brgPut i (fset e BR_AGE 0) ts).trunkAsk trkLearn 4)) ∧
      (s.brg.hit.get 0 i = 0 → fon e BR_AGE = false → gives ((v.brgPut i (fset e BR_AGE 1) ts).trunkAsk trkLearn 4)) ∧
      (s.brg.hit.get 0 i = 0 → fon e BR_AGE = true → gives ((((v.brgPut i 0 0).trunkAsk trkLearn 4).cnt AGE_CNT).journal islMgmt 0x0305 0
        (natBe 6 (brMac e) ++ natLe 2 (fget e BR_VID) ++ natLe 1 (fget e BR_EGR % 256) ++ [0] ++ natLe 2 i))))

/-- R106, R120 to R124, R126. The copies are numbered by the generation's lowest bit. -/
def Obligations.GraftCourse : Prop :=
  (∀ (s : State), s.ecc.diff = [] → s.ecc.poison = [] → s.logRead = (false, (List.range s.gr.log.length).foldl (fun (u : State) n =>
    u.rtsUse clsHost (s.logSlot n) 256 false) s)) ∧
  (∀ (s : State), s.alive islMgmt = true → (s.graftSt = 2 ∨ s.graftSt = 5) → s.gr.phaseEnd ≤ s.time.mono → s.logRead.1 = true →
    (s.graftSt = 2 → exec .graftApplyDone s = .next s.logRead.2.graftLogUe) ∧
    (s.graftSt = 5 → exec .catchupDone s = .next s.logRead.2.graftLogUe)) ∧
  (∀ (s : State), s.alive islMgmt = true → s.graftSt = 2 → s.gr.phaseEnd ≤ s.time.mono → s.logRead.1 = false →
    let r := s.logRead.2
    let lead := max 1000 (r.rd GRF_GRAFT_CFG_FLIP_LEAD)
    ∃ t, exec .graftApplyDone s = .next t ∧ t.rd GRF_GRAFT_STS_STATE = 3 ∧ t.rd GRF_GRAFT_STS_BUSY = 1 ∧
      t.rd64 GRF_FLIP_TS = (r.now islMgmt + lead) % 2 ^ 64 ∧
      t.tbl = (r.gr.log.foldl (fun s (w : Staged) => s.setEnt w.table ((r.rd GRF_GEN_CUR_GEN + 1) % 2) w.idx w.val) r).tbl ∧
      t.gr = { r.gr with flipped := 0, timerEnd := r.time.mono + (lead + 10000) * 8 } ∧
      t = { r with regs := t.regs, msi := t.msi, tbl := t.tbl, gr := t.gr, ecc := t.ecc } ∧
      regsKept [GRF_GRAFT_STS, GRF_FLIP_TS, GRF_FLIP_TS + 4, ECC_INJ_CFG, ECC_INJ_STS, ECC_INT] r t) ∧
  (∀ (s : State) (b : Fin 32), s.alive (islBough b.val) = true → s.graftSt = 3 → bit s.gr.flipped b.val = false →
    s.rd64 GRF_FLIP_TS ≤ s.now (islBough b.val) →
    let f : State := { s with gr := { s.gr with flipped := s.gr.flipped ||| 2 ^ b.val } }
    exec (.genFlip b) s = .next (if s.gr.flipped ||| 2 ^ b.val = 2 ^ 32 - 1 then f.enterDrain else f)) ∧
  (∀ (s : State), s.alive islMgmt = true → s.graftSt = 3 → s.gr.timerEnd ≤ s.time.mono →
    exec .flipTimerExpire s = .next ({ s with gr := { s.gr with flipped := 2 ^ 32 - 1 } } : State).enterDrain) ∧
  (∀ (s : State) (c i : Nat), s.gr.by_ = some (c, i) →
    let g := (s.rd GRF_GEN_CUR_GEN + 1) % 65536
    let d := ({ s with gr.by_ := none } : State).enterDrain
    (s.gr.tflipAddr = 0 → s.enterDrain = d.cmdEnd c i 0 g) ∧
    (s.gr.tflipAddr ≠ 0 → s.dmaOk = true → s.enterDrain = (d.hostPut s.gr.tflipAddr (natLe 8 (s.rd64 GRF_FLIP_TS))).cmdEnd c i 0 g) ∧
    (s.gr.tflipAddr ≠ 0 → s.dmaOk = false → s.enterDrain = (d.cmdEnd c i 15 0).chHalt c 4)) ∧
  (∀ (s : State), s.gr.by_ = none →
    let g := (s.rd GRF_GEN_CUR_GEN + 1) % 65536
    let t := s.enterDrain
    t.rd GRF_GEN_CUR_GEN = g ∧ t.rd GRF_GEN_CUR_PREV_LIVE = 1 ∧ t.rd GRF_GRAFT_STS_STATE = 4 ∧ t.rd GRF_GRAFT_STS_BUSY = 1 ∧
      counted GRAFT_CNT 1 s t ∧ t.rd GRF_GRAFT_INT_FLIPPED = 1 ∧
      t.gr = { s.gr with drainAt := s.time.mono, warned := false, by_ := none } ∧
      t.sw = s.sw.map (fun (w : ProfSw) => { w with graftDone := true }) ∧
      t = { s with regs := t.regs, msi := t.msi, jrn := t.jrn, gr := t.gr, sw := t.sw } ∧
      regsKept (jrnRegs ++ [GRF_GEN_CUR, GRF_GRAFT_STS, GRAFT_CNT, GRAFT_CNT + 4, GRF_GRAFT_INT]) s t) ∧
  (∀ (s : State), s.alive islMgmt = true → s.graftSt = 4 →
    let old := (s.rd GRF_GEN_CUR_GEN + 65535) % 65536
    let held := (List.range 32).filter (fun b => s.rd (genCnt b old) != 0)
    (held ≠ [] → exec .genRetire s = .next s) ∧
    (held = [] → ∃ t, exec .genRetire s = .next t ∧ t.rd GRF_GEN_CUR_PREV_LIVE = 0 ∧ t.rd GRF_GEN_CUR_GEN = s.rd GRF_GEN_CUR_GEN ∧
      t.rd GRF_GRAFT_STS_STATE = 5 ∧ t.rd GRF_GRAFT_STS_BUSY = 1 ∧ t.rd GRF_GRAFT_INT_RETIRED = 1 ∧
      t.gr = { s.gr with phaseEnd := s.time.mono + 400 * s.gr.log.length } ∧
      t.trk.want = s.trk.want ++ List.replicate s.gr.log.length ⟨trkGraft, 5, s.time.mono⟩ ∧
      t = { s with regs := t.regs, msi := t.msi, jrn := t.jrn, gr := t.gr, trk := { s.trk with want := t.trk.want } } ∧
      regsKept (jrnRegs ++ [GRF_GEN_CUR, GRF_GRAFT_STS, GRF_GRAFT_INT]) s t) ∧
    (∀ w, s.rd GRF_GRAFT_CFG_DRAIN_WARN = w → w ≠ 0 → s.gr.warned = false → s.gr.drainAt + w * 8000000 ≤ s.time.mono →
      exec .drainSlow s = .next ((({ s with gr := { s.gr with warned := true } } : State).raise GRF_GRAFT_INT_DRAIN_SLOW).journal islMgmt
        0x0205 0 (natLe 2 old ++ [0, 0] ++ natLe 4 (held.foldl (fun m b => m + 2 ^ b) 0)))) ∧
    ((s.rd GRF_GRAFT_CFG_DRAIN_WARN = 0 ∨ s.gr.warned = true) → exec .drainSlow s = .next s)) ∧
  (∀ (s : State), s.alive islMgmt = true →
    ((s.graftSt = 2 ∨ s.graftSt = 5) → ∃ t, exec .graftLogUe s = .next t ∧ t.rd GRF_GRAFT_STS_STATE = 6 ∧ t.rd GRF_GRAFT_STS_BUSY = 1 ∧
      counted GRAFT_FAIL_CNT 1 s t ∧ t.rd GRF_GRAFT_INT_FAIL = 1 ∧ t.gr = { s.gr with by_ := none } ∧
      (s.gr.by_ = none → t.svn = s.svn) ∧ (∀ c i, s.gr.by_ = some (c, i) → t.svn = (s.cmdEnd c i 10 0).svn) ∧
      t = { s with regs := t.regs, msi := t.msi, jrn := t.jrn, gr := t.gr, svn := t.svn } ∧
      regsKept (jrnRegs ++ [GRF_GRAFT_STS, GRAFT_FAIL_CNT, GRAFT_FAIL_CNT + 4, GRF_GRAFT_INT]) s t) ∧
    (s.graftSt ≠ 2 → s.graftSt ≠ 5 → exec .graftLogUe s = .next s)) ∧
  (∀ (s : State), s.alive islMgmt = true → s.graftSt = 5 → s.gr.phaseEnd ≤ s.time.mono → s.logRead.1 = false →
    let r := s.logRead.2
    ∃ t, exec .catchupDone s = .next t ∧
    t.tbl = (r.gr.log.foldl (fun s (w : Staged) => s.setEnt w.table ((r.rd GRF_GEN_CUR_GEN + 1) % 2) w.idx w.val) r).tbl ∧
    t.gr = { r.gr with log := [] } ∧ t.rd GRF_LOG_STS_STAGED = 0 ∧ t.rd GRF_GRAFT_STS_STATE = 0 ∧ t.rd GRF_GRAFT_STS_BUSY = 0 ∧
    t = { r with regs := t.regs, msi := t.msi, tbl := t.tbl, gr := t.gr, ecc := t.ecc } ∧
    regsKept [GRF_LOG_STS, GRF_GRAFT_STS, ECC_INJ_CFG, ECC_INJ_STS, ECC_INT] r t) ∧
  (∀ (s : State), s.alive islMgmt = true → s.graftSt = 6 → ∃ t, exec .resyncDone s = .next t ∧
    t.tbl = ([0x10, 0x11, 0x12, 0x20, 0x21, 0x22].foldl (fun (u : State) id =>
      u.tblCopy id (s.rd GRF_GEN_CUR_GEN % 2) (1 - s.rd GRF_GEN_CUR_GEN % 2)) s).tbl ∧
    t.gr = { s.gr with log := [] } ∧ t.rd GRF_LOG_STS_STAGED = 0 ∧ t.rd GRF_GRAFT_STS_STATE = 0 ∧ t.rd GRF_GRAFT_STS_BUSY = 0 ∧
    t.trk.want = s.trk.want ++ List.replicate s.resyncSize ⟨trkGraft, 5, s.time.mono⟩ ∧
    t = { s with regs := t.regs, tbl := t.tbl, gr := t.gr, trk := { s.trk with want := t.trk.want } } ∧ regsKept [GRF_LOG_STS, GRF_GRAFT_STS] s t) ∧
  (∀ (s : State) (v : Word), s.reaches GRF_LOG_CFG = true →
    (s.graftSt = 0 → ∃ t, exec (.grfLogCfgWrite v) s = .next t ∧ t.rd GRF_LOG_CFG_BASE = v.toNat % 2 ^ 14 ∧
      t.rd GRF_LOG_CFG_SIZE = v.toNat / 2 ^ 16 % 2 ^ 7 ∧ onlyRegs [GRF_LOG_CFG] s t) ∧
    (s.graftSt ≠ 0 → ∃ t, exec (.grfLogCfgWrite v) s = .next t ∧ t.rd GRF_GRAFT_STS_CFG_REJ_STK = 1 ∧ onlyRegs [GRF_GRAFT_STS] s t)) ∧
  ∀ (s : State) (v : Word), s.reaches GRF_RS_CFG = true → ∃ t, exec (.grfRsCfgWrite v) s = .next t ∧
    t.rd GRF_GRAFT_STS_CFG_REJ_STK = 1 ∧ onlyRegs [GRF_GRAFT_STS] s t

/-- R395 to R397, R400, R401, R408 to R411. HORIZON's value is free within R410's bound: the statement holds for each. -/
def Obligations.SnapshotsCountersAndJournal : Prop :=
  (∀ (s : State), s.reaches OBS_SNAP_CTL = true → ∃ l, exec .snapReq s = .next { s with obs := { s.obs with snapDue := l } } ∧
    l.Perm ((s.now islMgmt + 2000) :: s.obs.snapDue) ∧
    (s.obs.snapDue.Pairwise (· ≤ ·) → l.Pairwise (· ≤ ·))) ∧
  (∀ (s : State) (d : Nat), (∀ i < 168, s.ticksIsl i d = 0) → (s.snapSlots d).2 = s ∧
    ∀ n, (s.snapSlots d).1.get 0 n = s.liveSlots.get 0 n) ∧
  (∀ (s : State) (d : Nat) (l : List Nat), s.alive islMgmt = true → s.obs.snapDue = d :: l →
    let u := (s.snapSlots d).2
    let e := u.rd OBS_SNAP_EPOCH_EPOCH + 1
    (u.obs.snapRun = none → u.cntReading e = false → ∃ t, exec .snapshotEpoch s = .next t ∧
      t.rd OBS_SNAP_EPOCH_EPOCH = e % 2 ^ 32 ∧ t.obs.snapRun = some e ∧ t.obs.snapDue = l ∧
      t.bank e = ⟨e, false, d, (s.snapSlots d).1⟩ ∧ t.bank (e + 1) = u.bank (e + 1) ∧
      t = { u with regs := t.regs, obs := { u.obs with snapDue := t.obs.snapDue, snapRun := t.obs.snapRun, bank0 := t.obs.bank0, bank1 := t.obs.bank1 } } ∧
      regsKept [OBS_SNAP_EPOCH] u t) ∧
    ((∃ r, u.obs.snapRun = some r ∧ d < (u.bank r).t + 20000) ∨ (u.obs.snapRun = none ∧ u.cntReading e = true) → ∃ t,
      exec .snapshotEpoch s = .next t ∧ counted OBS_SNAP_SKIP_CNT 1 u t ∧ t.rd OBS_INT_SNAP_SKIP = 1 ∧
      t.obs = { u.obs with snapDue := l } ∧ t = { u with regs := t.regs, msi := t.msi, obs := t.obs } ∧
      regsKept [OBS_SNAP_SKIP_CNT, OBS_SNAP_SKIP_CNT + 4, OBS_INT] u t)) ∧
  (∀ (s : State) (e : Nat), s.alive islMgmt = true → s.obs.snapRun = some e →
    let b : SnapBank := { s.bank e with done := true }
    ∃ t, exec .snapshotDone s = .next t ∧ t.bank e = b ∧ t.bank (e + 1) = s.bank (e + 1) ∧ t.obs.snapRun = none ∧
      t.obs.evQ.get [] 4 = [natLe 4 b.epoch ++ natLe 4 (2 ^ 31) ++ natLe 8 b.t] ∧
      (∀ q, q ≠ 4 → t.obs.evQ.get [] q = s.obs.evQ.get [] q) ∧
      t = { s with obs := { s.obs with snapRun := none, bank0 := t.obs.bank0, bank1 := t.obs.bank1, evQ := t.obs.evQ } }) ∧
  (∀ (s : State) (v : Word), s.reaches OBS_PMU_CTL = true → ∃ t, exec (.pmuClr v) s = .next t ∧ t.obs = { s.obs with pmu := [] } ∧
    t.rd OBS_PMU_CTL_RUN = v.toNat % 2 ∧ t.rd OBS_PMU_CTL_GATE = v.toNat / 4 % 2 ∧
    t = { s with regs := t.regs, obs := t.obs } ∧ regsKept [OBS_PMU_CTL] s t) ∧
  (∀ (s : State) (k : Nat) (l : List Nat), s.inReset = false → s.obs.pmuWrap = k :: l → k < 320 →
    let a := if k < 256 then OBS_PMU_CFG (k / 8) (k % 8) else OBS_PMU_GCFG (k - 256)
    ∃ t, exec .pmuOvf s = .next t ∧ getBits (t.reg a) 16 1 = 1 ∧ t.obs = { s.obs with pmuWrap := l } ∧
      (getBits (s.reg a) 17 1 = 1 → t.rd OBS_INT_PMU_OVF = 1) ∧ (getBits (s.reg a) 17 1 = 0 → t.reg OBS_INT = s.reg OBS_INT) ∧
      t = { s with regs := t.regs, msi := t.msi, obs := t.obs } ∧ regsKept [a, OBS_INT] s t) ∧
  (∀ (s : State) (e : Nat), s.inReset = false → s.obs.sampEnd = some e → e ≤ s.devNow →
    exec .sampWinEnd s = .next { s with obs := { s.obs with sampEnd := none } }) ∧
  (∀ (s : State) (r : JRec) (l : List JRec), s.alive islMgmt = true → s.on OBS_JRN_CFG_EN = true → s.jrn.restart = false →
    s.jrn.q = r :: l → s.rsReady (jrnAddr (s.rd64 OBS_JRN_WPTR)) = true →
    s.rtsHas clsJrn (jrnAddr (s.rd64 OBS_JRN_WPTR)) = false →
    exec .journalWrite s = .next (s.rtsHeldBack (jrnAddr (s.rd64 OBS_JRN_WPTR)))) ∧
  (∀ (s : State) (r : JRec) (l : List JRec), s.alive islMgmt = true → s.on OBS_JRN_CFG_EN = true → s.jrn.restart = false →
    s.jrn.q = r :: l → s.rsReady (jrnAddr (s.rd64 OBS_JRN_WPTR)) = true →
    s.rtsHas clsJrn (jrnAddr (s.rd64 OBS_JRN_WPTR)) = true →
    let u := s.rtsUse clsJrn (jrnAddr (s.rd64 OBS_JRN_WPTR)) 32 true
    ∃ t, exec .journalWrite s = .next t ∧ t.jrn = { s.jrn with q := l } ∧
      t.rd64 OBS_JRN_WPTR = (s.rd64 OBS_JRN_WPTR + 1) % 2 ^ 64 ∧ counted OBS_JRN_CNT 1 s t ∧
      t.rs = (u.rsWrite (jrnAddr (s.rd64 OBS_JRN_WPTR)) (jrnBytes (s.rd64 OBS_JRN_WPTR) r)).rs ∧
      (s.ecc.diff = [] → s.ecc.poison = [] → s.on ECC_INJ_CFG_ARM = false →
        t.rs = (s.rsPut (jrnAddr (s.rd64 OBS_JRN_WPTR)) (jrnBytes (s.rd64 OBS_JRN_WPTR) r)).rs ∧
        t = { u with regs := t.regs, jrn := t.jrn, rs := t.rs, free := t.free, obs := { u.obs with pmuNow := t.obs.pmuNow } } ∧
        regsKept [OBS_JRN_WPTR, OBS_JRN_WPTR + 4, OBS_JRN_CNT, OBS_JRN_CNT + 4, OBS_JRN_HORIZON, OBS_JRN_HORIZON + 4] u t) ∧
      (∀ x ∈ l, t.rd64 OBS_JRN_HORIZON ≤ x.ts) ∧ (∀ e ∈ s.pkts, t.rd64 OBS_JRN_HORIZON ≤ e.2.bark.arrTs) ∧
      t.rd64 OBS_JRN_HORIZON ≤ s.now islMgmt ∧ t.pkts = s.pkts ∧ t.tbl = s.tbl ∧ t.gv = s.gv) ∧
  (∀ (s : State) (c u : BitVec 8), s.inReset = false →
    let k := c.toNat * 65536 + u.toNat
    let l := s.jrn.lost.get (0, 0) k
    (l.1 ≠ 0 → s.jrn.q.length < 4096 → exec (.jrnLost c u) s = .next { s with jrn := { s.jrn with
      q := s.jrn.q ++ [⟨s.now (jrnIsl c.toNat u.toNat), 0x0C01, u.toNat, false, 0, 0, natLe 4 l.1 ++ List.replicate 4 0 ++ natLe 8 l.2⟩]
      lost := s.jrn.lost.erase k } }) ∧
    (l.1 = 0 ∨ 4096 ≤ s.jrn.q.length → exec (.jrnLost c u) s = .next s)) ∧
  ∀ (s : State), s.alive islMgmt = true →
    (s.jrn.restart = false → exec .jrnRestart s = .next s) ∧
    (s.jrn.restart = true → ∃ t, exec .jrnRestart s = .next t ∧
      (s.on OBS_JRN_CFG_EN = true → t.jrn.q = [⟨s.now islMgmt, 0x0C03, 0, false, 0, 0, []⟩] ++
        s.jrn.knots.map (fun k => ⟨s.now islMgmt, 0x0B01, k.1, false, 0, 0, natLe 2 k.2 ++ natLe 1 5⟩) ++ s.jrn.q) ∧
      (s.on OBS_JRN_CFG_EN = false → t.jrn.q = s.jrn.q) ∧
      t.jrn = { s.jrn with restart := false, knots := [], q := t.jrn.q } ∧
      (s.jrn.knots = [] → t.regs = s.regs ∧ t.msi = s.msi) ∧
      (s.jrn.knots ≠ [] → counted KNOT_ABANDON_CNT s.jrn.knots.length s t ∧ t.rd SVN_INT_KNOT_ABANDON = 1) ∧
      t = { s with regs := t.regs, msi := t.msi, jrn := t.jrn } ∧
      regsKept [KNOT_ABANDON_CNT, KNOT_ABANDON_CNT + 4, SVN_INT] s t)

/-- R413, R415, R417, R420. -/
def Obligations.TemplatesAndExport : Prop :=
  (∀ (s : State) (v : Word), s.reaches OBS_EXP_CFG = true →
    let p := s.hostWrite OBS_EXP_CFG (v.toNat ||| 4)
    let p : State := if p.on OBS_EXP_CFG_EN then p else { p with obs := { p.obs with tmplDue := none } }
    let q := ((p.trunkAsk trkExport 4 1020).rtsUse clsExp p.expBase 65536 false).rsScan p.expBase 65536
    let got := (List.range 256).filterMap (fun n => if n = 0 then none else (p.loadTmpl n).map (n, ·))
    let ok := got.filter (fun e => (got.filter (fun x => x.2.id == e.2.id)).length == 1)
    let t : State := { q with obs := { q.obs with tmpl := ok } }
    exec (.templateLoad v) s = .next (t.wrB OBS_EXP_STS_TMPL_OK (t.namedTmpls.all (fun n => ok.any (fun e => e.1 == n)))).tmplSend) ∧
  (∀ (s : State), s.on OBS_EXP_CFG_EN = true → s.on OBS_EXP_CFG_DEST = true → s.tmplSend = { s with obs := { s.obs with
    expTmpl := s.obs.expTmpl ++ s.obs.tmpl.map (fun e => tmplRec e.2)
    tmplDue := some (s.now islMgmt + max 1 (s.rd OBS_EXP_MTU_TMPL_INT) * 1000000000) } }) ∧
  (∀ (s : State), (s.on OBS_EXP_CFG_EN = false ∨ s.on OBS_EXP_CFG_DEST = false) → s.tmplSend = s) ∧
  (∀ (s : State) (v : Word), s.reaches OBS_EXP_CFG = true → bit v.toNat 2 = false →
    let p := s.hostWrite OBS_EXP_CFG (v.toNat ||| 1)
    exec (.exportEnable v) s = .next (if s.on OBS_EXP_CFG_EN then p else p.tmplSend) ∧ p.on OBS_EXP_CFG_EN = true ∧
      p.rd OBS_EXP_CFG_DEST = v.toNat / 2 % 2 ∧ p.rd OBS_EXP_CFG_PORT = v.toNat / 2 ^ 8 % 2 ^ 8 ∧
      p.rd OBS_EXP_CFG_CLASS = v.toNat / 2 ^ 16 % 2 ^ 4 ∧ onlyRegs [OBS_EXP_CFG] s p) ∧
  (∀ (s : State) (d : Nat), s.alive islMgmt = true → s.obs.tmplDue = some d → s.on OBS_EXP_CFG_EN = true → d ≤ s.now islMgmt →
    exec .templateResend s = .next ({ s with obs := { s.obs with tmplDue := none } } : State).tmplSend) ∧
  (∀ (s : State) (i : BitVec 26), s.alive islMgmt = true →
    let r := s.record i.toNat
    let every := beAt r 180 1 + 256 * beAt r 181 1
    let a := slotAddr i.toNat + 128
    (s.on OBS_EXP_CFG_EN = false ∨ s.wayUsed i.toNat = false ∨ beAt r 179 1 = 0 ∨ every = 0 ∨ s.rd RTS_STS_READY ≠ 3 →
      exec (.activeExport i) s = .next s) ∧
    (s.on OBS_EXP_CFG_EN = true → s.wayUsed i.toNat = true → beAt r 179 1 ≠ 0 → every ≠ 0 → s.rd RTS_STS_READY = 3 →
      let next := fget (leNat (slice0 r 128 128)) CB_EXP_NEXT
      let w := (((s.waitIsl islMgmt (expNext (s.now islMgmt) next + 1)).trunkAsk trkExport 4).rtsUse clsExp a 128 false).rsScan a 128
      let now := w.now islMgmt
      let e := expNext now next
      (w.hotUnread i.toNat = true ∨ w.rsPoisoned a 128 = true → exec (.activeExport i) s = .next w) ∧
      (w.hotUnread i.toNat = false → w.rsPoisoned a 128 = false → w.tmplOf (beAt r 179 1) = none →
        exec (.activeExport i) s = .next (w.expFlow r 2)) ∧
      (w.hotUnread i.toNat = false → w.rsPoisoned a 128 = false → (w.tmplOf (beAt r 179 1)).isSome = true →
      let hot := hotNat (slice0 r 64 64)
      let step := every * 1000000000
      let cold := fset (fset (fset (leNat (slice0 r 128 128)) CB_EXP_PKTS (fget hot HB_PKTS)) CB_EXP_BYTES (fget hot HB_BYTES))
        CB_EXP_NEXT ((e + ((now - e) / step + 1) * step) % 2 ^ 48)
      let x := w.expFlow r 2
      exec (.activeExport i) s = .next (((if 1000000000 < now - e then x.cnt OBS_EXP_LATE_CNT else x).rtsUse clsExp a 128 true).rsWrite a
        (natLe 128 cold))))) ∧
  (∀ (s : State), s.alive islMgmt = true →
    let c := s.expClean
    (s.ecc.diff = [] → s.ecc.poison = [] → c = s) ∧
    (s.on OBS_EXP_CFG_EN = false → exec .exportMessage s = .next s) ∧
    (s.on OBS_EXP_CFG_EN = true → c.nextMsg = none → exec .exportMessage s = .next c) ∧
    (∀ msg n k, s.on OBS_EXP_CFG_EN = true → c.nextMsg = some (msg, n, k) →
      let r := c.expReads n
      let sent (u : State) : State := (({ u with obs := { u.obs with expTmpl := u.obs.expTmpl.drop k, expRecs := u.obs.expRecs.drop n, expSeq := (u.obs.expSeq + n) % 2 ^ 32 } } : State).cnt
        OBS_EXP_MSG_CNT).cnt OBS_EXP_REC_CNT n
      (r.on OBS_EXP_CFG_DEST = false → r.obs.evQ.get [] 3 = [] →
        exec .exportMessage s = .next (sent { r with obs := { r.obs with evQ := r.obs.evQ.set [] 3 [msg] } })) ∧
      (r.on OBS_EXP_CFG_DEST = false → r.obs.evQ.get [] 3 ≠ [] → exec .exportMessage s = .next r) ∧
      (r.on OBS_EXP_CFG_DEST = true →
        let h := r.rtsUse clsExp (r.expBase + 0x10000) (r.rd OBS_EXP_HDR_LEN) false
        let port := r.rd OBS_EXP_CFG_PORT
        let d := datagram (h.rsRead (h.expBase + 0x10000) (h.rd OBS_EXP_HDR_LEN)) (h.rd OBS_EXP_HDR_IPOFF) msg
        (d = none → ∃ t, exec .exportMessage s = .next t ∧ t.rd OBS_EXP_STS_HDR_ERR_STK = 1 ∧ onlyRegs [OBS_EXP_STS] h t) ∧
        (∀ f, d = some f → (h.injValid port (padded f).length = false ∨
          h.inject port 0 (some (h.rd OBS_EXP_CFG_CLASS)) true (padded f) = none) → exec .exportMessage s = .next h) ∧
        (∀ f u, d = some f → h.injValid port (padded f).length = true →
          h.inject port 0 (some (h.rd OBS_EXP_CFG_CLASS)) true (padded f) = some u →
          exec .exportMessage s = .next (sent { u with obs := { u.obs with expSent := msg :: u.obs.expSent.take 15 } }))))) ∧
  ∀ (s : State), s.alive islMgmt = true →
    (s.obs.expLostSec = 0 → exec .expLost s = .next s) ∧
    (s.obs.expLostSec ≠ 0 → s.obs.expLostAt + 1000000000 ≤ s.now islMgmt → ∃ t, exec .expLost s = .next t ∧
      t.obs = { s.obs with expLostSec := 0, expLostAt := 0 } ∧
      t.jrn = (s.journalAt islMgmt s.obs.expLostAt 0x0C02 0 (natLe 4 s.obs.expLostSec)).jrn ∧
      t = { s with regs := t.regs, msi := t.msi, jrn := t.jrn, obs := t.obs } ∧ regsKept jrnRegs s t)

/-- R251, R254 to R256, R261 to R263, R267. -/
def Obligations.RootStoreStartMappingAndUpkeep : Prop :=
  (∀ (s : State) (v : Word), s.reaches RTS_CFG = true →
    (s.on RTS_CFG_EN = true → exec (.rootStoreEnable v) s = .next s) ∧
    (s.on RTS_CFG_EN = false → ∃ t, exec (.rootStoreEnable v) s = .next t ∧ t.on RTS_CFG_EN = true ∧
      t.rts0 = { s.rts0 with starting := true, startAt := s.time.mono, selfRef := false } ∧
      t.rts1 = { s.rts1 with starting := true, startAt := s.time.mono, selfRef := false } ∧
      t = { s with regs := t.regs, rts0 := t.rts0, rts1 := t.rts1 } ∧ regsKept [RTS_CFG] s t)) ∧
  (∀ (s : State) (c : Fin 2), s.alive (islRts c.val) = true →
    ((s.rts c.val).starting = false → exec (.rootStoreReady c) s = .next s) ∧
    ((s.rts c.val).starting = true → ∃ t, exec (.rootStoreReady c) s = .next (if t.rtsReady && s.gv.heldEn then t.groveStart else t) ∧
      bit (t.rd RTS_STS_READY) c.val = true ∧ bit (t.rd RTS_STS_READY) (1 - c.val) = bit (s.rd RTS_STS_READY) (1 - c.val) ∧
      t.rd (RTS_INT_READY c.val) = 1 ∧ t.rts c.val = { s.rts c.val with starting := false, startAt := s.time.mono, trainAt := [] } ∧
      t.rts (1 - c.val) = s.rts (1 - c.val) ∧
      (bit (s.rd RTS_STS_KEPT) c.val = true → t.rs = s.rs ∧ t.ecc = s.ecc) ∧
      (bit (s.rd RTS_STS_KEPT) c.val = false → t.rs = s.rs.filter (fun e => s.stkOf e.1 != c.val)) ∧
      t = { s with regs := t.regs, msi := t.msi, rs := t.rs, ecc := t.ecc, rts0 := t.rts0, rts1 := t.rts1 } ∧
      regsKept [RTS_STS, RTS_INT c.val] s t)) ∧
  (∀ (s : State) (i : Fin 10) (v : Word), s.reaches (mapFld i.val).addr = true →
    (s.on RTS_CFG_EN = true → ∃ t, exec (.rtsMapWrite i v) s = .next t ∧ t.rd RTS_STS_MAP_REJ_STK = 1 ∧ onlyRegs [RTS_STS] s t) ∧
    (s.on RTS_CFG_EN = false → s.rsWf = true → Tab.wf (fun _ => 0) s.ecc.diff = true →
      let m (a : Nat) : Nat := remap (mapBit i.val) (s.rd (mapFld i.val)) (v.toNat % 2 ^ 14) a
      ∃ t, exec (.rtsMapWrite i v) s = .next t ∧ t.rd (mapFld i.val) = v.toNat % 2 ^ 14 ∧
        (∀ a, t.rs.get 0 (m a) = s.rs.get 0 a ∧ t.stkOf (m a) = s.stkOf a ∧ t.pcOf (m a) = s.pcOf a ∧ t.baOf (m a) = s.baOf a ∧
          getBits (m a) 20 16 = getBits a 20 16 ∧ m a % 2 ^ 10 = a % 2 ^ 10) ∧
        (∀ k, t.ecc.diff.get 0 (remapKey (mapBit i.val) (s.rd (mapFld i.val)) (v.toNat % 2 ^ 14) k) = s.ecc.diff.get 0 k) ∧
        t.ecc.poison = s.ecc.poison.map (remapKey (mapBit i.val) (s.rd (mapFld i.val)) (v.toNat % 2 ^ 14)) ∧
        (Tab.wf (fun _ => 0) s.ecc.symErr = true → ∀ k j, j < 16 →
          t.ecc.symErr.get 0 (16 * remapKey (mapBit i.val) (s.rd (mapFld i.val)) (v.toNat % 2 ^ 14) k + j) = s.ecc.symErr.get 0 (16 * k + j)) ∧
        t = { s with regs := t.regs, rs := t.rs, ecc := { s.ecc with diff := t.ecc.diff, poison := t.ecc.poison, symErr := t.ecc.symErr } } ∧
        regsKept [(mapFld i.val).addr] s t)) ∧
  (∀ (s : State) (n : Fin 6) (v : Word), s.reaches (RTS_BW_CFG (n.val + 1)) = true → ∃ t, exec (.rtsBwCfgWrite n v) s = .next t ∧
    t.rd (RTS_BW_CFG_CAP (n.val + 1)) = v.toNat % 2 ^ 10 ∧
    (t.on RTS_STS_BW_OVER = true ↔ 209 < t.rd (RTS_BW_CFG_CAP 1) + t.rd (RTS_BW_CFG_CAP 2) + t.rd (RTS_BW_CFG_CAP 3) +
      t.rd (RTS_BW_CFG_CAP 4) + t.rd (RTS_BW_CFG_CAP 5) + t.rd (RTS_BW_CFG_CAP 6)) ∧
    t.rd (ECC_SCRUB_STS_BEHIND 1) = b2n (bit (s.rd ECC_CFG_SCRUB_EN) 1 && decide (1000 * max 1 (s.rd (ECC_SCRUB_CFG_PERIOD 1)) < t.scrubMilli 1)) ∧
    t = { s with regs := t.regs, msi := t.msi, ecc := { s.ecc with behind := t.ecc.behind } } ∧
    regsKept [RTS_BW_CFG (n.val + 1), RTS_STS, ECC_SCRUB_STS 1, ECC_INT] s t) ∧
  (∀ (s : State) (c : Fin 2) (k : Fin 1536) (r : Bool), s.alive (islRts c.val) = true →
    (bit (s.rd RTS_STS_READY) c.val = false → exec (.hbmRefresh c k r) s = .next s) ∧
    (bit (s.rd RTS_STS_READY) c.val = true → ∃ t, exec (.hbmRefresh c k r) s = .next t ∧
      counted (if r then RTS_RFM_CNT c.val else RTS_REFRESH_CNT c.val) 1 s t ∧
      (t.rts c.val).banks.get {} k.val = { (s.rts c.val).banks.get {} k.val with isOpen := false } ∧
      (∀ j, j ≠ k.val → (t.rts c.val).banks.get {} j = (s.rts c.val).banks.get {} j) ∧
      t.rts c.val = { s.rts c.val with banks := (t.rts c.val).banks } ∧ t.rts (1 - c.val) = s.rts (1 - c.val) ∧
      t = { s with regs := t.regs, rts0 := t.rts0, rts1 := t.rts1 } ∧
      regsKept [if r then RTS_RFM_CNT c.val else RTS_REFRESH_CNT c.val, (if r then RTS_RFM_CNT c.val else RTS_REFRESH_CNT c.val) + 4] s t)) ∧
  (∀ (s : State) (c : Fin 2) (d : BitVec 8), s.alive (islRts c.val) = true → ∃ t, exec (.hbmTempRead c d) s = .next t ∧
    t.rd (RTS_TEMP_TEMP c.val) = d.toNat ∧ t.rd (RTS_TEMP_FAST_REF c.val) = (if 85 < d.toNat then 1 else 0) ∧
    (s.rd RTS_TEMP_CFG_HIGH ≤ d.toNat → t.rd (RTS_INT_TEMP_HIGH c.val) = 1) ∧
    (d.toNat < s.rd RTS_TEMP_CFG_HIGH → t.reg (RTS_INT c.val) = s.reg (RTS_INT c.val)) ∧
    onlyRegs [RTS_TEMP c.val, RTS_INT c.val] s t) ∧
  ∀ (s : State) (c : Fin 2) (p : Fin 32) (ok : Bool), s.alive (islRts c.val) = true →
    (bit (s.rd RTS_STS_READY) c.val = false → exec (.retrain c p ok) s = .next s) ∧
    (bit (s.rd RTS_STS_READY) c.val = true →
      let w := (s.waitMono (s.trainDue c.val p.val)).waitMono (s.rts c.val).pauseEnd
      let x := w.rts c.val
      let old := x.trainFails.get 0 p.val
      let next (n : Nat) : State := (w.cnt (RTS_TRAIN_CNT c.val)).putRts c.val { x with
        trainFails := x.trainFails.set 0 p.val n, trainAt := x.trainAt.set x.startAt p.val w.time.mono
        pausePc := p.val, pauseEnd := w.time.mono + 2000 }
      (ok = true → exec (.retrain c p ok) s = .next (next 0)) ∧
      (ok = false → old < 2 → exec (.retrain c p ok) s = .next (next (old + 1))) ∧
      (ok = false → old = 2 → exec (.retrain c p ok) s = .next ((((next 0).raise (RTS_INT_TRAIN_FAIL c.val)).cnt (RTS_TRAIN_FAIL_CNT c.val)).journal
        (islRts c.val) 0x0601 c.val (natLe 1 p.val))))

/-- R252, R253, R258 to R260, R264, R268. -/
def Obligations.RootStoreRequestsAndAccesses : Prop :=
  (∀ (s : State) (tag : Nat) (cls : Fin 8) (a : BitVec 36) (n : Fin 257) (d : Option (List Byte)), s.inReset = false →
    (n.val = 0 ∨ 0xC00000000 < a.toNat + n.val → exec (.rtsRequest tag cls a n d) s = .next s) ∧
    (n.val ≠ 0 → a.toNat + n.val ≤ 0xC00000000 → exec (.rtsRequest tag cls a n d) s = .next ((rtsParts a.toNat n.val).foldl (fun s p =>
      s.rtsRequest1 ⟨tag, cls.val, p.1, p.2, d.isSome, false, slice0 (slice0 (d.getD []) 0 n.val) (p.1 - a.toNat) p.2,
        d.isSome && !rtsWhole a.toNat n.val⟩) s))) ∧
  (∀ a n : Nat, (n = 64 ∨ n = 128 ∨ n = 256) → a % n = 0 → rtsParts a n = [(a, n)]) ∧
  (∀ (s : State) (r : RtsReq),
    let c := s.stkOf r.addr
    bit (s.rd RTS_STS_READY) c = true → s.alive (islRts c) = true → r.cls < 8 → (s.rts c).reqs.length < 4096 →
    ((∀ x ∈ (s.rts c).held, x.cls ≠ r.cls) → rtsRoom (s.rts c).reqs r.cls = true → s.ecc.diff = [] → s.ecc.poison = [] →
      s.on ECC_INJ_CFG_ARM = false →
      let q : RtsReq := if r.write then r else { r with data := s.rsRead r.addr r.len }
      let t := s.rtsRequest1 r
      (t.rts c).reqs = (s.rts c).reqs ++ [q] ∧ t.rts c = { s.rts c with reqs := (t.rts c).reqs } ∧ t.rts (1 - c) = s.rts (1 - c) ∧
        t.rd (RTS_REQ_STS_IN_USE c) = (s.rts c).reqs.length + 1 ∧
        t.rd (RTS_REQ_STS_HWM c) = max ((s.rts c).reqs.length + 1) (s.rd (RTS_REQ_STS_HWM c)) ∧
        counted (RTS_RAW_FWD_CNT c) (if !r.write && (s.rts c).reqs.any (fun x => x.write && decide (x.addr < r.addr + r.len) &&
          decide (r.addr < x.addr + x.len)) then 1 else 0) s t ∧
        t.rs = (if r.write then (s.rsPut r.addr r.data).rs else s.rs) ∧
        t = { s with regs := t.regs, rs := t.rs, rts0 := t.rts0, rts1 := t.rts1, obs := { s.obs with pmuNow := t.obs.pmuNow } } ∧
        regsKept [RTS_REQ_STS c, RTS_RAW_FWD_CNT c, RTS_RAW_FWD_CNT c + 4] s t) ∧
    ((∃ x ∈ (s.rts c).held, x.cls = r.cls) ∨ rtsRoom (s.rts c).reqs r.cls = false →
      let p := s.putRts c { s.rts c with held := (s.rts c).held ++ [r] }
      s.rtsRequest1 r = if (s.rts c).held = [] then p.raise (RTS_INT_BACKPRESS c) else p)) ∧
  (∀ (s : State) (c : Fin 2) (p : Fin 32) (l m : List RtsReq) (r : RtsReq), s.alive (islRts c.val) = true →
    (s.rts c.val).reqs.filter (fun r => !r.issued && s.pcOf r.addr == p.val) = l ++ r :: m → s.rtsPaused c.val p.val = false →
    let rank (x : RtsReq) : Nat := s.rtsRank c.val (l ++ r :: m) x.cls
    (∀ x ∈ l, rank r < rank x) → (∀ x ∈ m, rank r ≤ rank x) →
    let may (x : RtsReq) : Bool := decide (8 ≤ rank r) || s.rtsInCap c.val r.cls (rtsBytes x)
    let hit (x : RtsReq) : Bool := ((s.rts c.val).banks.get {} (s.bankNo x.addr)).isOpen &&
      ((s.rts c.val).banks.get {} (s.bankNo x.addr)).row == getBits x.addr 20 14
    (hit r = true ∨ 4 ≤ (s.rts c.val).ahead.get 0 (8 * p.val + r.cls) →
      exec (.rtsAccess c p) s = .next (s.rtsIssue c.val p.val r false)) ∧
    (hit r = false → (s.rts c.val).ahead.get 0 (8 * p.val + r.cls) < 4 →
      ((∀ x ∈ l ++ r :: m, x.cls = r.cls → hit x = true → may x = false) → exec (.rtsAccess c p) s = .next (s.rtsIssue c.val p.val r false)) ∧
      (∀ x, (l ++ r :: m).find? (fun x => x.cls == r.cls && hit x && may x) = some x →
        exec (.rtsAccess c p) s = .next (s.rtsIssue c.val p.val x true)))) ∧
  (∀ (s : State) (c : Fin 2) (p : Fin 32), s.alive (islRts c.val) = true →
    ((s.rts c.val).reqs.filter (fun r => !r.issued && s.pcOf r.addr == p.val) = [] ∨ s.rtsPaused c.val p.val = true) → exec (.rtsAccess c p) s = .next s) ∧
  (∀ (s : State) (c p : Nat) (r : RtsReq) (f : Bool), c < 2 → r.cls < 8 → r ∈ (s.rts c).reqs → (s.rts c).held = [] →
    (s.rts c).reqs.length ≤ 4096 →
    let t := s.rtsIssue c p r f
    let b := bankAccess (s.rd RTS_PAGE_CFG_POLICY) ((s.rts c).banks.get {} (s.bankNo r.addr)) (getBits r.addr 20 14) s.time.mono
    (t.rts c).banks.get {} (s.bankNo r.addr) = b.2 ∧
      counted (RTS_ROW_HIT_CNT c) (if b.1 then 1 else 0) s t ∧ counted (RTS_ROW_MISS_CNT c) (if b.1 then 0 else 1) s t ∧
      counted (RTS_RD_BYTES_CNT c) (if !r.write || r.rmw then rtsBytes r else 0) s t ∧
      counted (RTS_WR_BYTES_CNT c) (if r.write then rtsBytes r else 0) s t ∧ counted (RTS_CLS_BYTES_CNT c r.cls) (rtsBytes r) s t ∧
      counted (RTS_OB_BYTES_CNT c) (if r.cls = 7 then rtsBytes r else 0) s t ∧
      (r.write = true → (t.rts c).reqs = (s.rts c).reqs.erase r ∧ t.rd (RTS_REQ_STS_IN_USE c) = (s.rts c).reqs.length - 1) ∧
      (r.write = false → (t.rts c).reqs.length = (s.rts c).reqs.length ∧ { r with issued := true } ∈ (t.rts c).reqs) ∧
      t.rts (1 - c) = s.rts (1 - c) ∧
      t = { s with regs := t.regs, rts0 := t.rts0, rts1 := t.rts1, obs := { s.obs with pmuNow := t.obs.pmuNow } }) ∧
  (∀ (s : State) (c : Fin 2) (tag : Nat) (ce : Bool), s.alive (islRts c.val) = true →
    let p := if ce then s.cnt (RTS_DIE_CE_CNT c.val) else s
    ((∀ r ∈ (s.rts c.val).reqs, r.issued = true → r.tag ≠ tag) → exec (.rtsAccessComplete c tag ce) s = .next p) ∧
    (∀ r, (s.rts c.val).reqs.find? (fun r => r.issued && r.tag == tag) = some r →
      let older := ((s.rts c.val).reqs.takeWhile (fun q => q != r)).filter (fun q => !q.write && q.cls == r.cls &&
        decide (q.addr / 64 ≤ (r.addr + r.len - 1) / 64) && decide (r.addr / 64 ≤ (q.addr + q.len - 1) / 64))
      let w := p.rsScan r.addr r.len
      (older ≠ [] → exec (.rtsAccessComplete c tag ce) s = .next p) ∧
      (older = [] → exec (.rtsAccessComplete c tag ce) s = .next (((w.putRts c.val { w.rts c.val with
        reqs := (w.rts c.val).reqs.erase r, lastTag := tag, lastBytes := r.data }).rtsShow c.val).rtsUnhold c.val)))) ∧
  ∀ (s : State) (c : Fin 2) (k : Fin 1536), s.alive (islRts c.val) = true →
    let b := (s.rts c.val).banks.get {} k.val
    (b.isOpen = false → exec (.pageIdleClose c k) s = .next s) ∧
    (b.isOpen = true → b.at_ + 8 * max 1 (s.rd RTS_PAGE_CFG_IDLE) ≤ s.time.mono → exec (.pageIdleClose c k) s = .next (s.putRts c.val
      { s.rts c.val with banks := (s.rts c.val).banks.set {} k.val { b with isOpen := false } }))

/-- R341, R342, R344 to R346, R351 to R354. -/
def Obligations.ErrorsCountedCorrectedAndRepaired : Prop :=
  (∀ (s : State) (src : Fin 8) (w : BitVec 40) (pat : BitVec 88) (par : BitVec 2048), s.inReset = false →
    let p := if par.toNat = 0 then s else s.flipParity src.val w.toNat par.toNat
    exec (.pageCorrection src w ⟨pat, par⟩) s = .next
      ((if pat.toNat = 0 then p else p.flipWord src.val w.toNat pat.toNat).meetWord src.val w.toNat)) ∧
  (∀ (s : State) (n : Nat), n < 8 →
    let per := 1000000 * max 1 (s.rd (ECC_CE_CFG_LEAK_MS n))
    let last := s.ecc.leakAt.get 0 n
    let k := (s.now islMgmt - last) / per
    let t := s.leakDue n
    (k = 0 → t = s) ∧ t.rd (ECC_CE_LVL_LEVEL n) = s.rd (ECC_CE_LVL_LEVEL n) - k ∧
    (k ≠ 0 → t.ecc = { s.ecc with leakAt := s.ecc.leakAt.set 0 n (last + k * per) }) ∧
    t = { s with regs := t.regs, ecc := t.ecc } ∧ regsKept [ECC_CE_LVL n] s t) ∧
  (∀ (s : State) (src i : Nat), src < 8 →
    let b := s.leakDue src
    ∃ t, s.ceCount src i = t ∧ counted (CE_CNT src) 1 s t ∧
    t.rd (ECC_CE_LVL_LEVEL src) = min 65535 (b.rd (ECC_CE_LVL_LEVEL src) + 1) ∧
    (let thr := max 1 (s.rd (ECC_CE_CFG_THR src))
     (b.rd (ECC_CE_LVL_LEVEL src) + 1 = thr → bit (t.rd ECC_INT_CE_RATE) src = true ∧
       t.jrn = (s.journal i 0x0A04 src (natLe 2 thr)).jrn) ∧
     (b.rd (ECC_CE_LVL_LEVEL src) + 1 ≠ thr → t.reg ECC_INT = s.reg ECC_INT ∧ t.jrn = s.jrn)) ∧
    onlyRegsJrn [CE_CNT src, CE_CNT src + 4, ECC_CE_LVL src, ECC_INT] b t) ∧
  (∀ (s : State) (w : BitVec 40) (c : Fin 2),
    let src := 1 + c.val
    let k := eccKey src w.toNat
    let d := s.ecc.diff.get 0 k
    let page := s.rsPage (8 * w.toNat)
    let bad := (s.failedWords src).filter (fun x => s.rsPage (8 * x) == page)
    (s.wordPoisoned k = true → s.meetWord src w.toNat = (s.cnt (POISON_RD_CNT src)).eccLog src 2 c.val (synByte 64 (s.wordPat k))
      (8 * w.toNat) (islRts c.val)) ∧
    (s.wordPoisoned k = false →
    (classify 64 d = .ok → s.meetWord src w.toNat = s) ∧
    (classify 64 d = .ce → s.meetWord src w.toNat = s.ceCount src (islRts c.val)) ∧
    (classify 64 d = .ue → s.pageOk src page = true → ∃ t, s.meetWord src w.toNat = t ∧ counted (UE_CNT src) 1 s t ∧
      counted (PAGE_FIX_CNT src) 1 s t ∧ (∀ x ∈ bad, t.ecc.diff.find? (eccKey src x) = none) ∧
      (∀ j, (∀ x ∈ bad, j ≠ eccKey src x) → t.ecc.diff.find? j = s.ecc.diff.find? j) ∧
      (s.ecc.symErr = [] → t.rs = s.rs ∧ t.ecc.symErr = []) ∧
      t = { s with regs := t.regs, rs := t.rs, ecc := { s.ecc with diff := t.ecc.diff, symErr := t.ecc.symErr, pageDiff := s.ecc.pageDiff.erase (eccKey src page) } } ∧
      regsKept [UE_CNT src, UE_CNT src + 4, PAGE_FIX_CNT src, PAGE_FIX_CNT src + 4] s t) ∧
    (classify 64 d = .ue → s.pageOk src page = false → ∃ t, s.meetWord src w.toNat = t ∧ counted (UE_CNT src) 1 s t ∧
      counted (PAGE_FAIL_CNT src) 1 s t ∧ bit (t.rd ECC_INT_UE) src = true ∧ t.ecc.poison = s.ecc.poison ++ bad.map (eccKey src) ∧
      (∀ x ∈ bad, t.ecc.diff.find? (eccKey src x) = none) ∧
      t = { s with regs := t.regs, msi := t.msi, jrn := t.jrn, rs := t.rs, ecc := { s.ecc with diff := t.ecc.diff, poison := t.ecc.poison, symErr := (s.symForget src page).ecc.symErr, pageDiff := s.ecc.pageDiff.erase (eccKey src page) } } ∧
      regsKept (jrnRegs ++ [UE_CNT src, UE_CNT src + 4, PAGE_FAIL_CNT src, PAGE_FAIL_CNT src + 4, ECC_INT, ECC_LOG_INFO, ECC_LOG_LOC,
        ECC_LOG_LOC + 4, ECC_LOG_TS, ECC_LOG_TS + 4]) s t))) ∧
  (∀ (s : State) (id : BitVec 8) (c : Fin 2) (i : BitVec 20), s.alive islMgmt = true →
    let waits := s.ecc.repairDue.filter (fun e => e.1 % 512 == 2 * id.toNat + c.val && e.2 == i.toNat)
    let src := tblSrc id.toNat
    let key (u w : Nat) : Nat := eccKey src (unitWord id.toNat u c.val i.toNat w)
    let bits (w : Nat) : Nat := wordBits src (unitWord id.toNat 0 c.val i.toNat w)
    (waits = [] → exec (.tableRepair id c i) s = .next s) ∧
    (∀ u, waits = [(512 * u + 2 * id.toNat + c.val, i.toNat)] → (id.toNat = 0x20 ∨ id.toNat = 0x51) →
      (∀ x < copyUnits id.toNat, x ≠ u → s.copyGood id.toNat x c.val i.toNat = false) → exec (.tableRepair id c i) s = .next s) ∧
    (∀ u, waits = [(512 * u + 2 * id.toNat + c.val, i.toNat)] →
      let from_ := (List.range (copyUnits id.toNat)).find? (fun x => x != u && s.copyGood id.toNat x c.val i.toNat)
      (from_ = none → id.toNat ≠ 0x20 ∧ id.toNat ≠ 0x51) → ∃ t, exec (.tableRepair id c i) s = .next t ∧ counted (REPAIR_CNT src) 1 s t ∧
      t.ecc = { s.ecc with diff := t.ecc.diff, repairDue := s.ecc.repairDue.erase (512 * u + 2 * id.toNat + c.val, i.toNat) } ∧
      (from_ = none → ∀ w ∈ s.entWords id.toNat, t.ecc.diff.get 0 (key u w) = 0) ∧
      (∀ x, from_ = some x → ∀ w ∈ s.entWords id.toNat, isSlice src (unitWord id.toNat x c.val i.toNat w) = false →
        t.ecc.diff.get 0 (key u w) = residue (bits w) (s.ecc.diff.get 0 (key x w))) ∧
      (∀ k, (∀ w ∈ s.entWords id.toNat, k ≠ key u w) → t.ecc.diff.find? k = s.ecc.diff.find? k) ∧
      t.tbl = (if id.toNat = 0x70 then s.setEnt 0x70 c.val i.toNat (s.polFresh (s.ent 0x70 c.val i.toNat)) else s).tbl ∧
      t.trk.want = s.trk.want ++ [⟨trkScrub, 4, s.time.mono⟩] ∧
      t = { s with regs := t.regs, msi := t.msi, jrn := t.jrn, tbl := t.tbl, ecc := t.ecc, trk := { s.trk with want := t.trk.want } } ∧
      regsKept (jrnRegs ++ [REPAIR_CNT src, REPAIR_CNT src + 4, ECC_LOG_INFO, ECC_LOG_LOC, ECC_LOG_LOC + 4, ECC_LOG_TS, ECC_LOG_TS + 4]) s t)) ∧
  (∀ (s : State) (src w : Nat), src ≠ 7 → classify (wordBits src w) (s.wordPat (eccKey src w)) = .ce →
    let p := (s.scrubUse src w .ce).ceCount src (wordAt src w).2.2
    let left := afterCorrection (wordBits src w) (s.wordPat (eccKey src w))
    s.scrubRead src w = ({ p with ecc := { p.ecc with
      poison := p.ecc.poison.filter (fun k => k != eccKey src w), diff := p.ecc.diff.set 0 (eccKey src w) left } } : State).cnt (SCRUB_FIX_CNT src)) ∧
  (∀ (s : State) (g : Fin 4) (pat : BitVec 88), s.alive islMgmt = true →
    (bit (s.rd ECC_CFG_SCRUB_EN) g.val = false ∨ (g.val = 1 ∧ s.rd RTS_STS_READY ≠ 3) → exec (.scrubStep g pat) s = .next s) ∧
    (bit (s.rd ECC_CFG_SCRUB_EN) g.val = true → g.val = 1 → s.rd RTS_STS_READY = 3 → s.rtsHas clsScrub (8 * s.ecc.scrubPos.get 0 1) = false →
      exec (.scrubStep g pat) s = .next (s.rtsHeldBack (8 * s.ecc.scrubPos.get 0 1))) ∧
    (bit (s.rd ECC_CFG_SCRUB_EN) g.val = true →
      (g.val = 1 → s.rd RTS_STS_READY = 3 ∧ s.rtsHas clsScrub (8 * s.ecc.scrubPos.get 0 1) = true) →
      let n := s.scrubWords g.val
      let p := s.ecc.scrubPos.get 0 g.val
      let due := max (s.ecc.scrubNext.get 0 g.val) (s.time.mono * 2 ^ 32)
      let w := s.waitMono (due / 2 ^ 32)
      let b := ({ w with ecc := { w.ecc with behind := if p = 0 then w.ecc.behind.set false g.val false else w.ecc.behind } } : State).scrubBehind g.val
      let x := b.scrubWord g.val p
      let b := if x.1 = 7 ∧ (tblOfWord 7 x.2).1 % 512 / 2 = 0x20 then b.trunkAsk trkScrub 4 else b
      let r := (if pat.toNat = 0 then b else b.flipWord x.1 x.2 pat.toNat).scrubRead x.1 x.2
      let q := (p + 1) % n
      let u : State := ({ r with ecc := { r.ecc with
        scrubPos := r.ecc.scrubPos.set 0 g.val q
        scrubNext := r.ecc.scrubNext.set 0 g.val (due + r.scrubMilli g.val * 8000000 * 2 ^ 32 / n) } } : State).wr
          (ECC_SCRUB_STS_PROGRESS g.val) (q * 1024 / n)
      exec (.scrubStep g pat) s = .next (if q = 0 then u.wr (ECC_SCRUB_STS_PASSES g.val) (u.rd (ECC_SCRUB_STS_PASSES g.val) + 1) else u))) ∧
  (∀ (s : State) (n : Fin 8), s.alive islMgmt = true →
    exec (.ceLeak n) s = .next ((s.waitIsl islMgmt (s.ecc.leakAt.get 0 n.val + 1000000 * max 1 (s.rd (ECC_CE_CFG_LEAK_MS n.val)))).leakDue n.val)) ∧
  ∀ (s : State) (v : Word), s.reaches ECC_INJ_CFG = true → ∃ t, exec (.eccInjArm v) s = .next t ∧
    t.rd ECC_INJ_CFG_SRC = v.toNat % 2 ^ 4 ∧ t.rd ECC_INJ_CFG_LEVEL = v.toNat / 2 ^ 4 % 2 ∧
    t.rd ECC_INJ_CFG_CHK_XOR = v.toNat / 2 ^ 8 % 2 ^ 8 ∧ t.rd ECC_INJ_CFG_COUNT = v.toNat / 2 ^ 16 % 2 ^ 8 ∧
    (s.on ECC_CFG_TEST_EN = true → t.rd ECC_INJ_CFG_ARM = 1 ∧ t.rd ECC_INJ_STS_LEFT = max 1 (v.toNat / 2 ^ 16 % 2 ^ 8)) ∧
    (s.on ECC_CFG_TEST_EN = false → t.rd ECC_INJ_CFG_ARM = s.rd ECC_INJ_CFG_ARM ∧ t.reg ECC_INJ_STS = s.reg ECC_INJ_STS) ∧
    onlyRegs [ECC_INJ_CFG, ECC_INJ_STS] s t

/-- R358 to R361, R374, R378, R382. RESULT 2 for a channel in another state is the model's choice (assumption 34). -/
def Obligations.ChannelOperationsAndReset : Prop :=
  (∀ (s : State) (c : BitVec 10) (e : Option (List Byte)) (i : Instr), i ∈ [Instr.chEnable c e, .chDisable c, .chRefresh c e, .chReset c] →
    s.reaches SVN_CH_CMD = true → s.on SVN_CH_CMD_STS_BUSY = true → ∃ t, exec i s = .next t ∧ t.rd SVN_CH_CMD_STS_REJ_STK = 1 ∧
      onlyRegs [SVN_CH_CMD_STS] s t) ∧
  (∀ (s : State) (c : BitVec 10) (e : Option (List Byte)), s.reaches SVN_CH_CMD = true → s.on SVN_CH_CMD_STS_BUSY = false →
    let x := s.chan c.toNat
    let ends (i : Instr) (n : Nat) : Prop := ∃ t, exec i s = .next t ∧ t.rd SVN_CH_CMD_STS_RESULT = n ∧ t.rd SVN_CH_CMD_STS_BUSY = 0 ∧
      onlyRegs [SVN_CH_CMD_STS] s t
    (x.st ≠ 0 ∨ s.dmaOk = false → ends (.chEnable c e) 2) ∧
    (x.st = 0 → s.dmaOk = true → (e = none ∨ ∃ b, e = some b ∧ entryOk b = false) → ends (.chEnable c e) 1) ∧
    (∀ b, x.st = 0 → s.dmaOk = true → e = some b → entryOk b = true → ∃ t, exec (.chEnable c e) s = .next t ∧
      t.rd SVN_CH_CMD_STS_RESULT = 0 ∧ t.rd SVN_CH_CMD_STS_BUSY = 0 ∧
      t.chan c.toNat = ({ lastV := x.lastV, lastTag := x.lastTag, lastStatus := x.lastStatus, lastResult := x.lastResult, cause := x.cause, st := 1, phase := true } : ChSt).load b ∧
      (∀ d, d ≠ c.toNat → t.chan d = s.chan d) ∧
      (s.svn.cache.length < 64 → t.cached c.toNat = true ∧ t.svn.mem = s.svn.mem) ∧
      t = { s with regs := t.regs, svn := { s.svn with ch := t.svn.ch, cache := t.svn.cache, mem := t.svn.mem }, obs := { s.obs with evJrn := t.obs.evJrn } } ∧
      regsKept [SVN_CH_CMD_STS] s t) ∧
    (x.st = 0 → ends (.chDisable c) 0) ∧
    (x.st ≠ 0 →
      let p := ((s.putChan c.toNat { x with disabling := true }).copiesGone c.toNat).chanKnotGone c.toNat 2
      exec (.chDisable c) s = .next (({ p with svn := { p.svn with busyCh := some c.toNat } } : State).wr SVN_CH_CMD_STS_BUSY 1)) ∧
    (x.st ≠ 1 → ends (.chRefresh c e) 2) ∧
    (∀ b, x.st = 1 → e = some b → s.dmaOk = true → exec (.chRefresh c e) s = .next ((s.putChan c.toNat (x.refresh b)).opEnd 0)) ∧
    (x.st = 1 → e = none → exec (.chRefresh c e) s = .next ((s.chHalt c.toNat 1).opEnd 0)) ∧
    (∀ b, x.st = 1 → e = some b → s.dmaOk = false → exec (.chRefresh c e) s = .next ((s.chHalt c.toNat 4).opEnd 0)) ∧
    (x.st = 1 → ends (.chReset c) 2) ∧
    (x.st ≠ 1 → ∃ t, exec (.chReset c) s = .next t ∧ t.chan c.toNat = {} ∧ (∀ d, d ≠ c.toNat → t.chan d = s.chan d) ∧
      bit (t.reg (SVN_CH_HALT (c.toNat / 32))) (c.toNat % 32) = false ∧ t.rd SVN_CH_CMD_STS_RESULT = 0 ∧ t.rd SVN_CH_CMD_STS_BUSY = 0 ∧
      t.svn.mem = (if s.dmaOk then s.hostPut (s.rd64 SVN_CHT_BASE + 64 * c.toNat + 32) (List.replicate 32 0) else s).svn.mem ∧
      t = { s with regs := t.regs, svn := { s.svn with ch := t.svn.ch, cache := s.svn.cache.erase c.toNat, mem := t.svn.mem } } ∧
      regsKept [SVN_CH_HALT (c.toNat / 32), SVN_CH_CMD_STS] s t)) ∧
  (∀ (s : State), s.alive islPcie = true →
    let ended (c : Nat) : State :=
      let p := ((s.putChan c { s.chan c with st := 0, disabling := false, flight := [], comps := [], bufs := [], unsig := 0, holdEnd := none, evFill := 0 }).chWb c).haltBit c false
      { p with svn := { p.svn with cache := p.svn.cache.erase c, flrCh := s.svn.flrCh.erase c } }
    (∀ c, let x := s.chan c
      s.drained c = true ↔ (x.flight = [] ∧ x.comps = []) ∨ (x.st = 2 ∧ x.cqSize ≤ x.cqOut) ∨ (s.dmaOk = false ∧ ∀ m ∈ x.flight, m.fin.isSome = true)) ∧
    ((∀ c, s.svn.busyCh = some c → s.drained c = false) → (∀ c ∈ s.svn.flrCh, s.drained c = false) → exec .disableDone s = .next s) ∧
    (∀ c, s.svn.busyCh = some c → s.drained c = true →
      exec .disableDone s = .next (({ ended c with svn := { (ended c).svn with busyCh := none } } : State).opEnd 0)) ∧
    (∀ c, (∀ d, s.svn.busyCh = some d → s.drained d = false) → s.svn.flrCh.find? s.drained = some c → exec .disableDone s = .next (ended c))) ∧
  (∀ (s : State) (c : BitVec 10) (e : Option (List Byte)), s.alive islPcie = true →
    ((s.chan c.toNat).st ≠ 1 ∨ s.cached c.toNat = true → exec (.chtLoad c e) s = .next s) ∧
    ((s.chan c.toNat).st = 1 → s.cached c.toNat = false →
      (s.dmaOk = false → exec (.chtLoad c e) s = .next (s.chHalt c.toNat 4)) ∧
      (s.dmaOk = true → e = none → exec (.chtLoad c e) s = .next (s.chHalt c.toNat 1)) ∧
      (∀ b, s.dmaOk = true → e = some b → (s.chMay rrLoad c.toNat s.loadWaits = false ∨ s.cacheRoom.1 = false) →
        exec (.chtLoad c e) s = .next { s with svn := { s.svn with loadWait := s.loadWaits.erase c.toNat ++ [c.toNat] } }) ∧
      (∀ b, s.dmaOk = true → e = some b → s.chMay rrLoad c.toNat s.loadWaits = true → s.cacheRoom.1 = true →
        let r := s.cacheRoom.2
        let p := if entryOk b then r.putChan c.toNat ((r.chan c.toNat).load b) else r
        let p := if s.loadWaits = [] then p
          else ({ p with svn := { p.svn with loadWait := s.loadWaits.erase c.toNat } } : State).rrServed rrLoad 1024 c.toNat
        exec (.chtLoad c e) s = .next ((p.touch c.toNat).cnt SVN_CHT_MISS_CNT)))) ∧
  (∀ (s : State), (s.svn.cache.length < 64 → s.cacheRoom = (true, s)) ∧
    (64 ≤ s.svn.cache.length → (∀ v ∈ s.svn.cache, s.chBusy v = true) → s.cacheRoom = (false, s)) ∧
    ∀ v, 64 ≤ s.svn.cache.length → s.svn.cache.find? (fun v => !s.chBusy v) = some v →
      s.cacheRoom = (true, { s.chWb v with svn := { (s.chWb v).svn with cache := (s.chWb v).svn.cache.erase v } })) ∧
  (∀ (s : State) (c : BitVec 10) (n : Fin 6), s.alive islPcie = true →
    let x := s.chan c.toNat
    (x.st ≠ 1 → exec (.channelHalt c n) s = .next s) ∧
    (x.st = 1 → ∃ h, exec (.channelHalt c n) s = .next ((((((s.putChan c.toNat { x with st := 2, cause := n.val, sqHead := h, flight := x.flight.filter Cmd.begun }).chWb
        c.toNat).haltBit c.toNat true).raise SVN_INT_CH_HALT).journal islMgmt 0x0B02 0 (natLe 2 c.toNat ++ natLe 1 n.val)).cnt SVN_HALT_CNT |>.chanKnotGone c.toNat 3) ∧
      ((∀ m ∈ x.flight, m.begun = true) → h = x.sqHead) ∧
      (∀ l m r, x.flight = l ++ m :: r → (∀ b ∈ l, b.begun = true) → m.begun = false → h = m.idx))) ∧
  ∀ (s : State), s.alive islPcie = true →
    exec .flr s = .next { s.svnReset with msi := { s.svnReset.msi with d3 := false } } ∧
    exec .d3hot s = .next { s.svnReset with msi := { s.svnReset.msi with d3 := true } } ∧
    s.svnReset.svn.knots = [] ∧ s.svnReset.svn.flrCh = (s.svn.ch.filter (fun e => e.2.st != 0)).map (·.1) ∧
    s.svnReset.msi.due = [] ∧ s.svnReset.reg SVN_INT = 0 ∧
    (Tab.sortedFrom none s.svn.ch = true → ∀ c, s.svnReset.chan c = (if (s.chan c).st = 0 then s.chan c else { s.chan c with disabling := true })) ∧
    (∀ v < 64, s.svnReset.reg (MSIX_CTL v) = (resetOf (MSIX_CTL v)).toNat) ∧ s.svnReset.tbl = s.tbl ∧
    ((∀ p ∈ s.pkts, p.2.hostCopies = []) → s.svn.knots = [] → s.svnReset = { s with regs := s.svnReset.regs, msi := { s.msi with due := [] }, svn := { s.svn with ch := s.svnReset.svn.ch, flrCh := s.svnReset.svn.flrCh } } ∧
      ∀ a, (a < MSIX_ADDR 0 ∨ MSIX_PBA 2 ≤ a) → a ≠ SVN_INT → s.svnReset.reg a = s.reg a)

/-- R362 to R367, R370, R380 to R382. -/
def Obligations.DoorbellsCompletionsAndMessages : Prop :=
  (∀ (s : State) (c : BitVec 10) (v : Word) (f : Bool), s.alive islPcie = true →
    let x := s.chan c.toNat
    let i := v.toNat % 65536
    (x.st ≠ 1 ∨ f = false → ∀ j, j ∈ [Instr.sqTail c v f, .cqHead c v f] → ∃ t, exec j s = .next t ∧ counted SVN_DB_IGN_CNT 1 s t ∧
      t.rd SVN_INT_DB_IGN = 1 ∧ onlyRegs [SVN_DB_IGN_CNT, SVN_DB_IGN_CNT + 4, SVN_INT] s t) ∧
    (x.st = 1 → f = true → x.sqSize ≤ i → exec (.sqTail c v f) s = .next (s.chHalt c.toNat 3)) ∧
    (x.st = 1 → f = true → i < x.sqSize → exec (.sqTail c v f) s = .next (s.putChan c.toNat { x with sqTail := i })) ∧
    (x.st = 1 → f = true → x.cqSize ≤ i → exec (.cqHead c v f) s = .next (s.chHalt c.toNat 3)) ∧
    (x.st = 1 → f = true → i < x.cqSize → (i ≠ x.cqHead ∨ x.cqOut ≠ x.cqSize) → x.cqHead < x.cqSize →
      exec (.cqHead c v f) s = .next (s.putChan c.toNat { x with cqHead := i, cqOut := x.cqOut - (i + x.cqSize - x.cqHead) % x.cqSize })) ∧
    (x.st = 1 → f = true → i = x.cqHead → i < x.cqSize → x.cqOut = x.cqSize →
      exec (.cqHead c v f) s = .next (s.putChan c.toNat { x with cqHead := i, cqOut := 0 }))) ∧
  (∀ (s : State) (c : BitVec 10) (d : Option (List Byte)), s.alive islPcie = true →
    let x := s.chan c.toNat
    let has := decide (x.st = 1) && !x.disabling && decide (x.sqHead ≠ x.sqTail) && decide (x.cqOut < x.cqSize) && decide (x.inFlight < 256) &&
      s.cached c.toNat
    let may := has && decide (s.contexts < 4096) && s.chMay rrContext c.toNat s.ctxWaits
    (has = false → exec (.commandFetch c d) s = .next s) ∧
    (has = true → may = false → exec (.commandFetch c d) s = .next { s with svn := { s.svn with ctxWait := s.ctxWaits.erase c.toNat ++ [c.toNat] } }) ∧
    (may = true → s.dmaOk = false → exec (.commandFetch c d) s = .next (s.chHalt c.toNat 4)) ∧
    (may = true → s.dmaOk = true → d = none → exec (.commandFetch c d) s = .next (s.chHalt c.toNat 1)) ∧
    (∀ b, may = true → s.dmaOk = true → d = some b →
      let p := if s.ctxWaits = [] then s
        else ({ s with svn := { s.svn with ctxWait := s.ctxWaits.erase c.toNat } } : State).rrServed rrContext 1024 c.toNat
      exec (.commandFetch c d) s = .next (((p.putChan c.toNat { x with
      sqHead := (x.sqHead + 1) % x.sqSize
      flight := x.flight ++ [{ idx := x.sqHead, desc := slice0 b 0 32 }] }).touch c.toNat).cmdSettle c.toNat 256))) ∧
  (∀ (s : State) (c : BitVec 10) (i : BitVec 16), s.alive islMgmt = true →
    (∀ m, s.readyCmd c.toNat i.toNat 0x00 m → exec (.cmdNop c i) s = .next (s.cmdEnd c.toNat i.toNat 0 0)) ∧
    ((∀ m, ((s.cmdSettle c.toNat 256).chan c.toNat).next = some m → m.idx ≠ i.toNat ∨ m.op ≠ 0) →
      exec (.cmdNop c i) s = .next (s.cmdSettle c.toNat 256))) ∧
  (∀ (s : State) (c : BitVec 10), s.alive islPcie = true →
    let x := s.chan c.toNat
    (∀ r, (x.st = 0 ∨ x.cqSize ≤ x.cqOut ∨ ((∀ m l, x.flight = m :: l → m.fin = none) ∧ x.comps = [])) → exec (.completionPost c r) s = .next s) ∧
    (∀ m l st res, x.st ≠ 0 → x.cqOut < x.cqSize → x.comps = [] → x.flight = m :: l → m.fin = some (st, res) →
      (∀ r, s.dmaOk = false → exec (.completionPost c r) s = .next (s.chHalt c.toNat 4)) ∧
      (s.dmaOk = true → exec (.completionPost c true) s = .next ((s.putChan c.toNat { x with flight := l, comps := [] }).chHalt c.toNat 5)) ∧
      (s.dmaOk = true → ∃ t, exec (.completionPost c false) s = .next t ∧
        let y := t.chan c.toNat
        let a := x.cqBase + 16 * x.cqTail
        (List.range 16).map (fun i => t.svn.mem.get 0 ((a + i) % 2 ^ 64)) = natLe 4 m.tag ++ natLe 2 st ++
          natLe 1 (b2n x.phase + 2 * b2n m.dup) ++ natLe 1 m.op ++ natLe 4 res ++ natLe 2 ((m.idx + 1) % x.sqSize) ++ natLe 2 0 ∧
        (∀ b, (∀ i < 16, b ≠ (a + i) % 2 ^ 64) → t.svn.mem.get 0 b = s.svn.mem.get 0 b) ∧
        y.cqTail = (x.cqTail + 1) % x.cqSize ∧ y.cqOut = x.cqOut + 1 ∧ y.phase = (if y.cqTail = 0 then !x.phase else x.phase) ∧
        y.lastV = true ∧ y.lastTag = m.tag ∧ y.lastStatus = st ∧ y.lastResult = res ∧ y.flight.length = l.length ∧
        counted (if m.dup then SVN_DUP_CNT else SVN_CMD_CNT) 1 s t ∧
        (if x.irqEn && (m.irq || decide (max 1 x.irqCnt ≤ x.unsig + 1)) then t.msi.due = s.msi.due ++ [16 + c.toNat] ∧ y.unsig = 0
          else t.msi = s.msi ∧ y.unsig = x.unsig + 1) ∧
        (∀ d, d ≠ c.toNat → t.chan d = s.chan d) ∧
        t = { s with regs := t.regs, msi := { s.msi with due := t.msi.due }, svn := { s.svn with ch := t.svn.ch, mem := t.svn.mem } } ∧
        regsKept [if m.dup then SVN_DUP_CNT else SVN_CMD_CNT, (if m.dup then SVN_DUP_CNT else SVN_CMD_CNT) + 4] s t)) ∧
    (∀ r l, x.st ≠ 0 → x.cqOut < x.cqSize → x.comps = r :: l → s.dmaOk = true → exec (.completionPost c false) s = .next
      ((s.putChan c.toNat { x with comps := l }).cqWrite c.toNat 0 0 (4 * b2n r.sop + 8 * b2n r.eop) r.op r.result ((r.idx + 1) % x.sqSize) r.info r.irq))) ∧
  (∀ (s : State) (c : BitVec 10), s.alive islPcie = true →
    let x := s.chan c.toNat
    (x.holdEnd = none → exec (.holdoffExpire c) s = .next s) ∧
    (∀ e, x.holdEnd = some e → e ≤ s.time.mono →
      (x.irqEn = true → exec (.holdoffExpire c) s = .next ((s.putChan c.toNat { x with unsig := 0, holdEnd := none }).msiDue (16 + c.toNat))) ∧
      (x.irqEn = false → exec (.holdoffExpire c) s = .next (s.putChan c.toNat { x with holdEnd := none })))) ∧
  ∀ (s : State), s.alive islPcie = true →
    (s.msi.due = [] → exec .msixMessage s = .next s) ∧
    ∀ b l, s.msi.due = b :: l →
      let v := if b < 16 then s.rd (SVN_VEC_MAP_VEC b) else (s.chan (b - 16)).vec
      (s.msi.enable = false ∨ s.dmaOk = false → exec .msixMessage s = .next { s with msi := { s.msi with due := l } }) ∧
      (s.msi.enable = true → s.dmaOk = true → s.msi.funcMask = false → s.on (MSIX_CTL_MASK v) = false →
        exec .msixMessage s = .next { s with msi := { s.msi with due := l, sent := (s.reg (MSIX_ADDR v) + 2 ^ 32 * s.reg (MSIX_ADDR_HI v), s.reg (MSIX_DATA v)) :: s.msi.sent } }) ∧
      (s.msi.enable = true → s.dmaOk = true → (s.msi.funcMask = true ∨ s.on (MSIX_CTL_MASK v) = true) → v < 64 → ∃ t,
        exec .msixMessage s = .next t ∧ bit (t.reg (MSIX_PBA (v / 32))) (v % 32) = true ∧ t.msi = { s.msi with due := l } ∧
        t = { s with regs := t.regs, msi := t.msi } ∧ regsKept [MSIX_PBA (v / 32)] s t)

/-- R148, R162, R179, R180, R187, R345, R369 to R371, R443, R483. Statuses are R371's numbers. -/
def Obligations.TableCommands : Prop :=
  (∀ (s : State) (c : BitVec 10) (i : BitVec 16) (d : Option (List Byte)) (m : Cmd), s.alive islMgmt = true →
    let ends (j : Instr) (st res : Nat) : Prop := exec j s = .next (s.cmdEnd c.toNat i.toNat st res)
    let off : Bool := (m.table == 0x40 || m.table == 0x41) && !s.on GRV_STS_READY
    let n := tblBytes (s.rd GRF_RS_CFG_WIDTH) m.table
    let whole : Option Nat := if tblCount (s.rd GRF_RS_CFG_WIDTH) m.table = 0 then some 2 else if off then some 19
      else if m.count = 0 ∨ 4096 < m.count then some 3 else none
    (s.readyCmd c.toNat i.toNat 0x01 m →
      (s.sw.isSome = true → exec (.tblWrite c i d) s = .next s) ∧
      (∀ st, s.sw = none → whole = some st → ends (.tblWrite c i d) st 0) ∧
      (∀ st, s.sw = none → whole = none → s.writeGate c.toNat m.table = some st → ends (.tblWrite c i d) st 0) ∧
      (s.sw = none → whole = none → s.writeGate c.toNat m.table = none →
        (s.dmaOk = false → exec (.tblWrite c i d) s = .next ((s.cmdEnd c.toNat i.toNat 15 0).chHalt c.toNat 4)) ∧
        (s.dmaOk = true → d = none → exec (.tblWrite c i d) s = .next ((s.cmdEnd c.toNat i.toNat 15 0).chHalt c.toNat 1)) ∧
        (∀ b, s.dmaOk = true → d = some b →
          let r := s.writeRun m.table m.index 0 ((List.range m.count).map (fun k => leAt b (n * k) n))
          (r = none → exec (.tblWrite c i d) s = .next s) ∧
          (∀ st k t, r = some (st, k, t) → exec (.tblWrite c i d) s = .next (t.cmdEnd c.toNat i.toNat st k)) ∧
          (m.table ∈ [0x32, 0x42, 0x43, 0x44, 0x45, 0x46, 0x60] → m.count = 1 → m.index < tblCount 0 m.table → s.knotOver m.table = none →
            s.ecc.diff = [] → s.ecc.repairDue = [] → s.on ECC_INJ_CFG_ARM = false → ∃ t, exec (.tblWrite c i d) s = .next t ∧
            t.ent m.table 0 m.index = (leAt b 0 n &&& tblWritable 0 m.table) ∧
            (∀ k, k ≠ tblKey m.table 0 m.index → t.tbl.find? k = s.tbl.find? k) ∧ t.svn = (s.cmdEnd c.toNat i.toNat 0 1).svn ∧
            t.trk.want = s.trk.want ++ [⟨trkHost, entryPhases n, s.time.mono⟩] ∧
            t = { s with tbl := t.tbl, svn := t.svn, trk := { s.trk with want := t.trk.want } })))) ∧
    (s.readyCmd c.toNat i.toNat 0x02 m →
      (∀ st, whole = some st → ends (.tblRead c i) st 0) ∧
      (whole = none → s.dmaOk = false → exec (.tblRead c i) s = .next ((s.cmdEnd c.toNat i.toNat 15 0).chHalt c.toNat 4)) ∧
      (whole = none → s.dmaOk = true →
        (∀ st k t u, s.readRun m.table n m.host m.index 0 m.count = (some (st, k, t), u) → exec (.tblRead c i) s = .next
          (if st = 10 then (t.cmdEnd c.toNat i.toNat 10 k).chHalt c.toNat 2 else t.cmdEnd c.toNat i.toNat st k)) ∧
        (∀ u, s.readRun m.table n m.host m.index 0 m.count = (none, u) → exec (.tblRead c i) s = .next u) ∧
        (m.table ∈ [0x30, 0x31, 0x32, 0x42, 0x43, 0x44, 0x45, 0x46, 0x60, 0x70] → m.count = 1 → m.index < tblCount 0 m.table →
          s.ecc.diff = [] → s.ecc.repairDue = [] → exec (.tblRead c i) s = .next
            (((s.trunkAsk trkHost (entryPhases n)).hostPut m.host (natLe n (s.ent m.table 0 m.index))).cmdEnd c.toNat i.toNat 0 1)))) ∧
    (∀ (op : Nat) (j : Instr), (op, j) ∈ [(0x03, Instr.keyWrite c i d), (0x04, .keyDelete c i d)] → s.readyCmd c.toNat i.toNat op m →
      (s.sw.isSome = true → exec j s = .next s) ∧
      (s.sw = none → m.table ≠ 0x30 → m.table ≠ 0x41 → ends j 2 0) ∧
      (s.sw = none → (m.table = 0x30 ∨ m.table = 0x41) →
        (off = true → ends j 19 0) ∧
        (off = false → s.dmaOk = false → exec j s = .next ((s.cmdEnd c.toNat i.toNat 15 0).chHalt c.toNat 4)) ∧
        (off = false → s.dmaOk = true → d = none → exec j s = .next ((s.cmdEnd c.toNat i.toNat 15 0).chHalt c.toNat 1)) ∧
        (∀ b, off = false → s.dmaOk = true → d = some b →
          (∀ st, s.writeGate c.toNat m.table = some st → ends j st 0) ∧
          (s.writeGate c.toNat m.table = none →
            let r := s.writeOne ⟨op, m.table, 0, leNat (slice0 b 0 (tblBytes 0 m.table))⟩
            (r = none → exec j s = .next s) ∧ ∀ st k t, r = some (st, k, t) → exec j s = .next (t.cmdEnd c.toNat i.toNat st k))))) ∧
    (∀ (op : Nat) (j : Instr) (w : KnotWrite) (tab : List Nat) (lim : Nat),
      (op, j, w, tab, lim) ∈ [(0x05, Instr.idxDelete c i, ⟨0x05, m.table, m.index, 0⟩, [0x30, 0x40], tblCount 0 m.table),
        (0x07, .brgFlush c i, ⟨0x07, 0x30, 0, m.param⟩, [0x30], 2 ^ 32), (0x08, .flowPair c i, ⟨0x08, 0x40, m.index, m.param⟩, [0x40], 2 ^ 26)] →
      s.readyCmd c.toNat i.toNat op m →
      (s.sw.isSome = true → exec j s = .next s) ∧
      (s.sw = none → m.table ∉ tab → ends j 2 0) ∧
      (s.sw = none → m.table ∈ tab → off = true → ends j 19 0) ∧
      (s.sw = none → m.table ∈ tab → off = false → op ≠ 0x07 → lim ≤ m.index → ends j 3 0) ∧
      (s.sw = none → m.table ∈ tab → off = false → (op = 0x07 ∨ m.index < lim) →
        (∀ st, s.writeGate c.toNat m.table = some st → ends j st 0) ∧
        (s.writeGate c.toNat m.table = none → (s.writeOne w = none → exec j s = .next s) ∧
          ∀ st k t, s.writeOne w = some (st, k, t) → exec j s = .next (t.cmdEnd c.toNat i.toNat st k)))) ∧
    (s.readyCmd c.toNat i.toNat 0x06 m →
      (m.table ≠ 0x30 → m.table ≠ 0x41 → ends (.keyFind c i d) 2 0) ∧
      ((m.table = 0x30 ∨ m.table = 0x41) → off = true → ends (.keyFind c i d) 19 0) ∧
      (∀ b, (m.table = 0x30 ∨ m.table = 0x41) → off = false → s.dmaOk = true → d = some b →
        exec (.keyFind c i d) s = .next (s.keyFind c.toNat m (slice0 b 0 (tblBytes 0 m.table)))) ∧
      (∀ b, m.table = 0x30 → s.dmaOk = true → d = some b → s.ecc.diff = [] → s.ecc.repairDue = [] →
        (s.brgFind (fget (leAt b 0 16) BR_VID) (brMac (leAt b 0 16)) = none → ends (.keyFind c i d) 12 0) ∧
        (∀ k e, s.brgFind (fget (leAt b 0 16) BR_VID) (brMac (leAt b 0 16)) = some (k, e) → k < 32768 → exec (.keyFind c i d) s = .next
          (((s.trunkAsk trkHost 4).hostPut m.host (natLe 16 (s.ent 0x30 0 k))).cmdEnd c.toNat i.toNat 0 k))))) ∧
  (∀ (s : State) (w : KnotWrite), tblGen w.table = false → s.knotOver w.table = none → s.writeOne w = s.perform w) ∧
  (∀ (s : State) (k : Nat), (fon (s.ent 0x30 0 k) BR_V = true → s.perform ⟨0x05, 0x30, k, 0⟩ = some (0, k, (s.brgRemove k).trunkAsk trkLearn 4)) ∧
    (fon (s.ent 0x30 0 k) BR_V = false → s.perform ⟨0x05, 0x30, k, 0⟩ = some (12, 0, s))) ∧
  (∀ (s : State) (e : Nat), s.brgFind (fget e BR_VID) (brMac e) = none → s.perform ⟨0x04, 0x30, 0, e⟩ = some (12, 0, s)) ∧
  (∀ (s : State) (p : Nat), s.perform ⟨0x07, 0x30, 0, p⟩ =
    let r := s.brgFlush (if bit p 20 then some (p % 256) else none) (if bit p 21 then some (getBits p 8 12) else none)
    some (0, r.1, r.2)) ∧
  ∀ (s : State) (a p : Nat),
    let b := p % 2 ^ 26
    let pair (st : Nat) : Prop := s.perform ⟨0x08, 0x40, a, p⟩ = some (st, 0, s)
    let w := s.trunkAsk trkHost 5
    let written (x y : Nat) (px py : Option Nat) : Prop :=
      (w.pairRefused x = false → w.pairRefused y = false →
        s.perform ⟨0x08, 0x40, a, p⟩ = some (0, 0, (w.setPair clsHost x px).setPair clsHost y py)) ∧
      ((w.pairRefused x = true ∨ w.pairRefused y = true) → ∃ t, s.perform ⟨0x08, 0x40, a, p⟩ = some (10, 0, t) ∧ t.gv = s.gv ∧ t.tbl = s.tbl)
    (bit p 32 = false → a = b → pair 3) ∧
    (bit p 32 = false → a ≠ b → (s.isFlow a = false ∨ s.isFlow b = false) → pair 12) ∧
    (bit p 32 = false → a ≠ b → s.isFlow a = true → s.isFlow b = true → ((∃ q, s.pairOf a = some q ∧ q ≠ b) ∨ ∃ q, s.pairOf b = some q ∧ q ≠ a) → pair 17) ∧
    (bit p 32 = false → a ≠ b → s.isFlow a = true → s.isFlow b = true → (∀ q, s.pairOf a = some q → q = b) → (∀ q, s.pairOf b = some q → q = a) →
      s.flowFree a = true → s.flowFree b = true → written a b (some b) (some a)) ∧
    (bit p 32 = true → s.isFlow a = false → pair 12) ∧
    (∀ q, bit p 32 = true → s.isFlow a = true → s.pairOf a = some q → s.flowFree a = true → s.flowFree q = true →
      written a q none none)

/-- R120, R247, R370, R376 to R378, R443. -/
def Obligations.KnotsGraftsAndPatches : Prop :=
  (∀ (s : State) (c : BitVec 10) (i : BitVec 16) (m : Cmd), s.alive islMgmt = true →
    let ends (j : Instr) (st res : Nat) : Prop := exec j s = .next (s.cmdEnd c.toNat i.toNat st res)
    let k := m.table
    let mask := if k = 0 then 0 else getBits m.param 16 6
    let lease := if m.param % 2 ^ 16 = 0 then max 1 (s.rd SVN_KNOT_CFG_LEASE) else m.param % 2 ^ 16
    (s.readyCmd c.toNat i.toNat 0x10 m →
      (15 < k → ends (.knotAcq c i) 2 0) ∧
      (k ≤ 15 → ((s.svn.knots.find? k).isSome = true ∨ (s.knotOf c.toNat).isSome = true) → ends (.knotAcq c i) 5 0) ∧
      (s.svn.knots.find? k = none → s.knotOf c.toNat = none →
        (k = 0 → s.sw.isSome = true → ends (.knotAcq c i) 5 0) ∧
        (k = 0 → s.sw = none → 2 ≤ s.graftSt → ends (.knotAcq c i) 7 0) ∧
        (1 ≤ k → k ≤ 15 → (∃ e ∈ s.svn.knots, e.1 ≠ 0 ∧ (e.2.mask &&& mask) ≠ 0) → ends (.knotAcq c i) 5 0) ∧
        (((k = 0 ∧ s.sw = none ∧ s.graftSt < 2) ∨ (1 ≤ k ∧ k ≤ 15 ∧ ∀ e ∈ s.svn.knots, e.1 = 0 ∨ (e.2.mask &&& mask) = 0)) → ∃ t,
          exec (.knotAcq c i) s = .next t ∧ t.svn.knots.find? k = some ⟨c.toNat, mask, lease, s.time.mono + lease * 8000000, []⟩ ∧
          (∀ j, j ≠ k → t.svn.knots.find? j = s.svn.knots.find? j) ∧ bit (t.rd SVN_KNOT_STS_HELD) k = true ∧
          t.rd (SVN_KNOT_OWN_CH k) = c.toNat ∧ t.rd (SVN_KNOT_OWN_HELD k) = 1 ∧ t.svn.ch = (s.cmdEnd c.toNat i.toNat 0 k).svn.ch ∧
          (k = 0 → t.gr = { s.gr with log := [] } ∧ t.graftSt = 1 ∧ t.rd GRF_LOG_STS_STAGED = 0) ∧
          (k ≠ 0 → t.gr = s.gr ∧ t.graftSt = s.graftSt) ∧
          t = { s with regs := t.regs, gr := t.gr, svn := { s.svn with knots := t.svn.knots, ch := t.svn.ch } } ∧
          regsKept ([SVN_KNOT_STS, GRF_GRAFT_STS, GRF_LOG_STS, SVN_KNOT_OWN k] ++ s.svn.knots.map (fun e => SVN_KNOT_OWN e.1)) s t))) ∧
    (s.readyCmd c.toNat i.toNat 0x11 m →
      (15 < k → ends (.knotRel c i) 2 0) ∧
      (k ≤ 15 → s.holds c.toNat k = false → ends (.knotRel c i) 6 0) ∧
      (k ≤ 15 → s.holds c.toNat k = true →
        (bit m.param 0 = false → exec (.knotRel c i) s = .next ((if k = 0 then (((s.knotFree 0).putLog []).setGraft 0) else s.knotFree k).cmdEnd c.toNat i.toNat 0 0)) ∧
        (bit m.param 0 = true → s.sw.isSome = true → exec (.knotRel c i) s = .next s) ∧
        (bit m.param 0 = true → s.sw = none → k = 0 →
          exec (.knotRel c i) s = .next (((s.knotFree 0).graftStart (some (c.toNat, i.toNat)) m.host).cmdStarted c.toNat i.toNat)) ∧
        (∀ x, bit m.param 0 = true → s.sw = none → k ≠ 0 → s.svn.knots.find? k = some x →
          (s.knotRun 0 0 x.staged = none → exec (.knotRel c i) s = .next s) ∧
          ∀ st n t, s.knotRun 0 0 x.staged = some (st, n, t) → exec (.knotRel c i) s = .next ((t.knotFree k).cmdEnd c.toNat i.toNat st n)))) ∧
    (s.readyCmd c.toNat i.toNat 0x12 m →
      (15 < k → ends (.knotRenew c i) 2 0) ∧
      (k ≤ 15 → s.holds c.toNat k = false → ends (.knotRenew c i) 6 0) ∧
      (∀ x, k ≤ 15 → s.svn.knots.find? k = some x → x.ch = c.toNat → exec (.knotRenew c i) s = .next
        (({ s with svn := { s.svn with knots := s.svn.knots.insert k { x with until_ := s.time.mono + x.lease * 8000000 } } } : State).leaseShow.cmdEnd
          c.toNat i.toNat 0 x.lease))) ∧
    (s.readyCmd c.toNat i.toNat 0x13 m →
      (s.holds c.toNat 0 = false → ends (.graft c i) 6 0) ∧
      (s.holds c.toNat 0 = true → ∃ t, exec (.graft c i) s = .next t ∧ t.svn.knots.find? 0 = none ∧ t.rd GRF_GRAFT_STS_STATE = 2 ∧
        t.rd GRF_GRAFT_STS_BUSY = 1 ∧ t.gr = { s.gr with by_ := some (c.toNat, i.toNat), tflipAddr := m.host, phaseEnd := s.time.mono + 400 * s.gr.log.length } ∧
        t.trk.want = s.trk.want ++ List.replicate s.gr.log.length ⟨trkGraft, 5, s.time.mono⟩ ∧ t.svn.ch = (s.cmdStarted c.toNat i.toNat).svn.ch ∧
        t = { s with regs := t.regs, gr := t.gr, svn := { s.svn with knots := s.svn.knots.erase 0, ch := t.svn.ch }, trk := { s.trk with want := t.trk.want } } ∧
        regsKept [SVN_KNOT_STS, SVN_KNOT_OWN 0, GRF_GRAFT_STS] s t)) ∧
    (s.readyCmd c.toNat i.toNat 0x14 m →
      (s.rd TWG_PATCH_STS_STATE ≠ 0 ∨ s.sw.isSome = true → exec (.patch c i) s = .next ((s.wr TWG_PATCH_STS_REJ_STK 1).cmdEnd c.toNat i.toNat 9 0)) ∧
      (s.rd TWG_PATCH_STS_STATE = 0 → s.sw = none → ∃ t, exec (.patch c i) s = .next t ∧ t.rd TWG_PATCH_STS_STATE = 1 ∧
        t.twig = { s.twig with patchT := s.now islMgmt + max 1000 (s.rd TWG_PATCH_CFG_FLIP_LEAD), patchVer := m.param % 2 ^ 32, by_ := some (c.toNat, i.toNat) } ∧
        t.svn = (s.cmdStarted c.toNat i.toNat).svn ∧ t = { s with regs := t.regs, twig := t.twig, svn := t.svn } ∧
        regsKept [TWG_PATCH_STS] s t))) ∧
  ∀ (s : State) (k : Fin 16), s.alive islMgmt = true →
    (s.svn.knots.find? k.val = none → exec (.knotLeaseExpire k) s = .next s) ∧
    (∀ x, s.svn.knots.find? k.val = some x → x.until_ ≤ s.time.mono → ∃ t, exec (.knotLeaseExpire k) s = .next t ∧
      t.svn = { s.svn with knots := s.svn.knots.erase k.val } ∧ t.svn.knots.find? k.val = none ∧ counted KNOT_ABANDON_CNT 1 s t ∧
      t.rd SVN_INT_KNOT_ABANDON = 1 ∧ bit (t.rd SVN_KNOT_STS_HELD) k.val = false ∧ t.reg (SVN_KNOT_OWN k.val) = 0 ∧
      (k.val = 0 → s.graftSt = 1 → t.graftSt = 0 ∧ t.gr = { s.gr with log := [] } ∧ t.rd GRF_LOG_STS_STAGED = 0) ∧
      (k.val ≠ 0 ∨ s.graftSt ≠ 1 → t.graftSt = s.graftSt ∧ t.gr = s.gr) ∧
      t = { s with regs := t.regs, msi := t.msi, jrn := t.jrn, gr := t.gr, svn := t.svn } ∧
      regsKept (jrnRegs ++ [KNOT_ABANDON_CNT, KNOT_ABANDON_CNT + 4, SVN_INT, SVN_KNOT_STS, SVN_KNOT_OWN k.val, GRF_GRAFT_STS, GRF_LOG_STS]) s t)

/-- R252, R347, R348, R365, R370 to R375, R397, R421. Waiting until both stacks are READY is the model's choice (assumption 41). -/
def Obligations.MemoryInjectionAndStreams : Prop :=
  (∀ (s : State) (c : BitVec 10) (i : BitVec 16) (d : Option (List Byte)) (m : Cmd), s.alive islMgmt = true →
    let ends (j : Instr) (st res : Nat) : Prop := exec j s = .next (s.cmdEnd c.toNat i.toNat st res)
    let failed (j : Instr) (cause : Nat) : Prop := exec j s = .next ((s.cmdEnd c.toNat i.toNat 15 0).chHalt c.toNat cause)
    let n := m.count
    (∀ (op : Nat) (j : Instr) (base size most : Nat), (op, j, base, size, most) ∈ [(0x20, Instr.memRead c i, 0x800000000, 0x400000000, 2 ^ 24),
        (0x22, .jrnRead c i, 0x500000000, 0x200000000, 2 ^ 32)] → s.readyCmd c.toNat i.toNat op m →
      (n = 0 ∨ most < n → ends j 3 0) ∧
      (1 ≤ n → n ≤ most → size < m.param + n → ends j 13 0) ∧
      (1 ≤ n → n ≤ most → m.param + n ≤ size → s.rd RTS_STS_READY ≠ 3 → exec j s = .next s) ∧
      (1 ≤ n → n ≤ most → m.param + n ≤ size → s.rd RTS_STS_READY = 3 →
        (s.dmaOk = false → failed j 4) ∧
        (s.dmaOk = true →
          let u := ((s.trunkAsk trkHost 6 (ceilDiv n 256)).rtsUse clsHost (base + m.param) n false).rsScan (base + m.param) n
          (u.rsPoisoned (base + m.param) n = true → exec j s = .next ((u.cmdEnd c.toNat i.toNat 10 0).chHalt c.toNat 2)) ∧
          (u.rsPoisoned (base + m.param) n = false →
            exec j s = .next ((u.hostPut m.host (u.rsRead (base + m.param) n)).cmdEnd c.toNat i.toNat 0 n))))) ∧
    (s.readyCmd c.toNat i.toNat 0x21 m →
      let j := Instr.memWrite c i d
      (n = 0 → ends j 3 0) ∧
      (1 ≤ n →
        (0x400000000 < m.param + n → ends j 13 0) ∧
        (m.param + n ≤ 0x400000000 → s.protected m.param n = true → ends j 14 0) ∧
        (m.param + n ≤ 0x400000000 → s.protected m.param n = false → s.rd RTS_STS_READY ≠ 3 → exec j s = .next s) ∧
        (m.param + n ≤ 0x400000000 → s.protected m.param n = false → s.rd RTS_STS_READY = 3 →
          (s.dmaOk = false → failed j 4) ∧ (s.dmaOk = true → d = none → failed j 1) ∧
          (∀ b, s.dmaOk = true → d = some b →
            let w := (s.trunkAsk trkHost 6 (ceilDiv n 256)).rtsUse clsHost (0x800000000 + m.param) n true
            let r := w.memPut (0x800000000 + m.param) (slice0 b 0 n)
            exec j s = .next (r.2.2.cmdEnd c.toNat i.toNat (if r.1 then 0 else 10) r.2.1) ∧
            (s.ecc.diff = [] → s.ecc.poison = [] → s.on ECC_INJ_CFG_ARM = false →
              r.1 = true ∧ r.2.1 = n ∧ r.2.2 = w.rsPut (0x800000000 + m.param) (slice0 b 0 n)))))) ∧
    (let j := Instr.cntRead c i
     let at_ := m.param % 2 ^ 63
     let slots (u : State) (a : Nat) : State := ((u.trunkAsk trkHost 6 (ceilDiv (8 * n) 256)).hostPut m.host
       ((List.range n).flatMap (fun k => natLe 8 (s.bar4Slot (a + 8 * k))))).cmdEnd c.toNat i.toNat 0 n
     (s.readyCmd c.toNat i.toNat 0x23 m → s.svn.snapAt.find? (65536 * c.toNat + i.toNat) = none →
       (n = 0 → ends j 3 0) ∧
       (1 ≤ n → (at_ % 8 ≠ 0 ∨ 0x4000000 < at_ + 8 * n) → ends j 13 0) ∧
       (1 ≤ n → at_ % 8 = 0 → at_ + 8 * n ≤ 0x4000000 →
         (s.dmaOk = false → failed j 4) ∧
         (s.dmaOk = true → (bit m.param 63 = false ∨ 0x1000000 ≤ at_) → exec j s = .next (slots s at_)) ∧
         (s.dmaOk = true → bit m.param 63 = true → at_ < 0x1000000 → exec j s = .next
           ((({ s with svn := { s.svn with snapAt := s.svn.snapAt.insert (65536 * c.toNat + i.toNat) (s.now islMgmt + 2000) } } : State).snapAsk
             (s.now islMgmt + 2000)).cmdStarted c.toNat i.toNat)))) ∧
     (∀ t, (s.chan c.toNat).flight.find? (fun q => q.idx == i.toNat && q.started && q.fin.isNone) = some m →
       s.svn.snapAt.find? (65536 * c.toNat + i.toNat) = some t → s.dmaOk = true →
       let e : State := { s with svn := { s.svn with snapAt := s.svn.snapAt.erase (65536 * c.toNat + i.toNat) } }
       (t ∈ s.obs.snapDue → exec j s = .next s) ∧
       (t ∉ s.obs.snapDue →
         (s.obs.bank0.t = t → s.obs.bank0.done = true → exec j s = .next (slots e (0x1000000 + at_))) ∧
         (s.obs.bank0.t = t → s.obs.bank0.done = false → exec j s = .next s) ∧
         (s.obs.bank0.t ≠ t → s.obs.bank1.t = t → s.obs.bank1.done = true → exec j s = .next (slots e (0x2000000 + at_))) ∧
         (s.obs.bank0.t ≠ t → s.obs.bank1.t ≠ t → exec j s = .next (slots e at_))))) ∧
    (∀ (op : Nat) (j : Instr) (g : Fin 8192) (cls : Option Nat), (op, j, cls) ∈ [(0x30, Instr.injPipe c i g d, none),
        (0x31, .injPort c i g d, some (leAt m.desc 3 1 % 16))] → s.readyCmd c.toNat i.toNat op m →
      let port := leAt m.desc 2 1
      let len := leAt m.desc 8 2
      (s.injValid port len = false → ends j 3 0) ∧
      (s.injValid port len = true →
        (s.dmaOk = false → failed j 4) ∧ (s.dmaOk = true → d = none → failed j 1) ∧
        (∀ b, s.dmaOk = true → d = some b →
          (s.allocMay (portBough port) (len + 4) 8 = false → exec j s = .next s) ∧
          (∀ u, s.allocMay (portBough port) (len + 4) 8 = true → s.inject port g.val cls false (slice0 b 0 len) = some u → exec j s = .next ((u.cnt SVN_INJ_CNT).cmdEnd c.toNat i.toNat 0 0)) ∧
          (s.allocMay (portBough port) (len + 4) 8 = true → s.inject port g.val cls false (slice0 b 0 len) = none →
            (m.held = true → exec j s = .next s) ∧
            (m.held = false → exec j s = .next ((s.modCmd c.toNat i.toNat ({ · with held := true })).cnt SVN_INJ_WAIT_CNT)))))) ∧
    (∀ (op : Nat) (j : Instr), (op, j) ∈ [(0x40, Instr.rxBuf c i), (0x41, .evBuf c i)] → s.readyCmd c.toNat i.toNat op m →
      exec j s = .next (s.putChan c.toNat { s.chan c.toNat with
        flight := (s.chan c.toNat).flight.filter (fun (q : Cmd) => q.idx != i.toNat)
        bufs := (s.chan c.toNat).bufs ++ [⟨m.host, i.toNat, m.irq⟩] }))) ∧
  (∀ (s u : State) (port t : Nat) (cls : Option Nat) (x : Bool) (f : List Byte), t < 8192 → s.inject port t cls x f = some u →
    let b := port / 8
    ∃ g q, g < 8192 ∧ s.pkt? (pkey b g) = none ∧ u.pkt? (pkey b g) = some q ∧ (∀ k, k ≠ pkey b g → u.pkt? k = s.pkt? k) ∧
      q.bytes = withFcs f ∧ q.bark.ingPort = port ∧ q.bark.arrTs = s.now (islBough b) ∧ q.bark.seq = (s.port port).seq ∧ q.host = true ∧
      q.ended = true ∧ q.hasBuf = true ∧ (cls = none → q.bark.inj = false) ∧
      (∀ k, cls = some k → q.bark.inj = true ∧ q.bark.egr = port ∧ q.bark.cls = k ∧ q.stage = .toAdmit)) ∧
  (∀ (s : State) (c op info : Nat) (bs : List Byte) (p : PostedBuf) (l : List PostedBuf), (s.chan c).bufs = p :: l →
    bs.length ≤ 256 * (s.chan c).bufUnits → s.putBufs c 1 op info bs = (s.hostPut p.addr bs).putChan c { s.chan c with
      bufs := l, comps := (s.chan c).comps ++ [⟨p.idx, p.irq, true, true, bs.length, info, op⟩] }) ∧
  (∀ (s : State) (b : Fin 32) (g : BitVec 13) (c : BitVec 10) (p : Pkt) (h : HostCopy), s.alive islPcie = true →
    let k := pkey b.val g.toNat
    let x := s.chan c.toNat
    let need := ceilDiv (48 + p.bytes.length) (max 1 (256 * x.bufUnits))
    let can := p.ended && decide (x.st = 1) && decide (x.typ = 3) && s.cached c.toNat && decide (need ≤ x.bufs.length) &&
      decide (x.cqOut + x.comps.length < 2 ^ (x.cqLog + 4)) &&
      !s.pkts.any (fun e => e.1 != k && e.2.ended && (e.2.copyTo c.toNat).any (fun x => decide (max x.at_ e.2.endAt < max h.at_ p.endAt)))
    s.pkt? k = some p → p.copyTo c.toNat = some h →
    (p.stUe = true → exec (.hostCopyDeliver b g c) s = .next ((s.modPkt k ({ · with hostCopies := [] })).settle k)) ∧
    (p.stUe = false →
    (can = false → exec (.hostCopyDeliver b g c) s = .next s) ∧
    (can = true → s.dmaOk = false → exec (.hostCopyDeliver b g c) s = .next (s.chHalt c.toNat 4)) ∧
    (can = true → s.dmaOk = true → exec (.hostCopyDeliver b g c) s = .next (((((s.touch c.toNat).putBufs c.toNat need 0x40 h.info
      (barkBytes p.bark ++ p.bytes)).cnt SVN_RX_CNT).copyGone k c.toNat).settle k))) ∧
    (decide (x.st = 1) && decide (x.typ = 3) = false → exec (.rxCopyGiveup b g c) s = .next
      ((((s.copyGone k c.toNat).cnt SVN_RX_GIVEUP_CNT).raise SVN_INT_RX_GIVEUP).settle k)) ∧
    (x.st = 1 → x.typ = 3 → (p.ended = false ∨ need ≤ x.bufs.length) → exec (.rxCopyGiveup b g c) s = .next s) ∧
    (x.st = 1 → x.typ = 3 → p.ended = true → x.bufs.length < need → p.endAt + s.rd SVN_RX_CFG_WAIT * 8000 ≤ s.time.mono →
      exec (.rxCopyGiveup b g c) s = .next ((((s.copyGone k c.toNat).cnt SVN_RX_GIVEUP_CNT).raise SVN_INT_RX_GIVEUP).settle k))) ∧
  (∀ (s : State) (st : Fin 5), s.alive islPcie = true →
    ((∀ e ∈ s.svn.ch, e.2.st = 1 → e.2.typ = 4 → bit e.2.evSel st.val = false) → exec (.evStreamEntry st) s = .next s) ∧
    (∀ c, s.streamChan st.val = some c →
      let room := decide ((s.chan c).cqOut + (s.chan c).comps.length < 2 ^ ((s.chan c).cqLog + 4))
      (s.cached c = false ∨ room = false → exec (.evStreamEntry st) s = .next s) ∧
      (s.cached c = true → room = true → s.dmaOk = false → exec (.evStreamEntry st) s = .next (s.chHalt c 4)) ∧
      (s.cached c = true → room = true → s.dmaOk = true →
        let b := if st.val = 0 then s.jrnSkip c else s
        let a := jrnAddr (b.obs.evJrn.get 0 c)
        (b.evBody st.val c = none → exec (.evStreamEntry st) s = .next b) ∧
        (∀ body, b.evBody st.val c = some body →
          let e (w : State) : List Byte := natLe 1 st.val ++ [0] ++ natLe 2 body.length ++ natLe 4 (w.obs.evCount.get 0 st.val) ++
            slice0 body 0 (8 * ceilDiv body.length 8)
          let w := if st.val = 0 then (b.rtsUse clsHost a 32 false).rsScan a 32 else b
          (st.val = 0 → w.rsPoisoned a 32 = true → exec (.evStreamEntry st) s = .next (w.chHalt c 2)) ∧
          ((st.val = 0 → w.rsPoisoned a 32 = false) →
            (w.evWrite c (e w) = none → exec (.evStreamEntry st) s = .next w) ∧
            ∀ u, w.evWrite c (e w) = some u → exec (.evStreamEntry st) s = .next ((u.touch c).evTake st.val c)))))) ∧
  (∀ (s : State) (q c : Nat), 3 ≤ q → s.evBody q c = (s.obs.evQ.get [] q).head? ∧ s.evTake q c = { s with obs := { s.obs with
    evCount := s.obs.evCount.set 0 q ((s.obs.evCount.get 0 q + 1) % 2 ^ 32), evQ := s.obs.evQ.set [] q (s.obs.evQ.get [] q).tail } }) ∧
  ∀ (s : State) (c : BitVec 10), s.alive islPcie = true →
    let x := s.chan c.toNat
    let room := decide (x.cqOut + x.comps.length < 2 ^ (x.cqLog + 4))
    (x.evFill = 0 ∨ x.st ≠ 1 ∨ room = false → exec (.evBufferFlush c) s = .next s) ∧
    (∀ p l, x.evFill ≠ 0 → x.st = 1 → room = true → x.bufs = p :: l → x.evAt + 8000 * max 1 (s.rd OBS_EV_CFG_FLUSH) ≤ s.time.mono →
      exec (.evBufferFlush c) s = .next (s.putChan c.toNat { x with
        bufs := l, evFill := 0, comps := x.comps ++ [⟨p.idx, p.irq, true, true, x.evFill, 0, 0x41⟩] }))

/-- The invariants hold where they begin: R422 to R424. -/
def Obligations.ResetStatesAreSound : Prop :=
  State.reset.regsWf = true ∧ State.reset.tblWf = true ∧ State.reset.rsWf = true ∧ State.reset.memWf = true ∧
  State.reset.pending = [] ∧ State.reset.inReset = false ∧
  (∀ s : State, ∃ t, exec .porstNAssert s = .next t ∧ t.heldAtReset ∧ t.svn.mem = s.svn.mem ∧ t.pending = s.pending) ∧
  ∀ s : State, s.rst.sysrstLow = false → s.inPor = false → ∃ t, exec .sysrstNAssert s = .next t ∧ t.idleInReset ∧
    t.svn.mem = s.svn.mem ∧ t.pending = s.pending

/-- R422, R424, R324, R427, R459: an invariant of every step, over all commands. -/
def Obligations.PowerOnResetHoldsEverything : Prop :=
  ∀ s t : State, s.heldAtReset → step s = .next t → t.inPor = true → t.heldAtReset

/-- R423, R427: an invariant of every step, over all commands; time, pins and the test access port may still act. -/
def Obligations.NothingRunsInReset : Prop :=
  ∀ s t : State, s.idleInReset → step s = .next t → t.svn.mem = s.svn.mem ∧ (t.inReset = true → t.idleInReset)
end

