-- ==== Sys2Proof/Laws/Bits.lean ====
section
/-!
SUPPORT. Laws of bit fields: a field reads what was written into it, and a write leaves every field beside it alone.
-/
namespace Sys2Proof.Machine

theorem getBits_eq (x l w : Nat) : getBits x l w = x / 2 ^ l % 2 ^ w := by
  simp [getBits, Nat.shiftRight_eq_div_pow]

theorem getBits_lt (x l w : Nat) : getBits x l w < 2 ^ w := by
  rw [getBits_eq]; exact Nat.mod_lt _ (by positivity)

/-- A number as what stands below a field, the field, and what stands above it. -/
theorem bits_split (x l w : Nat) : x = x % 2 ^ l + getBits x l w * 2 ^ l + x / 2 ^ (l + w) * 2 ^ (l + w) := by
  have h1 := Nat.div_add_mod x (2 ^ l)
  have h2 := Nat.div_add_mod (x / 2 ^ l) (2 ^ w)
  have h3 : x / 2 ^ (l + w) = x / 2 ^ l / 2 ^ w := by rw [pow_add, Nat.div_div_eq_div_mul]
  rw [getBits_eq, h3, pow_add]
  calc x = 2 ^ l * (x / 2 ^ l) + x % 2 ^ l := h1.symm
    _ = 2 ^ l * (2 ^ w * (x / 2 ^ l / 2 ^ w) + x / 2 ^ l % 2 ^ w) + x % 2 ^ l := by rw [h2]
    _ = _ := by ring

theorem setBits_split (x l w v : Nat) :
    setBits x l w v = x % 2 ^ l + v % 2 ^ w * 2 ^ l + x / 2 ^ (l + w) * 2 ^ (l + w) := by
  have h := bits_split x l w
  unfold setBits
  omega

/-- The field written reads the value, cut to its width. -/
theorem getBits_setBits_same (x l w v : Nat) : getBits (setBits x l w v) l w = v % 2 ^ w := by
  rw [getBits_eq, setBits_split]
  have hp : 0 < 2 ^ l := by positivity
  have e : x % 2 ^ l + v % 2 ^ w * 2 ^ l + x / 2 ^ (l + w) * 2 ^ (l + w)
      = x % 2 ^ l + 2 ^ l * (v % 2 ^ w + 2 ^ w * (x / 2 ^ (l + w))) := by rw [pow_add]; ring
  rw [e, Nat.add_mul_div_left _ _ hp, Nat.div_eq_of_lt (Nat.mod_lt _ hp), Nat.zero_add, Nat.add_mul_mod_self_left,
    Nat.mod_mod]

theorem getBits_mod (x l w n : Nat) (h : l + w ≤ n) : getBits (x % 2 ^ n) l w = getBits x l w := by
  apply Nat.eq_of_testBit_eq
  intro i
  simp only [getBits_eq, Nat.testBit_mod_two_pow, Nat.testBit_div_two_pow]
  by_cases hi : i < w
  · have : i + l < n := by omega
    simp [hi, this]
  · simp [hi]

theorem testBit_setBits (x l w v i : Nat) :
    (setBits x l w v).testBit i = if l ≤ i ∧ i < l + w then v.testBit (i - l) else x.testBit i := by
  have hl : x % 2 ^ l < 2 ^ l := Nat.mod_lt _ (by positivity)
  have hv : v % 2 ^ w < 2 ^ w := Nat.mod_lt _ (by positivity)
  have hlow : x % 2 ^ l + v % 2 ^ w * 2 ^ l < 2 ^ (l + w) := by
    rw [pow_add]
    have : (v % 2 ^ w + 1) * 2 ^ l ≤ 2 ^ w * 2 ^ l := Nat.mul_le_mul_right _ hv
    nlinarith
  rw [setBits_split]
  rw [show x % 2 ^ l + v % 2 ^ w * 2 ^ l + x / 2 ^ (l + w) * 2 ^ (l + w)
    = 2 ^ (l + w) * (x / 2 ^ (l + w)) + (2 ^ l * (v % 2 ^ w) + x % 2 ^ l) by ring]
  rw [Nat.testBit_two_pow_mul_add _ (by rw [Nat.mul_comm]; omega)]
  split
  · rw [Nat.testBit_two_pow_mul_add _ hl]
    split
    · rw [if_neg (by omega), Nat.testBit_mod_two_pow]; simp [*]
    · rw [if_pos (by omega), Nat.testBit_mod_two_pow]; simp; omega
  · rw [if_neg (by omega), Nat.testBit_div_two_pow]; congr 1; omega

/-- A field beside the one written keeps its value. -/
theorem getBits_setBits_other (x l w v l' w' : Nat) (h : l + w ≤ l' ∨ l' + w' ≤ l) :
    getBits (setBits x l w v) l' w' = getBits x l' w' := by
  apply Nat.eq_of_testBit_eq
  intro i
  simp only [getBits_eq, Nat.testBit_mod_two_pow, Nat.testBit_div_two_pow]
  by_cases hi : i < w'
  · rw [testBit_setBits, if_neg]; omega
  · simp [hi]

theorem setBits_lt (x l w v n : Nat) (hx : x < 2 ^ n) (h : l + w ≤ n) : setBits x l w v < 2 ^ n := by
  apply Nat.lt_pow_two_of_testBit
  intro i hi
  rw [testBit_setBits, if_neg (by omega)]
  exact Nat.testBit_lt_two_pow (lt_of_lt_of_le hx (Nat.pow_le_pow_right (by omega) hi))

end Sys2Proof.Machine
end

