-- ==== Sys2Proof/Laws/Tab.lean ====
section
/-!
SUPPORT. Laws of sparse storage: a read after a write gives the value written, a write leaves every other key alone, and
every operation keeps the canonical form.
-/
namespace Sys2Proof.Machine

variable {α : Type}

/-! ### Reads and writes -/

theorem Tab.find_insert (t : Tab α) (k b : Nat) (v : α) :
    (t.insert k v).find? b = if k = b then some v else t.find? b := by
  induction t with
  | nil => simp [Tab.insert, Tab.find?]
  | cons e r ih =>
    obtain ⟨j, u⟩ := e
    simp only [Tab.insert]
    split
    · rename_i hj; subst hj; simp only [Tab.find?]; split <;> rfl
    · split
      · by_cases h : k = b <;> simp [Tab.find?, h]
      · by_cases h : j = b
        · subst h; simp only [Tab.find?, if_true]; rw [if_neg]; omega
        · simp only [Tab.find?, if_neg h, ih]

theorem Tab.find_erase (t : Tab α) (k b : Nat) :
    (t.erase k).find? b = if k = b then none else t.find? b := by
  induction t with
  | nil => simp [Tab.erase, Tab.find?]
  | cons e r ih =>
    obtain ⟨j, u⟩ := e
    simp only [Tab.erase]
    split
    · rename_i hj; subst hj; rw [ih]; simp only [Tab.find?]; split <;> rfl
    · by_cases h : j = b
      · subst h; simp only [Tab.find?, if_true]; rw [if_neg]; omega
      · simp only [Tab.find?, if_neg h, ih]

variable [DecidableEq α]

theorem Tab.find_set (d : α) (t : Tab α) (k b : Nat) (v : α) :
    (t.set d k v).find? b = if k = b then (if v = d then none else some v) else t.find? b := by
  unfold Tab.set; split <;> simp [Tab.find_erase, Tab.find_insert, *]

/-- A read after a write, at the same key or at another. -/
theorem Tab.get_set (d : α) (t : Tab α) (k b : Nat) (v : α) :
    (t.set d k v).get d b = if k = b then v else t.get d b := by
  unfold Tab.get; rw [Tab.find_set]; split
  · split <;> simp [*]
  · rfl

@[simp] theorem Tab.get_set_same (d : α) (t : Tab α) (k : Nat) (v : α) : (t.set d k v).get d k = v := by
  simp [Tab.get_set]

theorem Tab.get_set_other (d : α) (t : Tab α) {k b : Nat} (v : α) (h : k ≠ b) : (t.set d k v).get d b = t.get d b := by
  simp [Tab.get_set, h]

omit [DecidableEq α] in
@[simp] theorem Tab.get_nil (d : α) (k : Nat) : Tab.get d ([] : Tab α) k = d := rfl

@[simp] theorem Tab.get_modify_same (d : α) (t : Tab α) (k : Nat) (f : α → α) :
    (t.modify d k f).get d k = f (t.get d k) := by simp [Tab.modify]

theorem Tab.get_modify_other (d : α) (t : Tab α) {k b : Nat} (f : α → α) (h : k ≠ b) :
    (t.modify d k f).get d b = t.get d b := by simp [Tab.modify, Tab.get_set_other, h]

/-! ### The canonical form -/

omit [DecidableEq α] in
theorem Tab.sortedFrom_weaken {lo hi : Option Nat} {t : Tab α} (h : Tab.sortedFrom hi t = true)
    (hl : ∀ l, lo = some l → ∃ m, hi = some m ∧ l ≤ m) : Tab.sortedFrom lo t = true := by
  cases t with
  | nil => rfl
  | cons e r =>
    obtain ⟨k, v⟩ := e
    simp only [Tab.sortedFrom, Bool.and_eq_true] at h ⊢
    refine ⟨?_, h.2⟩
    cases lo with
    | none => rfl
    | some l =>
      obtain ⟨m, rfl, hm⟩ := hl l rfl
      have := h.1
      simp only [decide_eq_true_eq] at this ⊢
      omega

omit [DecidableEq α] in
theorem Tab.sortedFrom_insert {lo : Option Nat} {t : Tab α} {k : Nat} (v : α) (h : Tab.sortedFrom lo t = true)
    (hk : ∀ l, lo = some l → l < k) : Tab.sortedFrom lo (t.insert k v) = true := by
  induction t generalizing lo with
  | nil => cases lo <;> simp [Tab.insert, Tab.sortedFrom]; exact hk _ rfl
  | cons e r ih =>
    obtain ⟨j, u⟩ := e
    simp only [Tab.sortedFrom, Bool.and_eq_true] at h
    simp only [Tab.insert]
    split
    · subst_vars; simp only [Tab.sortedFrom, Bool.and_eq_true]; exact h
    · split
      · rename_i _ hkj
        simp only [Tab.sortedFrom, Bool.and_eq_true, decide_eq_true_eq]
        refine ⟨?_, hkj, h.2⟩
        cases lo with
        | none => rfl
        | some l => simpa using hk l rfl
      · simp only [Tab.sortedFrom, Bool.and_eq_true]
        refine ⟨h.1, ih h.2 ?_⟩
        intro l hl; cases hl; omega

omit [DecidableEq α] in
theorem Tab.sortedFrom_erase {lo : Option Nat} {t : Tab α} (k : Nat) (h : Tab.sortedFrom lo t = true) :
    Tab.sortedFrom lo (t.erase k) = true := by
  induction t generalizing lo with
  | nil => rfl
  | cons e r ih =>
    obtain ⟨j, u⟩ := e
    simp only [Tab.sortedFrom, Bool.and_eq_true] at h
    simp only [Tab.erase]
    split
    · refine ih (Tab.sortedFrom_weaken h.2 ?_)
      intro l hl; subst hl; have := h.1; simp only [decide_eq_true_eq] at this; exact ⟨_, rfl, by omega⟩
    · simp only [Tab.sortedFrom, Bool.and_eq_true]; exact ⟨h.1, ih h.2⟩

omit [DecidableEq α] in
theorem Tab.sortedFrom_filter {lo : Option Nat} {t : Tab α} (p : Nat × α → Bool) (h : Tab.sortedFrom lo t = true) :
    Tab.sortedFrom lo (List.filter p t) = true := by
  induction t generalizing lo with
  | nil => rfl
  | cons e r ih =>
    obtain ⟨j, u⟩ := e
    simp only [Tab.sortedFrom, Bool.and_eq_true] at h
    simp only [List.filter]
    split
    · simp only [Tab.sortedFrom, Bool.and_eq_true]; exact ⟨h.1, ih h.2⟩
    · refine ih (Tab.sortedFrom_weaken h.2 ?_)
      intro l hl; subst hl; have := h.1; simp only [decide_eq_true_eq] at this; exact ⟨_, rfl, by omega⟩

omit [DecidableEq α] in
theorem Tab.mem_erase {t : Tab α} {k : Nat} {e : Nat × α} (h : e ∈ t.erase k) : e ∈ t := by
  induction t with
  | nil => exact h
  | cons x r ih =>
    obtain ⟨j, u⟩ := x
    simp only [Tab.erase] at h
    split at h
    · exact List.mem_cons_of_mem _ (ih h)
    · rcases List.mem_cons.1 h with rfl | h
      · exact List.mem_cons_self
      · exact List.mem_cons_of_mem _ (ih h)

omit [DecidableEq α] in
theorem Tab.mem_insert {t : Tab α} {k : Nat} {v : α} {e : Nat × α} (h : e ∈ t.insert k v) : e = (k, v) ∨ e ∈ t := by
  induction t with
  | nil => simpa [Tab.insert] using h
  | cons x r ih =>
    obtain ⟨j, u⟩ := x
    simp only [Tab.insert] at h
    split at h
    · rcases List.mem_cons.1 h with rfl | h
      · exact .inl rfl
      · exact .inr (List.mem_cons_of_mem _ h)
    · split at h
      · rcases List.mem_cons.1 h with rfl | h
        · exact .inl rfl
        · exact .inr h
      · rcases List.mem_cons.1 h with rfl | h
        · exact .inr List.mem_cons_self
        · exact (ih h).imp id (List.mem_cons_of_mem _)

/-- A write keeps the canonical form. -/
theorem Tab.wf_set {d : Nat → α} {t : Tab α} (h : t.wf d = true) (k : Nat) (v : α) : (t.set (d k) k v).wf d = true := by
  simp only [Tab.wf, Bool.and_eq_true, List.all_eq_true, decide_eq_true_eq] at h ⊢
  unfold Tab.set
  split
  · exact ⟨Tab.sortedFrom_erase k h.1, fun e he => h.2 e (Tab.mem_erase he)⟩
  · refine ⟨Tab.sortedFrom_insert v h.1 (by simp), fun e he => ?_⟩
    rcases Tab.mem_insert he with rfl | he
    · assumption
    · exact h.2 e he

/-- A store of one default keeps its form under a write. -/
theorem Tab.wf_set_const {d : α} {t : Tab α} (h : t.wf (fun _ => d) = true) (k : Nat) (v : α) :
    (t.set d k v).wf (fun _ => d) = true := Tab.wf_set (d := fun _ => d) h k v

theorem Tab.wf_filter {d : Nat → α} {t : Tab α} (p : Nat × α → Bool) (h : t.wf d = true) :
    Tab.wf d (List.filter p t) = true := by
  simp only [Tab.wf, Bool.and_eq_true, List.all_eq_true] at h ⊢
  exact ⟨Tab.sortedFrom_filter p h.1, fun e he => h.2 e (List.mem_of_mem_filter he)⟩

@[simp] theorem Tab.wf_nil (d : Nat → α) : Tab.wf d ([] : Tab α) = true := rfl

/-- A store built by writes keeps the form. -/
theorem Tab.wf_foldl {β : Type} {d : Nat → α} (f : Tab α → β → Tab α) (hf : ∀ t b, t.wf d = true → (f t b).wf d = true)
    (l : List β) {t : Tab α} (h : t.wf d = true) : (l.foldl f t).wf d = true := by
  induction l generalizing t with
  | nil => exact h
  | cons b r ih => exact ih (hf t b h)

end Sys2Proof.Machine
end

