-- ==== Sys2Proof/Laws/State.lean ====
section
/-!
SUPPORT. Laws of the shared operations: which fields of the state each leaves alone, what a register or field reads after
one was written, and what a gate lets through.
-/
namespace Sys2Proof.Machine

/-! ### Fields left alone -/

@[simp] theorem State.setReg_pending (s : State) (a v : Nat) : (s.setReg a v).pending = s.pending := (rfl)
@[simp] theorem State.setReg_free (s : State) (a v : Nat) : (s.setReg a v).free = s.free := (rfl)
@[simp] theorem State.setReg_time (s : State) (a v : Nat) : (s.setReg a v).time = s.time := (rfl)
@[simp] theorem State.setReg_rst (s : State) (a v : Nat) : (s.setReg a v).rst = s.rst := (rfl)
@[simp] theorem State.setReg_clk (s : State) (a v : Nat) : (s.setReg a v).clk = s.clk := (rfl)
@[simp] theorem State.setReg_tj (s : State) (a v : Nat) : (s.setReg a v).tj = s.tj := (rfl)
@[simp] theorem State.setReg_jtag (s : State) (a v : Nat) : (s.setReg a v).jtag = s.jtag := (rfl)
@[simp] theorem State.setReg_jrn (s : State) (a v : Nat) : (s.setReg a v).jrn = s.jrn := (rfl)
@[simp] theorem State.setReg_msi (s : State) (a v : Nat) : (s.setReg a v).msi = s.msi := (rfl)
@[simp] theorem State.setReg_lastRead (s : State) (a v : Nat) : (s.setReg a v).lastRead = s.lastRead := (rfl)
@[simp] theorem State.setReg_ports (s : State) (a v : Nat) : (s.setReg a v).ports = s.ports := (rfl)
@[simp] theorem State.setReg_tbl (s : State) (a v : Nat) : (s.setReg a v).tbl = s.tbl := (rfl)
@[simp] theorem State.setReg_frags (s : State) (a v : Nat) : (s.setReg a v).frags = s.frags := (rfl)
@[simp] theorem State.setReg_brg (s : State) (a v : Nat) : (s.setReg a v).brg = s.brg := (rfl)
@[simp] theorem State.setReg_gv (s : State) (a v : Nat) : (s.setReg a v).gv = s.gv := (rfl)
@[simp] theorem State.setReg_gr (s : State) (a v : Nat) : (s.setReg a v).gr = s.gr := (rfl)
@[simp] theorem State.setReg_recircQ (s : State) (a v : Nat) : (s.setReg a v).recircQ = s.recircQ := (rfl)
@[simp] theorem State.setReg_rs (s : State) (a v : Nat) : (s.setReg a v).rs = s.rs := (rfl)
@[simp] theorem State.setReg_twig (s : State) (a v : Nat) : (s.setReg a v).twig = s.twig := (rfl)
@[simp] theorem State.setReg_rts0 (s : State) (a v : Nat) : (s.setReg a v).rts0 = s.rts0 := (rfl)
@[simp] theorem State.setReg_rts1 (s : State) (a v : Nat) : (s.setReg a v).rts1 = s.rts1 := (rfl)
@[simp] theorem State.setReg_ecc (s : State) (a v : Nat) : (s.setReg a v).ecc = s.ecc := (rfl)
@[simp] theorem State.setReg_rx (s : State) (a v : Nat) : (s.setReg a v).rx = s.rx := (rfl)
@[simp] theorem State.setReg_pkts (s : State) (a v : Nat) : (s.setReg a v).pkts = s.pkts := (rfl)
@[simp] theorem State.setReg_bufs (s : State) (a v : Nat) : (s.setReg a v).bufs = s.bufs := (rfl)
@[simp] theorem State.setReg_freedTags (s : State) (a v : Nat) : (s.setReg a v).freedTags = s.freedTags := (rfl)
@[simp] theorem State.setReg_freedBufs (s : State) (a v : Nat) : (s.setReg a v).freedBufs = s.freedBufs := (rfl)
@[simp] theorem State.setReg_nextRel (s : State) (a v : Nat) : (s.setReg a v).nextRel = s.nextRel := (rfl)
@[simp] theorem State.setReg_turns (s : State) (a v : Nat) : (s.setReg a v).turns = s.turns := (rfl)
@[simp] theorem State.setReg_copies (s : State) (a v : Nat) : (s.setReg a v).copies = s.copies := (rfl)
@[simp] theorem State.setReg_nextCopy (s : State) (a v : Nat) : (s.setReg a v).nextCopy = s.nextCopy := (rfl)
@[simp] theorem State.setReg_nextOrd (s : State) (a v : Nat) : (s.setReg a v).nextOrd = s.nextOrd := (rfl)
@[simp] theorem State.setReg_shares (s : State) (a v : Nat) : (s.setReg a v).shares = s.shares := (rfl)
@[simp] theorem State.setReg_qs (s : State) (a v : Nat) : (s.setReg a v).qs = s.qs := (rfl)
@[simp] theorem State.setReg_tmPorts (s : State) (a v : Nat) : (s.setReg a v).tmPorts = s.tmPorts := (rfl)
@[simp] theorem State.setReg_refillAt (s : State) (a v : Nat) : (s.setReg a v).refillAt = s.refillAt := (rfl)
@[simp] theorem State.setReg_txLast (s : State) (a v : Nat) : (s.setReg a v).txLast = s.txLast := (rfl)
@[simp] theorem State.setReg_svn (s : State) (a v : Nat) : (s.setReg a v).svn = s.svn := (rfl)
@[simp] theorem State.setReg_pcie (s : State) (a v : Nat) : (s.setReg a v).pcie = s.pcie := (rfl)
@[simp] theorem State.setReg_trk (s : State) (a v : Nat) : (s.setReg a v).trk = s.trk := (rfl)
@[simp] theorem State.setReg_sw (s : State) (a v : Nat) : (s.setReg a v).sw = s.sw := (rfl)
@[simp] theorem State.setReg_obs (s : State) (a v : Nat) : (s.setReg a v).obs = s.obs := (rfl)

@[simp] theorem State.wr_pending (s : State) (f : RFld) (v : Nat) : (s.wr f v).pending = s.pending := (rfl)
@[simp] theorem State.wr_free (s : State) (f : RFld) (v : Nat) : (s.wr f v).free = s.free := (rfl)
@[simp] theorem State.wr_time (s : State) (f : RFld) (v : Nat) : (s.wr f v).time = s.time := (rfl)
@[simp] theorem State.wr_rst (s : State) (f : RFld) (v : Nat) : (s.wr f v).rst = s.rst := (rfl)
@[simp] theorem State.wr_clk (s : State) (f : RFld) (v : Nat) : (s.wr f v).clk = s.clk := (rfl)
@[simp] theorem State.wr_tj (s : State) (f : RFld) (v : Nat) : (s.wr f v).tj = s.tj := (rfl)
@[simp] theorem State.wr_jtag (s : State) (f : RFld) (v : Nat) : (s.wr f v).jtag = s.jtag := (rfl)
@[simp] theorem State.wr_jrn (s : State) (f : RFld) (v : Nat) : (s.wr f v).jrn = s.jrn := (rfl)
@[simp] theorem State.wr_msi (s : State) (f : RFld) (v : Nat) : (s.wr f v).msi = s.msi := (rfl)
@[simp] theorem State.wr_lastRead (s : State) (f : RFld) (v : Nat) : (s.wr f v).lastRead = s.lastRead := (rfl)
@[simp] theorem State.wr_ports (s : State) (f : RFld) (v : Nat) : (s.wr f v).ports = s.ports := (rfl)
@[simp] theorem State.wr_tbl (s : State) (f : RFld) (v : Nat) : (s.wr f v).tbl = s.tbl := (rfl)
@[simp] theorem State.wr_frags (s : State) (f : RFld) (v : Nat) : (s.wr f v).frags = s.frags := (rfl)
@[simp] theorem State.wr_brg (s : State) (f : RFld) (v : Nat) : (s.wr f v).brg = s.brg := (rfl)
@[simp] theorem State.wr_gv (s : State) (f : RFld) (v : Nat) : (s.wr f v).gv = s.gv := (rfl)
@[simp] theorem State.wr_gr (s : State) (f : RFld) (v : Nat) : (s.wr f v).gr = s.gr := (rfl)
@[simp] theorem State.wr_recircQ (s : State) (f : RFld) (v : Nat) : (s.wr f v).recircQ = s.recircQ := (rfl)
@[simp] theorem State.wr_rs (s : State) (f : RFld) (v : Nat) : (s.wr f v).rs = s.rs := (rfl)
@[simp] theorem State.wr_twig (s : State) (f : RFld) (v : Nat) : (s.wr f v).twig = s.twig := (rfl)
@[simp] theorem State.wr_rts0 (s : State) (f : RFld) (v : Nat) : (s.wr f v).rts0 = s.rts0 := (rfl)
@[simp] theorem State.wr_rts1 (s : State) (f : RFld) (v : Nat) : (s.wr f v).rts1 = s.rts1 := (rfl)
@[simp] theorem State.wr_ecc (s : State) (f : RFld) (v : Nat) : (s.wr f v).ecc = s.ecc := (rfl)
@[simp] theorem State.wr_rx (s : State) (f : RFld) (v : Nat) : (s.wr f v).rx = s.rx := (rfl)
@[simp] theorem State.wr_pkts (s : State) (f : RFld) (v : Nat) : (s.wr f v).pkts = s.pkts := (rfl)
@[simp] theorem State.wr_bufs (s : State) (f : RFld) (v : Nat) : (s.wr f v).bufs = s.bufs := (rfl)
@[simp] theorem State.wr_freedTags (s : State) (f : RFld) (v : Nat) : (s.wr f v).freedTags = s.freedTags := (rfl)
@[simp] theorem State.wr_freedBufs (s : State) (f : RFld) (v : Nat) : (s.wr f v).freedBufs = s.freedBufs := (rfl)
@[simp] theorem State.wr_nextRel (s : State) (f : RFld) (v : Nat) : (s.wr f v).nextRel = s.nextRel := (rfl)
@[simp] theorem State.wr_turns (s : State) (f : RFld) (v : Nat) : (s.wr f v).turns = s.turns := (rfl)
@[simp] theorem State.wr_copies (s : State) (f : RFld) (v : Nat) : (s.wr f v).copies = s.copies := (rfl)
@[simp] theorem State.wr_nextCopy (s : State) (f : RFld) (v : Nat) : (s.wr f v).nextCopy = s.nextCopy := (rfl)
@[simp] theorem State.wr_nextOrd (s : State) (f : RFld) (v : Nat) : (s.wr f v).nextOrd = s.nextOrd := (rfl)
@[simp] theorem State.wr_shares (s : State) (f : RFld) (v : Nat) : (s.wr f v).shares = s.shares := (rfl)
@[simp] theorem State.wr_qs (s : State) (f : RFld) (v : Nat) : (s.wr f v).qs = s.qs := (rfl)
@[simp] theorem State.wr_tmPorts (s : State) (f : RFld) (v : Nat) : (s.wr f v).tmPorts = s.tmPorts := (rfl)
@[simp] theorem State.wr_refillAt (s : State) (f : RFld) (v : Nat) : (s.wr f v).refillAt = s.refillAt := (rfl)
@[simp] theorem State.wr_txLast (s : State) (f : RFld) (v : Nat) : (s.wr f v).txLast = s.txLast := (rfl)
@[simp] theorem State.wr_svn (s : State) (f : RFld) (v : Nat) : (s.wr f v).svn = s.svn := (rfl)
@[simp] theorem State.wr_pcie (s : State) (f : RFld) (v : Nat) : (s.wr f v).pcie = s.pcie := (rfl)
@[simp] theorem State.wr_trk (s : State) (f : RFld) (v : Nat) : (s.wr f v).trk = s.trk := (rfl)
@[simp] theorem State.wr_sw (s : State) (f : RFld) (v : Nat) : (s.wr f v).sw = s.sw := (rfl)
@[simp] theorem State.wr_obs (s : State) (f : RFld) (v : Nat) : (s.wr f v).obs = s.obs := (rfl)

@[simp] theorem State.wrB_pending (s : State) (f : RFld) (v : Bool) : (s.wrB f v).pending = s.pending := (rfl)
@[simp] theorem State.wrB_free (s : State) (f : RFld) (v : Bool) : (s.wrB f v).free = s.free := (rfl)
@[simp] theorem State.wrB_time (s : State) (f : RFld) (v : Bool) : (s.wrB f v).time = s.time := (rfl)
@[simp] theorem State.wrB_rst (s : State) (f : RFld) (v : Bool) : (s.wrB f v).rst = s.rst := (rfl)
@[simp] theorem State.wrB_clk (s : State) (f : RFld) (v : Bool) : (s.wrB f v).clk = s.clk := (rfl)
@[simp] theorem State.wrB_tj (s : State) (f : RFld) (v : Bool) : (s.wrB f v).tj = s.tj := (rfl)
@[simp] theorem State.wrB_jtag (s : State) (f : RFld) (v : Bool) : (s.wrB f v).jtag = s.jtag := (rfl)
@[simp] theorem State.wrB_jrn (s : State) (f : RFld) (v : Bool) : (s.wrB f v).jrn = s.jrn := (rfl)
@[simp] theorem State.wrB_msi (s : State) (f : RFld) (v : Bool) : (s.wrB f v).msi = s.msi := (rfl)
@[simp] theorem State.wrB_lastRead (s : State) (f : RFld) (v : Bool) : (s.wrB f v).lastRead = s.lastRead := (rfl)
@[simp] theorem State.wrB_ports (s : State) (f : RFld) (v : Bool) : (s.wrB f v).ports = s.ports := (rfl)
@[simp] theorem State.wrB_tbl (s : State) (f : RFld) (v : Bool) : (s.wrB f v).tbl = s.tbl := (rfl)
@[simp] theorem State.wrB_frags (s : State) (f : RFld) (v : Bool) : (s.wrB f v).frags = s.frags := (rfl)
@[simp] theorem State.wrB_brg (s : State) (f : RFld) (v : Bool) : (s.wrB f v).brg = s.brg := (rfl)
@[simp] theorem State.wrB_gv (s : State) (f : RFld) (v : Bool) : (s.wrB f v).gv = s.gv := (rfl)
@[simp] theorem State.wrB_gr (s : State) (f : RFld) (v : Bool) : (s.wrB f v).gr = s.gr := (rfl)
@[simp] theorem State.wrB_recircQ (s : State) (f : RFld) (v : Bool) : (s.wrB f v).recircQ = s.recircQ := (rfl)
@[simp] theorem State.wrB_rs (s : State) (f : RFld) (v : Bool) : (s.wrB f v).rs = s.rs := (rfl)
@[simp] theorem State.wrB_twig (s : State) (f : RFld) (v : Bool) : (s.wrB f v).twig = s.twig := (rfl)
@[simp] theorem State.wrB_rts0 (s : State) (f : RFld) (v : Bool) : (s.wrB f v).rts0 = s.rts0 := (rfl)
@[simp] theorem State.wrB_rts1 (s : State) (f : RFld) (v : Bool) : (s.wrB f v).rts1 = s.rts1 := (rfl)
@[simp] theorem State.wrB_ecc (s : State) (f : RFld) (v : Bool) : (s.wrB f v).ecc = s.ecc := (rfl)
@[simp] theorem State.wrB_rx (s : State) (f : RFld) (v : Bool) : (s.wrB f v).rx = s.rx := (rfl)
@[simp] theorem State.wrB_pkts (s : State) (f : RFld) (v : Bool) : (s.wrB f v).pkts = s.pkts := (rfl)
@[simp] theorem State.wrB_bufs (s : State) (f : RFld) (v : Bool) : (s.wrB f v).bufs = s.bufs := (rfl)
@[simp] theorem State.wrB_freedTags (s : State) (f : RFld) (v : Bool) : (s.wrB f v).freedTags = s.freedTags := (rfl)
@[simp] theorem State.wrB_freedBufs (s : State) (f : RFld) (v : Bool) : (s.wrB f v).freedBufs = s.freedBufs := (rfl)
@[simp] theorem State.wrB_nextRel (s : State) (f : RFld) (v : Bool) : (s.wrB f v).nextRel = s.nextRel := (rfl)
@[simp] theorem State.wrB_turns (s : State) (f : RFld) (v : Bool) : (s.wrB f v).turns = s.turns := (rfl)
@[simp] theorem State.wrB_copies (s : State) (f : RFld) (v : Bool) : (s.wrB f v).copies = s.copies := (rfl)
@[simp] theorem State.wrB_nextCopy (s : State) (f : RFld) (v : Bool) : (s.wrB f v).nextCopy = s.nextCopy := (rfl)
@[simp] theorem State.wrB_nextOrd (s : State) (f : RFld) (v : Bool) : (s.wrB f v).nextOrd = s.nextOrd := (rfl)
@[simp] theorem State.wrB_shares (s : State) (f : RFld) (v : Bool) : (s.wrB f v).shares = s.shares := (rfl)
@[simp] theorem State.wrB_qs (s : State) (f : RFld) (v : Bool) : (s.wrB f v).qs = s.qs := (rfl)
@[simp] theorem State.wrB_tmPorts (s : State) (f : RFld) (v : Bool) : (s.wrB f v).tmPorts = s.tmPorts := (rfl)
@[simp] theorem State.wrB_refillAt (s : State) (f : RFld) (v : Bool) : (s.wrB f v).refillAt = s.refillAt := (rfl)
@[simp] theorem State.wrB_txLast (s : State) (f : RFld) (v : Bool) : (s.wrB f v).txLast = s.txLast := (rfl)
@[simp] theorem State.wrB_svn (s : State) (f : RFld) (v : Bool) : (s.wrB f v).svn = s.svn := (rfl)
@[simp] theorem State.wrB_pcie (s : State) (f : RFld) (v : Bool) : (s.wrB f v).pcie = s.pcie := (rfl)
@[simp] theorem State.wrB_trk (s : State) (f : RFld) (v : Bool) : (s.wrB f v).trk = s.trk := (rfl)
@[simp] theorem State.wrB_sw (s : State) (f : RFld) (v : Bool) : (s.wrB f v).sw = s.sw := (rfl)
@[simp] theorem State.wrB_obs (s : State) (f : RFld) (v : Bool) : (s.wrB f v).obs = s.obs := (rfl)

@[simp] theorem State.hostWrite_pending (s : State) (a v : Nat) : (s.hostWrite a v).pending = s.pending := (rfl)
@[simp] theorem State.hostWrite_free (s : State) (a v : Nat) : (s.hostWrite a v).free = s.free := (rfl)
@[simp] theorem State.hostWrite_time (s : State) (a v : Nat) : (s.hostWrite a v).time = s.time := (rfl)
@[simp] theorem State.hostWrite_rst (s : State) (a v : Nat) : (s.hostWrite a v).rst = s.rst := (rfl)
@[simp] theorem State.hostWrite_clk (s : State) (a v : Nat) : (s.hostWrite a v).clk = s.clk := (rfl)
@[simp] theorem State.hostWrite_tj (s : State) (a v : Nat) : (s.hostWrite a v).tj = s.tj := (rfl)
@[simp] theorem State.hostWrite_jtag (s : State) (a v : Nat) : (s.hostWrite a v).jtag = s.jtag := (rfl)
@[simp] theorem State.hostWrite_jrn (s : State) (a v : Nat) : (s.hostWrite a v).jrn = s.jrn := (rfl)
@[simp] theorem State.hostWrite_msi (s : State) (a v : Nat) : (s.hostWrite a v).msi = s.msi := (rfl)
@[simp] theorem State.hostWrite_lastRead (s : State) (a v : Nat) : (s.hostWrite a v).lastRead = s.lastRead := (rfl)
@[simp] theorem State.hostWrite_ports (s : State) (a v : Nat) : (s.hostWrite a v).ports = s.ports := (rfl)
@[simp] theorem State.hostWrite_tbl (s : State) (a v : Nat) : (s.hostWrite a v).tbl = s.tbl := (rfl)
@[simp] theorem State.hostWrite_frags (s : State) (a v : Nat) : (s.hostWrite a v).frags = s.frags := (rfl)
@[simp] theorem State.hostWrite_brg (s : State) (a v : Nat) : (s.hostWrite a v).brg = s.brg := (rfl)
@[simp] theorem State.hostWrite_gv (s : State) (a v : Nat) : (s.hostWrite a v).gv = s.gv := (rfl)
@[simp] theorem State.hostWrite_gr (s : State) (a v : Nat) : (s.hostWrite a v).gr = s.gr := (rfl)
@[simp] theorem State.hostWrite_recircQ (s : State) (a v : Nat) : (s.hostWrite a v).recircQ = s.recircQ := (rfl)
@[simp] theorem State.hostWrite_rs (s : State) (a v : Nat) : (s.hostWrite a v).rs = s.rs := (rfl)
@[simp] theorem State.hostWrite_twig (s : State) (a v : Nat) : (s.hostWrite a v).twig = s.twig := (rfl)
@[simp] theorem State.hostWrite_rts0 (s : State) (a v : Nat) : (s.hostWrite a v).rts0 = s.rts0 := (rfl)
@[simp] theorem State.hostWrite_rts1 (s : State) (a v : Nat) : (s.hostWrite a v).rts1 = s.rts1 := (rfl)
@[simp] theorem State.hostWrite_ecc (s : State) (a v : Nat) : (s.hostWrite a v).ecc = s.ecc := (rfl)
@[simp] theorem State.hostWrite_rx (s : State) (a v : Nat) : (s.hostWrite a v).rx = s.rx := (rfl)
@[simp] theorem State.hostWrite_pkts (s : State) (a v : Nat) : (s.hostWrite a v).pkts = s.pkts := (rfl)
@[simp] theorem State.hostWrite_bufs (s : State) (a v : Nat) : (s.hostWrite a v).bufs = s.bufs := (rfl)
@[simp] theorem State.hostWrite_freedTags (s : State) (a v : Nat) : (s.hostWrite a v).freedTags = s.freedTags := (rfl)
@[simp] theorem State.hostWrite_freedBufs (s : State) (a v : Nat) : (s.hostWrite a v).freedBufs = s.freedBufs := (rfl)
@[simp] theorem State.hostWrite_nextRel (s : State) (a v : Nat) : (s.hostWrite a v).nextRel = s.nextRel := (rfl)
@[simp] theorem State.hostWrite_turns (s : State) (a v : Nat) : (s.hostWrite a v).turns = s.turns := (rfl)
@[simp] theorem State.hostWrite_copies (s : State) (a v : Nat) : (s.hostWrite a v).copies = s.copies := (rfl)
@[simp] theorem State.hostWrite_nextCopy (s : State) (a v : Nat) : (s.hostWrite a v).nextCopy = s.nextCopy := (rfl)
@[simp] theorem State.hostWrite_nextOrd (s : State) (a v : Nat) : (s.hostWrite a v).nextOrd = s.nextOrd := (rfl)
@[simp] theorem State.hostWrite_shares (s : State) (a v : Nat) : (s.hostWrite a v).shares = s.shares := (rfl)
@[simp] theorem State.hostWrite_qs (s : State) (a v : Nat) : (s.hostWrite a v).qs = s.qs := (rfl)
@[simp] theorem State.hostWrite_tmPorts (s : State) (a v : Nat) : (s.hostWrite a v).tmPorts = s.tmPorts := (rfl)
@[simp] theorem State.hostWrite_refillAt (s : State) (a v : Nat) : (s.hostWrite a v).refillAt = s.refillAt := (rfl)
@[simp] theorem State.hostWrite_txLast (s : State) (a v : Nat) : (s.hostWrite a v).txLast = s.txLast := (rfl)
@[simp] theorem State.hostWrite_svn (s : State) (a v : Nat) : (s.hostWrite a v).svn = s.svn := (rfl)
@[simp] theorem State.hostWrite_pcie (s : State) (a v : Nat) : (s.hostWrite a v).pcie = s.pcie := (rfl)
@[simp] theorem State.hostWrite_trk (s : State) (a v : Nat) : (s.hostWrite a v).trk = s.trk := (rfl)
@[simp] theorem State.hostWrite_sw (s : State) (a v : Nat) : (s.hostWrite a v).sw = s.sw := (rfl)
@[simp] theorem State.hostWrite_obs (s : State) (a v : Nat) : (s.hostWrite a v).obs = s.obs := (rfl)

@[simp] theorem State.wr64_pending (s : State) (a v : Nat) : (s.wr64 a v).pending = s.pending := (rfl)
@[simp] theorem State.wr64_free (s : State) (a v : Nat) : (s.wr64 a v).free = s.free := (rfl)
@[simp] theorem State.wr64_time (s : State) (a v : Nat) : (s.wr64 a v).time = s.time := (rfl)
@[simp] theorem State.wr64_rst (s : State) (a v : Nat) : (s.wr64 a v).rst = s.rst := (rfl)
@[simp] theorem State.wr64_clk (s : State) (a v : Nat) : (s.wr64 a v).clk = s.clk := (rfl)
@[simp] theorem State.wr64_tj (s : State) (a v : Nat) : (s.wr64 a v).tj = s.tj := (rfl)
@[simp] theorem State.wr64_jtag (s : State) (a v : Nat) : (s.wr64 a v).jtag = s.jtag := (rfl)
@[simp] theorem State.wr64_jrn (s : State) (a v : Nat) : (s.wr64 a v).jrn = s.jrn := (rfl)
@[simp] theorem State.wr64_msi (s : State) (a v : Nat) : (s.wr64 a v).msi = s.msi := (rfl)
@[simp] theorem State.wr64_lastRead (s : State) (a v : Nat) : (s.wr64 a v).lastRead = s.lastRead := (rfl)
@[simp] theorem State.wr64_ports (s : State) (a v : Nat) : (s.wr64 a v).ports = s.ports := (rfl)
@[simp] theorem State.wr64_tbl (s : State) (a v : Nat) : (s.wr64 a v).tbl = s.tbl := (rfl)
@[simp] theorem State.wr64_frags (s : State) (a v : Nat) : (s.wr64 a v).frags = s.frags := (rfl)
@[simp] theorem State.wr64_brg (s : State) (a v : Nat) : (s.wr64 a v).brg = s.brg := (rfl)
@[simp] theorem State.wr64_gv (s : State) (a v : Nat) : (s.wr64 a v).gv = s.gv := (rfl)
@[simp] theorem State.wr64_gr (s : State) (a v : Nat) : (s.wr64 a v).gr = s.gr := (rfl)
@[simp] theorem State.wr64_recircQ (s : State) (a v : Nat) : (s.wr64 a v).recircQ = s.recircQ := (rfl)
@[simp] theorem State.wr64_rs (s : State) (a v : Nat) : (s.wr64 a v).rs = s.rs := (rfl)
@[simp] theorem State.wr64_twig (s : State) (a v : Nat) : (s.wr64 a v).twig = s.twig := (rfl)
@[simp] theorem State.wr64_rts0 (s : State) (a v : Nat) : (s.wr64 a v).rts0 = s.rts0 := (rfl)
@[simp] theorem State.wr64_rts1 (s : State) (a v : Nat) : (s.wr64 a v).rts1 = s.rts1 := (rfl)
@[simp] theorem State.wr64_ecc (s : State) (a v : Nat) : (s.wr64 a v).ecc = s.ecc := (rfl)
@[simp] theorem State.wr64_rx (s : State) (a v : Nat) : (s.wr64 a v).rx = s.rx := (rfl)
@[simp] theorem State.wr64_pkts (s : State) (a v : Nat) : (s.wr64 a v).pkts = s.pkts := (rfl)
@[simp] theorem State.wr64_bufs (s : State) (a v : Nat) : (s.wr64 a v).bufs = s.bufs := (rfl)
@[simp] theorem State.wr64_freedTags (s : State) (a v : Nat) : (s.wr64 a v).freedTags = s.freedTags := (rfl)
@[simp] theorem State.wr64_freedBufs (s : State) (a v : Nat) : (s.wr64 a v).freedBufs = s.freedBufs := (rfl)
@[simp] theorem State.wr64_nextRel (s : State) (a v : Nat) : (s.wr64 a v).nextRel = s.nextRel := (rfl)
@[simp] theorem State.wr64_turns (s : State) (a v : Nat) : (s.wr64 a v).turns = s.turns := (rfl)
@[simp] theorem State.wr64_copies (s : State) (a v : Nat) : (s.wr64 a v).copies = s.copies := (rfl)
@[simp] theorem State.wr64_nextCopy (s : State) (a v : Nat) : (s.wr64 a v).nextCopy = s.nextCopy := (rfl)
@[simp] theorem State.wr64_nextOrd (s : State) (a v : Nat) : (s.wr64 a v).nextOrd = s.nextOrd := (rfl)
@[simp] theorem State.wr64_shares (s : State) (a v : Nat) : (s.wr64 a v).shares = s.shares := (rfl)
@[simp] theorem State.wr64_qs (s : State) (a v : Nat) : (s.wr64 a v).qs = s.qs := (rfl)
@[simp] theorem State.wr64_tmPorts (s : State) (a v : Nat) : (s.wr64 a v).tmPorts = s.tmPorts := (rfl)
@[simp] theorem State.wr64_refillAt (s : State) (a v : Nat) : (s.wr64 a v).refillAt = s.refillAt := (rfl)
@[simp] theorem State.wr64_txLast (s : State) (a v : Nat) : (s.wr64 a v).txLast = s.txLast := (rfl)
@[simp] theorem State.wr64_svn (s : State) (a v : Nat) : (s.wr64 a v).svn = s.svn := (rfl)
@[simp] theorem State.wr64_pcie (s : State) (a v : Nat) : (s.wr64 a v).pcie = s.pcie := (rfl)
@[simp] theorem State.wr64_trk (s : State) (a v : Nat) : (s.wr64 a v).trk = s.trk := (rfl)
@[simp] theorem State.wr64_sw (s : State) (a v : Nat) : (s.wr64 a v).sw = s.sw := (rfl)
@[simp] theorem State.wr64_obs (s : State) (a v : Nat) : (s.wr64 a v).obs = s.obs := (rfl)

@[simp] theorem State.cnt_pending (s : State) (a n : Nat) : (s.cnt a n).pending = s.pending := (rfl)
@[simp] theorem State.cnt_free (s : State) (a n : Nat) : (s.cnt a n).free = s.free := (rfl)
@[simp] theorem State.cnt_time (s : State) (a n : Nat) : (s.cnt a n).time = s.time := (rfl)
@[simp] theorem State.cnt_rst (s : State) (a n : Nat) : (s.cnt a n).rst = s.rst := (rfl)
@[simp] theorem State.cnt_clk (s : State) (a n : Nat) : (s.cnt a n).clk = s.clk := (rfl)
@[simp] theorem State.cnt_tj (s : State) (a n : Nat) : (s.cnt a n).tj = s.tj := (rfl)
@[simp] theorem State.cnt_jtag (s : State) (a n : Nat) : (s.cnt a n).jtag = s.jtag := (rfl)
@[simp] theorem State.cnt_jrn (s : State) (a n : Nat) : (s.cnt a n).jrn = s.jrn := (rfl)
@[simp] theorem State.cnt_msi (s : State) (a n : Nat) : (s.cnt a n).msi = s.msi := (rfl)
@[simp] theorem State.cnt_lastRead (s : State) (a n : Nat) : (s.cnt a n).lastRead = s.lastRead := (rfl)
@[simp] theorem State.cnt_ports (s : State) (a n : Nat) : (s.cnt a n).ports = s.ports := (rfl)
@[simp] theorem State.cnt_tbl (s : State) (a n : Nat) : (s.cnt a n).tbl = s.tbl := (rfl)
@[simp] theorem State.cnt_frags (s : State) (a n : Nat) : (s.cnt a n).frags = s.frags := (rfl)
@[simp] theorem State.cnt_brg (s : State) (a n : Nat) : (s.cnt a n).brg = s.brg := (rfl)
@[simp] theorem State.cnt_gv (s : State) (a n : Nat) : (s.cnt a n).gv = s.gv := (rfl)
@[simp] theorem State.cnt_gr (s : State) (a n : Nat) : (s.cnt a n).gr = s.gr := (rfl)
@[simp] theorem State.cnt_recircQ (s : State) (a n : Nat) : (s.cnt a n).recircQ = s.recircQ := (rfl)
@[simp] theorem State.cnt_rs (s : State) (a n : Nat) : (s.cnt a n).rs = s.rs := (rfl)
@[simp] theorem State.cnt_twig (s : State) (a n : Nat) : (s.cnt a n).twig = s.twig := (rfl)
@[simp] theorem State.cnt_rts0 (s : State) (a n : Nat) : (s.cnt a n).rts0 = s.rts0 := (rfl)
@[simp] theorem State.cnt_rts1 (s : State) (a n : Nat) : (s.cnt a n).rts1 = s.rts1 := (rfl)
@[simp] theorem State.cnt_ecc (s : State) (a n : Nat) : (s.cnt a n).ecc = s.ecc := (rfl)
@[simp] theorem State.cnt_rx (s : State) (a n : Nat) : (s.cnt a n).rx = s.rx := (rfl)
@[simp] theorem State.cnt_pkts (s : State) (a n : Nat) : (s.cnt a n).pkts = s.pkts := (rfl)
@[simp] theorem State.cnt_bufs (s : State) (a n : Nat) : (s.cnt a n).bufs = s.bufs := (rfl)
@[simp] theorem State.cnt_freedTags (s : State) (a n : Nat) : (s.cnt a n).freedTags = s.freedTags := (rfl)
@[simp] theorem State.cnt_freedBufs (s : State) (a n : Nat) : (s.cnt a n).freedBufs = s.freedBufs := (rfl)
@[simp] theorem State.cnt_nextRel (s : State) (a n : Nat) : (s.cnt a n).nextRel = s.nextRel := (rfl)
@[simp] theorem State.cnt_turns (s : State) (a n : Nat) : (s.cnt a n).turns = s.turns := (rfl)
@[simp] theorem State.cnt_copies (s : State) (a n : Nat) : (s.cnt a n).copies = s.copies := (rfl)
@[simp] theorem State.cnt_nextCopy (s : State) (a n : Nat) : (s.cnt a n).nextCopy = s.nextCopy := (rfl)
@[simp] theorem State.cnt_nextOrd (s : State) (a n : Nat) : (s.cnt a n).nextOrd = s.nextOrd := (rfl)
@[simp] theorem State.cnt_shares (s : State) (a n : Nat) : (s.cnt a n).shares = s.shares := (rfl)
@[simp] theorem State.cnt_qs (s : State) (a n : Nat) : (s.cnt a n).qs = s.qs := (rfl)
@[simp] theorem State.cnt_tmPorts (s : State) (a n : Nat) : (s.cnt a n).tmPorts = s.tmPorts := (rfl)
@[simp] theorem State.cnt_refillAt (s : State) (a n : Nat) : (s.cnt a n).refillAt = s.refillAt := (rfl)
@[simp] theorem State.cnt_txLast (s : State) (a n : Nat) : (s.cnt a n).txLast = s.txLast := (rfl)
@[simp] theorem State.cnt_svn (s : State) (a n : Nat) : (s.cnt a n).svn = s.svn := (rfl)
@[simp] theorem State.cnt_pcie (s : State) (a n : Nat) : (s.cnt a n).pcie = s.pcie := (rfl)
@[simp] theorem State.cnt_trk (s : State) (a n : Nat) : (s.cnt a n).trk = s.trk := (rfl)
@[simp] theorem State.cnt_sw (s : State) (a n : Nat) : (s.cnt a n).sw = s.sw := (rfl)
@[simp] theorem State.cnt_obs (s : State) (a n : Nat) : (s.cnt a n).obs = s.obs := (rfl)

@[simp] theorem State.bumpSat_pending (s : State) (f : RFld) (n : Nat) : (s.bumpSat f n).pending = s.pending := (rfl)
@[simp] theorem State.bumpSat_free (s : State) (f : RFld) (n : Nat) : (s.bumpSat f n).free = s.free := (rfl)
@[simp] theorem State.bumpSat_time (s : State) (f : RFld) (n : Nat) : (s.bumpSat f n).time = s.time := (rfl)
@[simp] theorem State.bumpSat_rst (s : State) (f : RFld) (n : Nat) : (s.bumpSat f n).rst = s.rst := (rfl)
@[simp] theorem State.bumpSat_clk (s : State) (f : RFld) (n : Nat) : (s.bumpSat f n).clk = s.clk := (rfl)
@[simp] theorem State.bumpSat_tj (s : State) (f : RFld) (n : Nat) : (s.bumpSat f n).tj = s.tj := (rfl)
@[simp] theorem State.bumpSat_jtag (s : State) (f : RFld) (n : Nat) : (s.bumpSat f n).jtag = s.jtag := (rfl)
@[simp] theorem State.bumpSat_jrn (s : State) (f : RFld) (n : Nat) : (s.bumpSat f n).jrn = s.jrn := (rfl)
@[simp] theorem State.bumpSat_msi (s : State) (f : RFld) (n : Nat) : (s.bumpSat f n).msi = s.msi := (rfl)
@[simp] theorem State.bumpSat_lastRead (s : State) (f : RFld) (n : Nat) : (s.bumpSat f n).lastRead = s.lastRead := (rfl)
@[simp] theorem State.bumpSat_ports (s : State) (f : RFld) (n : Nat) : (s.bumpSat f n).ports = s.ports := (rfl)
@[simp] theorem State.bumpSat_tbl (s : State) (f : RFld) (n : Nat) : (s.bumpSat f n).tbl = s.tbl := (rfl)
@[simp] theorem State.bumpSat_frags (s : State) (f : RFld) (n : Nat) : (s.bumpSat f n).frags = s.frags := (rfl)
@[simp] theorem State.bumpSat_brg (s : State) (f : RFld) (n : Nat) : (s.bumpSat f n).brg = s.brg := (rfl)
@[simp] theorem State.bumpSat_gv (s : State) (f : RFld) (n : Nat) : (s.bumpSat f n).gv = s.gv := (rfl)
@[simp] theorem State.bumpSat_gr (s : State) (f : RFld) (n : Nat) : (s.bumpSat f n).gr = s.gr := (rfl)
@[simp] theorem State.bumpSat_recircQ (s : State) (f : RFld) (n : Nat) : (s.bumpSat f n).recircQ = s.recircQ := (rfl)
@[simp] theorem State.bumpSat_rs (s : State) (f : RFld) (n : Nat) : (s.bumpSat f n).rs = s.rs := (rfl)
@[simp] theorem State.bumpSat_twig (s : State) (f : RFld) (n : Nat) : (s.bumpSat f n).twig = s.twig := (rfl)
@[simp] theorem State.bumpSat_rts0 (s : State) (f : RFld) (n : Nat) : (s.bumpSat f n).rts0 = s.rts0 := (rfl)
@[simp] theorem State.bumpSat_rts1 (s : State) (f : RFld) (n : Nat) : (s.bumpSat f n).rts1 = s.rts1 := (rfl)
@[simp] theorem State.bumpSat_ecc (s : State) (f : RFld) (n : Nat) : (s.bumpSat f n).ecc = s.ecc := (rfl)
@[simp] theorem State.bumpSat_rx (s : State) (f : RFld) (n : Nat) : (s.bumpSat f n).rx = s.rx := (rfl)
@[simp] theorem State.bumpSat_pkts (s : State) (f : RFld) (n : Nat) : (s.bumpSat f n).pkts = s.pkts := (rfl)
@[simp] theorem State.bumpSat_bufs (s : State) (f : RFld) (n : Nat) : (s.bumpSat f n).bufs = s.bufs := (rfl)
@[simp] theorem State.bumpSat_freedTags (s : State) (f : RFld) (n : Nat) : (s.bumpSat f n).freedTags = s.freedTags := (rfl)
@[simp] theorem State.bumpSat_freedBufs (s : State) (f : RFld) (n : Nat) : (s.bumpSat f n).freedBufs = s.freedBufs := (rfl)
@[simp] theorem State.bumpSat_nextRel (s : State) (f : RFld) (n : Nat) : (s.bumpSat f n).nextRel = s.nextRel := (rfl)
@[simp] theorem State.bumpSat_turns (s : State) (f : RFld) (n : Nat) : (s.bumpSat f n).turns = s.turns := (rfl)
@[simp] theorem State.bumpSat_copies (s : State) (f : RFld) (n : Nat) : (s.bumpSat f n).copies = s.copies := (rfl)
@[simp] theorem State.bumpSat_nextCopy (s : State) (f : RFld) (n : Nat) : (s.bumpSat f n).nextCopy = s.nextCopy := (rfl)
@[simp] theorem State.bumpSat_nextOrd (s : State) (f : RFld) (n : Nat) : (s.bumpSat f n).nextOrd = s.nextOrd := (rfl)
@[simp] theorem State.bumpSat_shares (s : State) (f : RFld) (n : Nat) : (s.bumpSat f n).shares = s.shares := (rfl)
@[simp] theorem State.bumpSat_qs (s : State) (f : RFld) (n : Nat) : (s.bumpSat f n).qs = s.qs := (rfl)
@[simp] theorem State.bumpSat_tmPorts (s : State) (f : RFld) (n : Nat) : (s.bumpSat f n).tmPorts = s.tmPorts := (rfl)
@[simp] theorem State.bumpSat_refillAt (s : State) (f : RFld) (n : Nat) : (s.bumpSat f n).refillAt = s.refillAt := (rfl)
@[simp] theorem State.bumpSat_txLast (s : State) (f : RFld) (n : Nat) : (s.bumpSat f n).txLast = s.txLast := (rfl)
@[simp] theorem State.bumpSat_svn (s : State) (f : RFld) (n : Nat) : (s.bumpSat f n).svn = s.svn := (rfl)
@[simp] theorem State.bumpSat_pcie (s : State) (f : RFld) (n : Nat) : (s.bumpSat f n).pcie = s.pcie := (rfl)
@[simp] theorem State.bumpSat_trk (s : State) (f : RFld) (n : Nat) : (s.bumpSat f n).trk = s.trk := (rfl)
@[simp] theorem State.bumpSat_sw (s : State) (f : RFld) (n : Nat) : (s.bumpSat f n).sw = s.sw := (rfl)
@[simp] theorem State.bumpSat_obs (s : State) (f : RFld) (n : Nat) : (s.bumpSat f n).obs = s.obs := (rfl)

@[simp] theorem State.msiDue_pending (s : State) (k : Nat) : (s.msiDue k).pending = s.pending := (rfl)
@[simp] theorem State.msiDue_regs (s : State) (k : Nat) : (s.msiDue k).regs = s.regs := (rfl)
@[simp] theorem State.msiDue_free (s : State) (k : Nat) : (s.msiDue k).free = s.free := (rfl)
@[simp] theorem State.msiDue_time (s : State) (k : Nat) : (s.msiDue k).time = s.time := (rfl)
@[simp] theorem State.msiDue_rst (s : State) (k : Nat) : (s.msiDue k).rst = s.rst := (rfl)
@[simp] theorem State.msiDue_clk (s : State) (k : Nat) : (s.msiDue k).clk = s.clk := (rfl)
@[simp] theorem State.msiDue_tj (s : State) (k : Nat) : (s.msiDue k).tj = s.tj := (rfl)
@[simp] theorem State.msiDue_jtag (s : State) (k : Nat) : (s.msiDue k).jtag = s.jtag := (rfl)
@[simp] theorem State.msiDue_jrn (s : State) (k : Nat) : (s.msiDue k).jrn = s.jrn := (rfl)
@[simp] theorem State.msiDue_lastRead (s : State) (k : Nat) : (s.msiDue k).lastRead = s.lastRead := (rfl)
@[simp] theorem State.msiDue_ports (s : State) (k : Nat) : (s.msiDue k).ports = s.ports := (rfl)
@[simp] theorem State.msiDue_tbl (s : State) (k : Nat) : (s.msiDue k).tbl = s.tbl := (rfl)
@[simp] theorem State.msiDue_frags (s : State) (k : Nat) : (s.msiDue k).frags = s.frags := (rfl)
@[simp] theorem State.msiDue_brg (s : State) (k : Nat) : (s.msiDue k).brg = s.brg := (rfl)
@[simp] theorem State.msiDue_gv (s : State) (k : Nat) : (s.msiDue k).gv = s.gv := (rfl)
@[simp] theorem State.msiDue_gr (s : State) (k : Nat) : (s.msiDue k).gr = s.gr := (rfl)
@[simp] theorem State.msiDue_recircQ (s : State) (k : Nat) : (s.msiDue k).recircQ = s.recircQ := (rfl)
@[simp] theorem State.msiDue_rs (s : State) (k : Nat) : (s.msiDue k).rs = s.rs := (rfl)
@[simp] theorem State.msiDue_twig (s : State) (k : Nat) : (s.msiDue k).twig = s.twig := (rfl)
@[simp] theorem State.msiDue_rts0 (s : State) (k : Nat) : (s.msiDue k).rts0 = s.rts0 := (rfl)
@[simp] theorem State.msiDue_rts1 (s : State) (k : Nat) : (s.msiDue k).rts1 = s.rts1 := (rfl)
@[simp] theorem State.msiDue_ecc (s : State) (k : Nat) : (s.msiDue k).ecc = s.ecc := (rfl)
@[simp] theorem State.msiDue_rx (s : State) (k : Nat) : (s.msiDue k).rx = s.rx := (rfl)
@[simp] theorem State.msiDue_pkts (s : State) (k : Nat) : (s.msiDue k).pkts = s.pkts := (rfl)
@[simp] theorem State.msiDue_bufs (s : State) (k : Nat) : (s.msiDue k).bufs = s.bufs := (rfl)
@[simp] theorem State.msiDue_freedTags (s : State) (k : Nat) : (s.msiDue k).freedTags = s.freedTags := (rfl)
@[simp] theorem State.msiDue_freedBufs (s : State) (k : Nat) : (s.msiDue k).freedBufs = s.freedBufs := (rfl)
@[simp] theorem State.msiDue_nextRel (s : State) (k : Nat) : (s.msiDue k).nextRel = s.nextRel := (rfl)
@[simp] theorem State.msiDue_turns (s : State) (k : Nat) : (s.msiDue k).turns = s.turns := (rfl)
@[simp] theorem State.msiDue_copies (s : State) (k : Nat) : (s.msiDue k).copies = s.copies := (rfl)
@[simp] theorem State.msiDue_nextCopy (s : State) (k : Nat) : (s.msiDue k).nextCopy = s.nextCopy := (rfl)
@[simp] theorem State.msiDue_nextOrd (s : State) (k : Nat) : (s.msiDue k).nextOrd = s.nextOrd := (rfl)
@[simp] theorem State.msiDue_shares (s : State) (k : Nat) : (s.msiDue k).shares = s.shares := (rfl)
@[simp] theorem State.msiDue_qs (s : State) (k : Nat) : (s.msiDue k).qs = s.qs := (rfl)
@[simp] theorem State.msiDue_tmPorts (s : State) (k : Nat) : (s.msiDue k).tmPorts = s.tmPorts := (rfl)
@[simp] theorem State.msiDue_refillAt (s : State) (k : Nat) : (s.msiDue k).refillAt = s.refillAt := (rfl)
@[simp] theorem State.msiDue_txLast (s : State) (k : Nat) : (s.msiDue k).txLast = s.txLast := (rfl)
@[simp] theorem State.msiDue_svn (s : State) (k : Nat) : (s.msiDue k).svn = s.svn := (rfl)
@[simp] theorem State.msiDue_pcie (s : State) (k : Nat) : (s.msiDue k).pcie = s.pcie := (rfl)
@[simp] theorem State.msiDue_trk (s : State) (k : Nat) : (s.msiDue k).trk = s.trk := (rfl)
@[simp] theorem State.msiDue_sw (s : State) (k : Nat) : (s.msiDue k).sw = s.sw := (rfl)
@[simp] theorem State.msiDue_obs (s : State) (k : Nat) : (s.msiDue k).obs = s.obs := (rfl)

@[simp] theorem State.pmuEv_pending (s : State) (c u n : Nat) : (s.pmuEv c u n).pending = s.pending := (rfl)
@[simp] theorem State.pmuEv_regs (s : State) (c u n : Nat) : (s.pmuEv c u n).regs = s.regs := (rfl)
@[simp] theorem State.pmuEv_free (s : State) (c u n : Nat) : (s.pmuEv c u n).free = s.free := (rfl)
@[simp] theorem State.pmuEv_time (s : State) (c u n : Nat) : (s.pmuEv c u n).time = s.time := (rfl)
@[simp] theorem State.pmuEv_rst (s : State) (c u n : Nat) : (s.pmuEv c u n).rst = s.rst := (rfl)
@[simp] theorem State.pmuEv_clk (s : State) (c u n : Nat) : (s.pmuEv c u n).clk = s.clk := (rfl)
@[simp] theorem State.pmuEv_tj (s : State) (c u n : Nat) : (s.pmuEv c u n).tj = s.tj := (rfl)
@[simp] theorem State.pmuEv_jtag (s : State) (c u n : Nat) : (s.pmuEv c u n).jtag = s.jtag := (rfl)
@[simp] theorem State.pmuEv_jrn (s : State) (c u n : Nat) : (s.pmuEv c u n).jrn = s.jrn := (rfl)
@[simp] theorem State.pmuEv_msi (s : State) (c u n : Nat) : (s.pmuEv c u n).msi = s.msi := (rfl)
@[simp] theorem State.pmuEv_lastRead (s : State) (c u n : Nat) : (s.pmuEv c u n).lastRead = s.lastRead := (rfl)
@[simp] theorem State.pmuEv_ports (s : State) (c u n : Nat) : (s.pmuEv c u n).ports = s.ports := (rfl)
@[simp] theorem State.pmuEv_tbl (s : State) (c u n : Nat) : (s.pmuEv c u n).tbl = s.tbl := (rfl)
@[simp] theorem State.pmuEv_frags (s : State) (c u n : Nat) : (s.pmuEv c u n).frags = s.frags := (rfl)
@[simp] theorem State.pmuEv_brg (s : State) (c u n : Nat) : (s.pmuEv c u n).brg = s.brg := (rfl)
@[simp] theorem State.pmuEv_gv (s : State) (c u n : Nat) : (s.pmuEv c u n).gv = s.gv := (rfl)
@[simp] theorem State.pmuEv_gr (s : State) (c u n : Nat) : (s.pmuEv c u n).gr = s.gr := (rfl)
@[simp] theorem State.pmuEv_recircQ (s : State) (c u n : Nat) : (s.pmuEv c u n).recircQ = s.recircQ := (rfl)
@[simp] theorem State.pmuEv_rs (s : State) (c u n : Nat) : (s.pmuEv c u n).rs = s.rs := (rfl)
@[simp] theorem State.pmuEv_twig (s : State) (c u n : Nat) : (s.pmuEv c u n).twig = s.twig := (rfl)
@[simp] theorem State.pmuEv_rts0 (s : State) (c u n : Nat) : (s.pmuEv c u n).rts0 = s.rts0 := (rfl)
@[simp] theorem State.pmuEv_rts1 (s : State) (c u n : Nat) : (s.pmuEv c u n).rts1 = s.rts1 := (rfl)
@[simp] theorem State.pmuEv_ecc (s : State) (c u n : Nat) : (s.pmuEv c u n).ecc = s.ecc := (rfl)
@[simp] theorem State.pmuEv_rx (s : State) (c u n : Nat) : (s.pmuEv c u n).rx = s.rx := (rfl)
@[simp] theorem State.pmuEv_pkts (s : State) (c u n : Nat) : (s.pmuEv c u n).pkts = s.pkts := (rfl)
@[simp] theorem State.pmuEv_bufs (s : State) (c u n : Nat) : (s.pmuEv c u n).bufs = s.bufs := (rfl)
@[simp] theorem State.pmuEv_freedTags (s : State) (c u n : Nat) : (s.pmuEv c u n).freedTags = s.freedTags := (rfl)
@[simp] theorem State.pmuEv_freedBufs (s : State) (c u n : Nat) : (s.pmuEv c u n).freedBufs = s.freedBufs := (rfl)
@[simp] theorem State.pmuEv_nextRel (s : State) (c u n : Nat) : (s.pmuEv c u n).nextRel = s.nextRel := (rfl)
@[simp] theorem State.pmuEv_turns (s : State) (c u n : Nat) : (s.pmuEv c u n).turns = s.turns := (rfl)
@[simp] theorem State.pmuEv_copies (s : State) (c u n : Nat) : (s.pmuEv c u n).copies = s.copies := (rfl)
@[simp] theorem State.pmuEv_nextCopy (s : State) (c u n : Nat) : (s.pmuEv c u n).nextCopy = s.nextCopy := (rfl)
@[simp] theorem State.pmuEv_nextOrd (s : State) (c u n : Nat) : (s.pmuEv c u n).nextOrd = s.nextOrd := (rfl)
@[simp] theorem State.pmuEv_shares (s : State) (c u n : Nat) : (s.pmuEv c u n).shares = s.shares := (rfl)
@[simp] theorem State.pmuEv_qs (s : State) (c u n : Nat) : (s.pmuEv c u n).qs = s.qs := (rfl)
@[simp] theorem State.pmuEv_tmPorts (s : State) (c u n : Nat) : (s.pmuEv c u n).tmPorts = s.tmPorts := (rfl)
@[simp] theorem State.pmuEv_refillAt (s : State) (c u n : Nat) : (s.pmuEv c u n).refillAt = s.refillAt := (rfl)
@[simp] theorem State.pmuEv_txLast (s : State) (c u n : Nat) : (s.pmuEv c u n).txLast = s.txLast := (rfl)
@[simp] theorem State.pmuEv_svn (s : State) (c u n : Nat) : (s.pmuEv c u n).svn = s.svn := (rfl)
@[simp] theorem State.pmuEv_pcie (s : State) (c u n : Nat) : (s.pmuEv c u n).pcie = s.pcie := (rfl)
@[simp] theorem State.pmuEv_trk (s : State) (c u n : Nat) : (s.pmuEv c u n).trk = s.trk := (rfl)
@[simp] theorem State.pmuEv_sw (s : State) (c u n : Nat) : (s.pmuEv c u n).sw = s.sw := (rfl)

/-- Raising a cause changes its register and the messages due, and nothing else. -/
theorem State.raiseN_only (s : State) (f : RFld) (v : Nat) :
    s.raiseN f v = { s with regs := (s.raiseN f v).regs, msi := (s.raiseN f v).msi } := by
  unfold State.raiseN; dsimp only; split
  · split <;> rfl
  · rfl

theorem State.raiseN_regs (s : State) (f : RFld) (v : Nat) : (s.raiseN f v).regs = (s.wr f (s.rd f ||| v)).regs := by
  unfold State.raiseN; dsimp only; split
  · split <;> rfl
  · rfl

@[simp] theorem State.raiseN_pending (s : State) (f : RFld) (v : Nat) : (s.raiseN f v).pending = s.pending := by rw [State.raiseN_only]
@[simp] theorem State.raiseN_free (s : State) (f : RFld) (v : Nat) : (s.raiseN f v).free = s.free := by rw [State.raiseN_only]
@[simp] theorem State.raiseN_time (s : State) (f : RFld) (v : Nat) : (s.raiseN f v).time = s.time := by rw [State.raiseN_only]
@[simp] theorem State.raiseN_rst (s : State) (f : RFld) (v : Nat) : (s.raiseN f v).rst = s.rst := by rw [State.raiseN_only]
@[simp] theorem State.raiseN_clk (s : State) (f : RFld) (v : Nat) : (s.raiseN f v).clk = s.clk := by rw [State.raiseN_only]
@[simp] theorem State.raiseN_tj (s : State) (f : RFld) (v : Nat) : (s.raiseN f v).tj = s.tj := by rw [State.raiseN_only]
@[simp] theorem State.raiseN_jtag (s : State) (f : RFld) (v : Nat) : (s.raiseN f v).jtag = s.jtag := by rw [State.raiseN_only]
@[simp] theorem State.raiseN_jrn (s : State) (f : RFld) (v : Nat) : (s.raiseN f v).jrn = s.jrn := by rw [State.raiseN_only]
@[simp] theorem State.raiseN_lastRead (s : State) (f : RFld) (v : Nat) : (s.raiseN f v).lastRead = s.lastRead := by rw [State.raiseN_only]
@[simp] theorem State.raiseN_ports (s : State) (f : RFld) (v : Nat) : (s.raiseN f v).ports = s.ports := by rw [State.raiseN_only]
@[simp] theorem State.raiseN_tbl (s : State) (f : RFld) (v : Nat) : (s.raiseN f v).tbl = s.tbl := by rw [State.raiseN_only]
@[simp] theorem State.raiseN_frags (s : State) (f : RFld) (v : Nat) : (s.raiseN f v).frags = s.frags := by rw [State.raiseN_only]
@[simp] theorem State.raiseN_brg (s : State) (f : RFld) (v : Nat) : (s.raiseN f v).brg = s.brg := by rw [State.raiseN_only]
@[simp] theorem State.raiseN_gv (s : State) (f : RFld) (v : Nat) : (s.raiseN f v).gv = s.gv := by rw [State.raiseN_only]
@[simp] theorem State.raiseN_gr (s : State) (f : RFld) (v : Nat) : (s.raiseN f v).gr = s.gr := by rw [State.raiseN_only]
@[simp] theorem State.raiseN_recircQ (s : State) (f : RFld) (v : Nat) : (s.raiseN f v).recircQ = s.recircQ := by rw [State.raiseN_only]
@[simp] theorem State.raiseN_rs (s : State) (f : RFld) (v : Nat) : (s.raiseN f v).rs = s.rs := by rw [State.raiseN_only]
@[simp] theorem State.raiseN_twig (s : State) (f : RFld) (v : Nat) : (s.raiseN f v).twig = s.twig := by rw [State.raiseN_only]
@[simp] theorem State.raiseN_rts0 (s : State) (f : RFld) (v : Nat) : (s.raiseN f v).rts0 = s.rts0 := by rw [State.raiseN_only]
@[simp] theorem State.raiseN_rts1 (s : State) (f : RFld) (v : Nat) : (s.raiseN f v).rts1 = s.rts1 := by rw [State.raiseN_only]
@[simp] theorem State.raiseN_ecc (s : State) (f : RFld) (v : Nat) : (s.raiseN f v).ecc = s.ecc := by rw [State.raiseN_only]
@[simp] theorem State.raiseN_rx (s : State) (f : RFld) (v : Nat) : (s.raiseN f v).rx = s.rx := by rw [State.raiseN_only]
@[simp] theorem State.raiseN_pkts (s : State) (f : RFld) (v : Nat) : (s.raiseN f v).pkts = s.pkts := by rw [State.raiseN_only]
@[simp] theorem State.raiseN_bufs (s : State) (f : RFld) (v : Nat) : (s.raiseN f v).bufs = s.bufs := by rw [State.raiseN_only]
@[simp] theorem State.raiseN_freedTags (s : State) (f : RFld) (v : Nat) : (s.raiseN f v).freedTags = s.freedTags := by rw [State.raiseN_only]
@[simp] theorem State.raiseN_freedBufs (s : State) (f : RFld) (v : Nat) : (s.raiseN f v).freedBufs = s.freedBufs := by rw [State.raiseN_only]
@[simp] theorem State.raiseN_nextRel (s : State) (f : RFld) (v : Nat) : (s.raiseN f v).nextRel = s.nextRel := by rw [State.raiseN_only]
@[simp] theorem State.raiseN_turns (s : State) (f : RFld) (v : Nat) : (s.raiseN f v).turns = s.turns := by rw [State.raiseN_only]
@[simp] theorem State.raiseN_copies (s : State) (f : RFld) (v : Nat) : (s.raiseN f v).copies = s.copies := by rw [State.raiseN_only]
@[simp] theorem State.raiseN_nextCopy (s : State) (f : RFld) (v : Nat) : (s.raiseN f v).nextCopy = s.nextCopy := by rw [State.raiseN_only]
@[simp] theorem State.raiseN_nextOrd (s : State) (f : RFld) (v : Nat) : (s.raiseN f v).nextOrd = s.nextOrd := by rw [State.raiseN_only]
@[simp] theorem State.raiseN_shares (s : State) (f : RFld) (v : Nat) : (s.raiseN f v).shares = s.shares := by rw [State.raiseN_only]
@[simp] theorem State.raiseN_qs (s : State) (f : RFld) (v : Nat) : (s.raiseN f v).qs = s.qs := by rw [State.raiseN_only]
@[simp] theorem State.raiseN_tmPorts (s : State) (f : RFld) (v : Nat) : (s.raiseN f v).tmPorts = s.tmPorts := by rw [State.raiseN_only]
@[simp] theorem State.raiseN_refillAt (s : State) (f : RFld) (v : Nat) : (s.raiseN f v).refillAt = s.refillAt := by rw [State.raiseN_only]
@[simp] theorem State.raiseN_txLast (s : State) (f : RFld) (v : Nat) : (s.raiseN f v).txLast = s.txLast := by rw [State.raiseN_only]
@[simp] theorem State.raiseN_svn (s : State) (f : RFld) (v : Nat) : (s.raiseN f v).svn = s.svn := by rw [State.raiseN_only]
@[simp] theorem State.raiseN_pcie (s : State) (f : RFld) (v : Nat) : (s.raiseN f v).pcie = s.pcie := by rw [State.raiseN_only]
@[simp] theorem State.raiseN_trk (s : State) (f : RFld) (v : Nat) : (s.raiseN f v).trk = s.trk := by rw [State.raiseN_only]
@[simp] theorem State.raiseN_sw (s : State) (f : RFld) (v : Nat) : (s.raiseN f v).sw = s.sw := by rw [State.raiseN_only]
@[simp] theorem State.raiseN_obs (s : State) (f : RFld) (v : Nat) : (s.raiseN f v).obs = s.obs := by rw [State.raiseN_only]

@[simp] theorem State.raise_pending (s : State) (f : RFld) : (s.raise f).pending = s.pending := by unfold State.raise; simp
@[simp] theorem State.raise_free (s : State) (f : RFld) : (s.raise f).free = s.free := by unfold State.raise; simp
@[simp] theorem State.raise_time (s : State) (f : RFld) : (s.raise f).time = s.time := by unfold State.raise; simp
@[simp] theorem State.raise_rst (s : State) (f : RFld) : (s.raise f).rst = s.rst := by unfold State.raise; simp
@[simp] theorem State.raise_clk (s : State) (f : RFld) : (s.raise f).clk = s.clk := by unfold State.raise; simp
@[simp] theorem State.raise_tj (s : State) (f : RFld) : (s.raise f).tj = s.tj := by unfold State.raise; simp
@[simp] theorem State.raise_jtag (s : State) (f : RFld) : (s.raise f).jtag = s.jtag := by unfold State.raise; simp
@[simp] theorem State.raise_jrn (s : State) (f : RFld) : (s.raise f).jrn = s.jrn := by unfold State.raise; simp
@[simp] theorem State.raise_lastRead (s : State) (f : RFld) : (s.raise f).lastRead = s.lastRead := by unfold State.raise; simp
@[simp] theorem State.raise_ports (s : State) (f : RFld) : (s.raise f).ports = s.ports := by unfold State.raise; simp
@[simp] theorem State.raise_tbl (s : State) (f : RFld) : (s.raise f).tbl = s.tbl := by unfold State.raise; simp
@[simp] theorem State.raise_frags (s : State) (f : RFld) : (s.raise f).frags = s.frags := by unfold State.raise; simp
@[simp] theorem State.raise_brg (s : State) (f : RFld) : (s.raise f).brg = s.brg := by unfold State.raise; simp
@[simp] theorem State.raise_gv (s : State) (f : RFld) : (s.raise f).gv = s.gv := by unfold State.raise; simp
@[simp] theorem State.raise_gr (s : State) (f : RFld) : (s.raise f).gr = s.gr := by unfold State.raise; simp
@[simp] theorem State.raise_recircQ (s : State) (f : RFld) : (s.raise f).recircQ = s.recircQ := by unfold State.raise; simp
@[simp] theorem State.raise_rs (s : State) (f : RFld) : (s.raise f).rs = s.rs := by unfold State.raise; simp
@[simp] theorem State.raise_twig (s : State) (f : RFld) : (s.raise f).twig = s.twig := by unfold State.raise; simp
@[simp] theorem State.raise_rts0 (s : State) (f : RFld) : (s.raise f).rts0 = s.rts0 := by unfold State.raise; simp
@[simp] theorem State.raise_rts1 (s : State) (f : RFld) : (s.raise f).rts1 = s.rts1 := by unfold State.raise; simp
@[simp] theorem State.raise_ecc (s : State) (f : RFld) : (s.raise f).ecc = s.ecc := by unfold State.raise; simp
@[simp] theorem State.raise_rx (s : State) (f : RFld) : (s.raise f).rx = s.rx := by unfold State.raise; simp
@[simp] theorem State.raise_pkts (s : State) (f : RFld) : (s.raise f).pkts = s.pkts := by unfold State.raise; simp
@[simp] theorem State.raise_bufs (s : State) (f : RFld) : (s.raise f).bufs = s.bufs := by unfold State.raise; simp
@[simp] theorem State.raise_freedTags (s : State) (f : RFld) : (s.raise f).freedTags = s.freedTags := by unfold State.raise; simp
@[simp] theorem State.raise_freedBufs (s : State) (f : RFld) : (s.raise f).freedBufs = s.freedBufs := by unfold State.raise; simp
@[simp] theorem State.raise_nextRel (s : State) (f : RFld) : (s.raise f).nextRel = s.nextRel := by unfold State.raise; simp
@[simp] theorem State.raise_turns (s : State) (f : RFld) : (s.raise f).turns = s.turns := by unfold State.raise; simp
@[simp] theorem State.raise_copies (s : State) (f : RFld) : (s.raise f).copies = s.copies := by unfold State.raise; simp
@[simp] theorem State.raise_nextCopy (s : State) (f : RFld) : (s.raise f).nextCopy = s.nextCopy := by unfold State.raise; simp
@[simp] theorem State.raise_nextOrd (s : State) (f : RFld) : (s.raise f).nextOrd = s.nextOrd := by unfold State.raise; simp
@[simp] theorem State.raise_shares (s : State) (f : RFld) : (s.raise f).shares = s.shares := by unfold State.raise; simp
@[simp] theorem State.raise_qs (s : State) (f : RFld) : (s.raise f).qs = s.qs := by unfold State.raise; simp
@[simp] theorem State.raise_tmPorts (s : State) (f : RFld) : (s.raise f).tmPorts = s.tmPorts := by unfold State.raise; simp
@[simp] theorem State.raise_refillAt (s : State) (f : RFld) : (s.raise f).refillAt = s.refillAt := by unfold State.raise; simp
@[simp] theorem State.raise_txLast (s : State) (f : RFld) : (s.raise f).txLast = s.txLast := by unfold State.raise; simp
@[simp] theorem State.raise_svn (s : State) (f : RFld) : (s.raise f).svn = s.svn := by unfold State.raise; simp
@[simp] theorem State.raise_pcie (s : State) (f : RFld) : (s.raise f).pcie = s.pcie := by unfold State.raise; simp
@[simp] theorem State.raise_trk (s : State) (f : RFld) : (s.raise f).trk = s.trk := by unfold State.raise; simp
@[simp] theorem State.raise_sw (s : State) (f : RFld) : (s.raise f).sw = s.sw := by unfold State.raise; simp
@[simp] theorem State.raise_obs (s : State) (f : RFld) : (s.raise f).obs = s.obs := by unfold State.raise; simp

/-- Flushing lost records changes the journal alone. -/
theorem State.jrnFlushLost_only (s : State) (i u : Nat) : s.jrnFlushLost i u = { s with jrn := (s.jrnFlushLost i u).jrn } := by
  unfold State.jrnFlushLost; dsimp only; split <;> rfl

/-- A record handed to the journal writer changes the journal, or the count of lost ones and its cause. -/
theorem State.journalRec_only (s : State) (i : Nat) (r : JRec) : s.journalRec i r =
    { s with jrn := (s.journalRec i r).jrn, regs := (s.journalRec i r).regs, msi := (s.journalRec i r).msi } := by
  unfold State.journalRec; dsimp only
  split
  · rfl
  · rw [State.jrnFlushLost_only]
    split
    · rw [State.raise, State.raiseN_only]; rfl
    · rfl

@[simp] theorem State.jrnFlushLost_pending (s : State) (i u : Nat) : (s.jrnFlushLost i u).pending = s.pending := by rw [State.jrnFlushLost_only]
@[simp] theorem State.jrnFlushLost_regs (s : State) (i u : Nat) : (s.jrnFlushLost i u).regs = s.regs := by rw [State.jrnFlushLost_only]
@[simp] theorem State.jrnFlushLost_free (s : State) (i u : Nat) : (s.jrnFlushLost i u).free = s.free := by rw [State.jrnFlushLost_only]
@[simp] theorem State.jrnFlushLost_time (s : State) (i u : Nat) : (s.jrnFlushLost i u).time = s.time := by rw [State.jrnFlushLost_only]
@[simp] theorem State.jrnFlushLost_rst (s : State) (i u : Nat) : (s.jrnFlushLost i u).rst = s.rst := by rw [State.jrnFlushLost_only]
@[simp] theorem State.jrnFlushLost_clk (s : State) (i u : Nat) : (s.jrnFlushLost i u).clk = s.clk := by rw [State.jrnFlushLost_only]
@[simp] theorem State.jrnFlushLost_tj (s : State) (i u : Nat) : (s.jrnFlushLost i u).tj = s.tj := by rw [State.jrnFlushLost_only]
@[simp] theorem State.jrnFlushLost_jtag (s : State) (i u : Nat) : (s.jrnFlushLost i u).jtag = s.jtag := by rw [State.jrnFlushLost_only]
@[simp] theorem State.jrnFlushLost_msi (s : State) (i u : Nat) : (s.jrnFlushLost i u).msi = s.msi := by rw [State.jrnFlushLost_only]
@[simp] theorem State.jrnFlushLost_lastRead (s : State) (i u : Nat) : (s.jrnFlushLost i u).lastRead = s.lastRead := by rw [State.jrnFlushLost_only]
@[simp] theorem State.jrnFlushLost_ports (s : State) (i u : Nat) : (s.jrnFlushLost i u).ports = s.ports := by rw [State.jrnFlushLost_only]
@[simp] theorem State.jrnFlushLost_tbl (s : State) (i u : Nat) : (s.jrnFlushLost i u).tbl = s.tbl := by rw [State.jrnFlushLost_only]
@[simp] theorem State.jrnFlushLost_frags (s : State) (i u : Nat) : (s.jrnFlushLost i u).frags = s.frags := by rw [State.jrnFlushLost_only]
@[simp] theorem State.jrnFlushLost_brg (s : State) (i u : Nat) : (s.jrnFlushLost i u).brg = s.brg := by rw [State.jrnFlushLost_only]
@[simp] theorem State.jrnFlushLost_gv (s : State) (i u : Nat) : (s.jrnFlushLost i u).gv = s.gv := by rw [State.jrnFlushLost_only]
@[simp] theorem State.jrnFlushLost_gr (s : State) (i u : Nat) : (s.jrnFlushLost i u).gr = s.gr := by rw [State.jrnFlushLost_only]
@[simp] theorem State.jrnFlushLost_recircQ (s : State) (i u : Nat) : (s.jrnFlushLost i u).recircQ = s.recircQ := by rw [State.jrnFlushLost_only]
@[simp] theorem State.jrnFlushLost_rs (s : State) (i u : Nat) : (s.jrnFlushLost i u).rs = s.rs := by rw [State.jrnFlushLost_only]
@[simp] theorem State.jrnFlushLost_twig (s : State) (i u : Nat) : (s.jrnFlushLost i u).twig = s.twig := by rw [State.jrnFlushLost_only]
@[simp] theorem State.jrnFlushLost_rts0 (s : State) (i u : Nat) : (s.jrnFlushLost i u).rts0 = s.rts0 := by rw [State.jrnFlushLost_only]
@[simp] theorem State.jrnFlushLost_rts1 (s : State) (i u : Nat) : (s.jrnFlushLost i u).rts1 = s.rts1 := by rw [State.jrnFlushLost_only]
@[simp] theorem State.jrnFlushLost_ecc (s : State) (i u : Nat) : (s.jrnFlushLost i u).ecc = s.ecc := by rw [State.jrnFlushLost_only]
@[simp] theorem State.jrnFlushLost_rx (s : State) (i u : Nat) : (s.jrnFlushLost i u).rx = s.rx := by rw [State.jrnFlushLost_only]
@[simp] theorem State.jrnFlushLost_pkts (s : State) (i u : Nat) : (s.jrnFlushLost i u).pkts = s.pkts := by rw [State.jrnFlushLost_only]
@[simp] theorem State.jrnFlushLost_bufs (s : State) (i u : Nat) : (s.jrnFlushLost i u).bufs = s.bufs := by rw [State.jrnFlushLost_only]
@[simp] theorem State.jrnFlushLost_freedTags (s : State) (i u : Nat) : (s.jrnFlushLost i u).freedTags = s.freedTags := by rw [State.jrnFlushLost_only]
@[simp] theorem State.jrnFlushLost_freedBufs (s : State) (i u : Nat) : (s.jrnFlushLost i u).freedBufs = s.freedBufs := by rw [State.jrnFlushLost_only]
@[simp] theorem State.jrnFlushLost_nextRel (s : State) (i u : Nat) : (s.jrnFlushLost i u).nextRel = s.nextRel := by rw [State.jrnFlushLost_only]
@[simp] theorem State.jrnFlushLost_turns (s : State) (i u : Nat) : (s.jrnFlushLost i u).turns = s.turns := by rw [State.jrnFlushLost_only]
@[simp] theorem State.jrnFlushLost_copies (s : State) (i u : Nat) : (s.jrnFlushLost i u).copies = s.copies := by rw [State.jrnFlushLost_only]
@[simp] theorem State.jrnFlushLost_nextCopy (s : State) (i u : Nat) : (s.jrnFlushLost i u).nextCopy = s.nextCopy := by rw [State.jrnFlushLost_only]
@[simp] theorem State.jrnFlushLost_nextOrd (s : State) (i u : Nat) : (s.jrnFlushLost i u).nextOrd = s.nextOrd := by rw [State.jrnFlushLost_only]
@[simp] theorem State.jrnFlushLost_shares (s : State) (i u : Nat) : (s.jrnFlushLost i u).shares = s.shares := by rw [State.jrnFlushLost_only]
@[simp] theorem State.jrnFlushLost_qs (s : State) (i u : Nat) : (s.jrnFlushLost i u).qs = s.qs := by rw [State.jrnFlushLost_only]
@[simp] theorem State.jrnFlushLost_tmPorts (s : State) (i u : Nat) : (s.jrnFlushLost i u).tmPorts = s.tmPorts := by rw [State.jrnFlushLost_only]
@[simp] theorem State.jrnFlushLost_refillAt (s : State) (i u : Nat) : (s.jrnFlushLost i u).refillAt = s.refillAt := by rw [State.jrnFlushLost_only]
@[simp] theorem State.jrnFlushLost_txLast (s : State) (i u : Nat) : (s.jrnFlushLost i u).txLast = s.txLast := by rw [State.jrnFlushLost_only]
@[simp] theorem State.jrnFlushLost_svn (s : State) (i u : Nat) : (s.jrnFlushLost i u).svn = s.svn := by rw [State.jrnFlushLost_only]
@[simp] theorem State.jrnFlushLost_pcie (s : State) (i u : Nat) : (s.jrnFlushLost i u).pcie = s.pcie := by rw [State.jrnFlushLost_only]
@[simp] theorem State.jrnFlushLost_trk (s : State) (i u : Nat) : (s.jrnFlushLost i u).trk = s.trk := by rw [State.jrnFlushLost_only]
@[simp] theorem State.jrnFlushLost_sw (s : State) (i u : Nat) : (s.jrnFlushLost i u).sw = s.sw := by rw [State.jrnFlushLost_only]
@[simp] theorem State.jrnFlushLost_obs (s : State) (i u : Nat) : (s.jrnFlushLost i u).obs = s.obs := by rw [State.jrnFlushLost_only]

@[simp] theorem State.journalRec_pending (s : State) (i : Nat) (r : JRec) : (s.journalRec i r).pending = s.pending := by rw [State.journalRec_only]
@[simp] theorem State.journalRec_free (s : State) (i : Nat) (r : JRec) : (s.journalRec i r).free = s.free := by rw [State.journalRec_only]
@[simp] theorem State.journalRec_time (s : State) (i : Nat) (r : JRec) : (s.journalRec i r).time = s.time := by rw [State.journalRec_only]
@[simp] theorem State.journalRec_rst (s : State) (i : Nat) (r : JRec) : (s.journalRec i r).rst = s.rst := by rw [State.journalRec_only]
@[simp] theorem State.journalRec_clk (s : State) (i : Nat) (r : JRec) : (s.journalRec i r).clk = s.clk := by rw [State.journalRec_only]
@[simp] theorem State.journalRec_tj (s : State) (i : Nat) (r : JRec) : (s.journalRec i r).tj = s.tj := by rw [State.journalRec_only]
@[simp] theorem State.journalRec_jtag (s : State) (i : Nat) (r : JRec) : (s.journalRec i r).jtag = s.jtag := by rw [State.journalRec_only]
@[simp] theorem State.journalRec_lastRead (s : State) (i : Nat) (r : JRec) : (s.journalRec i r).lastRead = s.lastRead := by rw [State.journalRec_only]
@[simp] theorem State.journalRec_ports (s : State) (i : Nat) (r : JRec) : (s.journalRec i r).ports = s.ports := by rw [State.journalRec_only]
@[simp] theorem State.journalRec_tbl (s : State) (i : Nat) (r : JRec) : (s.journalRec i r).tbl = s.tbl := by rw [State.journalRec_only]
@[simp] theorem State.journalRec_frags (s : State) (i : Nat) (r : JRec) : (s.journalRec i r).frags = s.frags := by rw [State.journalRec_only]
@[simp] theorem State.journalRec_brg (s : State) (i : Nat) (r : JRec) : (s.journalRec i r).brg = s.brg := by rw [State.journalRec_only]
@[simp] theorem State.journalRec_gv (s : State) (i : Nat) (r : JRec) : (s.journalRec i r).gv = s.gv := by rw [State.journalRec_only]
@[simp] theorem State.journalRec_gr (s : State) (i : Nat) (r : JRec) : (s.journalRec i r).gr = s.gr := by rw [State.journalRec_only]
@[simp] theorem State.journalRec_recircQ (s : State) (i : Nat) (r : JRec) : (s.journalRec i r).recircQ = s.recircQ := by rw [State.journalRec_only]
@[simp] theorem State.journalRec_rs (s : State) (i : Nat) (r : JRec) : (s.journalRec i r).rs = s.rs := by rw [State.journalRec_only]
@[simp] theorem State.journalRec_twig (s : State) (i : Nat) (r : JRec) : (s.journalRec i r).twig = s.twig := by rw [State.journalRec_only]
@[simp] theorem State.journalRec_rts0 (s : State) (i : Nat) (r : JRec) : (s.journalRec i r).rts0 = s.rts0 := by rw [State.journalRec_only]
@[simp] theorem State.journalRec_rts1 (s : State) (i : Nat) (r : JRec) : (s.journalRec i r).rts1 = s.rts1 := by rw [State.journalRec_only]
@[simp] theorem State.journalRec_ecc (s : State) (i : Nat) (r : JRec) : (s.journalRec i r).ecc = s.ecc := by rw [State.journalRec_only]
@[simp] theorem State.journalRec_rx (s : State) (i : Nat) (r : JRec) : (s.journalRec i r).rx = s.rx := by rw [State.journalRec_only]
@[simp] theorem State.journalRec_pkts (s : State) (i : Nat) (r : JRec) : (s.journalRec i r).pkts = s.pkts := by rw [State.journalRec_only]
@[simp] theorem State.journalRec_bufs (s : State) (i : Nat) (r : JRec) : (s.journalRec i r).bufs = s.bufs := by rw [State.journalRec_only]
@[simp] theorem State.journalRec_freedTags (s : State) (i : Nat) (r : JRec) : (s.journalRec i r).freedTags = s.freedTags := by rw [State.journalRec_only]
@[simp] theorem State.journalRec_freedBufs (s : State) (i : Nat) (r : JRec) : (s.journalRec i r).freedBufs = s.freedBufs := by rw [State.journalRec_only]
@[simp] theorem State.journalRec_nextRel (s : State) (i : Nat) (r : JRec) : (s.journalRec i r).nextRel = s.nextRel := by rw [State.journalRec_only]
@[simp] theorem State.journalRec_turns (s : State) (i : Nat) (r : JRec) : (s.journalRec i r).turns = s.turns := by rw [State.journalRec_only]
@[simp] theorem State.journalRec_copies (s : State) (i : Nat) (r : JRec) : (s.journalRec i r).copies = s.copies := by rw [State.journalRec_only]
@[simp] theorem State.journalRec_nextCopy (s : State) (i : Nat) (r : JRec) : (s.journalRec i r).nextCopy = s.nextCopy := by rw [State.journalRec_only]
@[simp] theorem State.journalRec_nextOrd (s : State) (i : Nat) (r : JRec) : (s.journalRec i r).nextOrd = s.nextOrd := by rw [State.journalRec_only]
@[simp] theorem State.journalRec_shares (s : State) (i : Nat) (r : JRec) : (s.journalRec i r).shares = s.shares := by rw [State.journalRec_only]
@[simp] theorem State.journalRec_qs (s : State) (i : Nat) (r : JRec) : (s.journalRec i r).qs = s.qs := by rw [State.journalRec_only]
@[simp] theorem State.journalRec_tmPorts (s : State) (i : Nat) (r : JRec) : (s.journalRec i r).tmPorts = s.tmPorts := by rw [State.journalRec_only]
@[simp] theorem State.journalRec_refillAt (s : State) (i : Nat) (r : JRec) : (s.journalRec i r).refillAt = s.refillAt := by rw [State.journalRec_only]
@[simp] theorem State.journalRec_txLast (s : State) (i : Nat) (r : JRec) : (s.journalRec i r).txLast = s.txLast := by rw [State.journalRec_only]
@[simp] theorem State.journalRec_svn (s : State) (i : Nat) (r : JRec) : (s.journalRec i r).svn = s.svn := by rw [State.journalRec_only]
@[simp] theorem State.journalRec_pcie (s : State) (i : Nat) (r : JRec) : (s.journalRec i r).pcie = s.pcie := by rw [State.journalRec_only]
@[simp] theorem State.journalRec_trk (s : State) (i : Nat) (r : JRec) : (s.journalRec i r).trk = s.trk := by rw [State.journalRec_only]
@[simp] theorem State.journalRec_sw (s : State) (i : Nat) (r : JRec) : (s.journalRec i r).sw = s.sw := by rw [State.journalRec_only]
@[simp] theorem State.journalRec_obs (s : State) (i : Nat) (r : JRec) : (s.journalRec i r).obs = s.obs := by rw [State.journalRec_only]

@[simp] theorem State.journal_pending (s : State) (i ty u : Nat) (b : List Byte) : (s.journal i ty u b).pending = s.pending := by unfold State.journal; simp
@[simp] theorem State.journal_free (s : State) (i ty u : Nat) (b : List Byte) : (s.journal i ty u b).free = s.free := by unfold State.journal; simp
@[simp] theorem State.journal_time (s : State) (i ty u : Nat) (b : List Byte) : (s.journal i ty u b).time = s.time := by unfold State.journal; simp
@[simp] theorem State.journal_rst (s : State) (i ty u : Nat) (b : List Byte) : (s.journal i ty u b).rst = s.rst := by unfold State.journal; simp
@[simp] theorem State.journal_clk (s : State) (i ty u : Nat) (b : List Byte) : (s.journal i ty u b).clk = s.clk := by unfold State.journal; simp
@[simp] theorem State.journal_tj (s : State) (i ty u : Nat) (b : List Byte) : (s.journal i ty u b).tj = s.tj := by unfold State.journal; simp
@[simp] theorem State.journal_jtag (s : State) (i ty u : Nat) (b : List Byte) : (s.journal i ty u b).jtag = s.jtag := by unfold State.journal; simp
@[simp] theorem State.journal_lastRead (s : State) (i ty u : Nat) (b : List Byte) : (s.journal i ty u b).lastRead = s.lastRead := by unfold State.journal; simp
@[simp] theorem State.journal_ports (s : State) (i ty u : Nat) (b : List Byte) : (s.journal i ty u b).ports = s.ports := by unfold State.journal; simp
@[simp] theorem State.journal_tbl (s : State) (i ty u : Nat) (b : List Byte) : (s.journal i ty u b).tbl = s.tbl := by unfold State.journal; simp
@[simp] theorem State.journal_frags (s : State) (i ty u : Nat) (b : List Byte) : (s.journal i ty u b).frags = s.frags := by unfold State.journal; simp
@[simp] theorem State.journal_brg (s : State) (i ty u : Nat) (b : List Byte) : (s.journal i ty u b).brg = s.brg := by unfold State.journal; simp
@[simp] theorem State.journal_gv (s : State) (i ty u : Nat) (b : List Byte) : (s.journal i ty u b).gv = s.gv := by unfold State.journal; simp
@[simp] theorem State.journal_gr (s : State) (i ty u : Nat) (b : List Byte) : (s.journal i ty u b).gr = s.gr := by unfold State.journal; simp
@[simp] theorem State.journal_recircQ (s : State) (i ty u : Nat) (b : List Byte) : (s.journal i ty u b).recircQ = s.recircQ := by unfold State.journal; simp
@[simp] theorem State.journal_rs (s : State) (i ty u : Nat) (b : List Byte) : (s.journal i ty u b).rs = s.rs := by unfold State.journal; simp
@[simp] theorem State.journal_twig (s : State) (i ty u : Nat) (b : List Byte) : (s.journal i ty u b).twig = s.twig := by unfold State.journal; simp
@[simp] theorem State.journal_rts0 (s : State) (i ty u : Nat) (b : List Byte) : (s.journal i ty u b).rts0 = s.rts0 := by unfold State.journal; simp
@[simp] theorem State.journal_rts1 (s : State) (i ty u : Nat) (b : List Byte) : (s.journal i ty u b).rts1 = s.rts1 := by unfold State.journal; simp
@[simp] theorem State.journal_ecc (s : State) (i ty u : Nat) (b : List Byte) : (s.journal i ty u b).ecc = s.ecc := by unfold State.journal; simp
@[simp] theorem State.journal_rx (s : State) (i ty u : Nat) (b : List Byte) : (s.journal i ty u b).rx = s.rx := by unfold State.journal; simp
@[simp] theorem State.journal_pkts (s : State) (i ty u : Nat) (b : List Byte) : (s.journal i ty u b).pkts = s.pkts := by unfold State.journal; simp
@[simp] theorem State.journal_bufs (s : State) (i ty u : Nat) (b : List Byte) : (s.journal i ty u b).bufs = s.bufs := by unfold State.journal; simp
@[simp] theorem State.journal_freedTags (s : State) (i ty u : Nat) (b : List Byte) : (s.journal i ty u b).freedTags = s.freedTags := by unfold State.journal; simp
@[simp] theorem State.journal_freedBufs (s : State) (i ty u : Nat) (b : List Byte) : (s.journal i ty u b).freedBufs = s.freedBufs := by unfold State.journal; simp
@[simp] theorem State.journal_nextRel (s : State) (i ty u : Nat) (b : List Byte) : (s.journal i ty u b).nextRel = s.nextRel := by unfold State.journal; simp
@[simp] theorem State.journal_turns (s : State) (i ty u : Nat) (b : List Byte) : (s.journal i ty u b).turns = s.turns := by unfold State.journal; simp
@[simp] theorem State.journal_copies (s : State) (i ty u : Nat) (b : List Byte) : (s.journal i ty u b).copies = s.copies := by unfold State.journal; simp
@[simp] theorem State.journal_nextCopy (s : State) (i ty u : Nat) (b : List Byte) : (s.journal i ty u b).nextCopy = s.nextCopy := by unfold State.journal; simp
@[simp] theorem State.journal_nextOrd (s : State) (i ty u : Nat) (b : List Byte) : (s.journal i ty u b).nextOrd = s.nextOrd := by unfold State.journal; simp
@[simp] theorem State.journal_shares (s : State) (i ty u : Nat) (b : List Byte) : (s.journal i ty u b).shares = s.shares := by unfold State.journal; simp
@[simp] theorem State.journal_qs (s : State) (i ty u : Nat) (b : List Byte) : (s.journal i ty u b).qs = s.qs := by unfold State.journal; simp
@[simp] theorem State.journal_tmPorts (s : State) (i ty u : Nat) (b : List Byte) : (s.journal i ty u b).tmPorts = s.tmPorts := by unfold State.journal; simp
@[simp] theorem State.journal_refillAt (s : State) (i ty u : Nat) (b : List Byte) : (s.journal i ty u b).refillAt = s.refillAt := by unfold State.journal; simp
@[simp] theorem State.journal_txLast (s : State) (i ty u : Nat) (b : List Byte) : (s.journal i ty u b).txLast = s.txLast := by unfold State.journal; simp
@[simp] theorem State.journal_svn (s : State) (i ty u : Nat) (b : List Byte) : (s.journal i ty u b).svn = s.svn := by unfold State.journal; simp
@[simp] theorem State.journal_pcie (s : State) (i ty u : Nat) (b : List Byte) : (s.journal i ty u b).pcie = s.pcie := by unfold State.journal; simp
@[simp] theorem State.journal_trk (s : State) (i ty u : Nat) (b : List Byte) : (s.journal i ty u b).trk = s.trk := by unfold State.journal; simp
@[simp] theorem State.journal_sw (s : State) (i ty u : Nat) (b : List Byte) : (s.journal i ty u b).sw = s.sw := by unfold State.journal; simp
@[simp] theorem State.journal_obs (s : State) (i ty u : Nat) (b : List Byte) : (s.journal i ty u b).obs = s.obs := by unfold State.journal; simp

@[simp] theorem State.journalAt_pending (s : State) (i ts ty u : Nat) (b : List Byte) : (s.journalAt i ts ty u b).pending = s.pending := by unfold State.journalAt; simp
@[simp] theorem State.journalAt_free (s : State) (i ts ty u : Nat) (b : List Byte) : (s.journalAt i ts ty u b).free = s.free := by unfold State.journalAt; simp
@[simp] theorem State.journalAt_time (s : State) (i ts ty u : Nat) (b : List Byte) : (s.journalAt i ts ty u b).time = s.time := by unfold State.journalAt; simp
@[simp] theorem State.journalAt_rst (s : State) (i ts ty u : Nat) (b : List Byte) : (s.journalAt i ts ty u b).rst = s.rst := by unfold State.journalAt; simp
@[simp] theorem State.journalAt_clk (s : State) (i ts ty u : Nat) (b : List Byte) : (s.journalAt i ts ty u b).clk = s.clk := by unfold State.journalAt; simp
@[simp] theorem State.journalAt_tj (s : State) (i ts ty u : Nat) (b : List Byte) : (s.journalAt i ts ty u b).tj = s.tj := by unfold State.journalAt; simp
@[simp] theorem State.journalAt_jtag (s : State) (i ts ty u : Nat) (b : List Byte) : (s.journalAt i ts ty u b).jtag = s.jtag := by unfold State.journalAt; simp
@[simp] theorem State.journalAt_lastRead (s : State) (i ts ty u : Nat) (b : List Byte) : (s.journalAt i ts ty u b).lastRead = s.lastRead := by unfold State.journalAt; simp
@[simp] theorem State.journalAt_ports (s : State) (i ts ty u : Nat) (b : List Byte) : (s.journalAt i ts ty u b).ports = s.ports := by unfold State.journalAt; simp
@[simp] theorem State.journalAt_tbl (s : State) (i ts ty u : Nat) (b : List Byte) : (s.journalAt i ts ty u b).tbl = s.tbl := by unfold State.journalAt; simp
@[simp] theorem State.journalAt_frags (s : State) (i ts ty u : Nat) (b : List Byte) : (s.journalAt i ts ty u b).frags = s.frags := by unfold State.journalAt; simp
@[simp] theorem State.journalAt_brg (s : State) (i ts ty u : Nat) (b : List Byte) : (s.journalAt i ts ty u b).brg = s.brg := by unfold State.journalAt; simp
@[simp] theorem State.journalAt_gv (s : State) (i ts ty u : Nat) (b : List Byte) : (s.journalAt i ts ty u b).gv = s.gv := by unfold State.journalAt; simp
@[simp] theorem State.journalAt_gr (s : State) (i ts ty u : Nat) (b : List Byte) : (s.journalAt i ts ty u b).gr = s.gr := by unfold State.journalAt; simp
@[simp] theorem State.journalAt_recircQ (s : State) (i ts ty u : Nat) (b : List Byte) : (s.journalAt i ts ty u b).recircQ = s.recircQ := by unfold State.journalAt; simp
@[simp] theorem State.journalAt_rs (s : State) (i ts ty u : Nat) (b : List Byte) : (s.journalAt i ts ty u b).rs = s.rs := by unfold State.journalAt; simp
@[simp] theorem State.journalAt_twig (s : State) (i ts ty u : Nat) (b : List Byte) : (s.journalAt i ts ty u b).twig = s.twig := by unfold State.journalAt; simp
@[simp] theorem State.journalAt_rts0 (s : State) (i ts ty u : Nat) (b : List Byte) : (s.journalAt i ts ty u b).rts0 = s.rts0 := by unfold State.journalAt; simp
@[simp] theorem State.journalAt_rts1 (s : State) (i ts ty u : Nat) (b : List Byte) : (s.journalAt i ts ty u b).rts1 = s.rts1 := by unfold State.journalAt; simp
@[simp] theorem State.journalAt_ecc (s : State) (i ts ty u : Nat) (b : List Byte) : (s.journalAt i ts ty u b).ecc = s.ecc := by unfold State.journalAt; simp
@[simp] theorem State.journalAt_rx (s : State) (i ts ty u : Nat) (b : List Byte) : (s.journalAt i ts ty u b).rx = s.rx := by unfold State.journalAt; simp
@[simp] theorem State.journalAt_pkts (s : State) (i ts ty u : Nat) (b : List Byte) : (s.journalAt i ts ty u b).pkts = s.pkts := by unfold State.journalAt; simp
@[simp] theorem State.journalAt_bufs (s : State) (i ts ty u : Nat) (b : List Byte) : (s.journalAt i ts ty u b).bufs = s.bufs := by unfold State.journalAt; simp
@[simp] theorem State.journalAt_freedTags (s : State) (i ts ty u : Nat) (b : List Byte) : (s.journalAt i ts ty u b).freedTags = s.freedTags := by unfold State.journalAt; simp
@[simp] theorem State.journalAt_freedBufs (s : State) (i ts ty u : Nat) (b : List Byte) : (s.journalAt i ts ty u b).freedBufs = s.freedBufs := by unfold State.journalAt; simp
@[simp] theorem State.journalAt_nextRel (s : State) (i ts ty u : Nat) (b : List Byte) : (s.journalAt i ts ty u b).nextRel = s.nextRel := by unfold State.journalAt; simp
@[simp] theorem State.journalAt_turns (s : State) (i ts ty u : Nat) (b : List Byte) : (s.journalAt i ts ty u b).turns = s.turns := by unfold State.journalAt; simp
@[simp] theorem State.journalAt_copies (s : State) (i ts ty u : Nat) (b : List Byte) : (s.journalAt i ts ty u b).copies = s.copies := by unfold State.journalAt; simp
@[simp] theorem State.journalAt_nextCopy (s : State) (i ts ty u : Nat) (b : List Byte) : (s.journalAt i ts ty u b).nextCopy = s.nextCopy := by unfold State.journalAt; simp
@[simp] theorem State.journalAt_nextOrd (s : State) (i ts ty u : Nat) (b : List Byte) : (s.journalAt i ts ty u b).nextOrd = s.nextOrd := by unfold State.journalAt; simp
@[simp] theorem State.journalAt_shares (s : State) (i ts ty u : Nat) (b : List Byte) : (s.journalAt i ts ty u b).shares = s.shares := by unfold State.journalAt; simp
@[simp] theorem State.journalAt_qs (s : State) (i ts ty u : Nat) (b : List Byte) : (s.journalAt i ts ty u b).qs = s.qs := by unfold State.journalAt; simp
@[simp] theorem State.journalAt_tmPorts (s : State) (i ts ty u : Nat) (b : List Byte) : (s.journalAt i ts ty u b).tmPorts = s.tmPorts := by unfold State.journalAt; simp
@[simp] theorem State.journalAt_refillAt (s : State) (i ts ty u : Nat) (b : List Byte) : (s.journalAt i ts ty u b).refillAt = s.refillAt := by unfold State.journalAt; simp
@[simp] theorem State.journalAt_txLast (s : State) (i ts ty u : Nat) (b : List Byte) : (s.journalAt i ts ty u b).txLast = s.txLast := by unfold State.journalAt; simp
@[simp] theorem State.journalAt_svn (s : State) (i ts ty u : Nat) (b : List Byte) : (s.journalAt i ts ty u b).svn = s.svn := by unfold State.journalAt; simp
@[simp] theorem State.journalAt_pcie (s : State) (i ts ty u : Nat) (b : List Byte) : (s.journalAt i ts ty u b).pcie = s.pcie := by unfold State.journalAt; simp
@[simp] theorem State.journalAt_trk (s : State) (i ts ty u : Nat) (b : List Byte) : (s.journalAt i ts ty u b).trk = s.trk := by unfold State.journalAt; simp
@[simp] theorem State.journalAt_sw (s : State) (i ts ty u : Nat) (b : List Byte) : (s.journalAt i ts ty u b).sw = s.sw := by unfold State.journalAt; simp
@[simp] theorem State.journalAt_obs (s : State) (i ts ty u : Nat) (b : List Byte) : (s.journalAt i ts ty u b).obs = s.obs := by unfold State.journalAt; simp

@[simp] theorem State.journalPkt_pending (s : State) (i ty u : Nat) (k : Bark) (b : List Byte) : (s.journalPkt i ty u k b).pending = s.pending := by unfold State.journalPkt; simp
@[simp] theorem State.journalPkt_free (s : State) (i ty u : Nat) (k : Bark) (b : List Byte) : (s.journalPkt i ty u k b).free = s.free := by unfold State.journalPkt; simp
@[simp] theorem State.journalPkt_time (s : State) (i ty u : Nat) (k : Bark) (b : List Byte) : (s.journalPkt i ty u k b).time = s.time := by unfold State.journalPkt; simp
@[simp] theorem State.journalPkt_rst (s : State) (i ty u : Nat) (k : Bark) (b : List Byte) : (s.journalPkt i ty u k b).rst = s.rst := by unfold State.journalPkt; simp
@[simp] theorem State.journalPkt_clk (s : State) (i ty u : Nat) (k : Bark) (b : List Byte) : (s.journalPkt i ty u k b).clk = s.clk := by unfold State.journalPkt; simp
@[simp] theorem State.journalPkt_tj (s : State) (i ty u : Nat) (k : Bark) (b : List Byte) : (s.journalPkt i ty u k b).tj = s.tj := by unfold State.journalPkt; simp
@[simp] theorem State.journalPkt_jtag (s : State) (i ty u : Nat) (k : Bark) (b : List Byte) : (s.journalPkt i ty u k b).jtag = s.jtag := by unfold State.journalPkt; simp
@[simp] theorem State.journalPkt_lastRead (s : State) (i ty u : Nat) (k : Bark) (b : List Byte) : (s.journalPkt i ty u k b).lastRead = s.lastRead := by unfold State.journalPkt; simp
@[simp] theorem State.journalPkt_ports (s : State) (i ty u : Nat) (k : Bark) (b : List Byte) : (s.journalPkt i ty u k b).ports = s.ports := by unfold State.journalPkt; simp
@[simp] theorem State.journalPkt_tbl (s : State) (i ty u : Nat) (k : Bark) (b : List Byte) : (s.journalPkt i ty u k b).tbl = s.tbl := by unfold State.journalPkt; simp
@[simp] theorem State.journalPkt_frags (s : State) (i ty u : Nat) (k : Bark) (b : List Byte) : (s.journalPkt i ty u k b).frags = s.frags := by unfold State.journalPkt; simp
@[simp] theorem State.journalPkt_brg (s : State) (i ty u : Nat) (k : Bark) (b : List Byte) : (s.journalPkt i ty u k b).brg = s.brg := by unfold State.journalPkt; simp
@[simp] theorem State.journalPkt_gv (s : State) (i ty u : Nat) (k : Bark) (b : List Byte) : (s.journalPkt i ty u k b).gv = s.gv := by unfold State.journalPkt; simp
@[simp] theorem State.journalPkt_gr (s : State) (i ty u : Nat) (k : Bark) (b : List Byte) : (s.journalPkt i ty u k b).gr = s.gr := by unfold State.journalPkt; simp
@[simp] theorem State.journalPkt_recircQ (s : State) (i ty u : Nat) (k : Bark) (b : List Byte) : (s.journalPkt i ty u k b).recircQ = s.recircQ := by unfold State.journalPkt; simp
@[simp] theorem State.journalPkt_rs (s : State) (i ty u : Nat) (k : Bark) (b : List Byte) : (s.journalPkt i ty u k b).rs = s.rs := by unfold State.journalPkt; simp
@[simp] theorem State.journalPkt_twig (s : State) (i ty u : Nat) (k : Bark) (b : List Byte) : (s.journalPkt i ty u k b).twig = s.twig := by unfold State.journalPkt; simp
@[simp] theorem State.journalPkt_rts0 (s : State) (i ty u : Nat) (k : Bark) (b : List Byte) : (s.journalPkt i ty u k b).rts0 = s.rts0 := by unfold State.journalPkt; simp
@[simp] theorem State.journalPkt_rts1 (s : State) (i ty u : Nat) (k : Bark) (b : List Byte) : (s.journalPkt i ty u k b).rts1 = s.rts1 := by unfold State.journalPkt; simp
@[simp] theorem State.journalPkt_ecc (s : State) (i ty u : Nat) (k : Bark) (b : List Byte) : (s.journalPkt i ty u k b).ecc = s.ecc := by unfold State.journalPkt; simp
@[simp] theorem State.journalPkt_rx (s : State) (i ty u : Nat) (k : Bark) (b : List Byte) : (s.journalPkt i ty u k b).rx = s.rx := by unfold State.journalPkt; simp
@[simp] theorem State.journalPkt_pkts (s : State) (i ty u : Nat) (k : Bark) (b : List Byte) : (s.journalPkt i ty u k b).pkts = s.pkts := by unfold State.journalPkt; simp
@[simp] theorem State.journalPkt_bufs (s : State) (i ty u : Nat) (k : Bark) (b : List Byte) : (s.journalPkt i ty u k b).bufs = s.bufs := by unfold State.journalPkt; simp
@[simp] theorem State.journalPkt_freedTags (s : State) (i ty u : Nat) (k : Bark) (b : List Byte) : (s.journalPkt i ty u k b).freedTags = s.freedTags := by unfold State.journalPkt; simp
@[simp] theorem State.journalPkt_freedBufs (s : State) (i ty u : Nat) (k : Bark) (b : List Byte) : (s.journalPkt i ty u k b).freedBufs = s.freedBufs := by unfold State.journalPkt; simp
@[simp] theorem State.journalPkt_nextRel (s : State) (i ty u : Nat) (k : Bark) (b : List Byte) : (s.journalPkt i ty u k b).nextRel = s.nextRel := by unfold State.journalPkt; simp
@[simp] theorem State.journalPkt_turns (s : State) (i ty u : Nat) (k : Bark) (b : List Byte) : (s.journalPkt i ty u k b).turns = s.turns := by unfold State.journalPkt; simp
@[simp] theorem State.journalPkt_copies (s : State) (i ty u : Nat) (k : Bark) (b : List Byte) : (s.journalPkt i ty u k b).copies = s.copies := by unfold State.journalPkt; simp
@[simp] theorem State.journalPkt_nextCopy (s : State) (i ty u : Nat) (k : Bark) (b : List Byte) : (s.journalPkt i ty u k b).nextCopy = s.nextCopy := by unfold State.journalPkt; simp
@[simp] theorem State.journalPkt_nextOrd (s : State) (i ty u : Nat) (k : Bark) (b : List Byte) : (s.journalPkt i ty u k b).nextOrd = s.nextOrd := by unfold State.journalPkt; simp
@[simp] theorem State.journalPkt_shares (s : State) (i ty u : Nat) (k : Bark) (b : List Byte) : (s.journalPkt i ty u k b).shares = s.shares := by unfold State.journalPkt; simp
@[simp] theorem State.journalPkt_qs (s : State) (i ty u : Nat) (k : Bark) (b : List Byte) : (s.journalPkt i ty u k b).qs = s.qs := by unfold State.journalPkt; simp
@[simp] theorem State.journalPkt_tmPorts (s : State) (i ty u : Nat) (k : Bark) (b : List Byte) : (s.journalPkt i ty u k b).tmPorts = s.tmPorts := by unfold State.journalPkt; simp
@[simp] theorem State.journalPkt_refillAt (s : State) (i ty u : Nat) (k : Bark) (b : List Byte) : (s.journalPkt i ty u k b).refillAt = s.refillAt := by unfold State.journalPkt; simp
@[simp] theorem State.journalPkt_txLast (s : State) (i ty u : Nat) (k : Bark) (b : List Byte) : (s.journalPkt i ty u k b).txLast = s.txLast := by unfold State.journalPkt; simp
@[simp] theorem State.journalPkt_svn (s : State) (i ty u : Nat) (k : Bark) (b : List Byte) : (s.journalPkt i ty u k b).svn = s.svn := by unfold State.journalPkt; simp
@[simp] theorem State.journalPkt_pcie (s : State) (i ty u : Nat) (k : Bark) (b : List Byte) : (s.journalPkt i ty u k b).pcie = s.pcie := by unfold State.journalPkt; simp
@[simp] theorem State.journalPkt_trk (s : State) (i ty u : Nat) (k : Bark) (b : List Byte) : (s.journalPkt i ty u k b).trk = s.trk := by unfold State.journalPkt; simp
@[simp] theorem State.journalPkt_sw (s : State) (i ty u : Nat) (k : Bark) (b : List Byte) : (s.journalPkt i ty u k b).sw = s.sw := by unfold State.journalPkt; simp
@[simp] theorem State.journalPkt_obs (s : State) (i ty u : Nat) (k : Bark) (b : List Byte) : (s.journalPkt i ty u k b).obs = s.obs := by unfold State.journalPkt; simp

/-- A fold of changes to some fields changes those fields. -/
theorem foldl_kept {β γ : Type} (g : State → γ) (f : State → β → State) (h : ∀ s b, g (f s b) = g s) (l : List β) (s : State) :
    g (l.foldl f s) = g s := by
  induction l generalizing s with
  | nil => rfl
  | cons b r ih => rw [List.foldl_cons, ih, h]

theorem ite_kept {γ : Type} (g : State → γ) (c : Prop) [Decidable c] (a b : State) (x : γ) (ha : g a = x) (hb : g b = x) :
    g (if c then a else b) = x := by split <;> assumption

theorem State.pmuCount_only (s : State) (k c m m' : Nat) : s.pmuCount k c m m' = { s with obs := (s.pmuCount k c m m').obs } := by
  unfold State.pmuCount; dsimp only; repeat' split
  all_goals rfl

@[simp] theorem State.pmuCount_pending (s : State) (k c m m' : Nat) : (s.pmuCount k c m m').pending = s.pending := (congrArg State.pending (State.pmuCount_only s k c m m') :)
@[simp] theorem State.pmuCount_regs (s : State) (k c m m' : Nat) : (s.pmuCount k c m m').regs = s.regs := (congrArg State.regs (State.pmuCount_only s k c m m') :)
@[simp] theorem State.pmuCount_free (s : State) (k c m m' : Nat) : (s.pmuCount k c m m').free = s.free := (congrArg State.free (State.pmuCount_only s k c m m') :)
@[simp] theorem State.pmuCount_time (s : State) (k c m m' : Nat) : (s.pmuCount k c m m').time = s.time := (congrArg State.time (State.pmuCount_only s k c m m') :)
@[simp] theorem State.pmuCount_rst (s : State) (k c m m' : Nat) : (s.pmuCount k c m m').rst = s.rst := (congrArg State.rst (State.pmuCount_only s k c m m') :)
@[simp] theorem State.pmuCount_clk (s : State) (k c m m' : Nat) : (s.pmuCount k c m m').clk = s.clk := (congrArg State.clk (State.pmuCount_only s k c m m') :)
@[simp] theorem State.pmuCount_tj (s : State) (k c m m' : Nat) : (s.pmuCount k c m m').tj = s.tj := (congrArg State.tj (State.pmuCount_only s k c m m') :)
@[simp] theorem State.pmuCount_jtag (s : State) (k c m m' : Nat) : (s.pmuCount k c m m').jtag = s.jtag := (congrArg State.jtag (State.pmuCount_only s k c m m') :)
@[simp] theorem State.pmuCount_jrn (s : State) (k c m m' : Nat) : (s.pmuCount k c m m').jrn = s.jrn := (congrArg State.jrn (State.pmuCount_only s k c m m') :)
@[simp] theorem State.pmuCount_msi (s : State) (k c m m' : Nat) : (s.pmuCount k c m m').msi = s.msi := (congrArg State.msi (State.pmuCount_only s k c m m') :)
@[simp] theorem State.pmuCount_lastRead (s : State) (k c m m' : Nat) : (s.pmuCount k c m m').lastRead = s.lastRead := (congrArg State.lastRead (State.pmuCount_only s k c m m') :)
@[simp] theorem State.pmuCount_ports (s : State) (k c m m' : Nat) : (s.pmuCount k c m m').ports = s.ports := (congrArg State.ports (State.pmuCount_only s k c m m') :)
@[simp] theorem State.pmuCount_tbl (s : State) (k c m m' : Nat) : (s.pmuCount k c m m').tbl = s.tbl := (congrArg State.tbl (State.pmuCount_only s k c m m') :)
@[simp] theorem State.pmuCount_frags (s : State) (k c m m' : Nat) : (s.pmuCount k c m m').frags = s.frags := (congrArg State.frags (State.pmuCount_only s k c m m') :)
@[simp] theorem State.pmuCount_brg (s : State) (k c m m' : Nat) : (s.pmuCount k c m m').brg = s.brg := (congrArg State.brg (State.pmuCount_only s k c m m') :)
@[simp] theorem State.pmuCount_gv (s : State) (k c m m' : Nat) : (s.pmuCount k c m m').gv = s.gv := (congrArg State.gv (State.pmuCount_only s k c m m') :)
@[simp] theorem State.pmuCount_gr (s : State) (k c m m' : Nat) : (s.pmuCount k c m m').gr = s.gr := (congrArg State.gr (State.pmuCount_only s k c m m') :)
@[simp] theorem State.pmuCount_recircQ (s : State) (k c m m' : Nat) : (s.pmuCount k c m m').recircQ = s.recircQ := (congrArg State.recircQ (State.pmuCount_only s k c m m') :)
@[simp] theorem State.pmuCount_rs (s : State) (k c m m' : Nat) : (s.pmuCount k c m m').rs = s.rs := (congrArg State.rs (State.pmuCount_only s k c m m') :)
@[simp] theorem State.pmuCount_twig (s : State) (k c m m' : Nat) : (s.pmuCount k c m m').twig = s.twig := (congrArg State.twig (State.pmuCount_only s k c m m') :)
@[simp] theorem State.pmuCount_rts0 (s : State) (k c m m' : Nat) : (s.pmuCount k c m m').rts0 = s.rts0 := (congrArg State.rts0 (State.pmuCount_only s k c m m') :)
@[simp] theorem State.pmuCount_rts1 (s : State) (k c m m' : Nat) : (s.pmuCount k c m m').rts1 = s.rts1 := (congrArg State.rts1 (State.pmuCount_only s k c m m') :)
@[simp] theorem State.pmuCount_ecc (s : State) (k c m m' : Nat) : (s.pmuCount k c m m').ecc = s.ecc := (congrArg State.ecc (State.pmuCount_only s k c m m') :)
@[simp] theorem State.pmuCount_rx (s : State) (k c m m' : Nat) : (s.pmuCount k c m m').rx = s.rx := (congrArg State.rx (State.pmuCount_only s k c m m') :)
@[simp] theorem State.pmuCount_pkts (s : State) (k c m m' : Nat) : (s.pmuCount k c m m').pkts = s.pkts := (congrArg State.pkts (State.pmuCount_only s k c m m') :)
@[simp] theorem State.pmuCount_bufs (s : State) (k c m m' : Nat) : (s.pmuCount k c m m').bufs = s.bufs := (congrArg State.bufs (State.pmuCount_only s k c m m') :)
@[simp] theorem State.pmuCount_freedTags (s : State) (k c m m' : Nat) : (s.pmuCount k c m m').freedTags = s.freedTags := (congrArg State.freedTags (State.pmuCount_only s k c m m') :)
@[simp] theorem State.pmuCount_freedBufs (s : State) (k c m m' : Nat) : (s.pmuCount k c m m').freedBufs = s.freedBufs := (congrArg State.freedBufs (State.pmuCount_only s k c m m') :)
@[simp] theorem State.pmuCount_nextRel (s : State) (k c m m' : Nat) : (s.pmuCount k c m m').nextRel = s.nextRel := (congrArg State.nextRel (State.pmuCount_only s k c m m') :)
@[simp] theorem State.pmuCount_turns (s : State) (k c m m' : Nat) : (s.pmuCount k c m m').turns = s.turns := (congrArg State.turns (State.pmuCount_only s k c m m') :)
@[simp] theorem State.pmuCount_copies (s : State) (k c m m' : Nat) : (s.pmuCount k c m m').copies = s.copies := (congrArg State.copies (State.pmuCount_only s k c m m') :)
@[simp] theorem State.pmuCount_nextCopy (s : State) (k c m m' : Nat) : (s.pmuCount k c m m').nextCopy = s.nextCopy := (congrArg State.nextCopy (State.pmuCount_only s k c m m') :)
@[simp] theorem State.pmuCount_nextOrd (s : State) (k c m m' : Nat) : (s.pmuCount k c m m').nextOrd = s.nextOrd := (congrArg State.nextOrd (State.pmuCount_only s k c m m') :)
@[simp] theorem State.pmuCount_shares (s : State) (k c m m' : Nat) : (s.pmuCount k c m m').shares = s.shares := (congrArg State.shares (State.pmuCount_only s k c m m') :)
@[simp] theorem State.pmuCount_qs (s : State) (k c m m' : Nat) : (s.pmuCount k c m m').qs = s.qs := (congrArg State.qs (State.pmuCount_only s k c m m') :)
@[simp] theorem State.pmuCount_tmPorts (s : State) (k c m m' : Nat) : (s.pmuCount k c m m').tmPorts = s.tmPorts := (congrArg State.tmPorts (State.pmuCount_only s k c m m') :)
@[simp] theorem State.pmuCount_refillAt (s : State) (k c m m' : Nat) : (s.pmuCount k c m m').refillAt = s.refillAt := (congrArg State.refillAt (State.pmuCount_only s k c m m') :)
@[simp] theorem State.pmuCount_txLast (s : State) (k c m m' : Nat) : (s.pmuCount k c m m').txLast = s.txLast := (congrArg State.txLast (State.pmuCount_only s k c m m') :)
@[simp] theorem State.pmuCount_svn (s : State) (k c m m' : Nat) : (s.pmuCount k c m m').svn = s.svn := (congrArg State.svn (State.pmuCount_only s k c m m') :)
@[simp] theorem State.pmuCount_pcie (s : State) (k c m m' : Nat) : (s.pmuCount k c m m').pcie = s.pcie := (congrArg State.pcie (State.pmuCount_only s k c m m') :)
@[simp] theorem State.pmuCount_trk (s : State) (k c m m' : Nat) : (s.pmuCount k c m m').trk = s.trk := (congrArg State.trk (State.pmuCount_only s k c m m') :)
@[simp] theorem State.pmuCount_sw (s : State) (k c m m' : Nat) : (s.pmuCount k c m m').sw = s.sw := (congrArg State.sw (State.pmuCount_only s k c m m') :)

@[simp] theorem State.pmuTick_pending (s : State) (m m' : Nat) : (s.pmuTick m m').pending = s.pending := by
  unfold State.pmuTick; exact foldl_kept State.pending _ (by intro s e; split <;> simp only [State.pmuCount_pending]) _ _
@[simp] theorem State.pmuTick_regs (s : State) (m m' : Nat) : (s.pmuTick m m').regs = s.regs := by
  unfold State.pmuTick; exact foldl_kept State.regs _ (by intro s e; split <;> simp only [State.pmuCount_regs]) _ _
@[simp] theorem State.pmuTick_free (s : State) (m m' : Nat) : (s.pmuTick m m').free = s.free := by
  unfold State.pmuTick; exact foldl_kept State.free _ (by intro s e; split <;> simp only [State.pmuCount_free]) _ _
@[simp] theorem State.pmuTick_time (s : State) (m m' : Nat) : (s.pmuTick m m').time = s.time := by
  unfold State.pmuTick; exact foldl_kept State.time _ (by intro s e; split <;> simp only [State.pmuCount_time]) _ _
@[simp] theorem State.pmuTick_rst (s : State) (m m' : Nat) : (s.pmuTick m m').rst = s.rst := by
  unfold State.pmuTick; exact foldl_kept State.rst _ (by intro s e; split <;> simp only [State.pmuCount_rst]) _ _
@[simp] theorem State.pmuTick_clk (s : State) (m m' : Nat) : (s.pmuTick m m').clk = s.clk := by
  unfold State.pmuTick; exact foldl_kept State.clk _ (by intro s e; split <;> simp only [State.pmuCount_clk]) _ _
@[simp] theorem State.pmuTick_tj (s : State) (m m' : Nat) : (s.pmuTick m m').tj = s.tj := by
  unfold State.pmuTick; exact foldl_kept State.tj _ (by intro s e; split <;> simp only [State.pmuCount_tj]) _ _
@[simp] theorem State.pmuTick_jtag (s : State) (m m' : Nat) : (s.pmuTick m m').jtag = s.jtag := by
  unfold State.pmuTick; exact foldl_kept State.jtag _ (by intro s e; split <;> simp only [State.pmuCount_jtag]) _ _
@[simp] theorem State.pmuTick_jrn (s : State) (m m' : Nat) : (s.pmuTick m m').jrn = s.jrn := by
  unfold State.pmuTick; exact foldl_kept State.jrn _ (by intro s e; split <;> simp only [State.pmuCount_jrn]) _ _
@[simp] theorem State.pmuTick_msi (s : State) (m m' : Nat) : (s.pmuTick m m').msi = s.msi := by
  unfold State.pmuTick; exact foldl_kept State.msi _ (by intro s e; split <;> simp only [State.pmuCount_msi]) _ _
@[simp] theorem State.pmuTick_lastRead (s : State) (m m' : Nat) : (s.pmuTick m m').lastRead = s.lastRead := by
  unfold State.pmuTick; exact foldl_kept State.lastRead _ (by intro s e; split <;> simp only [State.pmuCount_lastRead]) _ _
@[simp] theorem State.pmuTick_ports (s : State) (m m' : Nat) : (s.pmuTick m m').ports = s.ports := by
  unfold State.pmuTick; exact foldl_kept State.ports _ (by intro s e; split <;> simp only [State.pmuCount_ports]) _ _
@[simp] theorem State.pmuTick_tbl (s : State) (m m' : Nat) : (s.pmuTick m m').tbl = s.tbl := by
  unfold State.pmuTick; exact foldl_kept State.tbl _ (by intro s e; split <;> simp only [State.pmuCount_tbl]) _ _
@[simp] theorem State.pmuTick_frags (s : State) (m m' : Nat) : (s.pmuTick m m').frags = s.frags := by
  unfold State.pmuTick; exact foldl_kept State.frags _ (by intro s e; split <;> simp only [State.pmuCount_frags]) _ _
@[simp] theorem State.pmuTick_brg (s : State) (m m' : Nat) : (s.pmuTick m m').brg = s.brg := by
  unfold State.pmuTick; exact foldl_kept State.brg _ (by intro s e; split <;> simp only [State.pmuCount_brg]) _ _
@[simp] theorem State.pmuTick_gv (s : State) (m m' : Nat) : (s.pmuTick m m').gv = s.gv := by
  unfold State.pmuTick; exact foldl_kept State.gv _ (by intro s e; split <;> simp only [State.pmuCount_gv]) _ _
@[simp] theorem State.pmuTick_gr (s : State) (m m' : Nat) : (s.pmuTick m m').gr = s.gr := by
  unfold State.pmuTick; exact foldl_kept State.gr _ (by intro s e; split <;> simp only [State.pmuCount_gr]) _ _
@[simp] theorem State.pmuTick_recircQ (s : State) (m m' : Nat) : (s.pmuTick m m').recircQ = s.recircQ := by
  unfold State.pmuTick; exact foldl_kept State.recircQ _ (by intro s e; split <;> simp only [State.pmuCount_recircQ]) _ _
@[simp] theorem State.pmuTick_rs (s : State) (m m' : Nat) : (s.pmuTick m m').rs = s.rs := by
  unfold State.pmuTick; exact foldl_kept State.rs _ (by intro s e; split <;> simp only [State.pmuCount_rs]) _ _
@[simp] theorem State.pmuTick_twig (s : State) (m m' : Nat) : (s.pmuTick m m').twig = s.twig := by
  unfold State.pmuTick; exact foldl_kept State.twig _ (by intro s e; split <;> simp only [State.pmuCount_twig]) _ _
@[simp] theorem State.pmuTick_rts0 (s : State) (m m' : Nat) : (s.pmuTick m m').rts0 = s.rts0 := by
  unfold State.pmuTick; exact foldl_kept State.rts0 _ (by intro s e; split <;> simp only [State.pmuCount_rts0]) _ _
@[simp] theorem State.pmuTick_rts1 (s : State) (m m' : Nat) : (s.pmuTick m m').rts1 = s.rts1 := by
  unfold State.pmuTick; exact foldl_kept State.rts1 _ (by intro s e; split <;> simp only [State.pmuCount_rts1]) _ _
@[simp] theorem State.pmuTick_ecc (s : State) (m m' : Nat) : (s.pmuTick m m').ecc = s.ecc := by
  unfold State.pmuTick; exact foldl_kept State.ecc _ (by intro s e; split <;> simp only [State.pmuCount_ecc]) _ _
@[simp] theorem State.pmuTick_rx (s : State) (m m' : Nat) : (s.pmuTick m m').rx = s.rx := by
  unfold State.pmuTick; exact foldl_kept State.rx _ (by intro s e; split <;> simp only [State.pmuCount_rx]) _ _
@[simp] theorem State.pmuTick_pkts (s : State) (m m' : Nat) : (s.pmuTick m m').pkts = s.pkts := by
  unfold State.pmuTick; exact foldl_kept State.pkts _ (by intro s e; split <;> simp only [State.pmuCount_pkts]) _ _
@[simp] theorem State.pmuTick_bufs (s : State) (m m' : Nat) : (s.pmuTick m m').bufs = s.bufs := by
  unfold State.pmuTick; exact foldl_kept State.bufs _ (by intro s e; split <;> simp only [State.pmuCount_bufs]) _ _
@[simp] theorem State.pmuTick_freedTags (s : State) (m m' : Nat) : (s.pmuTick m m').freedTags = s.freedTags := by
  unfold State.pmuTick; exact foldl_kept State.freedTags _ (by intro s e; split <;> simp only [State.pmuCount_freedTags]) _ _
@[simp] theorem State.pmuTick_freedBufs (s : State) (m m' : Nat) : (s.pmuTick m m').freedBufs = s.freedBufs := by
  unfold State.pmuTick; exact foldl_kept State.freedBufs _ (by intro s e; split <;> simp only [State.pmuCount_freedBufs]) _ _
@[simp] theorem State.pmuTick_nextRel (s : State) (m m' : Nat) : (s.pmuTick m m').nextRel = s.nextRel := by
  unfold State.pmuTick; exact foldl_kept State.nextRel _ (by intro s e; split <;> simp only [State.pmuCount_nextRel]) _ _
@[simp] theorem State.pmuTick_turns (s : State) (m m' : Nat) : (s.pmuTick m m').turns = s.turns := by
  unfold State.pmuTick; exact foldl_kept State.turns _ (by intro s e; split <;> simp only [State.pmuCount_turns]) _ _
@[simp] theorem State.pmuTick_copies (s : State) (m m' : Nat) : (s.pmuTick m m').copies = s.copies := by
  unfold State.pmuTick; exact foldl_kept State.copies _ (by intro s e; split <;> simp only [State.pmuCount_copies]) _ _
@[simp] theorem State.pmuTick_nextCopy (s : State) (m m' : Nat) : (s.pmuTick m m').nextCopy = s.nextCopy := by
  unfold State.pmuTick; exact foldl_kept State.nextCopy _ (by intro s e; split <;> simp only [State.pmuCount_nextCopy]) _ _
@[simp] theorem State.pmuTick_nextOrd (s : State) (m m' : Nat) : (s.pmuTick m m').nextOrd = s.nextOrd := by
  unfold State.pmuTick; exact foldl_kept State.nextOrd _ (by intro s e; split <;> simp only [State.pmuCount_nextOrd]) _ _
@[simp] theorem State.pmuTick_shares (s : State) (m m' : Nat) : (s.pmuTick m m').shares = s.shares := by
  unfold State.pmuTick; exact foldl_kept State.shares _ (by intro s e; split <;> simp only [State.pmuCount_shares]) _ _
@[simp] theorem State.pmuTick_qs (s : State) (m m' : Nat) : (s.pmuTick m m').qs = s.qs := by
  unfold State.pmuTick; exact foldl_kept State.qs _ (by intro s e; split <;> simp only [State.pmuCount_qs]) _ _
@[simp] theorem State.pmuTick_tmPorts (s : State) (m m' : Nat) : (s.pmuTick m m').tmPorts = s.tmPorts := by
  unfold State.pmuTick; exact foldl_kept State.tmPorts _ (by intro s e; split <;> simp only [State.pmuCount_tmPorts]) _ _
@[simp] theorem State.pmuTick_refillAt (s : State) (m m' : Nat) : (s.pmuTick m m').refillAt = s.refillAt := by
  unfold State.pmuTick; exact foldl_kept State.refillAt _ (by intro s e; split <;> simp only [State.pmuCount_refillAt]) _ _
@[simp] theorem State.pmuTick_txLast (s : State) (m m' : Nat) : (s.pmuTick m m').txLast = s.txLast := by
  unfold State.pmuTick; exact foldl_kept State.txLast _ (by intro s e; split <;> simp only [State.pmuCount_txLast]) _ _
@[simp] theorem State.pmuTick_svn (s : State) (m m' : Nat) : (s.pmuTick m m').svn = s.svn := by
  unfold State.pmuTick; exact foldl_kept State.svn _ (by intro s e; split <;> simp only [State.pmuCount_svn]) _ _
@[simp] theorem State.pmuTick_pcie (s : State) (m m' : Nat) : (s.pmuTick m m').pcie = s.pcie := by
  unfold State.pmuTick; exact foldl_kept State.pcie _ (by intro s e; split <;> simp only [State.pmuCount_pcie]) _ _
@[simp] theorem State.pmuTick_trk (s : State) (m m' : Nat) : (s.pmuTick m m').trk = s.trk := by
  unfold State.pmuTick; exact foldl_kept State.trk _ (by intro s e; split <;> simp only [State.pmuCount_trk]) _ _
@[simp] theorem State.pmuTick_sw (s : State) (m m' : Nat) : (s.pmuTick m m').sw = s.sw := by
  unfold State.pmuTick; exact foldl_kept State.sw _ (by intro s e; split <;> simp only [State.pmuCount_sw]) _ _

@[simp] theorem State.backpress_pending (s : State) (c n : Nat) : (s.backpress c n).pending = s.pending := by unfold State.backpress; exact ite_kept State.pending _ _ _ _ rfl rfl
@[simp] theorem State.backpress_free (s : State) (c n : Nat) : (s.backpress c n).free = s.free := by unfold State.backpress; exact ite_kept State.free _ _ _ _ rfl rfl
@[simp] theorem State.backpress_time (s : State) (c n : Nat) : (s.backpress c n).time = s.time := by unfold State.backpress; exact ite_kept State.time _ _ _ _ rfl rfl
@[simp] theorem State.backpress_rst (s : State) (c n : Nat) : (s.backpress c n).rst = s.rst := by unfold State.backpress; exact ite_kept State.rst _ _ _ _ rfl rfl
@[simp] theorem State.backpress_clk (s : State) (c n : Nat) : (s.backpress c n).clk = s.clk := by unfold State.backpress; exact ite_kept State.clk _ _ _ _ rfl rfl
@[simp] theorem State.backpress_tj (s : State) (c n : Nat) : (s.backpress c n).tj = s.tj := by unfold State.backpress; exact ite_kept State.tj _ _ _ _ rfl rfl
@[simp] theorem State.backpress_jtag (s : State) (c n : Nat) : (s.backpress c n).jtag = s.jtag := by unfold State.backpress; exact ite_kept State.jtag _ _ _ _ rfl rfl
@[simp] theorem State.backpress_jrn (s : State) (c n : Nat) : (s.backpress c n).jrn = s.jrn := by unfold State.backpress; exact ite_kept State.jrn _ _ _ _ rfl rfl
@[simp] theorem State.backpress_msi (s : State) (c n : Nat) : (s.backpress c n).msi = s.msi := by unfold State.backpress; exact ite_kept State.msi _ _ _ _ rfl rfl
@[simp] theorem State.backpress_lastRead (s : State) (c n : Nat) : (s.backpress c n).lastRead = s.lastRead := by unfold State.backpress; exact ite_kept State.lastRead _ _ _ _ rfl rfl
@[simp] theorem State.backpress_ports (s : State) (c n : Nat) : (s.backpress c n).ports = s.ports := by unfold State.backpress; exact ite_kept State.ports _ _ _ _ rfl rfl
@[simp] theorem State.backpress_tbl (s : State) (c n : Nat) : (s.backpress c n).tbl = s.tbl := by unfold State.backpress; exact ite_kept State.tbl _ _ _ _ rfl rfl
@[simp] theorem State.backpress_frags (s : State) (c n : Nat) : (s.backpress c n).frags = s.frags := by unfold State.backpress; exact ite_kept State.frags _ _ _ _ rfl rfl
@[simp] theorem State.backpress_brg (s : State) (c n : Nat) : (s.backpress c n).brg = s.brg := by unfold State.backpress; exact ite_kept State.brg _ _ _ _ rfl rfl
@[simp] theorem State.backpress_gv (s : State) (c n : Nat) : (s.backpress c n).gv = s.gv := by unfold State.backpress; exact ite_kept State.gv _ _ _ _ rfl rfl
@[simp] theorem State.backpress_gr (s : State) (c n : Nat) : (s.backpress c n).gr = s.gr := by unfold State.backpress; exact ite_kept State.gr _ _ _ _ rfl rfl
@[simp] theorem State.backpress_recircQ (s : State) (c n : Nat) : (s.backpress c n).recircQ = s.recircQ := by unfold State.backpress; exact ite_kept State.recircQ _ _ _ _ rfl rfl
@[simp] theorem State.backpress_rs (s : State) (c n : Nat) : (s.backpress c n).rs = s.rs := by unfold State.backpress; exact ite_kept State.rs _ _ _ _ rfl rfl
@[simp] theorem State.backpress_twig (s : State) (c n : Nat) : (s.backpress c n).twig = s.twig := by unfold State.backpress; exact ite_kept State.twig _ _ _ _ rfl rfl
@[simp] theorem State.backpress_rts0 (s : State) (c n : Nat) : (s.backpress c n).rts0 = s.rts0 := by unfold State.backpress; exact ite_kept State.rts0 _ _ _ _ rfl rfl
@[simp] theorem State.backpress_rts1 (s : State) (c n : Nat) : (s.backpress c n).rts1 = s.rts1 := by unfold State.backpress; exact ite_kept State.rts1 _ _ _ _ rfl rfl
@[simp] theorem State.backpress_ecc (s : State) (c n : Nat) : (s.backpress c n).ecc = s.ecc := by unfold State.backpress; exact ite_kept State.ecc _ _ _ _ rfl rfl
@[simp] theorem State.backpress_rx (s : State) (c n : Nat) : (s.backpress c n).rx = s.rx := by unfold State.backpress; exact ite_kept State.rx _ _ _ _ rfl rfl
@[simp] theorem State.backpress_pkts (s : State) (c n : Nat) : (s.backpress c n).pkts = s.pkts := by unfold State.backpress; exact ite_kept State.pkts _ _ _ _ rfl rfl
@[simp] theorem State.backpress_bufs (s : State) (c n : Nat) : (s.backpress c n).bufs = s.bufs := by unfold State.backpress; exact ite_kept State.bufs _ _ _ _ rfl rfl
@[simp] theorem State.backpress_freedTags (s : State) (c n : Nat) : (s.backpress c n).freedTags = s.freedTags := by unfold State.backpress; exact ite_kept State.freedTags _ _ _ _ rfl rfl
@[simp] theorem State.backpress_freedBufs (s : State) (c n : Nat) : (s.backpress c n).freedBufs = s.freedBufs := by unfold State.backpress; exact ite_kept State.freedBufs _ _ _ _ rfl rfl
@[simp] theorem State.backpress_nextRel (s : State) (c n : Nat) : (s.backpress c n).nextRel = s.nextRel := by unfold State.backpress; exact ite_kept State.nextRel _ _ _ _ rfl rfl
@[simp] theorem State.backpress_turns (s : State) (c n : Nat) : (s.backpress c n).turns = s.turns := by unfold State.backpress; exact ite_kept State.turns _ _ _ _ rfl rfl
@[simp] theorem State.backpress_copies (s : State) (c n : Nat) : (s.backpress c n).copies = s.copies := by unfold State.backpress; exact ite_kept State.copies _ _ _ _ rfl rfl
@[simp] theorem State.backpress_nextCopy (s : State) (c n : Nat) : (s.backpress c n).nextCopy = s.nextCopy := by unfold State.backpress; exact ite_kept State.nextCopy _ _ _ _ rfl rfl
@[simp] theorem State.backpress_nextOrd (s : State) (c n : Nat) : (s.backpress c n).nextOrd = s.nextOrd := by unfold State.backpress; exact ite_kept State.nextOrd _ _ _ _ rfl rfl
@[simp] theorem State.backpress_shares (s : State) (c n : Nat) : (s.backpress c n).shares = s.shares := by unfold State.backpress; exact ite_kept State.shares _ _ _ _ rfl rfl
@[simp] theorem State.backpress_qs (s : State) (c n : Nat) : (s.backpress c n).qs = s.qs := by unfold State.backpress; exact ite_kept State.qs _ _ _ _ rfl rfl
@[simp] theorem State.backpress_tmPorts (s : State) (c n : Nat) : (s.backpress c n).tmPorts = s.tmPorts := by unfold State.backpress; exact ite_kept State.tmPorts _ _ _ _ rfl rfl
@[simp] theorem State.backpress_refillAt (s : State) (c n : Nat) : (s.backpress c n).refillAt = s.refillAt := by unfold State.backpress; exact ite_kept State.refillAt _ _ _ _ rfl rfl
@[simp] theorem State.backpress_txLast (s : State) (c n : Nat) : (s.backpress c n).txLast = s.txLast := by unfold State.backpress; exact ite_kept State.txLast _ _ _ _ rfl rfl
@[simp] theorem State.backpress_svn (s : State) (c n : Nat) : (s.backpress c n).svn = s.svn := by unfold State.backpress; exact ite_kept State.svn _ _ _ _ rfl rfl
@[simp] theorem State.backpress_pcie (s : State) (c n : Nat) : (s.backpress c n).pcie = s.pcie := by unfold State.backpress; exact ite_kept State.pcie _ _ _ _ rfl rfl
@[simp] theorem State.backpress_trk (s : State) (c n : Nat) : (s.backpress c n).trk = s.trk := by unfold State.backpress; exact ite_kept State.trk _ _ _ _ rfl rfl
@[simp] theorem State.backpress_sw (s : State) (c n : Nat) : (s.backpress c n).sw = s.sw := by unfold State.backpress; exact ite_kept State.sw _ _ _ _ rfl rfl
@[simp] theorem State.backpress_obs (s : State) (c n : Nat) : (s.backpress c n).obs = s.obs := by unfold State.backpress; exact ite_kept State.obs _ _ _ _ rfl rfl

@[simp] theorem State.leaseShow_pending (s : State) : (s.leaseShow).pending = s.pending := by
  unfold State.leaseShow; exact foldl_kept State.pending _ (fun _ _ => State.wr_pending _ _ _) _ _
@[simp] theorem State.leaseShow_free (s : State) : (s.leaseShow).free = s.free := by
  unfold State.leaseShow; exact foldl_kept State.free _ (fun _ _ => State.wr_free _ _ _) _ _
@[simp] theorem State.leaseShow_time (s : State) : (s.leaseShow).time = s.time := by
  unfold State.leaseShow; exact foldl_kept State.time _ (fun _ _ => State.wr_time _ _ _) _ _
@[simp] theorem State.leaseShow_rst (s : State) : (s.leaseShow).rst = s.rst := by
  unfold State.leaseShow; exact foldl_kept State.rst _ (fun _ _ => State.wr_rst _ _ _) _ _
@[simp] theorem State.leaseShow_clk (s : State) : (s.leaseShow).clk = s.clk := by
  unfold State.leaseShow; exact foldl_kept State.clk _ (fun _ _ => State.wr_clk _ _ _) _ _
@[simp] theorem State.leaseShow_tj (s : State) : (s.leaseShow).tj = s.tj := by
  unfold State.leaseShow; exact foldl_kept State.tj _ (fun _ _ => State.wr_tj _ _ _) _ _
@[simp] theorem State.leaseShow_jtag (s : State) : (s.leaseShow).jtag = s.jtag := by
  unfold State.leaseShow; exact foldl_kept State.jtag _ (fun _ _ => State.wr_jtag _ _ _) _ _
@[simp] theorem State.leaseShow_jrn (s : State) : (s.leaseShow).jrn = s.jrn := by
  unfold State.leaseShow; exact foldl_kept State.jrn _ (fun _ _ => State.wr_jrn _ _ _) _ _
@[simp] theorem State.leaseShow_msi (s : State) : (s.leaseShow).msi = s.msi := by
  unfold State.leaseShow; exact foldl_kept State.msi _ (fun _ _ => State.wr_msi _ _ _) _ _
@[simp] theorem State.leaseShow_lastRead (s : State) : (s.leaseShow).lastRead = s.lastRead := by
  unfold State.leaseShow; exact foldl_kept State.lastRead _ (fun _ _ => State.wr_lastRead _ _ _) _ _
@[simp] theorem State.leaseShow_ports (s : State) : (s.leaseShow).ports = s.ports := by
  unfold State.leaseShow; exact foldl_kept State.ports _ (fun _ _ => State.wr_ports _ _ _) _ _
@[simp] theorem State.leaseShow_tbl (s : State) : (s.leaseShow).tbl = s.tbl := by
  unfold State.leaseShow; exact foldl_kept State.tbl _ (fun _ _ => State.wr_tbl _ _ _) _ _
@[simp] theorem State.leaseShow_frags (s : State) : (s.leaseShow).frags = s.frags := by
  unfold State.leaseShow; exact foldl_kept State.frags _ (fun _ _ => State.wr_frags _ _ _) _ _
@[simp] theorem State.leaseShow_brg (s : State) : (s.leaseShow).brg = s.brg := by
  unfold State.leaseShow; exact foldl_kept State.brg _ (fun _ _ => State.wr_brg _ _ _) _ _
@[simp] theorem State.leaseShow_gv (s : State) : (s.leaseShow).gv = s.gv := by
  unfold State.leaseShow; exact foldl_kept State.gv _ (fun _ _ => State.wr_gv _ _ _) _ _
@[simp] theorem State.leaseShow_gr (s : State) : (s.leaseShow).gr = s.gr := by
  unfold State.leaseShow; exact foldl_kept State.gr _ (fun _ _ => State.wr_gr _ _ _) _ _
@[simp] theorem State.leaseShow_recircQ (s : State) : (s.leaseShow).recircQ = s.recircQ := by
  unfold State.leaseShow; exact foldl_kept State.recircQ _ (fun _ _ => State.wr_recircQ _ _ _) _ _
@[simp] theorem State.leaseShow_rs (s : State) : (s.leaseShow).rs = s.rs := by
  unfold State.leaseShow; exact foldl_kept State.rs _ (fun _ _ => State.wr_rs _ _ _) _ _
@[simp] theorem State.leaseShow_twig (s : State) : (s.leaseShow).twig = s.twig := by
  unfold State.leaseShow; exact foldl_kept State.twig _ (fun _ _ => State.wr_twig _ _ _) _ _
@[simp] theorem State.leaseShow_rts0 (s : State) : (s.leaseShow).rts0 = s.rts0 := by
  unfold State.leaseShow; exact foldl_kept State.rts0 _ (fun _ _ => State.wr_rts0 _ _ _) _ _
@[simp] theorem State.leaseShow_rts1 (s : State) : (s.leaseShow).rts1 = s.rts1 := by
  unfold State.leaseShow; exact foldl_kept State.rts1 _ (fun _ _ => State.wr_rts1 _ _ _) _ _
@[simp] theorem State.leaseShow_ecc (s : State) : (s.leaseShow).ecc = s.ecc := by
  unfold State.leaseShow; exact foldl_kept State.ecc _ (fun _ _ => State.wr_ecc _ _ _) _ _
@[simp] theorem State.leaseShow_rx (s : State) : (s.leaseShow).rx = s.rx := by
  unfold State.leaseShow; exact foldl_kept State.rx _ (fun _ _ => State.wr_rx _ _ _) _ _
@[simp] theorem State.leaseShow_pkts (s : State) : (s.leaseShow).pkts = s.pkts := by
  unfold State.leaseShow; exact foldl_kept State.pkts _ (fun _ _ => State.wr_pkts _ _ _) _ _
@[simp] theorem State.leaseShow_bufs (s : State) : (s.leaseShow).bufs = s.bufs := by
  unfold State.leaseShow; exact foldl_kept State.bufs _ (fun _ _ => State.wr_bufs _ _ _) _ _
@[simp] theorem State.leaseShow_freedTags (s : State) : (s.leaseShow).freedTags = s.freedTags := by
  unfold State.leaseShow; exact foldl_kept State.freedTags _ (fun _ _ => State.wr_freedTags _ _ _) _ _
@[simp] theorem State.leaseShow_freedBufs (s : State) : (s.leaseShow).freedBufs = s.freedBufs := by
  unfold State.leaseShow; exact foldl_kept State.freedBufs _ (fun _ _ => State.wr_freedBufs _ _ _) _ _
@[simp] theorem State.leaseShow_nextRel (s : State) : (s.leaseShow).nextRel = s.nextRel := by
  unfold State.leaseShow; exact foldl_kept State.nextRel _ (fun _ _ => State.wr_nextRel _ _ _) _ _
@[simp] theorem State.leaseShow_turns (s : State) : (s.leaseShow).turns = s.turns := by
  unfold State.leaseShow; exact foldl_kept State.turns _ (fun _ _ => State.wr_turns _ _ _) _ _
@[simp] theorem State.leaseShow_copies (s : State) : (s.leaseShow).copies = s.copies := by
  unfold State.leaseShow; exact foldl_kept State.copies _ (fun _ _ => State.wr_copies _ _ _) _ _
@[simp] theorem State.leaseShow_nextCopy (s : State) : (s.leaseShow).nextCopy = s.nextCopy := by
  unfold State.leaseShow; exact foldl_kept State.nextCopy _ (fun _ _ => State.wr_nextCopy _ _ _) _ _
@[simp] theorem State.leaseShow_nextOrd (s : State) : (s.leaseShow).nextOrd = s.nextOrd := by
  unfold State.leaseShow; exact foldl_kept State.nextOrd _ (fun _ _ => State.wr_nextOrd _ _ _) _ _
@[simp] theorem State.leaseShow_shares (s : State) : (s.leaseShow).shares = s.shares := by
  unfold State.leaseShow; exact foldl_kept State.shares _ (fun _ _ => State.wr_shares _ _ _) _ _
@[simp] theorem State.leaseShow_qs (s : State) : (s.leaseShow).qs = s.qs := by
  unfold State.leaseShow; exact foldl_kept State.qs _ (fun _ _ => State.wr_qs _ _ _) _ _
@[simp] theorem State.leaseShow_tmPorts (s : State) : (s.leaseShow).tmPorts = s.tmPorts := by
  unfold State.leaseShow; exact foldl_kept State.tmPorts _ (fun _ _ => State.wr_tmPorts _ _ _) _ _
@[simp] theorem State.leaseShow_refillAt (s : State) : (s.leaseShow).refillAt = s.refillAt := by
  unfold State.leaseShow; exact foldl_kept State.refillAt _ (fun _ _ => State.wr_refillAt _ _ _) _ _
@[simp] theorem State.leaseShow_txLast (s : State) : (s.leaseShow).txLast = s.txLast := by
  unfold State.leaseShow; exact foldl_kept State.txLast _ (fun _ _ => State.wr_txLast _ _ _) _ _
@[simp] theorem State.leaseShow_svn (s : State) : (s.leaseShow).svn = s.svn := by
  unfold State.leaseShow; exact foldl_kept State.svn _ (fun _ _ => State.wr_svn _ _ _) _ _
@[simp] theorem State.leaseShow_pcie (s : State) : (s.leaseShow).pcie = s.pcie := by
  unfold State.leaseShow; exact foldl_kept State.pcie _ (fun _ _ => State.wr_pcie _ _ _) _ _
@[simp] theorem State.leaseShow_trk (s : State) : (s.leaseShow).trk = s.trk := by
  unfold State.leaseShow; exact foldl_kept State.trk _ (fun _ _ => State.wr_trk _ _ _) _ _
@[simp] theorem State.leaseShow_sw (s : State) : (s.leaseShow).sw = s.sw := by
  unfold State.leaseShow; exact foldl_kept State.sw _ (fun _ _ => State.wr_sw _ _ _) _ _
@[simp] theorem State.leaseShow_obs (s : State) : (s.leaseShow).obs = s.obs := by
  unfold State.leaseShow; exact foldl_kept State.obs _ (fun _ _ => State.wr_obs _ _ _) _ _

@[simp] theorem State.advance_pending (s : State) (n : Nat) : (s.advance n).pending = s.pending := by
  unfold State.advance; exact ite_kept State.pending _ _ _ _ rfl (by simp only [State.leaseShow_pending, State.backpress_pending, State.pmuTick_pending])
@[simp] theorem State.advance_free (s : State) (n : Nat) : (s.advance n).free = s.free := by
  unfold State.advance; exact ite_kept State.free _ _ _ _ rfl (by simp only [State.leaseShow_free, State.backpress_free, State.pmuTick_free])
@[simp] theorem State.advance_rst (s : State) (n : Nat) : (s.advance n).rst = s.rst := by
  unfold State.advance; exact ite_kept State.rst _ _ _ _ rfl (by simp only [State.leaseShow_rst, State.backpress_rst, State.pmuTick_rst])
@[simp] theorem State.advance_clk (s : State) (n : Nat) : (s.advance n).clk = s.clk := by
  unfold State.advance; exact ite_kept State.clk _ _ _ _ rfl (by simp only [State.leaseShow_clk, State.backpress_clk, State.pmuTick_clk])
@[simp] theorem State.advance_tj (s : State) (n : Nat) : (s.advance n).tj = s.tj := by
  unfold State.advance; exact ite_kept State.tj _ _ _ _ rfl (by simp only [State.leaseShow_tj, State.backpress_tj, State.pmuTick_tj])
@[simp] theorem State.advance_jtag (s : State) (n : Nat) : (s.advance n).jtag = s.jtag := by
  unfold State.advance; exact ite_kept State.jtag _ _ _ _ rfl (by simp only [State.leaseShow_jtag, State.backpress_jtag, State.pmuTick_jtag])
@[simp] theorem State.advance_jrn (s : State) (n : Nat) : (s.advance n).jrn = s.jrn := by
  unfold State.advance; exact ite_kept State.jrn _ _ _ _ rfl (by simp only [State.leaseShow_jrn, State.backpress_jrn, State.pmuTick_jrn])
@[simp] theorem State.advance_msi (s : State) (n : Nat) : (s.advance n).msi = s.msi := by
  unfold State.advance; exact ite_kept State.msi _ _ _ _ rfl (by simp only [State.leaseShow_msi, State.backpress_msi, State.pmuTick_msi])
@[simp] theorem State.advance_lastRead (s : State) (n : Nat) : (s.advance n).lastRead = s.lastRead := by
  unfold State.advance; exact ite_kept State.lastRead _ _ _ _ rfl (by simp only [State.leaseShow_lastRead, State.backpress_lastRead, State.pmuTick_lastRead])
@[simp] theorem State.advance_ports (s : State) (n : Nat) : (s.advance n).ports = s.ports := by
  unfold State.advance; exact ite_kept State.ports _ _ _ _ rfl (by simp only [State.leaseShow_ports, State.backpress_ports, State.pmuTick_ports])
@[simp] theorem State.advance_tbl (s : State) (n : Nat) : (s.advance n).tbl = s.tbl := by
  unfold State.advance; exact ite_kept State.tbl _ _ _ _ rfl (by simp only [State.leaseShow_tbl, State.backpress_tbl, State.pmuTick_tbl])
@[simp] theorem State.advance_frags (s : State) (n : Nat) : (s.advance n).frags = s.frags := by
  unfold State.advance; exact ite_kept State.frags _ _ _ _ rfl (by simp only [State.leaseShow_frags, State.backpress_frags, State.pmuTick_frags])
@[simp] theorem State.advance_brg (s : State) (n : Nat) : (s.advance n).brg = s.brg := by
  unfold State.advance; exact ite_kept State.brg _ _ _ _ rfl (by simp only [State.leaseShow_brg, State.backpress_brg, State.pmuTick_brg])
@[simp] theorem State.advance_gv (s : State) (n : Nat) : (s.advance n).gv = s.gv := by
  unfold State.advance; exact ite_kept State.gv _ _ _ _ rfl (by simp only [State.leaseShow_gv, State.backpress_gv, State.pmuTick_gv])
@[simp] theorem State.advance_gr (s : State) (n : Nat) : (s.advance n).gr = s.gr := by
  unfold State.advance; exact ite_kept State.gr _ _ _ _ rfl (by simp only [State.leaseShow_gr, State.backpress_gr, State.pmuTick_gr])
@[simp] theorem State.advance_recircQ (s : State) (n : Nat) : (s.advance n).recircQ = s.recircQ := by
  unfold State.advance; exact ite_kept State.recircQ _ _ _ _ rfl (by simp only [State.leaseShow_recircQ, State.backpress_recircQ, State.pmuTick_recircQ])
@[simp] theorem State.advance_rs (s : State) (n : Nat) : (s.advance n).rs = s.rs := by
  unfold State.advance; exact ite_kept State.rs _ _ _ _ rfl (by simp only [State.leaseShow_rs, State.backpress_rs, State.pmuTick_rs])
@[simp] theorem State.advance_twig (s : State) (n : Nat) : (s.advance n).twig = s.twig := by
  unfold State.advance; exact ite_kept State.twig _ _ _ _ rfl (by simp only [State.leaseShow_twig, State.backpress_twig, State.pmuTick_twig])
@[simp] theorem State.advance_rts0 (s : State) (n : Nat) : (s.advance n).rts0 = s.rts0 := by
  unfold State.advance; exact ite_kept State.rts0 _ _ _ _ rfl (by simp only [State.leaseShow_rts0, State.backpress_rts0, State.pmuTick_rts0])
@[simp] theorem State.advance_rts1 (s : State) (n : Nat) : (s.advance n).rts1 = s.rts1 := by
  unfold State.advance; exact ite_kept State.rts1 _ _ _ _ rfl (by simp only [State.leaseShow_rts1, State.backpress_rts1, State.pmuTick_rts1])
@[simp] theorem State.advance_ecc (s : State) (n : Nat) : (s.advance n).ecc = s.ecc := by
  unfold State.advance; exact ite_kept State.ecc _ _ _ _ rfl (by simp only [State.leaseShow_ecc, State.backpress_ecc, State.pmuTick_ecc])
@[simp] theorem State.advance_rx (s : State) (n : Nat) : (s.advance n).rx = s.rx := by
  unfold State.advance; exact ite_kept State.rx _ _ _ _ rfl (by simp only [State.leaseShow_rx, State.backpress_rx, State.pmuTick_rx])
@[simp] theorem State.advance_pkts (s : State) (n : Nat) : (s.advance n).pkts = s.pkts := by
  unfold State.advance; exact ite_kept State.pkts _ _ _ _ rfl (by simp only [State.leaseShow_pkts, State.backpress_pkts, State.pmuTick_pkts])
@[simp] theorem State.advance_bufs (s : State) (n : Nat) : (s.advance n).bufs = s.bufs := by
  unfold State.advance; exact ite_kept State.bufs _ _ _ _ rfl (by simp only [State.leaseShow_bufs, State.backpress_bufs, State.pmuTick_bufs])
@[simp] theorem State.advance_freedTags (s : State) (n : Nat) : (s.advance n).freedTags = s.freedTags := by
  unfold State.advance; exact ite_kept State.freedTags _ _ _ _ rfl (by simp only [State.leaseShow_freedTags, State.backpress_freedTags, State.pmuTick_freedTags])
@[simp] theorem State.advance_freedBufs (s : State) (n : Nat) : (s.advance n).freedBufs = s.freedBufs := by
  unfold State.advance; exact ite_kept State.freedBufs _ _ _ _ rfl (by simp only [State.leaseShow_freedBufs, State.backpress_freedBufs, State.pmuTick_freedBufs])
@[simp] theorem State.advance_nextRel (s : State) (n : Nat) : (s.advance n).nextRel = s.nextRel := by
  unfold State.advance; exact ite_kept State.nextRel _ _ _ _ rfl (by simp only [State.leaseShow_nextRel, State.backpress_nextRel, State.pmuTick_nextRel])
@[simp] theorem State.advance_turns (s : State) (n : Nat) : (s.advance n).turns = s.turns := by
  unfold State.advance; exact ite_kept State.turns _ _ _ _ rfl (by simp only [State.leaseShow_turns, State.backpress_turns, State.pmuTick_turns])
@[simp] theorem State.advance_copies (s : State) (n : Nat) : (s.advance n).copies = s.copies := by
  unfold State.advance; exact ite_kept State.copies _ _ _ _ rfl (by simp only [State.leaseShow_copies, State.backpress_copies, State.pmuTick_copies])
@[simp] theorem State.advance_nextCopy (s : State) (n : Nat) : (s.advance n).nextCopy = s.nextCopy := by
  unfold State.advance; exact ite_kept State.nextCopy _ _ _ _ rfl (by simp only [State.leaseShow_nextCopy, State.backpress_nextCopy, State.pmuTick_nextCopy])
@[simp] theorem State.advance_nextOrd (s : State) (n : Nat) : (s.advance n).nextOrd = s.nextOrd := by
  unfold State.advance; exact ite_kept State.nextOrd _ _ _ _ rfl (by simp only [State.leaseShow_nextOrd, State.backpress_nextOrd, State.pmuTick_nextOrd])
@[simp] theorem State.advance_shares (s : State) (n : Nat) : (s.advance n).shares = s.shares := by
  unfold State.advance; exact ite_kept State.shares _ _ _ _ rfl (by simp only [State.leaseShow_shares, State.backpress_shares, State.pmuTick_shares])
@[simp] theorem State.advance_qs (s : State) (n : Nat) : (s.advance n).qs = s.qs := by
  unfold State.advance; exact ite_kept State.qs _ _ _ _ rfl (by simp only [State.leaseShow_qs, State.backpress_qs, State.pmuTick_qs])
@[simp] theorem State.advance_tmPorts (s : State) (n : Nat) : (s.advance n).tmPorts = s.tmPorts := by
  unfold State.advance; exact ite_kept State.tmPorts _ _ _ _ rfl (by simp only [State.leaseShow_tmPorts, State.backpress_tmPorts, State.pmuTick_tmPorts])
@[simp] theorem State.advance_refillAt (s : State) (n : Nat) : (s.advance n).refillAt = s.refillAt := by
  unfold State.advance; exact ite_kept State.refillAt _ _ _ _ rfl (by simp only [State.leaseShow_refillAt, State.backpress_refillAt, State.pmuTick_refillAt])
@[simp] theorem State.advance_txLast (s : State) (n : Nat) : (s.advance n).txLast = s.txLast := by
  unfold State.advance; exact ite_kept State.txLast _ _ _ _ rfl (by simp only [State.leaseShow_txLast, State.backpress_txLast, State.pmuTick_txLast])
@[simp] theorem State.advance_svn (s : State) (n : Nat) : (s.advance n).svn = s.svn := by
  unfold State.advance; exact ite_kept State.svn _ _ _ _ rfl (by simp only [State.leaseShow_svn, State.backpress_svn, State.pmuTick_svn])
@[simp] theorem State.advance_pcie (s : State) (n : Nat) : (s.advance n).pcie = s.pcie := by
  unfold State.advance; exact ite_kept State.pcie _ _ _ _ rfl (by simp only [State.leaseShow_pcie, State.backpress_pcie, State.pmuTick_pcie])
@[simp] theorem State.advance_trk (s : State) (n : Nat) : (s.advance n).trk = s.trk := by
  unfold State.advance; exact ite_kept State.trk _ _ _ _ rfl (by simp only [State.leaseShow_trk, State.backpress_trk, State.pmuTick_trk])
@[simp] theorem State.advance_sw (s : State) (n : Nat) : (s.advance n).sw = s.sw := by
  unfold State.advance; exact ite_kept State.sw _ _ _ _ rfl (by simp only [State.leaseShow_sw, State.backpress_sw, State.pmuTick_sw])

@[simp] theorem State.waitMono_pending (s : State) (n : Nat) : (s.waitMono n).pending = s.pending := by
  unfold State.waitMono; exact ite_kept State.pending _ _ _ _ rfl (State.advance_pending _ _)
@[simp] theorem State.waitMono_free (s : State) (n : Nat) : (s.waitMono n).free = s.free := by
  unfold State.waitMono; exact ite_kept State.free _ _ _ _ rfl (State.advance_free _ _)
@[simp] theorem State.waitMono_rst (s : State) (n : Nat) : (s.waitMono n).rst = s.rst := by
  unfold State.waitMono; exact ite_kept State.rst _ _ _ _ rfl (State.advance_rst _ _)
@[simp] theorem State.waitMono_clk (s : State) (n : Nat) : (s.waitMono n).clk = s.clk := by
  unfold State.waitMono; exact ite_kept State.clk _ _ _ _ rfl (State.advance_clk _ _)
@[simp] theorem State.waitMono_tj (s : State) (n : Nat) : (s.waitMono n).tj = s.tj := by
  unfold State.waitMono; exact ite_kept State.tj _ _ _ _ rfl (State.advance_tj _ _)
@[simp] theorem State.waitMono_jtag (s : State) (n : Nat) : (s.waitMono n).jtag = s.jtag := by
  unfold State.waitMono; exact ite_kept State.jtag _ _ _ _ rfl (State.advance_jtag _ _)
@[simp] theorem State.waitMono_jrn (s : State) (n : Nat) : (s.waitMono n).jrn = s.jrn := by
  unfold State.waitMono; exact ite_kept State.jrn _ _ _ _ rfl (State.advance_jrn _ _)
@[simp] theorem State.waitMono_msi (s : State) (n : Nat) : (s.waitMono n).msi = s.msi := by
  unfold State.waitMono; exact ite_kept State.msi _ _ _ _ rfl (State.advance_msi _ _)
@[simp] theorem State.waitMono_lastRead (s : State) (n : Nat) : (s.waitMono n).lastRead = s.lastRead := by
  unfold State.waitMono; exact ite_kept State.lastRead _ _ _ _ rfl (State.advance_lastRead _ _)
@[simp] theorem State.waitMono_ports (s : State) (n : Nat) : (s.waitMono n).ports = s.ports := by
  unfold State.waitMono; exact ite_kept State.ports _ _ _ _ rfl (State.advance_ports _ _)
@[simp] theorem State.waitMono_tbl (s : State) (n : Nat) : (s.waitMono n).tbl = s.tbl := by
  unfold State.waitMono; exact ite_kept State.tbl _ _ _ _ rfl (State.advance_tbl _ _)
@[simp] theorem State.waitMono_frags (s : State) (n : Nat) : (s.waitMono n).frags = s.frags := by
  unfold State.waitMono; exact ite_kept State.frags _ _ _ _ rfl (State.advance_frags _ _)
@[simp] theorem State.waitMono_brg (s : State) (n : Nat) : (s.waitMono n).brg = s.brg := by
  unfold State.waitMono; exact ite_kept State.brg _ _ _ _ rfl (State.advance_brg _ _)
@[simp] theorem State.waitMono_gv (s : State) (n : Nat) : (s.waitMono n).gv = s.gv := by
  unfold State.waitMono; exact ite_kept State.gv _ _ _ _ rfl (State.advance_gv _ _)
@[simp] theorem State.waitMono_gr (s : State) (n : Nat) : (s.waitMono n).gr = s.gr := by
  unfold State.waitMono; exact ite_kept State.gr _ _ _ _ rfl (State.advance_gr _ _)
@[simp] theorem State.waitMono_recircQ (s : State) (n : Nat) : (s.waitMono n).recircQ = s.recircQ := by
  unfold State.waitMono; exact ite_kept State.recircQ _ _ _ _ rfl (State.advance_recircQ _ _)
@[simp] theorem State.waitMono_rs (s : State) (n : Nat) : (s.waitMono n).rs = s.rs := by
  unfold State.waitMono; exact ite_kept State.rs _ _ _ _ rfl (State.advance_rs _ _)
@[simp] theorem State.waitMono_twig (s : State) (n : Nat) : (s.waitMono n).twig = s.twig := by
  unfold State.waitMono; exact ite_kept State.twig _ _ _ _ rfl (State.advance_twig _ _)
@[simp] theorem State.waitMono_rts0 (s : State) (n : Nat) : (s.waitMono n).rts0 = s.rts0 := by
  unfold State.waitMono; exact ite_kept State.rts0 _ _ _ _ rfl (State.advance_rts0 _ _)
@[simp] theorem State.waitMono_rts1 (s : State) (n : Nat) : (s.waitMono n).rts1 = s.rts1 := by
  unfold State.waitMono; exact ite_kept State.rts1 _ _ _ _ rfl (State.advance_rts1 _ _)
@[simp] theorem State.waitMono_ecc (s : State) (n : Nat) : (s.waitMono n).ecc = s.ecc := by
  unfold State.waitMono; exact ite_kept State.ecc _ _ _ _ rfl (State.advance_ecc _ _)
@[simp] theorem State.waitMono_rx (s : State) (n : Nat) : (s.waitMono n).rx = s.rx := by
  unfold State.waitMono; exact ite_kept State.rx _ _ _ _ rfl (State.advance_rx _ _)
@[simp] theorem State.waitMono_pkts (s : State) (n : Nat) : (s.waitMono n).pkts = s.pkts := by
  unfold State.waitMono; exact ite_kept State.pkts _ _ _ _ rfl (State.advance_pkts _ _)
@[simp] theorem State.waitMono_bufs (s : State) (n : Nat) : (s.waitMono n).bufs = s.bufs := by
  unfold State.waitMono; exact ite_kept State.bufs _ _ _ _ rfl (State.advance_bufs _ _)
@[simp] theorem State.waitMono_freedTags (s : State) (n : Nat) : (s.waitMono n).freedTags = s.freedTags := by
  unfold State.waitMono; exact ite_kept State.freedTags _ _ _ _ rfl (State.advance_freedTags _ _)
@[simp] theorem State.waitMono_freedBufs (s : State) (n : Nat) : (s.waitMono n).freedBufs = s.freedBufs := by
  unfold State.waitMono; exact ite_kept State.freedBufs _ _ _ _ rfl (State.advance_freedBufs _ _)
@[simp] theorem State.waitMono_nextRel (s : State) (n : Nat) : (s.waitMono n).nextRel = s.nextRel := by
  unfold State.waitMono; exact ite_kept State.nextRel _ _ _ _ rfl (State.advance_nextRel _ _)
@[simp] theorem State.waitMono_turns (s : State) (n : Nat) : (s.waitMono n).turns = s.turns := by
  unfold State.waitMono; exact ite_kept State.turns _ _ _ _ rfl (State.advance_turns _ _)
@[simp] theorem State.waitMono_copies (s : State) (n : Nat) : (s.waitMono n).copies = s.copies := by
  unfold State.waitMono; exact ite_kept State.copies _ _ _ _ rfl (State.advance_copies _ _)
@[simp] theorem State.waitMono_nextCopy (s : State) (n : Nat) : (s.waitMono n).nextCopy = s.nextCopy := by
  unfold State.waitMono; exact ite_kept State.nextCopy _ _ _ _ rfl (State.advance_nextCopy _ _)
@[simp] theorem State.waitMono_nextOrd (s : State) (n : Nat) : (s.waitMono n).nextOrd = s.nextOrd := by
  unfold State.waitMono; exact ite_kept State.nextOrd _ _ _ _ rfl (State.advance_nextOrd _ _)
@[simp] theorem State.waitMono_shares (s : State) (n : Nat) : (s.waitMono n).shares = s.shares := by
  unfold State.waitMono; exact ite_kept State.shares _ _ _ _ rfl (State.advance_shares _ _)
@[simp] theorem State.waitMono_qs (s : State) (n : Nat) : (s.waitMono n).qs = s.qs := by
  unfold State.waitMono; exact ite_kept State.qs _ _ _ _ rfl (State.advance_qs _ _)
@[simp] theorem State.waitMono_tmPorts (s : State) (n : Nat) : (s.waitMono n).tmPorts = s.tmPorts := by
  unfold State.waitMono; exact ite_kept State.tmPorts _ _ _ _ rfl (State.advance_tmPorts _ _)
@[simp] theorem State.waitMono_refillAt (s : State) (n : Nat) : (s.waitMono n).refillAt = s.refillAt := by
  unfold State.waitMono; exact ite_kept State.refillAt _ _ _ _ rfl (State.advance_refillAt _ _)
@[simp] theorem State.waitMono_txLast (s : State) (n : Nat) : (s.waitMono n).txLast = s.txLast := by
  unfold State.waitMono; exact ite_kept State.txLast _ _ _ _ rfl (State.advance_txLast _ _)
@[simp] theorem State.waitMono_svn (s : State) (n : Nat) : (s.waitMono n).svn = s.svn := by
  unfold State.waitMono; exact ite_kept State.svn _ _ _ _ rfl (State.advance_svn _ _)
@[simp] theorem State.waitMono_pcie (s : State) (n : Nat) : (s.waitMono n).pcie = s.pcie := by
  unfold State.waitMono; exact ite_kept State.pcie _ _ _ _ rfl (State.advance_pcie _ _)
@[simp] theorem State.waitMono_trk (s : State) (n : Nat) : (s.waitMono n).trk = s.trk := by
  unfold State.waitMono; exact ite_kept State.trk _ _ _ _ rfl (State.advance_trk _ _)
@[simp] theorem State.waitMono_sw (s : State) (n : Nat) : (s.waitMono n).sw = s.sw := by
  unfold State.waitMono; exact ite_kept State.sw _ _ _ _ rfl (State.advance_sw _ _)

@[simp] theorem State.waitDev_pending (s : State) (n : Nat) : (s.waitDev n).pending = s.pending := by
  unfold State.waitDev
  exact ite_kept State.pending _ _ _ _ rfl (State.advance_pending _ _)
@[simp] theorem State.waitDev_free (s : State) (n : Nat) : (s.waitDev n).free = s.free := by
  unfold State.waitDev
  exact ite_kept State.free _ _ _ _ rfl (State.advance_free _ _)
@[simp] theorem State.waitDev_rst (s : State) (n : Nat) : (s.waitDev n).rst = s.rst := by
  unfold State.waitDev
  exact ite_kept State.rst _ _ _ _ rfl (State.advance_rst _ _)
@[simp] theorem State.waitDev_clk (s : State) (n : Nat) : (s.waitDev n).clk = s.clk := by
  unfold State.waitDev
  exact ite_kept State.clk _ _ _ _ rfl (State.advance_clk _ _)
@[simp] theorem State.waitDev_tj (s : State) (n : Nat) : (s.waitDev n).tj = s.tj := by
  unfold State.waitDev
  exact ite_kept State.tj _ _ _ _ rfl (State.advance_tj _ _)
@[simp] theorem State.waitDev_jtag (s : State) (n : Nat) : (s.waitDev n).jtag = s.jtag := by
  unfold State.waitDev
  exact ite_kept State.jtag _ _ _ _ rfl (State.advance_jtag _ _)
@[simp] theorem State.waitDev_jrn (s : State) (n : Nat) : (s.waitDev n).jrn = s.jrn := by
  unfold State.waitDev
  exact ite_kept State.jrn _ _ _ _ rfl (State.advance_jrn _ _)
@[simp] theorem State.waitDev_msi (s : State) (n : Nat) : (s.waitDev n).msi = s.msi := by
  unfold State.waitDev
  exact ite_kept State.msi _ _ _ _ rfl (State.advance_msi _ _)
@[simp] theorem State.waitDev_lastRead (s : State) (n : Nat) : (s.waitDev n).lastRead = s.lastRead := by
  unfold State.waitDev
  exact ite_kept State.lastRead _ _ _ _ rfl (State.advance_lastRead _ _)
@[simp] theorem State.waitDev_ports (s : State) (n : Nat) : (s.waitDev n).ports = s.ports := by
  unfold State.waitDev
  exact ite_kept State.ports _ _ _ _ rfl (State.advance_ports _ _)
@[simp] theorem State.waitDev_tbl (s : State) (n : Nat) : (s.waitDev n).tbl = s.tbl := by
  unfold State.waitDev
  exact ite_kept State.tbl _ _ _ _ rfl (State.advance_tbl _ _)
@[simp] theorem State.waitDev_frags (s : State) (n : Nat) : (s.waitDev n).frags = s.frags := by
  unfold State.waitDev
  exact ite_kept State.frags _ _ _ _ rfl (State.advance_frags _ _)
@[simp] theorem State.waitDev_brg (s : State) (n : Nat) : (s.waitDev n).brg = s.brg := by
  unfold State.waitDev
  exact ite_kept State.brg _ _ _ _ rfl (State.advance_brg _ _)
@[simp] theorem State.waitDev_gv (s : State) (n : Nat) : (s.waitDev n).gv = s.gv := by
  unfold State.waitDev
  exact ite_kept State.gv _ _ _ _ rfl (State.advance_gv _ _)
@[simp] theorem State.waitDev_gr (s : State) (n : Nat) : (s.waitDev n).gr = s.gr := by
  unfold State.waitDev
  exact ite_kept State.gr _ _ _ _ rfl (State.advance_gr _ _)
@[simp] theorem State.waitDev_recircQ (s : State) (n : Nat) : (s.waitDev n).recircQ = s.recircQ := by
  unfold State.waitDev
  exact ite_kept State.recircQ _ _ _ _ rfl (State.advance_recircQ _ _)
@[simp] theorem State.waitDev_rs (s : State) (n : Nat) : (s.waitDev n).rs = s.rs := by
  unfold State.waitDev
  exact ite_kept State.rs _ _ _ _ rfl (State.advance_rs _ _)
@[simp] theorem State.waitDev_twig (s : State) (n : Nat) : (s.waitDev n).twig = s.twig := by
  unfold State.waitDev
  exact ite_kept State.twig _ _ _ _ rfl (State.advance_twig _ _)
@[simp] theorem State.waitDev_rts0 (s : State) (n : Nat) : (s.waitDev n).rts0 = s.rts0 := by
  unfold State.waitDev
  exact ite_kept State.rts0 _ _ _ _ rfl (State.advance_rts0 _ _)
@[simp] theorem State.waitDev_rts1 (s : State) (n : Nat) : (s.waitDev n).rts1 = s.rts1 := by
  unfold State.waitDev
  exact ite_kept State.rts1 _ _ _ _ rfl (State.advance_rts1 _ _)
@[simp] theorem State.waitDev_ecc (s : State) (n : Nat) : (s.waitDev n).ecc = s.ecc := by
  unfold State.waitDev
  exact ite_kept State.ecc _ _ _ _ rfl (State.advance_ecc _ _)
@[simp] theorem State.waitDev_rx (s : State) (n : Nat) : (s.waitDev n).rx = s.rx := by
  unfold State.waitDev
  exact ite_kept State.rx _ _ _ _ rfl (State.advance_rx _ _)
@[simp] theorem State.waitDev_pkts (s : State) (n : Nat) : (s.waitDev n).pkts = s.pkts := by
  unfold State.waitDev
  exact ite_kept State.pkts _ _ _ _ rfl (State.advance_pkts _ _)
@[simp] theorem State.waitDev_bufs (s : State) (n : Nat) : (s.waitDev n).bufs = s.bufs := by
  unfold State.waitDev
  exact ite_kept State.bufs _ _ _ _ rfl (State.advance_bufs _ _)
@[simp] theorem State.waitDev_freedTags (s : State) (n : Nat) : (s.waitDev n).freedTags = s.freedTags := by
  unfold State.waitDev
  exact ite_kept State.freedTags _ _ _ _ rfl (State.advance_freedTags _ _)
@[simp] theorem State.waitDev_freedBufs (s : State) (n : Nat) : (s.waitDev n).freedBufs = s.freedBufs := by
  unfold State.waitDev
  exact ite_kept State.freedBufs _ _ _ _ rfl (State.advance_freedBufs _ _)
@[simp] theorem State.waitDev_nextRel (s : State) (n : Nat) : (s.waitDev n).nextRel = s.nextRel := by
  unfold State.waitDev
  exact ite_kept State.nextRel _ _ _ _ rfl (State.advance_nextRel _ _)
@[simp] theorem State.waitDev_turns (s : State) (n : Nat) : (s.waitDev n).turns = s.turns := by
  unfold State.waitDev
  exact ite_kept State.turns _ _ _ _ rfl (State.advance_turns _ _)
@[simp] theorem State.waitDev_copies (s : State) (n : Nat) : (s.waitDev n).copies = s.copies := by
  unfold State.waitDev
  exact ite_kept State.copies _ _ _ _ rfl (State.advance_copies _ _)
@[simp] theorem State.waitDev_nextCopy (s : State) (n : Nat) : (s.waitDev n).nextCopy = s.nextCopy := by
  unfold State.waitDev
  exact ite_kept State.nextCopy _ _ _ _ rfl (State.advance_nextCopy _ _)
@[simp] theorem State.waitDev_nextOrd (s : State) (n : Nat) : (s.waitDev n).nextOrd = s.nextOrd := by
  unfold State.waitDev
  exact ite_kept State.nextOrd _ _ _ _ rfl (State.advance_nextOrd _ _)
@[simp] theorem State.waitDev_shares (s : State) (n : Nat) : (s.waitDev n).shares = s.shares := by
  unfold State.waitDev
  exact ite_kept State.shares _ _ _ _ rfl (State.advance_shares _ _)
@[simp] theorem State.waitDev_qs (s : State) (n : Nat) : (s.waitDev n).qs = s.qs := by
  unfold State.waitDev
  exact ite_kept State.qs _ _ _ _ rfl (State.advance_qs _ _)
@[simp] theorem State.waitDev_tmPorts (s : State) (n : Nat) : (s.waitDev n).tmPorts = s.tmPorts := by
  unfold State.waitDev
  exact ite_kept State.tmPorts _ _ _ _ rfl (State.advance_tmPorts _ _)
@[simp] theorem State.waitDev_refillAt (s : State) (n : Nat) : (s.waitDev n).refillAt = s.refillAt := by
  unfold State.waitDev
  exact ite_kept State.refillAt _ _ _ _ rfl (State.advance_refillAt _ _)
@[simp] theorem State.waitDev_txLast (s : State) (n : Nat) : (s.waitDev n).txLast = s.txLast := by
  unfold State.waitDev
  exact ite_kept State.txLast _ _ _ _ rfl (State.advance_txLast _ _)
@[simp] theorem State.waitDev_svn (s : State) (n : Nat) : (s.waitDev n).svn = s.svn := by
  unfold State.waitDev
  exact ite_kept State.svn _ _ _ _ rfl (State.advance_svn _ _)
@[simp] theorem State.waitDev_pcie (s : State) (n : Nat) : (s.waitDev n).pcie = s.pcie := by
  unfold State.waitDev
  exact ite_kept State.pcie _ _ _ _ rfl (State.advance_pcie _ _)
@[simp] theorem State.waitDev_trk (s : State) (n : Nat) : (s.waitDev n).trk = s.trk := by
  unfold State.waitDev
  exact ite_kept State.trk _ _ _ _ rfl (State.advance_trk _ _)
@[simp] theorem State.waitDev_sw (s : State) (n : Nat) : (s.waitDev n).sw = s.sw := by
  unfold State.waitDev
  exact ite_kept State.sw _ _ _ _ rfl (State.advance_sw _ _)

@[simp] theorem State.waitIsl_pending (s : State) (i n : Nat) : (s.waitIsl i n).pending = s.pending := by
  unfold State.waitIsl
  exact ite_kept State.pending _ _ _ _ rfl (State.advance_pending _ _)
@[simp] theorem State.waitIsl_free (s : State) (i n : Nat) : (s.waitIsl i n).free = s.free := by
  unfold State.waitIsl
  exact ite_kept State.free _ _ _ _ rfl (State.advance_free _ _)
@[simp] theorem State.waitIsl_rst (s : State) (i n : Nat) : (s.waitIsl i n).rst = s.rst := by
  unfold State.waitIsl
  exact ite_kept State.rst _ _ _ _ rfl (State.advance_rst _ _)
@[simp] theorem State.waitIsl_clk (s : State) (i n : Nat) : (s.waitIsl i n).clk = s.clk := by
  unfold State.waitIsl
  exact ite_kept State.clk _ _ _ _ rfl (State.advance_clk _ _)
@[simp] theorem State.waitIsl_tj (s : State) (i n : Nat) : (s.waitIsl i n).tj = s.tj := by
  unfold State.waitIsl
  exact ite_kept State.tj _ _ _ _ rfl (State.advance_tj _ _)
@[simp] theorem State.waitIsl_jtag (s : State) (i n : Nat) : (s.waitIsl i n).jtag = s.jtag := by
  unfold State.waitIsl
  exact ite_kept State.jtag _ _ _ _ rfl (State.advance_jtag _ _)
@[simp] theorem State.waitIsl_jrn (s : State) (i n : Nat) : (s.waitIsl i n).jrn = s.jrn := by
  unfold State.waitIsl
  exact ite_kept State.jrn _ _ _ _ rfl (State.advance_jrn _ _)
@[simp] theorem State.waitIsl_msi (s : State) (i n : Nat) : (s.waitIsl i n).msi = s.msi := by
  unfold State.waitIsl
  exact ite_kept State.msi _ _ _ _ rfl (State.advance_msi _ _)
@[simp] theorem State.waitIsl_lastRead (s : State) (i n : Nat) : (s.waitIsl i n).lastRead = s.lastRead := by
  unfold State.waitIsl
  exact ite_kept State.lastRead _ _ _ _ rfl (State.advance_lastRead _ _)
@[simp] theorem State.waitIsl_ports (s : State) (i n : Nat) : (s.waitIsl i n).ports = s.ports := by
  unfold State.waitIsl
  exact ite_kept State.ports _ _ _ _ rfl (State.advance_ports _ _)
@[simp] theorem State.waitIsl_tbl (s : State) (i n : Nat) : (s.waitIsl i n).tbl = s.tbl := by
  unfold State.waitIsl
  exact ite_kept State.tbl _ _ _ _ rfl (State.advance_tbl _ _)
@[simp] theorem State.waitIsl_frags (s : State) (i n : Nat) : (s.waitIsl i n).frags = s.frags := by
  unfold State.waitIsl
  exact ite_kept State.frags _ _ _ _ rfl (State.advance_frags _ _)
@[simp] theorem State.waitIsl_brg (s : State) (i n : Nat) : (s.waitIsl i n).brg = s.brg := by
  unfold State.waitIsl
  exact ite_kept State.brg _ _ _ _ rfl (State.advance_brg _ _)
@[simp] theorem State.waitIsl_gv (s : State) (i n : Nat) : (s.waitIsl i n).gv = s.gv := by
  unfold State.waitIsl
  exact ite_kept State.gv _ _ _ _ rfl (State.advance_gv _ _)
@[simp] theorem State.waitIsl_gr (s : State) (i n : Nat) : (s.waitIsl i n).gr = s.gr := by
  unfold State.waitIsl
  exact ite_kept State.gr _ _ _ _ rfl (State.advance_gr _ _)
@[simp] theorem State.waitIsl_recircQ (s : State) (i n : Nat) : (s.waitIsl i n).recircQ = s.recircQ := by
  unfold State.waitIsl
  exact ite_kept State.recircQ _ _ _ _ rfl (State.advance_recircQ _ _)
@[simp] theorem State.waitIsl_rs (s : State) (i n : Nat) : (s.waitIsl i n).rs = s.rs := by
  unfold State.waitIsl
  exact ite_kept State.rs _ _ _ _ rfl (State.advance_rs _ _)
@[simp] theorem State.waitIsl_twig (s : State) (i n : Nat) : (s.waitIsl i n).twig = s.twig := by
  unfold State.waitIsl
  exact ite_kept State.twig _ _ _ _ rfl (State.advance_twig _ _)
@[simp] theorem State.waitIsl_rts0 (s : State) (i n : Nat) : (s.waitIsl i n).rts0 = s.rts0 := by
  unfold State.waitIsl
  exact ite_kept State.rts0 _ _ _ _ rfl (State.advance_rts0 _ _)
@[simp] theorem State.waitIsl_rts1 (s : State) (i n : Nat) : (s.waitIsl i n).rts1 = s.rts1 := by
  unfold State.waitIsl
  exact ite_kept State.rts1 _ _ _ _ rfl (State.advance_rts1 _ _)
@[simp] theorem State.waitIsl_ecc (s : State) (i n : Nat) : (s.waitIsl i n).ecc = s.ecc := by
  unfold State.waitIsl
  exact ite_kept State.ecc _ _ _ _ rfl (State.advance_ecc _ _)
@[simp] theorem State.waitIsl_rx (s : State) (i n : Nat) : (s.waitIsl i n).rx = s.rx := by
  unfold State.waitIsl
  exact ite_kept State.rx _ _ _ _ rfl (State.advance_rx _ _)
@[simp] theorem State.waitIsl_pkts (s : State) (i n : Nat) : (s.waitIsl i n).pkts = s.pkts := by
  unfold State.waitIsl
  exact ite_kept State.pkts _ _ _ _ rfl (State.advance_pkts _ _)
@[simp] theorem State.waitIsl_bufs (s : State) (i n : Nat) : (s.waitIsl i n).bufs = s.bufs := by
  unfold State.waitIsl
  exact ite_kept State.bufs _ _ _ _ rfl (State.advance_bufs _ _)
@[simp] theorem State.waitIsl_freedTags (s : State) (i n : Nat) : (s.waitIsl i n).freedTags = s.freedTags := by
  unfold State.waitIsl
  exact ite_kept State.freedTags _ _ _ _ rfl (State.advance_freedTags _ _)
@[simp] theorem State.waitIsl_freedBufs (s : State) (i n : Nat) : (s.waitIsl i n).freedBufs = s.freedBufs := by
  unfold State.waitIsl
  exact ite_kept State.freedBufs _ _ _ _ rfl (State.advance_freedBufs _ _)
@[simp] theorem State.waitIsl_nextRel (s : State) (i n : Nat) : (s.waitIsl i n).nextRel = s.nextRel := by
  unfold State.waitIsl
  exact ite_kept State.nextRel _ _ _ _ rfl (State.advance_nextRel _ _)
@[simp] theorem State.waitIsl_turns (s : State) (i n : Nat) : (s.waitIsl i n).turns = s.turns := by
  unfold State.waitIsl
  exact ite_kept State.turns _ _ _ _ rfl (State.advance_turns _ _)
@[simp] theorem State.waitIsl_copies (s : State) (i n : Nat) : (s.waitIsl i n).copies = s.copies := by
  unfold State.waitIsl
  exact ite_kept State.copies _ _ _ _ rfl (State.advance_copies _ _)
@[simp] theorem State.waitIsl_nextCopy (s : State) (i n : Nat) : (s.waitIsl i n).nextCopy = s.nextCopy := by
  unfold State.waitIsl
  exact ite_kept State.nextCopy _ _ _ _ rfl (State.advance_nextCopy _ _)
@[simp] theorem State.waitIsl_nextOrd (s : State) (i n : Nat) : (s.waitIsl i n).nextOrd = s.nextOrd := by
  unfold State.waitIsl
  exact ite_kept State.nextOrd _ _ _ _ rfl (State.advance_nextOrd _ _)
@[simp] theorem State.waitIsl_shares (s : State) (i n : Nat) : (s.waitIsl i n).shares = s.shares := by
  unfold State.waitIsl
  exact ite_kept State.shares _ _ _ _ rfl (State.advance_shares _ _)
@[simp] theorem State.waitIsl_qs (s : State) (i n : Nat) : (s.waitIsl i n).qs = s.qs := by
  unfold State.waitIsl
  exact ite_kept State.qs _ _ _ _ rfl (State.advance_qs _ _)
@[simp] theorem State.waitIsl_tmPorts (s : State) (i n : Nat) : (s.waitIsl i n).tmPorts = s.tmPorts := by
  unfold State.waitIsl
  exact ite_kept State.tmPorts _ _ _ _ rfl (State.advance_tmPorts _ _)
@[simp] theorem State.waitIsl_refillAt (s : State) (i n : Nat) : (s.waitIsl i n).refillAt = s.refillAt := by
  unfold State.waitIsl
  exact ite_kept State.refillAt _ _ _ _ rfl (State.advance_refillAt _ _)
@[simp] theorem State.waitIsl_txLast (s : State) (i n : Nat) : (s.waitIsl i n).txLast = s.txLast := by
  unfold State.waitIsl
  exact ite_kept State.txLast _ _ _ _ rfl (State.advance_txLast _ _)
@[simp] theorem State.waitIsl_svn (s : State) (i n : Nat) : (s.waitIsl i n).svn = s.svn := by
  unfold State.waitIsl
  exact ite_kept State.svn _ _ _ _ rfl (State.advance_svn _ _)
@[simp] theorem State.waitIsl_pcie (s : State) (i n : Nat) : (s.waitIsl i n).pcie = s.pcie := by
  unfold State.waitIsl
  exact ite_kept State.pcie _ _ _ _ rfl (State.advance_pcie _ _)
@[simp] theorem State.waitIsl_trk (s : State) (i n : Nat) : (s.waitIsl i n).trk = s.trk := by
  unfold State.waitIsl
  exact ite_kept State.trk _ _ _ _ rfl (State.advance_trk _ _)
@[simp] theorem State.waitIsl_sw (s : State) (i n : Nat) : (s.waitIsl i n).sw = s.sw := by
  unfold State.waitIsl
  exact ite_kept State.sw _ _ _ _ rfl (State.advance_sw _ _)


/-- A wait for an instant that has come is none. -/
theorem State.waitDev_due (s : State) (t : Nat) (h : t ≤ s.devNow) : s.waitDev t = s := by
  unfold State.waitDev; simp [h]

theorem State.waitMono_due (s : State) (t : Nat) (h : t ≤ s.time.mono) : s.waitMono t = s := by
  unfold State.waitMono; simp [h]

theorem State.waitIsl_due (s : State) (i t : Nat) (h : t ≤ s.now i) : s.waitIsl i t = s := by
  unfold State.waitIsl; simp [h]

/-! ### Registers and fields -/

theorem resetOf_ofNat (w : Word) : BitVec.ofNat 32 w.toNat = w := by simp

/-- The word at an offset after a write of one. -/
theorem State.reg_setReg (s : State) (a b v : Nat) :
    (s.setReg a v).reg b = if a = b then v % 2 ^ 32 else s.reg b := by
  unfold State.reg State.setReg regAt
  simp only [Tab.find_set]
  split
  · subst_vars; split
    · rename_i h; simp only [Option.getD_none]; rw [← h]; simp
    · simp
  · rfl

@[simp] theorem State.reg_setReg_same (s : State) (a v : Nat) : (s.setReg a v).reg a = v % 2 ^ 32 := by
  simp [State.reg_setReg]

theorem State.reg_setReg_other (s : State) {a b : Nat} (v : Nat) (h : a ≠ b) : (s.setReg a v).reg b = s.reg b := by
  simp [State.reg_setReg, h]

theorem State.reg_lt (s : State) (a : Nat) : s.reg a < 2 ^ 32 := (regAt s.regs a).isLt

/-- A register is a function of the register file alone. -/
theorem State.reg_congr {s t : State} (h : t.regs = s.regs) (a : Nat) : t.reg a = s.reg a := by
  unfold State.reg; rw [h]

theorem State.rd_congr {s t : State} (h : t.regs = s.regs) (f : RFld) : t.rd f = s.rd f := by
  unfold State.rd; rw [State.reg_congr h]

theorem State.rd_of_reg {s t : State} {f : RFld} (h : t.reg f.addr = s.reg f.addr) : t.rd f = s.rd f := by
  unfold State.rd; rw [h]

theorem State.reg_wr (s : State) (f : RFld) (v b : Nat) :
    (s.wr f v).reg b = if f.addr = b then setBits (s.reg f.addr) f.lsb f.w v % 2 ^ 32 else s.reg b :=
  State.reg_setReg s f.addr b _

theorem State.reg_wr_other (s : State) {f : RFld} (v : Nat) {b : Nat} (h : f.addr ≠ b) : (s.wr f v).reg b = s.reg b := by
  simp [State.reg_wr, h]

/-- A field reads what was written, cut to its width. -/
theorem State.rd_wr_same (s : State) (f : RFld) (v : Nat) (h : f.lsb + f.w ≤ 32) : (s.wr f v).rd f = v % 2 ^ f.w := by
  unfold State.rd; rw [State.reg_wr, if_pos rfl, getBits_mod _ _ _ _ h, getBits_setBits_same]

/-- A field of another register keeps its value. -/
theorem State.rd_wr_addr (s : State) {f g : RFld} (v : Nat) (h : f.addr ≠ g.addr) : (s.wr f v).rd g = s.rd g := by
  unfold State.rd; rw [State.reg_wr_other s v h]

/-- A field beside the one written keeps its value. -/
theorem State.rd_wr_beside (s : State) {f g : RFld} (v : Nat) (hf : f.lsb + f.w ≤ 32)
    (h : f.lsb + f.w ≤ g.lsb ∨ g.lsb + g.w ≤ f.lsb) : (s.wr f v).rd g = s.rd g := by
  by_cases ha : f.addr = g.addr
  · unfold State.rd
    rw [State.reg_wr, if_pos ha, Nat.mod_eq_of_lt (setBits_lt _ _ _ _ _ (State.reg_lt _ _) hf),
      getBits_setBits_other _ _ _ _ _ _ h, ha]
  · exact State.rd_wr_addr s v ha

theorem State.reg_wr64 (s : State) (a v b : Nat) : (s.wr64 a v).reg b =
    if a + 4 = b then v / 2 ^ 32 % 2 ^ 32 else if a = b then v % 2 ^ 32 else s.reg b := by
  unfold State.wr64; rw [State.reg_setReg]; split
  · rfl
  · rw [State.reg_setReg]

/-- A two-register value reads what was written, cut to 64 bits. -/
theorem State.rd64_wr64 (s : State) (a v : Nat) : (s.wr64 a v).rd64 a = v % 2 ^ 64 := by
  unfold State.rd64; simp only [State.reg_wr64]; simp; omega

/-- A counter reads the sum, modulo 2^48. -/
theorem State.cntAt_cnt (s : State) (a n : Nat) : (s.cnt a n).cntAt a = (s.cntAt a + n) % 2 ^ 48 := by
  unfold State.cnt State.cntAt
  simp only [State.reg_wr64]; simp; omega

theorem State.reg_cnt_other (s : State) {a b : Nat} (n : Nat) (h : a ≠ b) (h4 : a + 4 ≠ b) : (s.cnt a n).reg b = s.reg b := by
  unfold State.cnt; rw [State.reg_wr64]; simp [h, h4]

theorem State.cntAt_congr {s t : State} {a : Nat} (h : t.reg a = s.reg a) (h4 : t.reg (a + 4) = s.reg (a + 4)) :
    t.cntAt a = s.cntAt a := by unfold State.cntAt; rw [h, h4]

theorem State.reg_hostWrite (s : State) (a v b : Nat) : (s.hostWrite a v).reg b =
    if a = b then hostWritten (fieldsAt a) (s.reg a) v % 2 ^ 32 else s.reg b := State.reg_setReg s a b _

theorem State.reg_raiseN (s : State) (f : RFld) (v b : Nat) : (s.raiseN f v).reg b = (s.wr f (s.rd f ||| v)).reg b :=
  State.reg_congr (State.raiseN_regs s f v) b

theorem State.reg_raise_other (s : State) {f : RFld} {b : Nat} (h : f.addr ≠ b) : (s.raise f).reg b = s.reg b := by
  unfold State.raise; rw [State.reg_raiseN, State.reg_wr_other _ _ h]

/-- A raised cause reads 1. -/
theorem State.rd_raise (s : State) (f : RFld) (h : f.lsb + f.w ≤ 32) (hw : f.w = 1) : (s.raise f).rd f = 1 := by
  unfold State.raise
  rw [State.rd_congr (State.raiseN_regs s f 1), State.rd_wr_same _ _ _ h, hw]
  have : s.rd f < 2 := by unfold State.rd; rw [hw]; exact getBits_lt _ _ 1
  interval_cases s.rd f <;> rfl

/-- The journal's writer touches the registers of its own losses alone. -/
theorem State.reg_journalRec (s : State) (i : Nat) (r : JRec) {b : Nat} (h : OBS_JRN_LOST_CNT ≠ b) (h4 : OBS_JRN_LOST_CNT + 4 ≠ b)
    (hi : OBS_INT ≠ b) : (s.journalRec i r).reg b = s.reg b := by
  unfold State.journalRec; dsimp only
  split
  · rfl
  · split
    · rw [State.reg_raise_other _ (by exact hi), State.reg_cnt_other _ _ h h4]
      refine State.reg_congr ?_ _; simp
    · refine State.reg_congr ?_ _; simp

theorem State.reg_journal (s : State) (i ty u : Nat) (l : List Byte) {b : Nat} (h : OBS_JRN_LOST_CNT ≠ b)
    (h4 : OBS_JRN_LOST_CNT + 4 ≠ b) (hi : OBS_INT ≠ b) : (s.journal i ty u l).reg b = s.reg b :=
  State.reg_journalRec s _ _ h h4 hi

theorem State.reg_journalPkt (s : State) (i ty u : Nat) (k : Bark) (l : List Byte) {b : Nat} (h : OBS_JRN_LOST_CNT ≠ b)
    (h4 : OBS_JRN_LOST_CNT + 4 ≠ b) (hi : OBS_INT ≠ b) : (s.journalPkt i ty u k l).reg b = s.reg b :=
  State.reg_journalRec s _ _ h h4 hi

/-! ### Gates -/

theorem onIsl_up {i : Nat} {s : State} {f : State → State} (h : s.alive i = true) : onIsl i s f = .next (f s) := by
  unfold onIsl; rw [if_pos h]

theorem whenUp_up {s : State} {f : State → State} (h : s.inReset = false) : whenUp s f = .next (f s) := by
  unfold whenUp; rw [h]; rfl

theorem onTime_up {s : State} {f : State → State} (h : s.timeUp = true) : onTime s f = .next (f s) := by
  unfold onTime; rw [if_pos h]

/-- A register write reaches its register. -/
theorem onBar0_up {a : Nat} {s : State} {f : State → State} (h : s.reaches a = true) : onBar0 a s f = .next (f s) := by
  simp only [State.reaches, Bool.and_eq_true, Bool.not_eq_true', Bool.and_eq_false_iff] at h
  obtain ⟨⟨⟨⟨h1, h2⟩, h3⟩, h4⟩, h5⟩ := h
  unfold onBar0 State.barWrite
  simp only [h1, h2, h3, h5, Bool.or_false, Bool.false_eq_true, if_false]
  rw [if_neg]
  simp only [Bool.and_eq_true, not_and, Bool.not_eq_true]
  rcases h4 with h4 | h4 <;> simp [h4]

end Sys2Proof.Machine
end

