-- ==== Sys2Proof/Laws/Memory.lean ====
section
/-!
SUPPORT. Memory: every operation that writes the Root store, host memory, the tables or the registers keeps its store's
canonical form, a read after a write gives the bytes written, and every other address is left alone.
-/
namespace Sys2Proof.Machine

/-- A run of bytes set one after another keeps the canonical form. -/
theorem setBytes_wf {t : Tab Byte} (bs : List Byte) (f : Nat → Nat) (a : Nat) (h : t.wf (fun _ => (0 : Byte)) = true) :
    (bs.foldl (fun (x : Tab Byte × Nat) b => (x.1.set 0 (f x.2) b, x.2 + 1)) (t, a)).1.wf (fun _ => (0 : Byte)) = true := by
  induction bs generalizing t a with
  | nil => exact h
  | cons b r ih => exact ih _ (Tab.wf_set_const h _ _)

/-- What stands at an address once bytes have been set from `a` on. -/
theorem setBytes_get (bs : List Byte) (t : Tab Byte) (a k : Nat) :
    (bs.foldl (fun (x : Tab Byte × Nat) b => (x.1.set 0 x.2 b, x.2 + 1)) (t, a)).1.get 0 k =
      if a ≤ k ∧ k < a + bs.length then bs.getD (k - a) 0 else t.get 0 k := by
  induction bs generalizing t a with
  | nil => simp
  | cons b r ih =>
    rw [List.foldl_cons, ih, Tab.get_set]
    by_cases h1 : a = k
    · subst h1; simp
    · by_cases h2 : a + 1 ≤ k ∧ k < a + 1 + r.length
      · rw [if_pos h2, if_pos ⟨by omega, by simp; omega⟩]
        obtain ⟨n, rfl⟩ : ∃ n, k = a + 1 + n := ⟨k - (a + 1), by omega⟩
        rw [show a + 1 + n - (a + 1) = n by omega, show a + 1 + n - a = n + 1 by omega]; rfl
      · rw [if_neg h2, if_neg h1, if_neg (by simp only [List.length_cons]; omega)]

/-- Bytes put into the Root store keep its canonical form. -/
theorem State.rsPut_rsWf (s : State) (a : Nat) (bs : List Byte) (h : s.rsWf = true) : (s.rsPut a bs).rsWf = true :=
  setBytes_wf bs id a h

/-- A byte of the Root store after a write: the one written inside, the old one outside. -/
theorem State.rsPut_get (s : State) (a : Nat) (bs : List Byte) (k : Nat) :
    (s.rsPut a bs).rs.get 0 k = if a ≤ k ∧ k < a + bs.length then bs.getD (k - a) 0 else s.rs.get 0 k :=
  setBytes_get bs s.rs a k

/-- A read of what a write has put gives the bytes written. -/
theorem State.rsRead_rsPut (s : State) (a : Nat) (bs : List Byte) : (s.rsPut a bs).rsRead a bs.length = bs := by
  apply List.ext_getElem
  · simp [State.rsRead]
  · intro i h1 h2
    simp only [State.rsRead, List.getElem_map, List.getElem_range, State.rsPut_get]
    rw [if_pos ⟨by omega, by omega⟩, show a + i - a = i by omega]; simp [h2]

/-- The device's writes to host memory keep its canonical form. -/
theorem State.hostPut_memWf (s : State) (a : Nat) (bs : List Byte) (h : s.memWf = true) : (s.hostPut a bs).memWf = true :=
  setBytes_wf bs (· % 2 ^ 64) a h

/-- Bits XORed into a stored word keep the Root store's canonical form. -/
theorem State.xorWord_rsWf (s : State) (src w d : Nat) (h : s.rsWf = true) : (s.xorWord src w d).rsWf = true := by
  unfold State.xorWord
  dsimp only
  split
  · split <;> exact h
  · exact setBytes_wf _ id _ h

/-- Errors that arrive in a word keep the Root store's canonical form. -/
theorem State.flipWord_rsWf (s : State) (src w pat : Nat) (h : s.rsWf = true) : (s.flipWord src w pat).rsWf = true := by
  simp only [State.flipWord]
  repeat' split
  all_goals first
    | exact h
    | exact State.xorWord_rsWf _ _ _ _ h

/-- A fold of operations that each keep the Root store's canonical form keeps it. -/
theorem foldl_rsWf {β : Type} (f : State → β → State) (hf : ∀ s b, s.rsWf = true → (f s b).rsWf = true) (l : List β)
    (s : State) (h : s.rsWf = true) : (l.foldl f s).rsWf = true := by
  induction l generalizing s with
  | nil => exact h
  | cons b r ih => exact ih _ (hf s b h)

/-- The log, the counters and the levels of error protection leave the bytes alone. -/
theorem State.eccLog_rs (s : State) (a b c d e f : Nat) : (s.eccLog a b c d e f).rs = s.rs := by
  unfold State.eccLog
  split
  · rfl
  · rw [State.wr64_rs, State.wr64_rs, State.setReg_rs]

theorem State.pageFail_rs (s : State) (a b c d e : Nat) : (s.pageFail a b c d e).rs = s.rs := by
  unfold State.pageFail
  rw [State.eccLog_rs, State.journal_rs, State.raiseN_rs, State.cnt_rs]

theorem State.leakDue_rs (s : State) (n : Nat) : (s.leakDue n).rs = s.rs := by
  unfold State.leakDue
  dsimp only
  split
  · rfl
  · rw [State.wr_rs]

theorem State.ceCount_rs (s : State) (a b : Nat) : (s.ceCount a b).rs = s.rs := by
  unfold State.ceCount
  dsimp only
  split
  · rw [State.journal_rs, State.raiseN_rs, State.wr_rs, State.cnt_rs, State.leakDue_rs]
  · rw [State.wr_rs, State.cnt_rs, State.leakDue_rs]

/-- Symbol errors corrected keep it. -/
theorem State.symFix_rsWf (s : State) (src page : Nat) (h : s.rsWf = true) : (s.symFix src page).rsWf = true := by
  unfold State.symFix
  split
  · exact h
  · refine foldl_rsWf _ ?_ _ _ h
    intro s w hs
    exact State.xorWord_rsWf s src w _ hs

/-- A table entry written with its own default keeps the tables' canonical form. -/
theorem State.setEnt_tblWf (s : State) (id copy idx v : Nat) (hd : tblKeyDefault (tblKey id copy idx) = tblDefault id idx)
    (h : s.tblWf = true) : (s.setEnt id copy idx v).tblWf = true := by
  unfold State.tblWf State.setEnt
  rw [← hd]
  exact Tab.wf_set h _ _

/-- A register write keeps the register file's canonical form. -/
theorem State.setReg_regsWf (s : State) (a v : Nat) (h : s.regsWf = true) : (s.setReg a v).regsWf = true :=
  Tab.wf_set h a _

theorem State.wr_regsWf (s : State) (f : RFld) (v : Nat) (h : s.regsWf = true) : (s.wr f v).regsWf = true :=
  State.setReg_regsWf s _ _ h

theorem State.hostWrite_regsWf (s : State) (a v : Nat) (h : s.regsWf = true) : (s.hostWrite a v).regsWf = true :=
  State.setReg_regsWf s _ _ h

theorem State.wr64_regsWf (s : State) (a v : Nat) (h : s.regsWf = true) : (s.wr64 a v).regsWf = true :=
  State.setReg_regsWf _ _ _ (State.setReg_regsWf s _ _ h)

theorem State.cnt_regsWf (s : State) (a n : Nat) (h : s.regsWf = true) : (s.cnt a n).regsWf = true :=
  State.wr64_regsWf s _ _ h

theorem State.raiseN_regsWf (s : State) (f : RFld) (v : Nat) (h : s.regsWf = true) : (s.raiseN f v).regsWf = true := by
  unfold State.raiseN
  dsimp only
  split
  · split
    · exact State.wr_regsWf s _ _ h
    · exact State.wr_regsWf s _ _ h
  · exact State.wr_regsWf s _ _ h

/-- An injection spent leaves the bytes alone. -/
theorem State.injSpent_rs (s : State) : s.injSpent.rs = s.rs := by
  unfold State.injSpent
  dsimp only
  split
  · rw [State.raise_rs, State.wr_rs, State.wr_rs]
  · rw [State.wr_rs]

/-- A word written whole: its errors and poison go, an injection may enter; the bytes stay canonical. -/
theorem State.wordWritten_rsWf (s : State) (src w : Nat) (h : s.rsWf = true) : (s.wordWritten src w).rsWf = true := by
  unfold State.wordWritten
  dsimp only
  split
  · unfold State.rsWf
    rw [State.injSpent_rs]
    exact State.flipWord_rsWf _ _ _ _ (by simpa only [State.rsWf] using h)
  · simpa only [State.rsWf] using h

theorem State.pageWritten_rs (s : State) (a b : Nat) : (s.pageWritten a b).rs = s.rs := by
  unfold State.pageWritten
  split
  · rw [State.injSpent_rs]
  · rfl

/-- A page corrected keeps the Root store's canonical form. -/
theorem State.pageFixed_rsWf (s : State) (src page : Nat) (bad : List Nat) (h : s.rsWf = true) :
    (s.pageFixed src page bad).rsWf = true := by
  unfold State.pageFixed
  exact State.symFix_rsWf s src page h

/-- A page corrected or failed keeps it. -/
theorem State.fixRsWord_rsWf (s : State) (src w : Nat) (h : s.rsWf = true) : (s.fixRsWord src w).rsWf = true := by
  unfold State.fixRsWord
  extract_lets page bad d s1
  by_cases hc : s.pageOk src page = true
  · rw [if_pos hc]; exact State.pageFixed_rsWf s src page bad h
  · rw [if_neg hc]
    refine foldl_rsWf _ ?_ _ _ ?_
    · intro s w hs
      exact setBytes_wf _ id _ hs
    have : s1.rs = s.rs := by simp only [s1, State.pageFail_rs]
    unfold State.rsWf State.symForget; rw [this]; exact h

/-- A word read keeps it, whatever its codes show. -/
theorem State.readWord_rsWf (s : State) (k : Nat) (h : s.rsWf = true) : (s.readWord k).rsWf = true := by
  unfold State.readWord
  dsimp only
  split
  · unfold State.rsWf; rw [State.eccLog_rs, State.cnt_rs]; exact h
  · split
    · unfold State.rsWf; rw [State.ceCount_rs]; exact h
    · exact State.fixRsWord_rsWf _ _ _ (by unfold State.rsWf; rw [State.cnt_rs]; exact h)
    · exact h

/-- Every write of the Root store keeps its canonical form. -/
theorem State.rsUnit_rsWf (s : State) (a : Nat) (bs : List Byte) (h : s.rsWf = true) : (s.rsUnit a bs).rsWf = true := by
  unfold State.rsUnit
  extract_lets n part s1
  have h1 : s1.rsWf = true := foldl_rsWf _ (fun s k hs => State.readWord_rsWf s k hs) _ _ h
  split
  · unfold State.rsWf; rw [State.eccLog_rs, State.journal_rs, State.raise_rs, State.cnt_rs]; exact h1
  · unfold State.rsWf; rw [State.pageWritten_rs]
    exact foldl_rsWf _ (fun s k hs => State.wordWritten_rsWf s _ _ hs) _ _ (State.rsPut_rsWf _ _ _ h1)

theorem State.rsUnits_rsWf (n : Nat) (s : State) (a : Nat) (bs : List Byte) (h : s.rsWf = true) :
    (s.rsUnits n a bs).rsWf = true := by
  induction n generalizing s a bs with
  | zero => exact h
  | succ n ih =>
    unfold State.rsUnits
    split
    · exact h
    · exact ih _ _ _ (State.rsUnit_rsWf _ _ _ h)

theorem State.rsWrite_rsWf (s : State) (a : Nat) (bs : List Byte) (h : s.rsWf = true) : (s.rsWrite a bs).rsWf = true := by
  unfold State.rsWrite
  split
  · exact State.rsPut_rsWf _ _ _ h
  · exact State.rsUnits_rsWf _ _ _ _ h

/-- A read of the Root store keeps it. -/
theorem State.rsScan_rsWf (s : State) (a n : Nat) (h : s.rsWf = true) : (s.rsScan a n).rsWf = true := by
  unfold State.rsScan
  split
  · exact h
  · exact foldl_rsWf _ (fun s k hs => State.readWord_rsWf s k hs) _ _ h

end Sys2Proof.Machine
end

