-- ==== Sys2Proof/Machine/Package.lean ====
section
/-!
DEFINITION. The package as the board meets it: supply rails and their ranges (R455, R458 to R460), the ball of every signal
(R462 to R466). No command changes any of it.
-/
namespace Sys2Proof.Machine

/-- The supply rails (R455). -/
inductive Rail where
  | vddCore | vddSram | vddSds | vddSdsh | vddHbm | vddqHbm | vppHbm | vddIo
  deriving DecidableEq, Repr

/-- A rail's figures: levels in millivolts, currents in tenths of an ampere. -/
structure RailSpec where
  nominal : Nat
  opMin : Nat
  opMax : Nat
  maxDc : Nat
  peak : Nat
  /-- the highest level without damage (R460); the lowest is -300 mV for each -/
  absMax : Nat
  /-- its step of the power-up order (R458) -/
  step : Nat
  /-- its supply balls (R463) -/
  balls : Nat
  deriving DecidableEq, Repr

/-- R455, R458, R460 and R463, rail by rail. -/
def Rail.spec : Rail → RailSpec
  | .vddCore => ⟨750, 731, 769, 2670, 3200, 900, 2, 1100⟩
  | .vddSram => ⟨850, 825, 875, 400, 480, 1000, 3, 180⟩
  | .vddSds => ⟨850, 825, 875, 990, 1100, 1000, 3, 420⟩
  | .vddSdsh => ⟨1200, 1164, 1236, 290, 320, 1350, 3, 160⟩
  | .vddHbm => ⟨1100, 1067, 1133, 130, 160, 1300, 2, 60⟩
  | .vddqHbm => ⟨400, 388, 412, 250, 300, 600, 3, 120⟩
  | .vppHbm => ⟨1800, 1746, 1854, 12, 20, 2100, 1, 16⟩
  | .vddIo => ⟨1800, 1710, 1890, 23, 30, 2100, 1, 24⟩

/-- A rail at `mv` stands within its operating range. -/
def Rail.inRange (r : Rail) (mv : Nat) : Bool := decide (r.spec.opMin ≤ mv) && decide (mv ≤ r.spec.opMax)

/-- R458: a rail may ramp once every rail of the steps before its own is within range. -/
def Rail.mayRamp (r : Rail) (level : Rail → Nat) : Bool :=
  [Rail.vddCore, .vddSram, .vddSds, .vddSdsh, .vddHbm, .vddqHbm, .vppHbm, .vddIo].all (fun q =>
    decide (r.spec.step ≤ q.spec.step) || q.inRange (level q))

/-- R458: the order of levels that holds throughout the ramps. -/
def rampOrder (level : Rail → Nat) : Bool :=
  decide (level .vddHbm ≤ level .vppHbm) && decide (level .vddqHbm ≤ level .vddHbm)

/-- A ball by row index and column, each from 1 to 78. -/
structure Ball where
  row : Nat
  col : Nat
  deriving DecidableEq, Repr

/-- The letters of rows, in order; the letter at position n is the (n + 1)-th. -/
def rowLetters : String := "ABCDEFGHJKLMNPTUVWY"

/-- R462: the row index of a row name of one or two letters; 0 for a letter that names no row. -/
def ballRow (name : String) : Nat :=
  let pos := fun c => match rowLetters.toList.findIdx? (· == c) with | some i => i + 1 | none => 0
  match name.toList with
  | [c] => pos c
  | [a, c] => if pos a = 0 ∨ pos c = 0 then 0 else 19 * pos a + pos c
  | _ => 0

/-- The four pins of a SerDes or PCIe lane. -/
inductive LanePin where
  | rxp | rxn | txp | txn
  deriving DecidableEq, Repr

/-- How far from the package edge a lane's pin lies (R464). -/
def LanePin.depth : LanePin → Nat
  | .rxp => 1 | .rxn => 2 | .txp => 5 | .txn => 6

/-- R464: the ball of an Ethernet lane's pin. -/
def laneBall (l : Nat) (k : LanePin) : Ball :=
  let m := l % 64
  match l / 64 with
  | 0 => ⟨k.depth, 7 + m⟩
  | 1 => ⟨7 + m, 79 - k.depth⟩
  | 2 => ⟨79 - k.depth, 70 - m⟩
  | _ => ⟨70 - m, k.depth⟩

/-- R465: the ball of a PCIe lane's pin. -/
def pcieBall (l : Nat) : LanePin → Ball
  | .rxp => ⟨ballRow "CP", 71 + l⟩
  | .rxn => ⟨ballRow "CT", 71 + l⟩
  | .txp => ⟨ballRow "CV", 71 + l⟩
  | .txn => ⟨ballRow "CW", 71 + l⟩

/-- The other signals of R465 and R466. -/
inductive Signal where
  | porstN | sysrstN | sysclkP | sysclkN | tclkIn | psel (k : Fin 2) | qspiSck | qspiCsN | qspiIo (k : Fin 4)
  | thermAlertN | thermTripN | ppsOut | tcap (k : Fin 4) | ttrig (k : Fin 4) | tck | tms | tdi | tdo | trstN
  | pcieRefclkP | pcieRefclkN
  deriving DecidableEq, Repr

/-- R465, R466: the ball of a signal. -/
def Signal.ball : Signal → Ball
  | .porstN => ⟨ballRow "A", 2⟩
  | .sysrstN => ⟨ballRow "A", 3⟩
  | .sysclkP => ⟨ballRow "B", 2⟩
  | .sysclkN => ⟨ballRow "B", 3⟩
  | .tclkIn => ⟨ballRow "D", 2⟩
  | .psel k => ⟨ballRow "C", 5 + k.val⟩
  | .qspiSck => ⟨ballRow "B", 72⟩
  | .qspiCsN => ⟨ballRow "B", 73⟩
  | .qspiIo k => ⟨ballRow (if k.val < 2 then "C" else "D"), 72 + k.val % 2⟩
  | .thermAlertN => ⟨ballRow "E", 5⟩
  | .thermTripN => ⟨ballRow "E", 6⟩
  | .ppsOut => ⟨ballRow "CP", 2⟩
  | .tcap k => ⟨ballRow "CT", 1 + k.val⟩
  | .ttrig k => ⟨ballRow "CV", 1 + k.val⟩
  | .tck => ⟨ballRow "F", 75⟩
  | .tms => ⟨ballRow "F", 76⟩
  | .tdi => ⟨ballRow "F", 77⟩
  | .tdo => ⟨ballRow "E", 76⟩
  | .trstN => ⟨ballRow "E", 77⟩
  | .pcieRefclkP => ⟨ballRow "DB", 71⟩
  | .pcieRefclkN => ⟨ballRow "DB", 72⟩

/-- R463: balls by group: Ethernet SerDes, PCI Express, clocks, boot, reset, time, test, thermal, supplies, ground, reserved. -/
def ballGroups : List Nat := [1024, 34, 3, 8, 2, 9, 5, 2, 2080, 2901, 16]

end Sys2Proof.Machine
end

