-- ==== Sys2Proof/WellFormed.lean ====
section
/-!
DEFINITION. Which terms of Instr stand for something that can reach the block: operands whose size the spec fixes (a
descriptor is 32 bytes, a channel-table entry 64, a header copy of the flash 128), opcodes and codes within the row's
range. The meanings are total and do not rely on it.
-/
namespace Sys2Proof

/-- Flash bytes: header copies of 128 bytes (R433), none where the flash does not respond; a profile of at most 16 MiB. -/
def flashOk (h0 h1 prof : List Byte) : Bool :=
  (h0.isEmpty || h0.length == 128) && (h1.isEmpty || h1.length == 128) && decide (prof.length ≤ 16777216)

/-- The table identifiers of R369. -/
def tableIds : List Nat :=
  [0x10, 0x11, 0x12, 0x20, 0x21, 0x22, 0x30, 0x31, 0x32, 0x40, 0x41, 0x42, 0x43, 0x44, 0x45, 0x46, 0x50, 0x51, 0x60, 0x70, 0x71]

/-- Whether a command's operands are of the sizes and ranges that the spec gives them. -/
def wellFormed (i : Instr) : Bool :=
  match i with
  | .porstNAssert => true
  | .porstNRelease => true
  | .sysrstNAssert => true
  | .sysrstNRelease => true
  | .glbRstCmd _ => true
  | .sysrstPulseEnd => true
  | .bootSequence _ h0 h1 prof => flashOk h0 h1 prof
  | .profSwitchHitless _ h0 h1 prof => flashOk h0 h1 prof
  | .profSwitchDrain _ h0 h1 prof => flashOk h0 h1 prof
  | .profDrainComplete => true
  | .profDrainTimeout => true
  | .profSwitchDone => true
  | .railUndervoltage => true
  | .railRecovery => true
  | .tjSensorReading _ _ => true
  | .snsFail _ => true
  | .tjHwmClr _ => true
  | .refClockLoss _ => true
  | .islandUnlock _ => true
  | .tclkSelWrite _ => true
  | .timePllRelock => true
  | .clkMeasStart _ => true
  | .clkMeasDone => true
  | .bar0BadAccess _ _ => true
  | .bar0AccessTimeout off _ => off.toNat % 4 == 0
  | .regWrite _ _ => true
  | .jtagExtest _ => true
  | .jtagSamplePreload _ => true
  | .jtagIdcode => true
  | .jtagClamp => true
  | .jtagHighz => true
  | .jtagExtestPulse _ => true
  | .jtagExtestTrain _ => true
  | .jtagBypass code => decide (6 < code.toNat)
  | .modeWrite _ _ => true
  | .modeActive _ => true
  | .portEnable _ _ => true
  | .portDisable _ _ => true
  | .portDrained _ => true
  | .anDone _ _ => true
  | .anFail _ => true
  | .ltDone _ => true
  | .ltFail _ => true
  | .amMatch _ _ _ _ => true
  | .amCandCheck _ _ _ _ => true
  | .amLockCheck _ _ _ => true
  | .linkUp _ => true
  | .linkDown _ _ _ _ => true
  | .fecCodeword _ _ syms => decide (syms.length ≤ 15)
  | .secondEnd _ => true
  | .lldpFrame _ _ => true
  | .traceTimeout _ => true
  | .traceExpWrite _ _ _ => true
  | .txeqWrite _ _ => true
  | .frameSfd _ _ _ => true
  | .bufferAlloc _ => true
  | .rxFifoOvf _ _ => true
  | .bufferOverrun _ => true
  | .frameEnd _ _ => true
  | .parseWindowRelease _ _ => true
  | .fragTimeout _ _ => true
  | .fragTableDisable _ => true
  | .decision _ _ => true
  | .hotBlockWriteback _ => true
  | .frameEndCorrection _ => true
  | .find _ _ => true
  | .dirAltStep _ _ => true
  | .dirPrimaryStep _ _ => true
  | .missTokenRefill _ => true
  | .findReply _ _ => true
  | .lineInstall _ _ => true
  | .parkRelease _ => true
  | .parkTimeout _ _ => true
  | .joinServe _ _ => true
  | .parkReturn _ _ => true
  | .flowSweepStep _ => true
  | .groveEnable _ _ => true
  | .groveReady => true
  | .groveFlush _ => true
  | .flushDone => true
  | .recircPass _ => true
  | .twigDispatch _ _ => true
  | .twigColdRead _ _ => true
  | .twigItemStart _ _ => true
  | .twigMicroword _ _ => true
  | .aluNop _ _ _ _ _ _ _ => true
  | .aluAdd _ _ _ _ _ _ _ => true
  | .aluSub _ _ _ _ _ _ _ => true
  | .aluAnd _ _ _ _ _ _ _ => true
  | .aluOr _ _ _ _ _ _ _ => true
  | .aluXor _ _ _ _ _ _ _ => true
  | .aluShl _ _ _ _ _ _ _ => true
  | .aluShr _ _ _ _ _ _ _ => true
  | .aluSar _ _ _ _ _ _ _ => true
  | .aluMov _ _ _ _ _ _ _ => true
  | .aluCmp _ _ _ _ _ _ _ => true
  | .aluTst _ _ _ _ _ _ _ => true
  | .aluMinu _ _ _ _ _ _ _ => true
  | .aluMaxu _ _ _ _ _ _ _ => true
  | .aluExt _ _ _ _ _ _ _ => true
  | .aluCsum16 _ _ _ _ _ _ _ => true
  | .aluBswap _ _ _ _ _ _ _ => true
  | .aluMul32 _ _ _ _ _ _ _ => true
  | .memNop _ _ _ _ _ => true
  | .memLd _ _ _ _ _ => true
  | .memLdn _ _ _ _ _ => true
  | .memSt _ _ _ _ _ => true
  | .memStn _ _ _ _ _ => true
  | .memLdi _ _ _ _ _ => true
  | .memLdni _ _ _ _ _ => true
  | .memSti _ _ _ _ _ => true
  | .memStni _ _ _ _ _ => true
  | .seqNext _ _ => true
  | .seqJmp _ _ _ => true
  | .seqBr _ _ _ _ => true
  | .seqCall _ _ _ => true
  | .seqRet _ _ => true
  | .seqSwitch _ _ _ _ _ => true
  | .seqEnd _ _ => true
  | .commitNone _ _ => true
  | .commitBark _ _ => true
  | .commitHot _ _ => true
  | .commitCold _ _ => true
  | .commitHdr _ _ => true
  | .commitAll _ _ => true
  | .commitDrop _ _ => true
  | .twigItemComplete _ _ => true
  | .twigItemTimeout _ _ => true
  | .ordSlotReady _ _ => true
  | .ordHoldExpire _ _ => true
  | .twigHaltReq _ => true
  | .twigClusterHalted _ => true
  | .twigPatchFlip => true
  | .twigPatchRetire => true
  | .twigPatchSyncDone => true
  | .controlStoreRepair _ => true
  | .genFlip _ => true
  | .flipTimerExpire => true
  | .genRetire => true
  | .drainSlow => true
  | .graftApplyDone => true
  | .graftLogUe => true
  | .catchupDone => true
  | .resyncDone => true
  | .grfLogCfgWrite _ => true
  | .grfRsCfgWrite _ => true
  | .learnMerge _ => true
  | .learnRelease => true
  | .pruneStep => true
  | .trunkArbitration => true
  | .trunkTransferEnd => true
  | .trkPrioMapWrite _ => true
  | .waitClr _ => true
  | .rootStoreEnable _ => true
  | .rootStoreReady _ => true
  | .rtsMapWrite _ _ => true
  | .rtsBwCfgWrite _ _ => true
  | .rtsRequest _ _ a n d => decide (1 ≤ n.val) && decide (a.toNat + n.val ≤ 0xC00000000) && d.all (fun b => b.length == n.val)
  | .rtsAccess _ _ => true
  | .rtsAccessComplete _ _ _ => true
  | .pageIdleClose _ _ => true
  | .hbmRefresh _ _ _ => true
  | .hbmTempRead _ _ => true
  | .retrain _ _ _ => true
  | .dequeueOrder _ => true
  | .presenceNotice _ => true
  | .transmitOrder _ => true
  | .txComplete _ => true
  | .ctUnderrun _ _ => true
  | .cellUe _ _ _ _ _ _ _ => true
  | .bufferFree _ _ _ _ => true
  | .xpStale _ => true
  | .bufStaleSweep _ => true
  | .shareWinEnd _ _ _ => true
  | .crnPoolCfgWrite _ _ _ => true
  | .admission _ _ => true
  | .schedulerSelect _ => true
  | .headAgeCheck _ _ => true
  | .shaperRefill _ => true
  | .qShareWrite _ _ _ => true
  | .gclActReq _ _ => true
  | .gclActivate _ => true
  | .timFreqWrite _ => true
  | .timeUpdate => true
  | .timeSyncLoss _ => true
  | .timeSnap => true
  | .timeStep _ => true
  | .timeSlew => true
  | .timeSet _ => true
  | .stepApply => true
  | .slewDone => true
  | .timeCapture _ _ => true
  | .triggerCfgWrite _ _ _ => true
  | .triggerFire _ => true
  | .triggerGclAction _ => true
  | .triggerPulseEnd _ => true
  | .ppsPulse => true
  | .scrubStep _ _ => true
  | .pageCorrection _ _ _ => true
  | .tableRepair id _ _ => tableIds.contains id.toNat
  | .ceLeak _ => true
  | .eccInjArm _ => true
  | .chEnable _ e => e.all (fun b => b.length == 64)
  | .chDisable _ => true
  | .chRefresh _ e => e.all (fun b => b.length == 64)
  | .chReset _ => true
  | .disableDone => true
  | .chtLoad _ e => e.all (fun b => b.length == 64)
  | .sqTail _ _ _ => true
  | .cqHead _ _ _ => true
  | .commandFetch _ d => d.all (fun b => b.length == 32)
  | .completionPost _ _ => true
  | .cmdNop _ _ => true
  | .tblWrite _ _ _ => true
  | .tblRead _ _ => true
  | .keyWrite _ _ _ => true
  | .keyDelete _ _ _ => true
  | .idxDelete _ _ => true
  | .keyFind _ _ _ => true
  | .brgFlush _ _ => true
  | .flowPair _ _ => true
  | .knotAcq _ _ => true
  | .knotRel _ _ => true
  | .knotRenew _ _ => true
  | .knotLeaseExpire _ => true
  | .graft _ _ => true
  | .patch _ _ => true
  | .memRead _ _ => true
  | .memWrite _ _ _ => true
  | .jrnRead _ _ => true
  | .cntRead _ _ => true
  | .injPipe _ _ _ _ => true
  | .injPort _ _ _ _ => true
  | .rxBuf _ _ => true
  | .evBuf _ _ => true
  | .hostCopyDeliver _ _ _ => true
  | .rxCopyGiveup _ _ _ => true
  | .msixMessage => true
  | .holdoffExpire _ => true
  | .channelHalt _ cause => decide (1 ≤ cause.val)
  | .flr => true
  | .d3hot => true
  | .snapReq => true
  | .snapshotEpoch => true
  | .snapshotDone => true
  | .pmuClr _ => true
  | .pmuOvf => true
  | .sampWinEnd => true
  | .journalWrite => true
  | .jrnLost _ _ => true
  | .jrnRestart => true
  | .activeExport _ => true
  | .templateLoad _ => true
  | .templateResend => true
  | .exportMessage => true
  | .expLost => true
  | .evStreamEntry _ => true
  | .evBufferFlush _ => true
  | .tagHwmClr _ _ => true
  | .ppsPulseEnd => true
  | .coldReadTokenRefill _ => true
  | .grvDirFull _ => true
  | .grvParkTmo _ => true
  | .refClockReturn _ => true
  | .jtagTestLogicReset => true
  | .exportEnable _ => true
  | .prbsCheck _ _ _ => true

end Sys2Proof
end

