-- ==== Sys2Proof/Tests/Slice0.lean ====
section
/-!
SUPPORT. The model's own tests: terms that WellFormed refuses, small runs of one command with results worked out from the
spec, and for every statement a state and operands that meet its conditions.
-/
namespace Sys2Proof.Tests
open Sys2Proof.Machine
set_option Elab.async false

/-- A booted device with nothing attached: BUSY is 0 and DONE is 1. -/
def up : State := (State.reset.wr GLB_BOOT_STS_BUSY 0).wr GLB_BOOT_STS_DONE 1

/-! ### Well-formedness: each check refuses an ill-formed term -/
theorem test_wf_flash_header : wellFormed (.bootSequence 0 [1] [] []) = false ∧ wellFormed (.bootSequence 0 [] [] []) = true := by decide
theorem test_wf_flash_header_hitless : wellFormed (.profSwitchHitless 0 [] [1, 2] []) = false := by decide
theorem test_wf_flash_header_drain : wellFormed (.profSwitchDrain 0 [] [3] []) = false := by decide
theorem test_wf_timeout_unaligned : wellFormed (.bar0AccessTimeout 2 true) = false ∧ wellFormed (.bar0AccessTimeout 4 true) = true := by decide
theorem test_wf_bypass_code : wellFormed (.jtagBypass 2) = false ∧ wellFormed (.jtagBypass 0xFF) = true := by decide
theorem test_wf_fec_symbols : wellFormed (.fecCodeword 0 true (List.replicate 16 0)) = false := by decide
theorem test_wf_rts_empty : wellFormed (.rtsRequest 0 0 0 0 none) = false := by decide
theorem test_wf_rts_range : wellFormed (.rtsRequest 0 0 0xBFFFFFFFF 2 none) = false := by decide
theorem test_wf_rts_data : wellFormed (.rtsRequest 0 0 0 2 (some [1])) = false := by decide
theorem test_wf_table_id : wellFormed (.tableRepair 0x13 0 0) = false ∧ wellFormed (.tableRepair 0x71 0 0) = true := by decide
theorem test_wf_enable_entry : wellFormed (.chEnable 0 (some [0])) = false := by decide
theorem test_wf_refresh_entry : wellFormed (.chRefresh 0 (some [0])) = false := by decide
theorem test_wf_load_entry : wellFormed (.chtLoad 0 (some [0])) = false := by decide
theorem test_wf_descriptor : wellFormed (.commandFetch 0 (some [0])) = false ∧ wellFormed (.commandFetch 0 none) = true := by decide
theorem test_wf_halt_cause : wellFormed (.channelHalt 0 0) = false := by decide

/-! ### The spec's worked examples -/
/-- 06, "Placing one new flow": bank, set, preferred way, FP, alternate bucket. -/
theorem test_place_flow : bankOf 0x7C35A2E9 = 233 ∧ setOf 0x7C35A2E9 = 1716 ∧ prefOf 0x7C35A2E9 = 1 ∧
    fpOf 0x7C35A2E9 0xB1D04C7A = 0xB17C ∧ altBucket 13651066 0xB17C = 5815190 ∧ groupOf 0x7C35A2E9 = 7 := by decide
/-- Pool 7 of chapter 07's worked example. -/
def pool7 : Nat := leNat ([100, 64, 0, 0, 19, 5] ++ natLe 2 1024 ++ [203, 0, 113, 0])
/-- 07: 100.64.18.77 has the public address 203.0.113.146 and the ports from 27,232 on. -/
theorem test_nat_out : npBlk pool7 = 2016 ∧ npOut pool7 (100 * 2 ^ 24 + 64 * 2 ^ 16 + 18 * 256 + 77) =
    some (203 * 2 ^ 24 + 113 * 256 + 146, 27232) := by decide +kernel
/-- 07: the way back from 203.0.113.146 port 28,942. -/
theorem test_nat_in : npIn pool7 (203 * 2 ^ 24 + 113 * 256 + 146) 28942 = some (100 * 2 ^ 24 + 64 * 2 ^ 16 + 18 * 256 + 77) := by
  decide +kernel
/-- 12, "a Sync across a step": residence 4,864 ns, and the new correctionField. -/
theorem test_residence : ((State.reset.wr64 TIM_STEP_AT 5000002600).wr64 TIM_STEP_DELTA 500).residence 5000000123 5000005487 = 4864 ∧
    corrField 0x01238000 4864 = 0x14238000 := by decide +kernel
/-- 11, "a two-window schedule": O_6 and O_5 in ps. -/
theorem test_open_time : openTime 6 15460 0 [(2000, 0x40), (8000, 0x23)] = 1984540 ∧
    openTime 5 15460 0 [(2000, 0x40), (8000, 0x23)] = 7984540 := by decide
/-- 17, "locating three registers of port 37 and port 40". -/
theorem test_register_addresses : BGH_PKEY_CFG 4 5 = 0x02100214 ∧ CRN_RSV_CFG 4 5 2 = 0x06050158 ∧ TMG_Q_SHARE 40 5 = 0x071281A0 := by
  decide
/-- R306's value at 800GbE, 762.235 ns, in 1/16 ns rounded up. -/
theorem test_t_fab : (up.wr (PRT_GRP_STS_MODE_ACT 1) 1).tFab 8 = 12196 := by decide +kernel
/-- 11, "a rate change during debt": RATE 8,000 adds 125 bytes a refill to a debt of 9,000. -/
theorem test_refill_debt : credit (refilled (ofSigned 32 (-9000 * 64)) 8000 4000) = -(9000 - 125) * 64 := by decide

/-! ### Encodings and flags -/
/-- R473: version 1, part 0x5100, manufacturer 0x425, bit 0 set. -/
theorem test_idcode : jtagIdcode.toNat = 1 * 2 ^ 28 + 0x5100 * 2 ^ 12 + 0x425 * 2 + 1 := by decide
/-- R221: an addition that wraps to 0 sets Z and the carry. -/
theorem test_add_wraps : alu 1 (BitVec.ofNat 64 (2 ^ 64 - 1)) 1 = some (some 0, some (flagWord true false true false)) := by decide
/-- R221: a subtraction below 0 sets N and the borrow. -/
theorem test_sub_borrows : alu 2 0 1 = some (some (BitVec.ofNat 64 (2 ^ 64 - 1)), some (flagWord false true true false)) := by decide
/-- R221: EXT of 8 bits at bit 4. -/
theorem test_ext : alu 14 0xABC 0x704 = some (some 0xAB, some (flagWord false false false false)) := by decide
/-- R221: BSWAP reverses the bytes. -/
theorem test_bswap : bswap64 1 = BitVec.ofNat 64 (2 ^ 56) := by decide
/-- R341: one flipped bit is correctable, two are not, none is sound. -/
theorem test_sec_ded : classify 64 0 = .ok ∧ classify 64 1 = .ce ∧ classify 64 3 = .ue := by decide
/-- R342: check bits 1:0 inverted mark poison. -/
theorem test_poison : classify 64 (3 * 2 ^ 64) = .poison := by decide
/-- R464's worked example: lane 37 lies at A44, B44, E44 and F44; lane 100's RXP at BE78; lane 200's TXN at CE6. -/
theorem test_lane_balls : [LanePin.rxp, .rxn, .txp, .txn].map (laneBall 37) = ["A", "B", "E", "F"].map (fun r => ⟨ballRow r, 44⟩)
    ∧ laneBall 100 .rxp = ⟨ballRow "BE", 78⟩ ∧ laneBall 200 .txn = ⟨ballRow "CE", 6⟩ := by decide +kernel

/-! ### StepRunsFront -/

theorem wit_StepRunsFront : State.reset.pending = [] := rfl

/-! ### TimeReadAndRate -/

theorem wit_TimeReadAndRate : up.reaches TIM_SNAP = true ∧ up.reaches TIM_FREQ = true := by decide

/-! ### StepRequestAccepted -/

theorem wit_StepRequestAccepted : up.reaches TIM_ADJ_CMD = true ∧ up.time.stepPend = none ∧
    0 ≤ (up.devNow : Int) + 2000 + toSigned 64 (up.rd64 TIM_ADJ) ∧ up.on TIM_STS_INIT = true := by decide

/-! ### StepRequestRefused -/

theorem wit_StepRequestRefused_1 : let s := (up.wr TIM_STS_INIT 0).wr64 TIM_ADJ 100000
    s.reaches TIM_ADJ_CMD = true ∧ s.on TIM_STS_INIT = false ∧
    s.rd TIM_STEP_CFG_THR < (toSigned 64 (s.rd64 TIM_ADJ)).natAbs ∧ s.time.stepPend = none ∧ s.time.lastStepEnd = none := by
  decide
theorem wit_StepRequestRefused_2 : let s : State := { up with time.stepPend := some ⟨0, 0, 1, false⟩ }
    s.reaches TIM_ADJ_CMD = true ∧ s.time.stepPend.isSome = true ∧ s.on TIM_STS_INIT = true := by decide

/-! ### SlewAndStepEffects -/

theorem wit_SlewAndStepEffects_1 : let s := up.wr64 TIM_ADJ 5
    s.reaches TIM_ADJ_CMD = true ∧ toSigned 64 (s.rd64 TIM_ADJ) ≠ 0 ∧ toSigned 64 (up.rd64 TIM_ADJ) = 0 ∧
    up.reaches TIM_ADJ_CMD = true := by decide
theorem wit_SlewAndStepEffects_2 : let s : State := { up.wr TIM_STS_SLEW_BUSY 1 with time.slewLeft := 2 ^ 48 }
    s.timeUp = true ∧ s.on TIM_STS_SLEW_BUSY = true ∧ 0 < s.slewStep := by decide
theorem wit_SlewAndStepEffects_3 : let s : State := { up with time.acc := 2000 * 2 ^ 48, time.stepPend := some ⟨2000, -7, 1, false⟩ }
    s.timeUp = true ∧ s.time.stepPend = some ⟨2000, -7, 1, false⟩ ∧ 2000 ≤ s.devNow := by decide

/-! ### CopiesOfDeviceTime -/

theorem wit_CopiesOfDeviceTime_1 : up.timeUp = true ∧ up.time.updNext ≤ up.devNow ∧ up.islStopped 167 = false ∧
    (up.time.isl.get {} 167).lag = none := by decide
theorem wit_CopiesOfDeviceTime_3 : let s : State := { up with time.sync := [(32, true)] }
    s.time.sync.get false 32 = true ∧ s.islStopped 32 = false ∧ (s.time.isl.get {} 32).lag = none ∧ s.time.stepPend = none := by decide
theorem wit_CopiesOfDeviceTime_4 : let s : State := { up.wr (CLK_ISL_FAIL_ISL 0) 8 with time.mono := 32000, time.sync := [(3, true)] }
    s.alive 3 = false ∧ s.timeUp = true ∧ s.islStopped 3 = true ∧ s.time.sync.get false 3 = true := by decide
theorem wit_CopiesOfDeviceTime_2 : let s : State := { up with time.mono := 32000, time.sync := [(3, true)] }
    s.alive 3 = true ∧ s.time.sync.get false 3 = true ∧ s.time.upd.get 0 3 + 32000 ≤ s.time.mono := by decide

/-! ### CaptureAndPulses -/

theorem wit_CaptureAndPulses_1 : let s := up.wr (TIM_CAP_CFG_EDGE 3) 3
    s.timeUp = true ∧ bit (s.rd (TIM_CAP_CFG_EDGE 3)) 1 = true ∧ s.time.capAt.find? 3 = none := by decide
theorem wit_CaptureAndPulses_2 : let s : State := { up.wr (TIM_CAP_CFG_EDGE 0) 1 with time.mono := 799, time.capAt := [(0, 0)] }
    s.timeUp = true ∧ bit (s.rd (TIM_CAP_CFG_EDGE 0)) 0 = true ∧ s.time.capAt.find? 0 = some 0 ∧ s.time.mono < 800 := by decide
theorem wit_CaptureAndPulses_3 : let s : State := { up.wr TIM_PPS_CFG_EN 1 with time.acc := 2000000000 * 2 ^ 48 }
    s.timeUp = true ∧ s.on TIM_PPS_CFG_EN = true ∧ s.devNow = 2 * 1000000000 ∧ s.time.ppsNext ≤ 2 := by decide
theorem wit_CaptureAndPulses_4 : let s : State := { up with time.ppsEnd := some 0, time.pulse := [(7, 3, 0)] }
    s.timeUp = true ∧ s.time.ppsEnd = some 0 ∧ s.time.pulse.find? 7 = some (3, 0) ∧ 0 ≤ s.devNow := by decide

/-! ### TriggerGenerators -/

theorem wit_TriggerGenerators_1 : let s := up.setReg (TIM_TRG_PERIOD 7) 64
    s.reaches (TIM_TRG_CFG 7) = true ∧ s.on (TIM_TRG_CFG_EN 7) = false ∧ bit (1 : Word).toNat 0 = true ∧
    getBits (1 : Word).toNat 7 3 = 0 ∧ 64 ≤ s.reg (TIM_TRG_PERIOD 7) ∧ s.reaches (TIM_TRG_PERIOD 7) = true := by decide
theorem wit_TriggerGenerators_2 : let s := up.wr (TIM_TRG_CFG_EN 0) 1
    s.reaches (TIM_TRG_CFG 0 + 4 * 1) = true ∧ s.reaches (TIM_TRG_CFG 0 + 4 * 5) = true ∧ s.on (TIM_TRG_CFG_EN 0) = true := by
  decide
theorem wit_TriggerGenerators_3 : let s : State := { (up.wr (TIM_TRG_CFG_EN 2) 1).wr (TIM_TRG_CFG_PIN 2) 4 with
      time.trg := [(2, ⟨some 0, 0, false⟩)] }
    s.timeUp = true ∧ s.on (TIM_TRG_CFG_EN 2) = true ∧ s.time.trg.get {} 2 = ⟨some 0, 0, false⟩ ∧
    0 + 0 * s.trgPeriod 2 ≤ s.devNow ∧ s.rd (TIM_TRG_CFG_PIN 2) = 4 := by decide
theorem wit_TriggerGenerators_4 : let s : State := { ((up.wr (TIM_TRG_CFG_EN 2) 1).wr (TIM_TRG_CFG_GCL 2) 1).setReg
      (TIM_TRG_GCL 2 7) (2 ^ 31) with time.trg := [(2, ⟨some 1000, 0, false⟩)] }
    s.timeUp = true ∧ s.on (TIM_TRG_CFG_EN 2) = true ∧ s.on (TIM_TRG_CFG_GCL 2) = true ∧
    s.time.trg.get {} 2 = ⟨some 1000, 0, false⟩ ∧ s.trgPeriod 2 = 0 ∧ 1000 + 0 * s.trgPeriod 2 ≤ s.devNow + 1000 ∧
    s.time.gclDone.find? 2 = none ∧ s.trgPorts 2 = [255] ∧ s.on (TMG_GCL_STS_PEND 255) = false := by decide

/-! ### ReferenceClocks -/

theorem wit_ReferenceClocks : up.inPor = false ∧ up.alive 168 = true ∧ up.reaches CLK_CFG = true ∧ up.timeUp = true ∧
    up.on TIM_STS_INIT = true ∧ (up.wr TIM_STS_INIT 0).on TIM_STS_INIT = false ∧
    (up.wr TIM_STS_INIT 0).reaches CLK_CFG = true ∧ ({ up with clk.relock := true } : State).clk.relock = true := by decide

/-! ### ClockMeasurement -/

theorem wit_ClockMeasurement_1 : up.reaches CLK_MEAS_CTL = true ∧ up.on CLK_MEAS_CTL_BUSY = false ∧
    (168 : BitVec 8).toNat ≤ 168 ∧ 168 < (169 : BitVec 8).toNat := by decide
theorem wit_ClockMeasurement_2 : let s : State := { up.wr CLK_MEAS_CTL_ISL 5 with clk.measEnd := some 0 }
    s.alive islMgmt = true ∧ s.clk.measEnd = some 0 ∧ 0 ≤ s.devNow ∧ s.islStopped (s.rd CLK_MEAS_CTL_ISL) = false ∧
    islCycles (s.rd CLK_MEAS_CTL_ISL) (s.time.mono - s.clk.measFrom) + 2 < 2 ^ 32 := by decide

/-! ### JunctionTemperature -/

theorem wit_JunctionTemperature : up.inPor = false ∧ up.inReset = false ∧ toSigned 10 (479 : BitVec 10).toNat < 480 ∧
    toSigned 10 (up.rd GLB_TJ_CFG_ALERT) ≤ toSigned 10 (479 : BitVec 10).toNat ∧ up.tj.alertLow = false ∧
    480 ≤ toSigned 10 (480 : BitVec 10).toNat ∧ up.reaches GLB_TJ_CFG = true ∧
    ({ up with time.mono := 8000000 } : State).tj.readAt.get 0 15 + 8000000 ≤
      ({ up with time.mono := 8000000 } : State).time.mono ∧
    ({ up with time.mono := 8000000 } : State).inPor = false := by decide

/-! ### TestAccessPort -/

theorem wit_TestAccessPort : 6 < (7 : BitVec 8).toNat ∧ 6 < (255 : BitVec 8).toNat := by decide

/-! ### ResetKey -/

theorem wit_ResetKey : up.reaches GLB_RST_CMD = true ∧ (0x5EED : Word).toNat % 65536 = 0x5EED ∧
    (0x5EEC : Word).toNat % 65536 ≠ 0x5EED := by decide

/-! ### PowerOnReset -/

theorem wit_PowerOnReset : ({ up with rst.porstLow := true } : State).rst.porstLow = true ∧ up.rst.porstLow = false ∧
    ({ up with rst.railReset := true } : State).rst.railReset = true := by decide

/-! ### SystemReset -/

theorem wit_SystemReset : up.rst.sysrstLow = false ∧ up.inPor = false ∧
    ({ up with rst.porstLow := true } : State).inPor = true ∧
    ({ up with rst.pulseEnd := some 0 } : State).rst.pulseEnd = some 0 ∧ 0 ≤ up.time.mono := by decide

/-! ### RegisterAccess -/

theorem wit_RegisterAccess_0 : up.reaches (0x0B000000 : BitVec 28).toNat = true ∧ (0x0B000000 : BitVec 28).toNat % 4 = 0 ∧
    (0x0B000000 : BitVec 28).toNat ≠ GLB_RST_CMD ∧ (0x0B000000 : BitVec 28).toNat ≠ GLB_PROF_CMD ∧ (3 : BitVec 28).toNat % 4 ≠ 0 ∧
    (fieldsAt GRF_GRAFT_STS).Pairwise (fun f g => f.lsb + f.w ≤ g.lsb ∨ g.lsb + g.w ≤ f.lsb) := by decide
theorem wit_RegisterAccess_1 : (63 : Fin 64).val ≠ 0 ∧ up.reaches (GRF_EXC_CFG 63) = true ∧ up.inReset = false ∧ up.islStopped islPcie = false ∧
    up.islStopped islMgmt = false ∧ ({ up with rst.porstLow := true } : State).inReset = true := by decide
theorem wit_RegisterAccess_2 : let s := State.reset
    s.inReset = false ∧ s.islStopped islPcie = false ∧ s.islStopped islMgmt = false ∧ s.on GLB_BOOT_STS_BUSY = true ∧
    0x100000 ≤ (0x100000 : BitVec 28).toNat ∧ (0x100000 : BitVec 28).toNat % 4 = 0 ∧ fieldsAt (0x100000 : BitVec 28).toNat ≠ [] := by decide
theorem wit_RegisterAccess_3 : let s := up.wr (CLK_ISL_FAIL_ISL 1) 1
    s.inReset = false ∧ s.islStopped islPcie = false ∧ s.islStopped islMgmt = false ∧
    s.islStopped (bar0Isl (0x1000000 : BitVec 28).toNat) = true := by decide

/-! ### PortModesAndTraining -/

/-- Port 255 in mode 4 (one lane), its line on. -/
def lineUp : State := up.wr (PRT_GRP_STS_MODE_ACT 31) 4
theorem wit_PortModesAndTraining_1 : let s := lineUp.wr (PRT_CFG_EN 255) 1
    lineUp.reaches (PRT_GRP_CFG 31) = true ∧ (∀ k < 8, lineUp.isPort (8 * 31 + k) = true) ∧
    (∀ k < 8, lineUp.on (PRT_CFG_EN (8 * 31 + k)) = false ∧ lineUp.on (PRT_STS_DRAINED (8 * 31 + k)) = true) ∧
    s.reaches (PRT_GRP_CFG 31) = true ∧ (∃ k < 8, s.isPort (8 * 31 + k) = true ∧
      (s.on (PRT_CFG_EN (8 * 31 + k)) = true ∨ s.on (PRT_STS_DRAINED (8 * 31 + k)) = false)) := by decide
theorem wit_PortModesAndTraining_2 : let s := lineUp.wr (PRT_CFG_AN_EN 255) 1
    s.alive (portQuad 255) = true ∧ s.lineOn 255 = true ∧ s.on (PRT_CFG_AN_EN 255) = true ∧
    s.on (PRT_STS_AN_DONE 255) = false := by decide
theorem wit_PortModesAndTraining_3 : let s := lineUp.wr (PRT_CFG_LT_EN 255) 1
    s.alive (portQuad 255) = true ∧ s.lineOn 255 = true ∧ s.on (PRT_CFG_LT_EN 255) = true ∧ s.anOk 255 = true := by decide
theorem wit_PortModesAndTraining_4 : let s := ((lineUp.wr (PRT_STS_ALIGNED 255) 1).wr (PRT_STS_LT_DONE 255) 1).wr (PRT_STS_AN_DONE 255) 1
    s.alive (portQuad 255) = true ∧ s.lineOn 255 = true ∧ s.on (PRT_STS_LINK_UP 255) = false ∧
    s.on (PRT_STS_ALIGNED 255) = true ∧ s.anOk 255 = true ∧
    (s.on (PRT_CFG_LT_EN 255) = true → s.on (PRT_STS_LT_DONE 255) = true) := by decide

/-! ### AlignmentMarkers -/

theorem wit_AlignmentMarkers_1 : lineUp.alive (portQuad 255) = true ∧ lineUp.lineOn 255 = true ∧
    19 < modePcsLanes (lineUp.portMode 255) ∧ (lineUp.pcsLane 255 19).lock = none ∧
    (∀ c ∈ (lineUp.pcsLane 255 19).cands, c.pos ≠ 7) ∧ (lineUp.pcsLane 255 19).cands.length < 4 := by decide
theorem wit_AlignmentMarkers_2 : let s := lineUp.setPcs 255 19 { cands := [⟨1, 2, 1⟩, ⟨2, 2, 1⟩, ⟨3, 2, 1⟩, ⟨4, 2, 7⟩] }
    s.alive (portQuad 255) = true ∧ s.lineOn 255 = true ∧ 4 ≤ (s.pcsLane 255 19).cands.length ∧
    (∀ c ∈ (s.pcsLane 255 19).cands, c.pos ≠ 7) ∧ (s.pcsLane 255 19).cands.find? (·.pos == 4) = some ⟨4, 2, 7⟩ ∧
    s.amN 255 ≤ 7 + 1 ∧ (s.pcsLane 255 19).cands.find? (·.pos == 3) = some ⟨3, 2, 1⟩ ∧
    (some (3 : Fin 32)).map (·.val) ≠ some 2 := by decide
theorem wit_AlignmentMarkers_4 : let s := (lineUp.wr (PRT_AM_CFG_N 255) 8).setPcs 255 19 { cands := [⟨1, 2, 1⟩] }
    s.alive (portQuad 255) = true ∧ s.lineOn 255 = true ∧ (s.pcsLane 255 19).cands.find? (·.pos == 1) = some ⟨1, 2, 1⟩ ∧
    1 + 1 < s.amN 255 := by decide
theorem wit_AlignmentMarkers_3 : let s := (lineUp.wr (PRT_AM_CFG_M 255) 8).setPcs 255 19 { lock := some (0, 0), run := 7 }
    let u := (lineUp.wr (PRT_AM_CFG_M 255) 8).setPcs 255 19 { lock := some (0, 0), run := 6 }
    s.alive (portQuad 255) = true ∧ s.isPort 255 = true ∧ s.lineOn 255 = true ∧ (s.pcsLane 255 19).lock ≠ none ∧
    (s.wr (PRT_LN_CFG_PRBS 255) 1).lineOn 255 = false ∧ (s.wr (PRT_LN_CFG_PRBS 255) 1).isPort 255 = true ∧
    s.amM 255 ≤ (s.pcsLane 255 19).run + 1 ∧ u.alive (portQuad 255) = true ∧ u.lineOn 255 = true ∧
    (u.pcsLane 255 19).lock ≠ none ∧ (u.pcsLane 255 19).run + 1 < u.amM 255 := by decide

/-! ### SecondsFecAndTrace -/

theorem wit_SecondsFecAndTrace_1 : let s := (lineUp.wr (PRT_STS_ALIGNED 255) 1).wr (PRT_CFG_EN 255) 1
    s.alive (portQuad 255) = true ∧ s.lineOn 255 = true ∧ s.on (PRT_CFG_EN 255) = true ∧
    s.on (PRT_STS_ALIGNED 255) = true ∧ s.portOn 255 = true ∧ s.cntAt STEP_CNT = (s.port 255).secStep ∧
    (s.port 255).secs.length < 9 ∧ lineUp.reaches (PRT_CFG 255) = true ∧ lineUp.on (PRT_CFG_EN 255) = false ∧
    up.reaches (PRT_TRC_EXP_CHS 255 16) = true := by decide
/-- A state in which every island's copy of device time stands at 10 s. -/
def tenSec (s : State) : State :=
  { s with time := { s.time with acc := 10 ^ 10 * 2 ^ 48, isl := (List.range 168).map (fun k => (k, { base := 10 ^ 10 * 2 ^ 48, rate := 2 ^ 48 })) } }
theorem wit_SecondsFecAndTrace_2 : let s := tenSec ((lineUp.wr (PRT_STS_TRACE 255) 1).wr (PRT_TRC_CFG_TMO 255) 10)
    s.alive (portQuad 255) = true ∧ s.isPort 255 = true ∧ s.rd (PRT_TRC_CFG_TMO 255) ≠ 0 ∧
    s.rd (PRT_STS_TRACE 255) = 1 ∧ (s.port 255).lastRx + s.rd (PRT_TRC_CFG_TMO 255) * 1000000000 ≤ s.now (portQuad 255) ∧
    ((s.port 255).secStart / 1000000000 + 1) * 1000000000 ≤ s.now (portQuad 255) := by decide
theorem wit_SecondsFecAndTrace_3 : (lineUp.wr (PRT_LN_CFG_PRBS 255) 1).alive (portQuad 255) = true ∧
    (lineUp.wr (PRT_LN_CFG_PRBS 255) 1).laneTraffic 255 = false ∧ (lineUp.wr (PRT_LN_CFG_PRBS 255) 1).laneUsed 255 = true ∧
    lineUp.isPort 255 = true ∧ up.isPort 255 = false ∧ (lineUp.wr (PRT_CFG_EN 255) 1).on (PRT_CFG_EN 255) = true := by decide

/-! ### LaneTapsAndTagMark -/

theorem wit_LaneTapsAndTagMark : up.reaches (PRT_LN_TXEQ 255) = true ∧ 63 < txeqSum (0xFFFFFFFF : Word).toNat ∧
    txeqSum (0xFC0000 : Word).toNat ≤ 63 ∧ 63 < txeqSum (0xFC0001 : Word).toNat ∧ up.reaches (BGH_TAG_CFG 31) = true := by decide

/-! ### MarkerBounds -/

theorem wit_MarkerBounds : let s := (lineUp.wr (PRT_AM_CFG_N 255) 8).setPcs 255 19 { cands := [⟨1, 2, 7⟩] }
    let u := (lineUp.wr (PRT_AM_CFG_M 255) 1).setPcs 255 0 { lock := some (0, 0) }
    s.alive (portQuad 255) = true ∧ s.lineOn 255 = true ∧ (s.pcsLane 255 19).lock = none ∧
    (s.pcsLane 255 19).cands.find? (·.pos == 1) = some ⟨1, 2, 7⟩ ∧
    u.alive (portQuad 255) = true ∧ u.lineOn 255 = true ∧ (u.pcsLane 255 0).lock ≠ none := by decide

/-! ### FrameAtSfd -/

/-- Port 255 enabled with its link up. -/
def portReady : State := ((lineUp.wr (PRT_CFG_EN 255) 1).wr (PRT_STS_LINK_UP 255) 1).wr (PRT_STS_ALIGNED 255) 1
theorem wit_FrameAtSfd_1 : portReady.alive (portQuad 255) = true ∧ portReady.portOn 255 = true ∧ portReady.lineOn 255 = true ∧
    portReady.on (PRT_STS_LINK_UP 255) = true ∧ (portReady.rxPort 255).cur = .idle ∧
    portReady.on (PRT_CFG_TRACE_BLOCK_EN 255) = false ∧ portReady.tagFree (portBough 255) false = true ∧
    portReady.tagFrom (portBough 255) 8192 8191 = some 8191 ∧ portReady.injArmed 4 0 = false := by decide +kernel
theorem wit_FrameAtSfd_2 : let s := portReady.wr (BGH_TAG_STS_IN_USE 31) 8192
    s.alive (portQuad 255) = true ∧ s.portOn 255 = true ∧ s.lineOn 255 = true ∧ s.on (PRT_STS_LINK_UP 255) = true ∧
    (s.rxPort 255).cur = .idle ∧ s.on (PRT_CFG_TRACE_BLOCK_EN 255) = false ∧ s.tagFree (portBough 255) false = false := by decide +kernel
theorem wit_FrameAtSfd_3 : let s := (portReady.wr (PRT_CFG_TRACE_BLOCK_EN 255) 1).wr (PRT_STS_TRACE 255) 2
    s.alive (portQuad 255) = true ∧ s.portOn 255 = true ∧ s.lineOn 255 = true ∧ s.on (PRT_STS_LINK_UP 255) = true ∧
    (s.rxPort 255).cur = .idle ∧ s.on (PRT_CFG_TRACE_BLOCK_EN 255) = true ∧ s.rd (PRT_STS_TRACE 255) = 2 ∧
    isLldp [] = false := by decide +kernel

/-! ### BufferAllocation -/

/-- A line frame of port 255 with tag 9, at the FIFO's head, of `n` bytes. -/
def framed (n : Nat) : State :=
  { portReady with
    rx := [(255, { cur := .frame 9, fifo := [9] })]
    pkts := [(pkey 31 9, { bark := { ingPort := 255, bough := 31, tag := 9 }, bytes := List.replicate n 0 })] }
theorem wit_BufferAllocation_1 : let s := framed 257
    s.alive (islBough (portBough 255)) = true ∧ s.allocMay 31 (s.injHeld 31) 7 = true ∧
    (s.wantsBuf 255).any (fun x => x.1 / 8192 == portBough 255 && !x.2.promote &&
      (s.allocPool (portBough 255) (ownerOf x.2) 4 (firstFit (s.wantBytes x.2))).isSome) = true := by decide +kernel
theorem wit_BufferAllocation_2 : let s := List.foldl (fun (s : State) q => s.wr (CRN_POOL_STS_FREE 31 q) 0) (framed 257) [0, 1, 2, 3]
    s.alive (islBough (portBough 255)) = true ∧
    (s.wantsBuf 255).any (fun x => x.1 / 8192 == portBough 255 && !x.2.promote && ownerOf x.2 == 255 % 8 &&
      (s.allocPool (portBough 255) (255 % 8) 4 (firstFit (s.wantBytes x.2))).isNone) = true := by decide +kernel
theorem wit_BufferAllocation_3 : let s := (framed 257).modPkt (pkey 31 9) ({ · with hasBuf := true })
    s.alive (islBough (portBough 255)) = true ∧ (s.rxPort 255).cur = .frame 9 ∧
    (s.pkt? (pkey (portBough 255) 9)).any (fun x => x.hasBuf && !x.promote &&
      decide (256 * poolSize x.bark.pool < s.macTakes 255 x.bytes.length)) = true := by decide +kernel
theorem wit_BufferAllocation_4 : let s := ({ portReady with
      rx := [(255, { cur := .frame 9, fifo := [8, 9] })]
      pkts := [(pkey 31 8, { bytes := List.replicate 8192 0 }), (pkey 31 9, { bytes := [0] })] } : State)
    s.alive (portQuad 255) = true ∧ (s.rxPort 255).cur = .frame 9 ∧
    (s.pkt? (pkey (portBough 255) 9)).any (fun x => decide (0 < s.macTakes 255 x.bytes.length)) = true ∧
    8192 * modeLanes (s.portMode 255) ≤ s.fifoBytes 255 9 0 := by decide +kernel
theorem wit_BufferAllocation_5 : let s := ({ up with bufs := [(pkey 31 0, ⟨9, 0, 8, 0⟩)] } : State)
    s.alive (islBough 31) = true ∧ s.bufPlaced 31 0 0 = true ∧ s.bufs.find? (pkey 31 0) = some ⟨9, 0, 8, 0⟩ ∧
    up.alive (islBough 31) = true ∧ up.bufPlaced 31 0 0 = true ∧ up.bufs.find? (pkey 31 0) = none ∧
    (∃ x, s.bufs.find? (pkey 31 0) = some x ∧ x.tag ≠ 8) := by
  refine ⟨?_, ?_, rfl, ?_, ?_, rfl, ⟨9, 0, 8, 0⟩, rfl, ?_⟩ <;> decide +kernel

/-! ### FrameEndAndWindow -/

/-- `s` with the packet of port 255 under tag 9 changed. -/
def with9 (s : State) (f : Pkt → Pkt) : State := s.modPkt (pkey 31 9) f
/-- 64 bytes whose last 4 are their FCS, 60 zero bytes before it. -/
def goodFrame : List Byte := withFcs (List.replicate 60 0)
/-- A MAC Control frame. -/
def ctrlFrame : List Byte := withFcs (List.replicate 12 0 ++ [0x88, 0x08] ++ List.replicate 46 0)
theorem wit_FrameEndAndWindow_1 : let s := portReady.setCur 255 .gone
    let u := portReady.setCur 255 (.skip [])
    s.alive (portQuad 255) = true ∧ (s.rxPort 255).cur = .gone ∧ u.alive (portQuad 255) = true ∧
    (u.rxPort 255).cur = .skip [] ∧ macCause [] false 1518 = some 0 := by decide +kernel
theorem wit_FrameEndAndWindow_2 : let s := framed 63
    s.alive (portQuad 255) = true ∧ (s.rxPort 255).cur = .frame 9 ∧
    (s.pkt? (pkey (portBough 255) 9)).any (fun x => !x.window && macCause x.bytes (false || x.ue) (s.maxFrame 255) == some 0) = true := by decide +kernel
theorem wit_FrameEndAndWindow_4 : let s := with9 (framed 64) (fun x => { x with bytes := goodFrame })
    s.alive (portQuad 255) = true ∧ (s.rxPort 255).cur = .frame 9 ∧
    (s.pkt? (pkey (portBough 255) 9)).any (fun x => !x.window && (macCause x.bytes (false || x.ue) (s.maxFrame 255)).isNone && !isMacCtrl x.bytes) = true := by decide +kernel
theorem wit_FrameEndAndWindow_6 : let s := with9 (framed 64) (fun x => { x with bytes := ctrlFrame })
    s.alive (portQuad 255) = true ∧ (s.rxPort 255).cur = .frame 9 ∧
    (s.pkt? (pkey (portBough 255) 9)).any (fun x => !x.window && (macCause x.bytes (false || x.ue) (s.maxFrame 255)).isNone && isMacCtrl x.bytes) = true := by decide +kernel
theorem wit_FrameEndAndWindow_5 : let s := with9 (framed 64) (fun x => { x with hasBuf := true, ended := true })
    let u := (with9 (framed 18) (fun x => { x with hasBuf := true, ended := true, stage := .lldp })).wr (PRT_CFG_LLDP_COPY_EN 255) 1
    s.alive (islBough 31) = true ∧ (s.pkt? (pkey 31 9)).any (fun x => decide (x.stage = .rx) && x.hasBuf && !x.promote &&
      x.ended && !x.window && x.bark.bough == 31) = true ∧ u.alive (islBough 31) = true ∧ u.on (PRT_CFG_LLDP_COPY_EN 255) = true ∧
    (u.pkt? (pkey 31 9)).any (fun x => decide (x.stage = .lldp) && x.hasBuf && x.bark.ingPort == 255 && !x.bark.bad &&
      (lldpIds ((x.bytes.take (x.bytes.length - 4)).drop 14)).isNone) = true ∧
    (u.wr (PRT_CFG_LLDP_COPY_EN 255) 0).on (PRT_CFG_LLDP_COPY_EN 255) = false ∧ u.copiesOf (pkey 31 9) = [] ∧
    (u.pkt? (pkey 31 9)).any (fun x => x.hostCopies.isEmpty) = true := by decide +kernel
/-- 14 bytes and the identity of a peer: chassis and port, then the end. -/
def lldpBytes : List Byte := withFcs (List.replicate 14 0 ++ [2, 2, 4, 1, 4, 2, 3, 1, 6, 2, 0, 1, 0, 0])
theorem wit_FrameEndAndWindow_8 : (lldpIds ((lldpBytes.take (lldpBytes.length - 4)).drop 14)).isSome = true := by decide +kernel
theorem wit_FrameEndAndWindow_7 : let s := with9 (framed 257) (fun x => { x with hasBuf := true, bark := { x.bark with ct := true } })
    s.ecc.diff = [] ∧ (s.pkt? (pkey 31 9)).any (fun x => decide (x.stage = .rx) && x.hasBuf && !x.promote && !x.ended && !x.window &&
      x.bark.ct && decide (256 < x.bytes.length) && !isLldp x.bytes && !isMacCtrl x.bytes) = true := by decide +kernel

/-! ### LinkFallsAndPortStops -/

theorem wit_LinkFallsAndPortStops_1 : portReady.alive (portQuad 255) = true ∧
    portReady.on (PRT_STS_LINK_UP 255) = true ∧ portReady.leaving 255 = [] ∧
    (∀ q < 16, (portReady.q (qkey 255 q)).copies = []) ∧ (portReady.wr (BRG_PORT_CFG_FLUSH_ON_DOWN 255) 0).on (BRG_PORT_CFG_FLUSH_ON_DOWN 255) = false ∧
    portReady.reaches (PRT_CFG 255) = true ∧ portReady.isPort 255 = true ∧ portReady.on (PRT_CFG_EN 255) = true ∧
    (portReady.port 255).secs = [] ∧ (portReady.rxPort 255).fifo = [] ∧ (portReady.rxPort 255).cur = .idle := by decide +kernel
theorem wit_LinkFallsAndPortStops_2 : lineUp.alive (portQuad 255) = true ∧ lineUp.isPort 255 = true ∧ lineUp.on (PRT_CFG_EN 255) = false ∧
    lineUp.reaches (PRT_CFG 255) = true ∧
    (lineUp.rxPort 255).fifo = [] ∧ (lineUp.rxPort 255).cur = .idle ∧ lineUp.leaving 255 = [] ∧
    (lineUp.modPort 248 ({ · with modePend := true })).alive (islQuad (2 * 31)) = true ∧
    ((lineUp.modPort 248 ({ · with modePend := true })).port (8 * 31)).modePend = true ∧
    (∀ k < 8, (lineUp.modPort 248 ({ · with modePend := true })).isPort (8 * 31 + k) = true ∧
      (lineUp.modPort 248 ({ · with modePend := true })).on (PRT_STS_LINK_UP (8 * 31 + k)) = false) := by decide +kernel

/-! ### CopiesThroughTheCrown -/

/-- A copy of the packet of bough 31, tag 9, to port 255 at a stage. -/
def copyAt (st : CStage) : Copy :=
  { bough := 31, tag := 9, port := 255, cls := 0, w := 88, len := 64, cells := 3, flen := 64, deadline := 0, predDep := 0
    colour := 3, mirror := false, ct := false, shared := false, detached := false, stage := st, headAt := 0, ord := 0
    xpAt := 0, sfd := 0, out := [], teg := 0, ue := 0 }
/-- Port 255 ready, its packet whole, with one copy. -/
def withCopy (c : Copy) : State :=
  { with9 (framed 64) (fun x => { x with hasBuf := true, ended := true, stage := .sent }) with copies := [(5, c)], nextCopy := 6 }
theorem wit_CopiesThroughTheCrown_1 : let s := withCopy (copyAt .ordered)
    let u := withCopy { copyAt .ordered with ue := 1 }
    s.alive (islBough 31) = true ∧ s.nextOrder 31 = some (5, copyAt .ordered) ∧ (copyAt .ordered).ue ≠ 1 ∧
    s.injArmed 5 0 = false ∧ u.alive (islBough 31) = true ∧
    u.nextOrder 31 = some (5, { copyAt .ordered with ue := 1 }) := by decide +kernel
theorem wit_CopiesThroughTheCrown_2 : let s := withCopy (copyAt .xp)
    s.copies.find? 5 = some (copyAt .xp) ∧ s.alive (islCol (copyAt .xp).col) = true ∧ (copyAt .xp).stage = .xp ∧
    (copyAt .xp).inShare = false ∧ (copyAt .xp).inXp = true := by decide +kernel
theorem wit_CopiesThroughTheCrown_3 : let s := withCopy (copyAt .noticed)
    let late : Copy := { copyAt .noticed with deadline := 2 ^ 32 - 1 }
    s.copies.find? 5 = some (copyAt .noticed) ∧ s.alive (islBough (copyAt .noticed).col) = true ∧
    s.rrPick (rrRead 31) 8 (s.readWaits 31) = some (255 % 8) ∧
    ((copyAt .noticed).ue ≠ 2) ∧ (withCopy late).copies.find? 5 = some late ∧
    lateBy (2 * (withCopy late).now (islBough late.col) + (withCopy late).ttx late.port) late.deadline = true ∧
    lateBy (2 * s.now (islBough 31) + s.ttx 255) 1000 = false ∧ (s.pkt? (pkey 31 9)).isSome = true := by decide +kernel
theorem wit_CopiesThroughTheCrown_4 : let s := tenSec (withCopy { copyAt .tx with out := [1, 2] })
    s.alive (portQuad 255) = true ∧ s.firstLeaving 255 = some (5, { copyAt .tx with out := [1, 2] }) ∧
    (s.pkt? (pkey 31 9)).any (fun k => k.ended) = true ∧
    0 + ceilDiv (2 * 8) (modeRate (s.portMode 255)) ≤ s.now (portQuad 255) := by decide +kernel
theorem wit_CopiesThroughTheCrown_5 : let c : Copy := { copyAt .tx with ct := true }
    let s := with9 (withCopy c) (fun x => { x with ended := false })
    let u : State := { s with time.mono := 524280000 }
    s.copies.find? 5 = some c ∧ s.alive (portQuad c.port) = true ∧ c.stage = .tx ∧ c.ct = true ∧
    (s.pkt? (pkey c.bough c.tag)).any (fun k => !k.ended) = true ∧
    c.xpAt + max 1 (u.rd CRN_AGE_CFG_XP_MAX) * 8000 ≤ u.time.mono := by decide +kernel
theorem wit_CopiesThroughTheCrown_6 : let s : State := { withCopy (copyAt .xp) with time.mono := 524280000 }
    (copyAt .xp).xpAt + max 1 (s.rd CRN_AGE_CFG_XP_MAX) * 8000 ≤ s.time.mono ∧
    (up.alive (islTm (31 / 8)) = true ∧ ({ up with shares := [(shareKey (pkey 31 9) 31, ⟨1, 0, 3, false⟩)] } : State).shares.find?
      (shareKey (pkey 31 9) 31) = some ⟨1, 0, 3, false⟩) ∧ 0 ≤ up.now (islTm (31 / 8)) := by decide +kernel

/-! ### PacketMemoriesAndPools -/

theorem wit_PacketMemoriesAndPools_1 : (framed 64).alive (islBough 31) = true ∧
    ((framed 64).pkt? (pkey 31 9)).any (fun x => !x.ended) = true ∧ synSt 64 5 = .ue ∧ synSt 64 0 = .ok ∧
    synSt 64 3 = .poison := by decide +kernel
theorem wit_PacketMemoriesAndPools_2 : let s : State := { up with bufs := [(pkey 31 0, ⟨9, 0, 8, 0⟩)] }
    let u : State := { s with time.mono := 8000000 * 65536 }
    s.alive (islBough 31) = true ∧ (∀ e ∈ s.bufs, e.1 / 8192 = 31 → s.time.mono ≤ e.2.at_ + max 2200 (s.rd CRN_AGE_CFG_STALE) * 8000000) ∧
    u.alive (islBough 31) = true ∧ pkey 31 0 / 8192 = 31 ∧
    0 + max 2200 (u.rd CRN_AGE_CFG_STALE) * 8000000 < u.time.mono ∧ u.pkt? (pkey 31 9) = none ∧
    (let v := u.putPkt (pkey 31 9) { hasBuf := true }
     (v.pkt? (pkey 31 9)).any (fun y => y.hasBuf && y.bark.buf == pkey 31 0 % 8192 && y.hostCopies.isEmpty) = true ∧
     v.copiesOf (pkey 31 9) = []) := by decide +kernel
theorem wit_PacketMemoriesAndPools_3 : up.reaches (CRN_POOL_CFG 31 3) = true ∧ up.on (CRN_STORE_STS_IDLE 31) = true ∧
    up.poolUnits 31 3 0 ≤ 8192 ∧ 8192 < up.poolUnits 31 3 16383 := by decide +kernel

/-! ### AdmissionOfCopies -/

/-- The packet of bough 31, tag 9, waiting for admission to port 255, class 0. -/
def toGo : State :=
  with9 ((portReady.wr (TMG_Q_SHARE_SHARE 255 0) 65536).wr (TMG_Q_QMAX_QMAX 255 0) 65535)
    (fun x => x) |>.putPkt (pkey 31 9)
    { bark := { ingPort := 255, bough := 31, tag := 9, len := 64, deadline := 1000000 }, bytes := List.replicate 64 0
      stage := .toAdmit, ended := true, dec := { eg := .port 255 } }
theorem wit_AdmissionOfCopies_1 : toGo.alive (islBough 31) = true ∧ toGo.injArmed 6 0 = false ∧
    (toGo.pkt? (pkey 31 9)).any (fun x => decide (x.stage = .toAdmit) && !x.memUe && !x.bark.bad && x.ended && decide (x.dec.eg = .port 255) &&
      x.dec.mir.isNone && (toGo.admCheck x 255 x.bark.cls (x.bark.len + 24)).isNone &&
      !lateBy (2 * (toGo.now (islTm (portTm 255)) + toGo.tQueue 255 x.bark.cls (x.bark.len + 24) + 200) + toGo.ttx 255) x.bark.deadline) = true := by decide +kernel
theorem wit_AdmissionOfCopies_2 : let s := toGo.wr (TMG_Q_SHARE_SHARE 255 0) 0
    s.alive (islBough 31) = true ∧ (s.pkt? (pkey 31 9)).any (fun x => decide (x.stage = .toAdmit) && !x.memUe && !x.bark.bad && x.ended &&
      decide (x.dec.eg = .port 255) && x.dec.mir.isNone &&
      s.admCheck x 255 x.bark.cls (x.bark.len + 24) == some (9, TMG_REF_QDIS_CNT)) = true := by decide +kernel
theorem wit_AdmissionOfCopies_4 : let s := with9 toGo (fun x => { x with bark := { x.bark with deadline := 0 } })
    (s.pkt? (pkey 31 9)).any (fun x => (s.admCheck x 255 x.bark.cls (x.bark.len + 24)).isNone &&
      lateBy (2 * (s.now (islTm (portTm 255)) + s.tQueue 255 x.bark.cls (x.bark.len + 24) + 200) + s.ttx 255) x.bark.deadline) = true ∧
    ((with9 toGo (fun x => { x with memUe := true })).pkt? (pkey 31 9)).any (fun x => decide (x.stage = .toAdmit) && x.memUe) = true := by decide +kernel
theorem wit_AdmissionOfCopies_3 : let s := with9 toGo (fun x => { x with bark := { x.bark with bad := true } })
    s.alive (islBough 31) = true ∧ (s.pkt? (pkey 31 9)).any (fun x => decide (x.stage = .toAdmit) && x.bark.bad) = true := by decide +kernel

/-! ### SelectionShapersAndGates -/

/-- A copy waiting at the head of port 255's queue 0. -/
def waitingHead (dl : Nat) : State :=
  { (portReady.wr (TMG_Q_SHARE_SHARE 255 0) 65536) with
    copies := [(5, { copyAt .queued with deadline := dl })], nextCopy := 6
    qs := [(qkey 255 0, { copies := [5], bytes := 88, f := 88 })]
    pkts := [(pkey 31 9, { ended := true, stage := .sent, hasBuf := true })] }
theorem wit_SelectionShapersAndGates_1 : let s := waitingHead 1000000
    s.alive (islTm (portTm 255)) = true ∧ s.sharesDue (portBough 255) (s.now (islTm (portTm 255))) = [] ∧ s.gclOn 255 = false ∧
    s.pickQueue 255 = some 0 ∧ (s.eligible (qkey 255 0)).any (fun e => e.2.1.ue != 3 && !s.copyBad e.2.1 && !s.tooLate e.2.1) = true := by decide +kernel
theorem wit_SelectionShapersAndGates_2 : let s := waitingHead 0
    let u := s.wr (TMG_Q_SHARE_SHARE 255 0) 0
    s.pickQueue 255 = some 0 ∧ (s.eligible (qkey 255 0)).any (fun e => s.tooLate e.2.1) = true ∧
    u.alive (islTm (portTm 255)) = true ∧ u.eligible (qkey 255 0) = none ∧ (u.q (qkey 255 0)).copies = [5] ∧
    (u.copies.find? 5).any u.tooLate = true ∧ ((waitingHead 1000000).copies.find? 5).all (fun c => !(waitingHead 1000000).tooLate c) = true := by decide +kernel
theorem wit_SelectionShapersAndGates_3 : up.alive (islTm 3) = true ∧ up.refillAt.get 0 3 ≤ up.now (islTm 3) ∧
    up.reaches (TMG_Q_SHARE 255 15) = true ∧ up.shareSum 255 15 (0x20000 % 2 ^ 17) ≤ 65536 ∧
    65536 < up.shareSum 255 15 (0x1FFFF % 2 ^ 17) := by decide +kernel
theorem wit_SelectionShapersAndGates_4 : let s := up.wr (TMG_GCL_BASE_LO 255) 1000
    let r := s.wr (TMG_GCL_CFG_LEN 255) (256 ||| 2 ^ 16)
    s.reaches (TMG_GCL_CFG 255) = true ∧ s.on (TMG_GCL_STS_PEND 255) = false ∧
    (up.wr (TMG_GCL_STS_PEND 255) 1).reaches (TMG_GCL_CFG 255) = true ∧ (up.wr (TMG_GCL_STS_PEND 255) 1).on (TMG_GCL_STS_PEND 255) = true ∧
    gclCycle (r.gclList 255 (!(s.tmPort 255).side) (r.gclLen 255)) ≤ 1000000000 := by decide +kernel
theorem wit_SelectionShapersAndGates_6 : let s := up.setEnt 0x71 1 (256 * 255) (2 ^ 30)
    let r := s.wr (TMG_GCL_CFG_LEN 255) (1 ||| 2 ^ 16)
    s.reaches (TMG_GCL_CFG 255) = true ∧ s.on (TMG_GCL_STS_PEND 255) = false ∧
    1000000000 < gclCycle (r.gclList 255 (!(s.tmPort 255).side) (r.gclLen 255)) := by decide +kernel
theorem wit_SelectionShapersAndGates_5 : let s := up.putTm 255 { pend := some (0, 1) }
    s.alive (islTm (portTm 255)) = true ∧ (s.tmPort 255).pend = some (0, 1) ∧ 0 ≤ s.now (islTm (portTm 255)) := by decide +kernel

/-! ### BootSequence -/

theorem wit_BootSequence : State.reset.inReset = false ∧ State.reset.on GLB_BOOT_STS_BUSY = true ∧
    State.reset.refsHere = true ∧ hdrPick [] [] = none ∧ up.on GLB_BOOT_STS_BUSY = false := by decide +kernel

/-! ### ProfileSwitch -/

/-- A header copy whose profile 0 is 32 bytes at offset 0, version 7. -/
def hdrCopy : List Byte :=
  let h := natLe 4 0x4B4E4253 ++ natLe 2 1 ++ List.replicate 10 0 ++ natLe 4 0 ++ natLe 4 32 ++ natLe 4 7 ++ natLe 4 1 ++ List.replicate 92 0
  h ++ natLe 4 (crc32c h)
/-- Profile 0 with no records, version 7. -/
def profBytes : List Byte :=
  natLe 4 0x464F5250 ++ natLe 4 0 ++ natLe 4 32 ++ natLe 4 7 ++ natLe 4 0 ++ natLe 4 (crc32c []) ++ List.replicate 8 0
theorem wit_ProfileSwitch_1 : up.reaches GLB_PROF_CMD = true ∧ up.rd GLB_PROF_STS_STATE = 0 ∧ up.graftSt = 0 ∧
    up.patchBusy = false ∧ (up.profCheck 0 [] [] []).cause ≠ 0 ∧ (up.profCheck 0 hdrCopy [] profBytes).cause = 0 ∧
    up.hitlessCause (up.profCheck 0 hdrCopy [] profBytes).recs = 0 := by decide +kernel
theorem wit_ProfileSwitch_2 : (up.wr GLB_PROF_STS_STATE 2).reaches GLB_PROF_CMD = true ∧
    (up.wr GLB_PROF_STS_STATE 2).rd GLB_PROF_STS_STATE ≠ 0 ∧ (up.wr GRF_GRAFT_STS_STATE 2).reaches GLB_PROF_CMD = true ∧
    (up.wr GRF_GRAFT_STS_STATE 2).rd GLB_PROF_STS_STATE = 0 ∧ (up.wr GRF_GRAFT_STS_STATE 2).graftSt ≠ 0 := by decide +kernel
theorem wit_ProfileSwitch_3 : let w : ProfSw := { bytes := profBytes, prof := 0, drain := true, until_ := 0 }
    ({ up with sw := some w } : State).alive islMgmt = true ∧ up.time.mono ≤ w.until_ ∧ w.until_ ≤ up.time.mono ∧
    (∀ b < 32, up.rd (BGH_TAG_STS_IN_USE b) = 0) ∧ swRecs w.bytes = [] ∧
    ({ w with drain := false, graftDone := true, patchDone := true } : ProfSw).drain = false := by decide +kernel

/-! ### DecisionOfAPacket -/

/-- Action record 0 forwards to port 3 in class 2; the packet of bough 31, tag 9, is parsed. -/
def toDecide : State :=
  { portReady.setEnt 0x21 0 0 (1 + 2 * 2 ^ 8 + 3 * 2 ^ 16) with
    pkts := [(pkey 31 9, { bark := { ingPort := 255, bough := 31, tag := 9, len := 64 }, bytes := List.replicate 64 0, stage := .parsed, ended := true, window := true })] }
theorem wit_DecisionOfAPacket : let s := toDecide
    s.alive (islBough 31) = true ∧ s.portBit TWG_ORD_EN 255 = false ∧ s.slotFirst 31 false = some (pkey 31 9) ∧
    s.ecc.diff = [] ∧ s.injArmed 4 0 = false ∧ s.rd (OBS_PSMP_CFG_N 255) = 0 ∧
    (s.pkt? (pkey 31 9)).any (fun x => decide (x.stage = .parsed) && !x.ps.flowEn && !x.bark.pass && x.ps.act == 0 && x.slot.isNone && !x.host &&
      (let a := s.ruleLookup 7 (x.bark.gen % 2) x.ps.rkey
       let r := s.actRec x.bark.gen a
       fget r AR_OP == 1 && !fon r AR_COPY && !fon r AR_RECIRC && !fon r AR_TWIG_V && !fon r AR_POL_V && !fon r AR_TTL_DEC)) = true := by decide +kernel

/-! ### SecondPassParkReturnFragments -/

theorem wit_SecondPassParkReturnFragments_1 : let s : State := { toDecide with recircQ := [(31, [pkey 31 9])] }
    let u := with9 s (fun x => { x with stage := .recirc })
    u.alive (islBough 31) = true ∧ u.recircQ.get [] 31 = [pkey 31 9] ∧ (u.pkt? (pkey 31 9)).isSome = true ∧ u.slotMay 31 0 = true ∧
    ((with9 toDecide (fun x => { x with stage := .returned })).pkt? (pkey 31 9)).any
      (fun x => decide (x.stage = .returned) && !x.memUe && x.dec.fa == 0) = true ∧
    ((with9 toDecide (fun x => { x with stage := .returned, memUe := true })).pkt? (pkey 31 9)).any
      (fun x => decide (x.stage = .returned) && x.memUe) = true ∧
    ((with9 toDecide (fun x => { x with stage := .returned, dec := { x.dec with fa := 1 }, flow := { x.flow with line := some 0 } })).pkt? (pkey 31 9)).any
      (fun x => decide (x.stage = .returned) && !x.memUe && x.flow.unst.isNone && x.dec.fa != 0 && x.flow.line.isSome) = true := by decide +kernel
theorem wit_SecondPassParkReturnFragments_2 : let s := tenSec { up with frags := [(7, ⟨[], 0, 0, 0, 0, none, 0⟩)] }
    s.alive islMgmt = true ∧ s.frags.find? (4 * (1 : BitVec 12).toNat + (3 : Fin 4).val) = some ⟨[], 0, 0, 0, 0, none, 0⟩ ∧
    0 + max 1 (s.rd BRG_FRAG_CFG_TMO) * 1000000 ≤ s.now islMgmt ∧ up.reaches BRG_FRAG_CFG = true := by decide +kernel

/-! ### TwigAluOperations -/

/-- Cluster 15, engine 31, runs item 4 of routine 7. -/
def runs (en : EngSt) : State :=
  { up with twig.items := [(4, { pkt := pkey 31 9, cluster := 15, engine := 31, aff := 1, flow := 0, rt := 7, createdAt := 0, entered := true, ph := .running, eng := en })], twig.nextItem := 5 }
theorem wit_TwigAluOperations : (runs {}).alive (islCluster 15) = true ∧ ((runs {}).runningOn 15 31).isSome = true ∧
    ({} : EngSt).x.length = 48 := by decide +kernel

/-! ### TwigFrameAccess -/

theorem wit_TwigFrameAccess : let s := runs { frame := List.replicate 512 0 }
    s.alive (islCluster 15) = true ∧ (s.runningOn 15 31).any (fun x => x.2.eng.frame.length == 512) = true := by decide +kernel

/-! ### TwigSequenceAndMicroword -/

theorem wit_TwigSequenceAndMicroword_1 : (runs {}).alive (islCluster 15) = true ∧ ((runs {}).runningOn 15 31).any
    (fun x => x.2.eng.stack == [] && decide (x.2.eng.stack.length < 4)) = true ∧
    ((runs { stack := [1, 2, 3, 4] }).runningOn 15 31).any (fun x => decide (4 ≤ x.2.eng.stack.length)) = true := by decide +kernel
/-- Routine 7 covers address 0 and may run one microword. -/
def routine7 (s : State) : State := s.setEnt 0x51 0 7 (fset (fset (fset 0 RT_V 1) RT_LEN 1) RT_MAXW 1)
theorem wit_TwigSequenceAndMicroword_2 : let s := routine7 (runs {})
    s.alive (islCluster 15) = true ∧ s.ecc.diff = [] ∧ s.rd OBS_PS_CFG_PERIOD = 0 ∧
    (s.runningOn 15 31).any (fun x =>
      let ent := s.rtEntry 15 (x.2.epoch % 2) x.2.rt
      let w := fget (s.ent 0x50 0 x.2.eng.pc) ⟨0, 160⟩
      decide (fget ent RT_BASE ≤ x.2.eng.pc) && decide (x.2.eng.pc < fget ent RT_BASE + fget ent RT_LEN) &&
      decide (x.2.run < max 1 (fget ent RT_MAXW)) && fget w MW_C_OP == 0 && decide (x.2.patch.length ≤ 64) &&
      (match x.2.eng.slots w (s.now (islCluster 15)) with | .ok (_, .at_ _) => true | _ => false)) = true := by decide +kernel
theorem wit_TwigSequenceAndMicroword_3 : let s := runs { pc := 1 }
    (s.runningOn 15 31).any (fun x => decide (fget (s.rtEntry 15 (x.2.epoch % 2) x.2.rt) RT_BASE +
      fget (s.rtEntry 15 (x.2.epoch % 2) x.2.rt) RT_LEN ≤ x.2.eng.pc)) = true := by decide +kernel

/-! ### TwigCommits -/

theorem wit_TwigCommits : ((runs { frame := List.replicate 512 0 }).runningOn 15 31).any (fun x => x.2.eng.mask == 0 &&
      (x.2.eng.staged 2).isEmpty && (x.2.eng.staged 3).isEmpty && decide (x.2.patch.length ≤ 64)) = true ∧
    ((runs { frame := List.replicate 512 0, mask := 2 ^ 71 + 2 ^ 208 }).runningOn 15 31).any (fun x =>
      !(x.2.eng.staged 2).isEmpty && !(x.2.eng.staged 3).isEmpty) = true ∧
    ((runs { frame := List.replicate 512 0, mask := (2 ^ 65 - 1) * 2 ^ 256 }).runningOn 15 31).any (fun x =>
      decide (64 < (overBytes x.2.patch ((x.2.eng.staged 4).map (fun x => (x.1 - 256, x.2)))).length)) = true := by decide +kernel

/-! ### TwigItemsAndOrder -/

/-- The waiting item 4 of the packet of bough 31, tag 9, in cluster 15. -/
def waitsItem (f : Item → Item) : State :=
  { up with twig.items := [(4, f { pkt := pkey 31 9, cluster := 15, aff := 1, flow := 0, rt := 7, createdAt := 0 })], twig.nextItem := 5 }
theorem wit_TwigItemsAndOrder_1 : let s := waitsItem id
    s.inReset = false ∧ (s.itemOf (pkey 31 9)).any (fun x => !x.2.entered && s.alive (islCluster x.2.cluster) &&
      decide ((s.twig.items.filter (fun e => e.2.waits x.2.cluster)).length < 2048)) = true ∧ s.alive (islCluster 15) = true := by decide +kernel
theorem wit_TwigItemsAndOrder_2 : let s := waitsItem (fun x => { x with entered := true, cold := .wanted, flow := 5 })
    s.inReset = false ∧ (s.itemOf (pkey 31 9)).any (fun x => x.2.entered && decide (x.2.cold = .wanted) && decide (x.2.ph = .queued) &&
      decide (s.twig.coldUsed.get 0 x.2.cluster + 1000 ≤ 64000) && s.twig.items.all (fun e => decide (x.1 ≤ e.1)) &&
      s.rtsHas clsTwig (slotAddr x.2.flow + 128) &&
      !(((({ s with twig := { s.twig with coldUsed := s.twig.coldUsed.set 0 x.2.cluster (s.twig.coldUsed.get 0 x.2.cluster + 1000) } } : State).cnt
        TWG_COLD_CNT).rtsUseFrom (s.bucketStack (x.2.flow / 4)) clsTwig (slotAddr x.2.flow + 128) 128 false).rsScan (slotAddr x.2.flow + 128) 128).rsPoisoned (slotAddr x.2.flow + 128) 128) = true := by decide +kernel
theorem wit_TwigItemsAndOrder_3 : let s := waitsItem (fun x => { x with entered := true, engine := 31 })
    bit (s.rd TWG_HALT_HALT_REQ) 15 = false ∧ (∀ x ∈ s.twig.items, x.2.onEngine 15 31 = false) ∧
    (s.twig.items.first (fun x => x.2.waits 15 && x.2.engine == 31)).any (fun x => (s.pkt? x.2.pkt).isNone && x.2.flow == 0) = true ∧
    s.ecc.diff = [] ∧ fon (s.rtEntry 15 (s.rd TWG_EPOCH_CUR % 2) 7) RT_V = false ∧
    fon ((routine7 s).rtEntry 15 ((routine7 s).rd TWG_EPOCH_CUR % 2) 7) RT_V = true := by decide +kernel
theorem wit_TwigItemsAndOrder_4 : let s (p : ItemPh) : State := { waitsItem (fun x => { x with entered := true, ph := p }) with time.mono := 10 ^ 9 }
    (∀ p ∈ [ItemPh.ended, .failed, .running], ((s p).itemOf (pkey 31 9)).any (fun x => decide (x.2.ph = p) && (s p).alive (islCluster x.2.cluster)) = true) ∧
    (s .running).inReset = false ∧ 0 + 8 * max 100 ((s .running).rd TWG_CFG_ITEM_TMAX) ≤ (s .running).time.mono := by decide +kernel
theorem wit_TwigItemsAndOrder_5 : let s : State := { (with9 (framed 64) (fun x => { x with stage := .ordered, slot := some 1 })).wr TWG_CFG_HOLD 9 with
      twig.slots := [{ id := 1, pkt := pkey 31 9, win := 15, port := 255 }] }
    let u : State := { s with twig.slots := [{ id := 1, pkt := pkey 31 9, win := 15, port := 255, ready := true }], time.mono := 72 }
    s.inReset = false ∧ s.twig.slots.all (fun o => o.live && !o.ready) = true ∧
    (s.pkt? (pkey 31 9)).any (fun x => decide (x.stage = .ordered) && x.slot == some 1) = true ∧ s.rd TWG_CFG_HOLD ≠ 0 ∧
    (u.twig.slots.find? (fun x => x.pkt == pkey 31 9 && x.ready)).isSome = true ∧ 0 + 8 * u.rd TWG_CFG_HOLD ≤ u.time.mono := by decide +kernel

/-! ### TwigHaltPatchAndRepair -/

theorem wit_TwigHaltPatchAndRepair_1 : up.reaches TWG_HALT = true ∧ (up.wr TWG_HALT_HALT_REQ 0x8000).alive (islCluster 15) = true ∧
    bit ((up.wr TWG_HALT_HALT_REQ 0x8000).rd TWG_HALT_HALT_REQ) 15 = true ∧
    bit ((up.wr TWG_HALT_HALT_REQ 0x8000).rd TWG_HALT_STS_HALTED) 15 = false ∧ up.twig.items = [] := by decide +kernel
theorem wit_TwigHaltPatchAndRepair_2 : up.alive islMgmt = true ∧ (up.wr TWG_PATCH_STS_STATE 1).rd TWG_PATCH_STS_STATE = 1 ∧
    (∀ k < 16, up.twig.patchT ≤ up.now (islCluster k)) ∧ up.twig.by_ = none ∧ up.tblWf = true ∧ up.ecc.repairDue = [] ∧
    (up.wr TWG_PATCH_STS_STATE 2).rd TWG_PATCH_STS_STATE = 2 ∧ (up.wr TWG_PATCH_STS_STATE 3).rd TWG_PATCH_STS_STATE = 3 ∧
    (let s : State := { up with ecc.pageDue := [(3, 2400)] }
     s.ecc.pageDue.find? (fun x => x.1 == 3 && x.2 / 160 == 15) = some (3, 2400) ∧
     (List.range 16).find? (fun c => c != 15 && s.ctlPageGood (c * 160 + 2400 % 160)) = some 0) := by decide +kernel

/-! ### FindAndInstall -/

/-- Pending entry 511 of group 15. -/
def pendOne (e : PendEnt) : State := { up with gv.pends := [(pendKey 15 511, e)] }
/-- A key of 52 zero bytes under profile 0, one packet parked. -/
def pe0 : PendEnt := { key := List.replicate 52 0, prof := 0, hA := 0, hB := 0, pkts := [1] }
/-- Record slot 1 of bucket 0 holds the key of `pe0` (its V bit set), in the primary or the alternate bucket. -/
def holdsKey (s : State) (alt : Bool) : State :=
  let m := fset (fset 0 KM_V 1) KM_ALT (b2n alt)
  s.rsPut (wayAddr 1) (natLe 64 (m * 2 ^ 416))
theorem wit_FindAndInstall_1 : let s := holdsKey (pendOne pe0) false
    s.alive (islGroup 15) = true ∧ s.ecc.diff = [] ∧ s.ecc.poison = [] ∧ s.gv.pends.find? (pendKey 15 511) = some pe0 ∧
    s.gv.tokUsed.get 0 (s.bucketStack 0) + 1000 * 2 ≤ s.missBurst * 1000 ∧ s.rtsHas clsMiss (wayAddr (4 * 0)) = true ∧
    s.matchWay 0 pe0.key 0 false = some 1 ∧ (pendOne pe0).matchWay 0 pe0.key 0 false = none ∧ (pendOne pe0).ovf 0 = 0 ∧
    (pendOne pe0).freeWay 0 = some 1 ∧ pe0.cr.bind = 0 := by decide +kernel
/-- The four ways of bucket 0 hold other keys of profile 1. -/
def fullBucket (s : State) : State := (List.range 4).foldl (fun s w => s.rsPut (wayAddr w) (natLe 64 (fset (fset 0 KM_V 1) KM_PROF 1 * 2 ^ 416))) s
theorem wit_FindAndInstall_5 : let s := fullBucket (pendOne pe0)
    s.matchWay 0 pe0.key 0 false = none ∧ s.ovf 0 = 0 ∧ s.freeWay 0 = none ∧
    (pendOne { pe0 with fs := .alt, inBudget := true, heldWay := some 2 }).matchWay (altBucket 0 (fpOf 0 0)) pe0.key 0 true = none ∧
    (pendOne { pe0 with fs := .ovf [0] 5 }).gv.pends.find? (pendKey 15 511) = some { pe0 with fs := .ovf [0] 5 } := by decide +kernel
theorem wit_FindAndInstall_2 : let s : State := { pendOne pe0 with gv.tokUsed := [(0, 10 ^ 9), (1, 10 ^ 9)] }
    s.missBurst * 1000 < s.gv.tokUsed.get 0 (s.bucketStack 0) + 1000 ∧ s.matchWay 0 pe0.key 0 false = none ∧ s.ovf 0 = 0 ∧
    s.rtsHas clsOb (wayAddr (4 * 0)) = true ∧ s.alive (islRts 1) = true := by decide +kernel
theorem wit_FindAndInstall_3 : let s := holdsKey (pendOne { pe0 with fs := .alt, hB := altBucket 0 0 }) true
    s.matchWay (altBucket (altBucket 0 0 % 2 ^ 24) (fpOf 0 (altBucket 0 0))) pe0.key 0 true = some 1 ∧
    (pendOne { pe0 with fs := .alt }).matchWay (altBucket 0 (fpOf 0 0)) pe0.key 0 true = none ∧
    s.rtsHas (findCls false) (wayAddr (4 * altBucket (altBucket 0 0 % 2 ^ 24) (fpOf 0 (altBucket 0 0)))) = true ∧
    (pendOne { pe0 with fs := .prim (some 1) }).gv.pends.find? (pendKey 15 511) = some { pe0 with fs := .prim (some 1) } := by decide +kernel
theorem wit_FindAndInstall_4 : let s := pendOne { pe0 with ph := .install, fs := .line 1 true }
    s.gv.pends.find? (pendKey 15 511) = some { pe0 with ph := .install, fs := .line 1 true } ∧ pe0.pkts ≠ [] ∧
    s.victim 0 (fpOf 0 0) = (some 0, s) ∧ (s.line 0).v = false := by decide +kernel

/-! ### ParkAndWriteBack -/

theorem wit_ParkAndWriteBack_1 : let s := pendOne { pe0 with ph := .release, fs := .none 3 }
    let u := pendOne { pe0 with ph := .release, fs := .line 1 false, line := some 0 }
    s.alive (islGroup 15) = true ∧ s.nextOut 15 = .entry (pendKey 15 511) { pe0 with ph := .release, fs := .none 3 } ∧
    u.nextOut 15 = .entry (pendKey 15 511) { pe0 with ph := .release, fs := .line 1 false, line := some 0 } := by decide +kernel
theorem wit_ParkAndWriteBack_2 : let s := with9 (framed 64) (fun x => { x with stage := .parked })
    s.alive (islBough 31) = true ∧ (s.pkt? (pkey 31 9)).any (fun x => decide (x.stage = .parked) && x.flow.entry.isNone &&
      decide (x.flow.due ≤ s.time.mono) && decide (x.bark.cls < 16)) = true := by decide +kernel
/-- A line of set 0 that holds a key of 52 zero bytes. -/
def zeroLine : CLine := { fp := fpOf 0 0, v := true, data := natLe 128 (fset 0 KM_V 1 * 2 ^ 416) }
theorem wit_ParkAndWriteBack_5 : let s := with9 (framed 64) (fun x => { x with stage := .parked, ps := { x.ps with key := List.replicate 52 0, prof := 0 }, flow := { x.flow with hA := 0, hB := 0, joinLine := some (lineNo 0 0) } })
    let u := s.setLine (lineNo 0 0) zeroLine
    (match u.nextOut 0 with | .join k y => k == pkey 31 9 && u.joinReady y && y.flow.grp == 0 | _ => false) = true := by decide +kernel
theorem wit_ParkAndWriteBack_3 : let s : State := { up.setLine 7 { v := true, wbp := true, own := 31 } with gv.wbq := [(31, [(7, some [1])])] }
    s.gv.wbq.get [] 31 = [(7, some [1])] ∧ (s.line 7).v = true ∧ (s.line 7).wbp = true ∧ (s.line 7).own = 31 ∧ (up.line 7).v = false := by decide +kernel
theorem wit_ParkAndWriteBack_4 : let c : Corr := ⟨31, 7, 0, 5, false⟩
    let s : State := { up.setLine 7 { v := true } with gv.corrs := [c] }
    s.gv.corrs.find? (fun c => c.bough == 31 && (s.corrGone c || s.lineFree c.line)) = some c ∧ s.corrGone c = false ∧
    ({ up with gv.corrs := [c] } : State).corrGone c = true ∧
    0 + 1000000000 ≤ (tenSec up).now (islRts 1) ∧ 0 + 1000000000 ≤ (tenSec up).now (islGroup 15) ∧
    ({ up with gv.dirFull := [(1, (0, 9))] } : State).gv.dirFull.get (0, 0) 1 = (0, 9) := by decide +kernel

/-! ### GroveEnableFlushAndSweep -/

theorem wit_GroveEnableFlushAndSweep : up.reaches GRV_CFG = true ∧ up.on GRV_CFG_EN = false ∧ up.rtsReady = false ∧
    (up.wr RTS_STS_READY 3).rtsReady = true ∧ (up.wr GRV_STS_KEEP_OK 1).on GRV_STS_KEEP_OK = true ∧ (up.wr GRV_CFG_EN 1).on GRV_CFG_EN = true ∧ (5 : Word).toNat % 2 = 1 ∧
    ({ up with gv.initEnd := some 0 } : State).gv.initEnd = some 0 ∧ (up.wr GRV_STS_FLUSH_BUSY 1).on GRV_STS_FLUSH_BUSY = true ∧
    up.on GRV_STS_READY = false ∧ ((up.wr GRV_STS_READY 1).wr GRV_PRUNE_CFG_PERIOD 9).on GRV_STS_READY = true ∧
    ((up.wr GRV_STS_READY 1).wr GRV_PRUNE_CFG_PERIOD 9).rd GRV_PRUNE_CFG_PERIOD ≠ 0 ∧ up.gv.sweepTm.get 0 1 ≤ up.time.mono ∧
    up.rtsHas clsMaint (wayAddr (4 * up.ownedFrom 1 16 (up.gv.sweepAt.get 0 1))) = true ∧
    up.alive islMgmt = true ∧ up.alive (islRts 1) = true := by decide +kernel

/-! ### TrunkBusPhases -/

/-- Requests of the host and of the scrubber wait; the host owns the parked bus. -/
def busReqs : State := { up.wr TRK_STS_OWNER 3 with trk.parked := true, trk.want := [⟨3, 4, 0⟩, ⟨7, 4, 0⟩] }
theorem wit_TrunkBusPhases_1 : busReqs.alive islMgmt = true ∧ busReqs.trk.cur = none ∧ busReqs.trk.parked = true ∧
    busReqs.trk.want.find? (fun x => x.r == busReqs.rd TRK_STS_OWNER) = some ⟨3, 4, 0⟩ ∧
    busReqs.trkMay (busReqs.rd TRK_STS_OWNER) busReqs.time.mono = true := by decide
theorem wit_TrunkBusPhases_2 : let s : State := { busReqs with trk.parked := false }
    s.trk.cur = none ∧ 3 ∈ s.trkWanting s.time.mono ∧ 7 ∈ s.trkWanting s.time.mono ∧ s.trk.want.find? (fun x => x.r == 7) = some ⟨7, 4, 0⟩ ∧
    (∀ r ∈ s.trkWanting s.time.mono, r ≠ 7 → prioOf (s.reg TRK_PRIO_MAP) r < prioOf (s.reg TRK_PRIO_MAP) 7) := by decide +kernel
theorem wit_TrunkBusPhases_3 : let s : State := { busReqs with trk.cur := some (⟨3, 4, 0⟩, 80), trk.next := none }
    s.trk.cur = some (⟨3, 4, 0⟩, 80) ∧ s.trk.next = none ∧ 80 - 80 ≤ s.time.mono ∧
    (s.trkWanting 80).filter (fun r => (s.trk.back.get (0, 0) r).2 == 0) = [3, 7] ∧
    ({ s with trk.want := [] } : State).trkWanting 80 = [] ∧
    (∀ r ∈ [3, 7], r ≠ 7 → prioOf (s.reg TRK_PRIO_MAP) r < prioOf (s.reg TRK_PRIO_MAP) 7) := by decide +kernel
theorem wit_TrunkBusPhases_4 : let s : State := { busReqs with trk.cur := some (⟨3, 4, 0⟩, 0), trk.next := some (some ⟨7, 4, 0⟩) }
    s.trk.cur = some (⟨3, 4, 0⟩, 0) ∧ 0 ≤ s.time.mono ∧ s.trk.next = some (some ⟨7, 4, 0⟩) ∧
    ({ s with trk.next := some none } : State).trk.next = some none := by decide
theorem wit_TrunkBusPhases_5 : up.reaches TRK_PRIO_MAP = true ∧ up.reaches TRK_CFG = true ∧
    (∀ n < 8, ∃ r < 8, prioOf (0x053977 : Word).toNat r = n) ∧ (∃ n < 8, ∀ r < 8, prioOf (0 : Word).toNat r ≠ n) := by decide

/-! ### LearningAndPruning -/

/-- A learn request from port 255, time 0. -/
def learnQ : LearnReq := { vid := 7, mac := 0x020000000001, port := 255, ts := 0, seq := 1, refresh := false }
/-- It waits in the merge buffer, its settle time over; `e` is the entry of its key at index 0. -/
def learnS (e ts : Nat) : State :=
  let s := (tenSec up).setEnt 0x30 0 0 e
  { s with brg := { s.brg with learn := [{ learnQ with merged := true }], ts := s.brg.ts.set 0 0 ts } }
/-- Its key on port 3. -/
def onPort3 : Nat := learnedEntry 7 0x020000000001 3
theorem wit_LearningAndPruning_1 : let s : State := { up with brg.learn := [learnQ] }
    s.alive (islBough 31) = true ∧ s.brg.learn.find? (fun r => r.port / 8 == 31 && !r.merged && r.hold.isNone) = some learnQ := by decide
theorem wit_LearningAndPruning_2 : let s := learnS 0 0
    let q : LearnReq := { learnQ with merged := true }
    s.alive islMgmt = true ∧ q ∈ s.brg.learn ∧ (∀ r ∈ s.brg.learn, r.merged = true → r ≠ q → q.before r = true) ∧
    q.ts + max 1 (s.rd BRG_LEARN_CFG_SETTLE) * 1000 ≤ s.now islMgmt ∧ s.brgFind q.vid q.mac = none ∧
    s.rd (BRG_PORT_CFG_LIMIT 255) = 0 ∧ (s.wr (BRG_PORT_CFG_LIMIT 255) 1 |>.wr (BRG_PORT_STS_LEARNED 255) 1).rd (BRG_PORT_CFG_LIMIT 255) ≤
      (s.wr (BRG_PORT_CFG_LIMIT 255) 1 |>.wr (BRG_PORT_STS_LEARNED 255) 1).rd (BRG_PORT_STS_LEARNED 255) := by decide +kernel
theorem wit_LearningAndPruning_3 : (learnS 0 0).brgFree = some 0 := by decide +kernel
theorem wit_LearningAndPruning_4 :
    let late := 10 ^ 10
    (learnS onPort3 0).brgFind 7 0x020000000001 = some (0, onPort3) ∧ fget onPort3 BR_EGR = 3 ∧ fon onPort3 BR_STATIC = false ∧
    fon (fset onPort3 BR_STATIC 1) BR_STATIC = true ∧ (learnS (learnedEntry 7 0x020000000001 255) 0).brgFind 7 0x020000000001 =
      some (0, learnedEntry 7 0x020000000001 255) ∧ fget (learnedEntry 7 0x020000000001 255) BR_EGR = 255 ∧
    0 - 0 < max 1 ((learnS onPort3 0).rd BRG_LEARN_CFG_HOLD) * 1000000 ∧ learnQ.ts < late ∧
    max 1 ((learnS onPort3 0).rd BRG_LEARN_CFG_HOLD) * 1000000 ≤ late - learnQ.ts := by decide +kernel
theorem wit_LearningAndPruning_5 : let s := (learnS onPort3 0).wr BRG_PRUNE_CFG_PERIOD 9
    s.alive islMgmt = true ∧ s.rd BRG_PRUNE_CFG_PERIOD ≠ 0 ∧ s.brg.pruneAt ≤ s.now islMgmt ∧ fon (s.ent 0x30 0 s.brg.pruneIdx) BR_V = true ∧
    fon (s.ent 0x30 0 s.brg.pruneIdx) BR_STATIC = false ∧ s.brg.hit.get 0 0 = 0 ∧ up.rd BRG_PRUNE_CFG_PERIOD ≠ 0 ∧
    (up.wr BRG_PRUNE_CFG_PERIOD 0).rd BRG_PRUNE_CFG_PERIOD = 0 := by decide +kernel

/-! ### GraftCourse -/

/-- The log's first slot is poisoned. -/
def logPoison (s : State) : State := { s with ecc.poison := [s.rsWord (s.logSlot 0)] }
/-- A graft in a state, with one staged entry. -/
def graftIn (n : Nat) : State := { up.setGraft n with gr.log := [⟨0x22, 5, 9⟩] }
theorem wit_GraftCourse_1 : (graftIn 2).alive islMgmt = true ∧ (graftIn 2).graftSt = 2 ∧ (graftIn 2).gr.phaseEnd ≤ (graftIn 2).time.mono ∧
    (graftIn 3).graftSt = 3 ∧ (graftIn 3).alive (islBough 31) = true ∧ bit (graftIn 3).gr.flipped 31 = false ∧
    (graftIn 3).rd64 GRF_FLIP_TS ≤ (graftIn 3).now (islBough 31) ∧ (graftIn 3).gr.timerEnd ≤ (graftIn 3).time.mono ∧
    ({ graftIn 3 with gr.flipped := 2 ^ 31 - 1 } : State).gr.flipped ||| 2 ^ 31 = 2 ^ 32 - 1 ∧
    bit (2 ^ 31 - 1) 31 = false ∧ ({ graftIn 3 with gr.by_ := some (0, 0) } : State).gr.by_ = some (0, 0) ∧ (graftIn 3).gr.by_ = none := by
  decide +kernel
theorem wit_GraftCourse_2 : (graftIn 4).graftSt = 4 ∧ (List.range 32).filter (fun b => (graftIn 4).rd (genCnt b 65535) != 0) = [] ∧
    (List.range 32).filter (fun b => ((graftIn 4).wr (genCnt 0 65535) 1).rd (genCnt b 65535) != 0) ≠ [] ∧
    (graftIn 4).rd GRF_GRAFT_CFG_DRAIN_WARN ≠ 0 ∧ ((graftIn 4).wr GRF_GRAFT_CFG_DRAIN_WARN 0).rd GRF_GRAFT_CFG_DRAIN_WARN = 0 ∧
    (graftIn 4).gr.drainAt + (graftIn 4).rd GRF_GRAFT_CFG_DRAIN_WARN * 8000000 ≤ ({ graftIn 4 with time.mono := 10 ^ 9 } : State).time.mono := by decide +kernel
theorem wit_GraftCourse_3 : (graftIn 5).graftSt = 5 ∧ (graftIn 5).gr.phaseEnd ≤ (graftIn 5).time.mono ∧ (graftIn 6).graftSt = 6 ∧
    (graftIn 6).alive islMgmt = true ∧ (graftIn 0).graftSt = 0 ∧ up.reaches GRF_LOG_CFG = true ∧ up.reaches GRF_RS_CFG = true := by decide +kernel
theorem wit_GraftCourse_4 : (graftIn 2).ecc.diff = [] ∧ (graftIn 2).ecc.poison = [] ∧ (graftIn 2).logRead.1 = false ∧ (graftIn 5).logRead.1 = false ∧
    (logPoison (graftIn 2)).logRead.1 = true ∧ (logPoison (graftIn 5)).logRead.1 = true ∧ (logPoison (graftIn 2)).graftSt = 2 ∧
    (logPoison (graftIn 5)).graftSt = 5 := by decide +kernel
theorem wit_GraftCourse_5 : let s : State := { graftIn 3 with gr.by_ := some (0, 0), gr.tflipAddr := 8 }
    s.gr.by_ = some (0, 0) ∧ s.gr.tflipAddr ≠ 0 ∧ s.dmaOk = true ∧ ({ s with msi.bme := false } : State).dmaOk = false ∧
    ({ s with gr.tflipAddr := 0 } : State).gr.tflipAddr = 0 := by decide +kernel

/-! ### SnapshotsCountersAndJournal -/

/-- A snapshot due at time 0. -/
def snapNow : State := { up with obs.snapDue := [0] }
theorem wit_SnapshotsCountersAndJournal_1 : up.reaches OBS_SNAP_CTL = true ∧ snapNow.alive islMgmt = true ∧ snapNow.obs.snapDue = [0] ∧
    (snapNow.snapSlots 0).2.obs.snapRun = none ∧ (snapNow.snapSlots 0).2.cntReading 1 = false ∧
    (({ snapNow with obs.snapRun := some 0 } : State).snapSlots 0).2.obs.snapRun = some 0 ∧ 0 < (snapNow.bank 0).t + 20000 ∧
    (∀ i < 168, snapNow.ticksIsl i 0 = 0) := by decide +kernel
theorem wit_SnapshotsCountersAndJournal_2 : let s : State := { up with obs.pmuWrap := [319], obs.sampEnd := some 0 }
    up.reaches OBS_PMU_CTL = true ∧ s.inReset = false ∧ s.obs.pmuWrap = [319] ∧ s.obs.sampEnd = some 0 ∧ 0 ≤ s.devNow ∧
    getBits (s.reg (OBS_PMU_GCFG 63)) 17 1 = 0 ∧ getBits ((s.wr (OBS_PMU_GCFG_OVF_INT 63) 1).reg (OBS_PMU_GCFG 63)) 17 1 = 1 := by decide +kernel
/-- Two records wait and the stacks are ready. -/
def jrnTwo : State := { (up.wr RTS_STS_READY 3).wr OBS_JRN_CFG_EN 1 with jrn.q := [⟨5, 0x0101, 3, false, 0, 0, [1]⟩, ⟨6, 0x0101, 3, false, 0, 0, [2]⟩] }
theorem wit_SnapshotsCountersAndJournal_3 : jrnTwo.alive islMgmt = true ∧ jrnTwo.on OBS_JRN_CFG_EN = true ∧ jrnTwo.jrn.restart = false ∧
    jrnTwo.rsReady (jrnAddr (jrnTwo.rd64 OBS_JRN_WPTR)) = true ∧ jrnTwo.rtsHas clsJrn (jrnAddr (jrnTwo.rd64 OBS_JRN_WPTR)) = true ∧ jrnTwo.ecc.diff = [] ∧ jrnTwo.ecc.poison = [] ∧
    jrnTwo.on ECC_INJ_CFG_ARM = false ∧ jrnTwo.jrn.q.length < 4096 ∧
    (({ jrnTwo with jrn.lost := [(5 * 65536 + 255, (3, 1))] } : State).jrn.lost.get (0, 0) (5 * 65536 + 255)).1 ≠ 0 ∧
    (jrnTwo.jrn.lost.get (0, 0) 7).1 = 0 ∧ ({ jrnTwo with jrn.restart := true, jrn.knots := [(3, 9)] } : State).jrn.knots ≠ [] := by decide +kernel

/-! ### TemplatesAndExport -/

/-- Export on, over the event stream or the port; one record held. -/
def exporting (dest : Nat) : State :=
  { (up.wr OBS_EXP_CFG_EN 1).wr OBS_EXP_CFG_DEST dest with obs.expRecs := [{ tmpl := 256, bytes := [1, 2, 3] }], obs.tmpl := [(1, ⟨256, [(1, 8)]⟩)] }
theorem wit_TemplatesAndExport_1 : up.reaches OBS_EXP_CFG = true ∧ (exporting 1).on OBS_EXP_CFG_EN = true ∧
    (exporting 1).on OBS_EXP_CFG_DEST = true ∧ (exporting 0).on OBS_EXP_CFG_DEST = false ∧ bit (0 : Word).toNat 2 = false ∧
    ({ exporting 1 with obs.tmplDue := some 0 } : State).obs.tmplDue = some 0 ∧ 0 ≤ (exporting 1).now islMgmt ∧
    (exporting 1).alive islMgmt = true := by decide +kernel
/-- Flow 5 with template 1 and export every second, its EXP_NEXT at 0, the clocks at 10 s. -/
def activeFlow : State :=
  let s := tenSec ((exporting 0).wr RTS_STS_READY 3)
  (s.rsPut (wayAddr 5) (natLe 64 (fset 0 KM_V 1 * 2 ^ 416))).rsPut (slotAddr 5 + 128) (List.replicate 51 0 ++ [1, 1, 0])
theorem wit_TemplatesAndExport_2 : let r := activeFlow.record 5
    activeFlow.alive islMgmt = true ∧ activeFlow.on OBS_EXP_CFG_EN = true ∧ activeFlow.wayUsed 5 = true ∧ beAt r 179 1 = 1 ∧
    beAt r 180 1 + 256 * beAt r 181 1 = 1 ∧ activeFlow.rd RTS_STS_READY = 3 ∧ activeFlow.hotUnread 5 = false ∧ activeFlow.rsPoisoned (slotAddr 5 + 128) 128 = false ∧
    (activeFlow.tmplOf 1).isSome = true ∧ expNext (activeFlow.now islMgmt) (fget (leNat (slice0 r 128 128)) CB_EXP_NEXT) + 1 ≤
      activeFlow.now islMgmt ∧ up.wayUsed 5 = false := by decide +kernel
theorem wit_TemplatesAndExport_3 : (exporting 0).nextMsg.isSome = true ∧ (exporting 0).obs.evQ.get [] 3 = [] ∧
    ({ exporting 0 with obs.evQ := [(3, [[1]])] } : State).obs.evQ.get [] 3 ≠ [] ∧ up.nextMsg = none ∧
    (exporting 1).nextMsg.isSome = true ∧ ((exporting 1).nextMsg.all (fun m => datagram ((exporting 1).rsRead
      ((exporting 1).expBase + 0x10000) ((exporting 1).rd OBS_EXP_HDR_LEN)) ((exporting 1).rd OBS_EXP_HDR_IPOFF) m.1 == none)) = true ∧
    ({ tenSec up with obs.expLostSec := 2 } : State).obs.expLostAt + 1000000000 ≤ (tenSec up).now islMgmt := by decide +kernel
/-- A header of 42 bytes: Ethernet, IPv4, UDP; port 255 ready. -/
def exportPort : State :=
  let s := (((portReady.wr OBS_EXP_CFG_EN 1).wr OBS_EXP_CFG_DEST 1).wr OBS_EXP_CFG_PORT 255)
  let s := (s.wr OBS_EXP_HDR_LEN 42).wr OBS_EXP_HDR_IPOFF 14
  { s.rsPut (s.expBase + 0x10000) (List.replicate 14 1 ++ [0x45] ++ List.replicate 27 0) with obs.expRecs := [{ tmpl := 256, bytes := [1, 2, 3] }] }
theorem wit_TemplatesAndExport_4 : exportPort.alive islMgmt = true ∧ exportPort.on OBS_EXP_CFG_EN = true ∧
    exportPort.on OBS_EXP_CFG_DEST = true ∧ ((exportPort.nextMsg).any (fun m =>
      match datagram (exportPort.rsRead (exportPort.expBase + 0x10000) 42) 14 m.1 with
      | some f => exportPort.injValid 255 (padded f).length &&
        (exportPort.inject 255 0 (some 0) true (padded f)).isSome
      | none => false)) = true ∧ exportPort.rd OBS_EXP_CFG_PORT = 255 ∧ exportPort.rd OBS_EXP_CFG_CLASS = 0 ∧
    exportPort.rd OBS_EXP_HDR_LEN = 42 ∧ exportPort.rd OBS_EXP_HDR_IPOFF = 14 := by decide +kernel

/-! ### RootStoreStartMappingAndUpkeep -/

theorem wit_RootStoreStartMappingAndUpkeep : up.reaches RTS_CFG = true ∧ up.on RTS_CFG_EN = false ∧ (up.wr RTS_CFG_EN 1).on RTS_CFG_EN = true ∧
    up.alive (islRts 1) = true ∧ (up.rts 1).starting = false ∧ ({ up with rts1.starting := true } : State).rts1.starting = true ∧
    up.reaches (mapFld 9).addr = true ∧ up.rsWf = true ∧ Tab.wf (fun _ => 0) up.ecc.diff = true ∧ up.reaches (RTS_BW_CFG 6) = true ∧
    bit (up.rd RTS_STS_READY) 1 = false ∧ bit ((up.wr RTS_STS_READY 2).rd RTS_STS_READY) 1 = true ∧
    bit ((up.wr RTS_STS_KEPT 2).rd RTS_STS_KEPT) 1 = true ∧ (up.rts 1).trainFails.get 0 31 = 0 ∧
    ({ up with rts1.trainFails := [(31, 2)] } : State).rts1.trainFails.get 0 31 = 2 ∧ up.rd RTS_TEMP_CFG_HIGH ≤ 255 ∧
    0 < up.rd RTS_TEMP_CFG_HIGH := by decide +kernel

/-! ### RootStoreRequestsAndAccesses -/

/-- Both stacks ready. -/
def rtsUp : State := up.wr RTS_STS_READY 3
/-- A read of 64 bytes at 0, class 3, tag 7. -/
def rd64At0 : RtsReq := ⟨7, 3, 0, 64, false, false, [], false⟩
/-- It stands in the table of controller 0. -/
def rtsOne (r : RtsReq) : State := { rtsUp with rts0.reqs := [r] }
theorem wit_RootStoreRequestsAndAccesses_1 : rtsUp.inReset = false ∧ rtsUp.stkOf 0 = 0 ∧ bit (rtsUp.rd RTS_STS_READY) 0 = true ∧
    rtsUp.alive (islRts 0) = true ∧ (rtsUp.rts 0).reqs.length < 4096 ∧ rtsRoom (rtsUp.rts 0).reqs 3 = true ∧
    (∀ x ∈ (rtsUp.rts 0).held, x.cls ≠ 3) ∧ rtsUp.on ECC_INJ_CFG_ARM = false ∧ rtsUp.ecc.diff = [] ∧ rtsUp.ecc.poison = [] ∧
    (∃ x ∈ (({ rtsUp with rts0.held := [rd64At0] } : State).rts 0).held, x.cls = 3) := by decide +kernel
theorem wit_RootStoreRequestsAndAccesses_2 : let s := rtsOne rd64At0
    s.alive (islRts 0) = true ∧ (s.rts 0).reqs.filter (fun r => !r.issued && s.pcOf r.addr == 0) = [] ++ rd64At0 :: [] ∧
    ((s.rts 0).banks.get {} (s.bankNo 0)).isOpen = false ∧ (s.rts 0).ahead.get 0 (8 * 0 + 3) < 4 ∧
    4 ≤ (({ s with rts0 := { s.rts0 with ahead := [(3, 4)] } } : State).rts 0).ahead.get 0 (8 * 0 + 3) ∧
    (rtsUp.rts 0).reqs.filter (fun r => !r.issued && s.pcOf r.addr == 0) = [] ∧ rd64At0 ∈ (s.rts 0).reqs ∧ (s.rts 0).held = [] := by decide +kernel
theorem wit_RootStoreRequestsAndAccesses_3 : let a : RtsReq := { rd64At0 with addr := 2 ^ 20, tag := 8 }
    let s : State := { rtsUp with rts0.reqs := [rd64At0, a], rts0.banks := [(rtsUp.bankNo (2 ^ 20), ⟨true, 1, 2, 0⟩)] }
    (s.rts 0).reqs.filter (fun r => !r.issued && s.pcOf r.addr == 0) = [] ++ rd64At0 :: [a] ∧
    (∀ x ∈ [a], s.rtsRank 0 [rd64At0, a] rd64At0.cls ≤ s.rtsRank 0 [rd64At0, a] x.cls) ∧ s.rtsPaused 0 0 = false ∧ s.rtsInCap 0 3 64 = true ∧ s.bankNo (2 ^ 20) = s.bankNo 0 ∧
    getBits (2 ^ 20) 20 14 = 1 := by decide +kernel
theorem wit_RootStoreRequestsAndAccesses_4 : let s := rtsOne { rd64At0 with issued := true }
    let u : State := { rtsUp with rts1.banks := [(1535, ⟨true, 1, 2, 0⟩)], time.mono := 10 ^ 6 }
    (s.rts 0).reqs.find? (fun r => r.issued && r.tag == 7) = some { rd64At0 with issued := true } ∧
    (s.rts 0).reqs.takeWhile (fun q => q != { rd64At0 with issued := true }) = [] ∧
    (∀ r ∈ (s.rts 0).reqs, r.issued = true → r.tag ≠ 8) ∧ ((u.rts 1).banks.get {} 1535).isOpen = true ∧
    ((u.rts 1).banks.get {} 1535).at_ + 8 * max 1 (u.rd RTS_PAGE_CFG_IDLE) ≤ u.time.mono ∧ u.alive (islRts 1) = true ∧
    ((u.rts 1).banks.get {} 0).isOpen = false := by decide +kernel

/-! ### ErrorsCountedCorrectedAndRepaired -/

/-- Errors in a word of the Root store. -/
def badWord (src w pat : Nat) : State := { rtsUp with ecc.diff := [(eccKey src w, pat)] }
theorem wit_ErrorsCountedCorrectedAndRepaired_1 : rtsUp.inReset = false ∧ (badWord 1 0 1).wordPoisoned (eccKey 1 0) = false ∧ (badWord 1 0 (3 * 2 ^ 64)).wordPoisoned (eccKey 1 0) = true ∧
    classify 64 ((badWord 1 0 1).ecc.diff.get 0 (eccKey 1 0)) = .ce ∧ classify 64 (rtsUp.ecc.diff.get 0 (eccKey 2 5)) = .ok ∧
    classify 64 ((badWord 1 0 24).ecc.diff.get 0 (eccKey 1 0)) = .ue ∧
    (badWord 1 0 24).pageOk 1 ((badWord 1 0 24).rsPage 0) = true ∧
    ({ badWord 1 0 24 with ecc.diff := (List.range 4).map (fun n => (eccKey 1 (2 * n), 24)) } : State).pageOk 1 (rtsUp.rsPage 0) = true := by
  decide +kernel
theorem wit_ErrorsCountedCorrectedAndRepaired_2 :
    let s : State := { rtsUp with ecc.diff := (List.range 17).map (fun n => (eccKey 1 (2 * n), 24)) }
    classify 64 (s.ecc.diff.get 0 (eccKey 1 0)) = .ue ∧ s.pageOk 1 (s.rsPage 0) = false ∧ s.wordPoisoned (eccKey 1 0) = false := by decide +kernel
theorem wit_ErrorsCountedCorrectedAndRepaired_3 : let s : State := { up with ecc.repairDue := [(2 * 0x70, 5)], time.mono := 10 ^ 9 }
    s.alive islMgmt = true ∧ s.ecc.repairDue.filter (fun e => e.1 % 512 == 2 * 0x70 + 0 && e.2 == 5) = [(512 * 0 + 2 * 0x70 + 0, 5)] ∧
    s.ecc.repairDue.filter (fun e => e.1 % 512 == 2 * 0x70 + 1 && e.2 == 5) = [] ∧ copyUnits 0x70 = 1 ∧
    classify (wordBits 1 0) ((badWord 1 0 1).wordPat (eccKey 1 0)) = .ce ∧ rtsUp.rtsHas clsScrub (8 * rtsUp.ecc.scrubPos.get 0 1) = true ∧
    bit ((up.wr ECC_CFG_SCRUB_EN 14).rd ECC_CFG_SCRUB_EN) 0 = false ∧ bit ((up.wr ECC_CFG_SCRUB_EN 15).rd ECC_CFG_SCRUB_EN) 3 = true ∧ up.rd RTS_STS_READY ≠ 3 ∧
    rtsUp.rd RTS_STS_READY = 3 ∧ up.reaches ECC_INJ_CFG = true ∧
    up.on ECC_CFG_TEST_EN = false ∧ (up.wr ECC_CFG_TEST_EN 1).on ECC_CFG_TEST_EN = true := by decide +kernel
theorem wit_ErrorsCountedCorrectedAndRepaired_4 : let s := (tenSec up).wr (ECC_CE_CFG_LEAK_MS 7) 10000
    let per := 1000000 * max 1 (s.rd (ECC_CE_CFG_LEAK_MS 7))
    (s.now islMgmt - s.ecc.leakAt.get 0 7) / per ≠ 0 ∧ (up.now islMgmt - up.ecc.leakAt.get 0 7) / per = 0 := by decide +kernel

/-! ### ChannelOperationsAndReset -/

/-- A valid entry of TYPE 1 with rings of 16. -/
def chEntry : List Byte := List.replicate 17 0 ++ [1] ++ List.replicate 14 0
/-- Channel 1023 with a state. -/
def withCh (x : ChSt) : State := { up with svn.ch := [(1023, x)], svn.cache := [1023] }
theorem wit_ChannelOperationsAndReset_1 : up.reaches SVN_CH_CMD = true ∧ (up.wr SVN_CH_CMD_STS_BUSY 1).on SVN_CH_CMD_STS_BUSY = true ∧
    up.on SVN_CH_CMD_STS_BUSY = false ∧ (up.chan 1023).st = 0 ∧ up.dmaOk = true ∧ entryOk chEntry = true ∧
    entryOk (List.replicate 64 0) = false ∧ up.svn.cache.length < 64 ∧ ({ up with msi.bme := false } : State).dmaOk = false ∧
    ((withCh { st := 1, typ := 1 }).chan 1023).st = 1 ∧ ((withCh { st := 2, typ := 1 }).chan 1023).st = 2 ∧ up.alive islPcie = true := by decide +kernel
theorem wit_ChannelOperationsAndReset_2 : let s : State := { withCh { st := 2, typ := 1, disabling := true, cqOut := 16, flight := [⟨0, [], some (0, 0), false, true, false⟩] } with svn.busyCh := some 1023 }
    let u : State := { withCh { st := 1, typ := 1, disabling := true, flight := [⟨0, [], none, false, true, false⟩] } with svn.busyCh := some 1023 }
    s.svn.busyCh = some 1023 ∧ s.drained 1023 = true ∧ u.drained 1023 = false ∧ u.svn.busyCh = some 1023 ∧ up.svn.busyCh = none ∧
    ({ s with svn.busyCh := none, svn.flrCh := [5, 1023], svn.ch := (5, { flight := [⟨0, [], none, false, true, false⟩] }) :: s.svn.ch } : State).svn.flrCh.find?
      ({ s with svn.busyCh := none, svn.flrCh := [5, 1023], svn.ch := (5, { flight := [⟨0, [], none, false, true, false⟩] }) :: s.svn.ch } : State).drained = some 1023 := by decide +kernel
theorem wit_ChannelOperationsAndReset_3 : let s : State := { withCh { st := 1, typ := 1 } with svn.cache := [] }
    let m : Cmd := ⟨3, [], none, false, true, false⟩
    let n : Cmd := ⟨4, [], none, false, false, false⟩
    (s.chan 1023).st = 1 ∧ s.cached 1023 = false ∧ s.dmaOk = true ∧ s.svn.cache.length < 64 ∧ s.chMay rrLoad 1023 s.loadWaits = true ∧ s.cacheRoom.1 = true ∧
    Tab.sortedFrom none s.svn.ch = true ∧ (withCh { st := 1 }).cached 1023 = true ∧
    m.begun = true ∧ n.begun = false ∧ ((withCh { st := 1, flight := [m, n] }).chan 1023).flight = [m] ++ n :: [] ∧
    (∀ p ∈ up.pkts, p.2.hostCopies = []) ∧ up.svn.knots = [] := by decide +kernel
theorem wit_ChannelOperationsAndReset_4 : let full : State := { up with svn.cache := List.range 64, svn.ch := (List.range 65).map (fun c => (c, { st := 1, typ := 1, disabling := true })) }
    (full.chan 64).st = 1 ∧ full.cached 64 = false ∧ 64 ≤ full.svn.cache.length ∧ (∀ v ∈ full.svn.cache, full.chBusy v = true) ∧
    ({ full with svn.ch := [] } : State).svn.cache.find? (fun v => !({ full with svn.ch := [] } : State).chBusy v) = some 0 := by decide +kernel

/-! ### DoorbellsCompletionsAndMessages -/

/-- A descriptor of an opcode with tag 1. -/
def descOf (op : Nat) : List Byte := natLe 32 (op + 2 ^ 32)
/-- Channel 1023 running as a TYPE, with one command of an opcode fetched and due. -/
def withCmd (typ op : Nat) : State := withCh { st := 1, typ := typ, phase := true, flight := [{ idx := 0, desc := descOf op }], sqHead := 1, sqTail := 1 }
theorem wit_DoorbellsCompletionsAndMessages_1 : up.alive islPcie = true ∧ (up.chan 1023).st ≠ 1 ∧
    ((withCh { st := 1 }).chan 1023).sqSize = 16 ∧ ((withCh { st := 1 }).chan 1023).cqSize = 16 ∧
    ((16 : Word).toNat % 65536 = 16) ∧ ((withCh { st := 1, cqOut := 16, cqHead := 15 }).chan 1023).cqOut = 16 ∧
    ((withCh { st := 1, cqHead := 15 }).chan 1023).cqHead < 16 := by decide +kernel
theorem wit_DoorbellsCompletionsAndMessages_2 : let s := withCh { st := 1, typ := 1, sqTail := 1 }
    let x := s.chan 1023
    (decide (x.st = 1) && !x.disabling && decide (x.sqHead ≠ x.sqTail) && decide (x.cqOut < x.cqSize) && decide (x.inFlight < 256) &&
      s.cached 1023 && decide (s.contexts < 4096) && s.chMay rrContext 1023 s.ctxWaits) = true ∧ s.dmaOk = true ∧ ({ s with msi.d3 := true } : State).dmaOk = false := by decide +kernel
theorem wit_DoorbellsCompletionsAndMessages_3 : (withCmd 1 0).readyCmd 1023 0 0x00 { idx := 0, desc := descOf 0 } := by
  unfold State.readyCmd; decide +kernel
theorem wit_DoorbellsCompletionsAndMessages_4 : let s := withCh { st := 1, typ := 1, flight := [{ idx := 0, desc := descOf 0, fin := some (0, 0) }] }
    let x := s.chan 1023
    s.alive islPcie = true ∧ x.st ≠ 0 ∧ x.cqOut < x.cqSize ∧ x.comps = [] ∧ x.flight = [{ idx := 0, desc := descOf 0, fin := some (0, 0) }] ∧
    s.dmaOk = true ∧ ({ s with msi.bme := false } : State).dmaOk = false ∧
    ((withCh { st := 1, typ := 3, comps := [⟨0, true, true, true, 9, 0, 0x40⟩] }).chan 1023).comps ≠ [] ∧
    ((withCmd 1 0).cmdSettle 1023 256 |>.chan 1023).next = some { idx := 0, desc := descOf 0 } := by decide +kernel
theorem wit_DoorbellsCompletionsAndMessages_5 : let s : State := { withCh { st := 1, holdEnd := some 0, irqEn := true, vec := 63 } with msi.due := [1039, 3] }
    (s.chan 1023).holdEnd = some 0 ∧ 0 ≤ s.time.mono ∧ s.msi.due = [1039, 3] ∧ s.msi.enable = true ∧ s.dmaOk = true ∧ s.msi.funcMask = false ∧
    s.on (MSIX_CTL_MASK 63) = true ∧ (s.wr (MSIX_CTL_MASK 63) 0).on (MSIX_CTL_MASK 63) = false := by decide +kernel

/-! ### TableCommands -/

/-- A descriptor: opcode, table, index, count, host address, parameter; tag 1. -/
def descT (op table index count host param : Nat) : List Byte :=
  natLe 32 (op + table * 2 ^ 16 + 2 ^ 32 + index * 2 ^ 64 + count * 2 ^ 96 + host * 2 ^ 128 + param * 2 ^ 192)
/-- Channel 1023 of a TYPE with a descriptor due. -/
def dueOn (typ : Nat) (d : List Byte) : State :=
  withCh { st := 1, typ := typ, phase := true, flight := [{ idx := 0, desc := d }], sqHead := 1, sqTail := 1 }
/-- The command it holds. -/
def cmdOf (d : List Byte) : Cmd := { idx := 0, desc := d }
theorem wit_TableCommands_1 : let d := descT 0x01 0x60 4095 1 0 0
    let s := dueOn 1 d
    s.alive islMgmt = true ∧ s.readyCmd 1023 0 0x01 (cmdOf d) ∧ s.sw = none ∧ tblCount (s.rd GRF_RS_CFG_WIDTH) 0x60 ≠ 0 ∧
    (cmdOf d).table = 0x60 ∧ (cmdOf d).count = 1 ∧ (cmdOf d).index < tblCount 0 0x60 ∧ s.writeGate 1023 0x60 = none ∧ s.knotOver 0x60 = none ∧
    s.dmaOk = true ∧ s.ecc.diff = [] ∧ s.ecc.repairDue = [] ∧ s.on ECC_INJ_CFG_ARM = false := by unfold State.readyCmd; decide +kernel
theorem wit_TableCommands_2 : let d := descT 0x02 0x60 4095 1 64 0
    let s := dueOn 1 d
    s.readyCmd 1023 0 0x02 (cmdOf d) ∧ (cmdOf d).table = 0x60 ∧ s.writeGate 1023 0x10 = some 6 ∧ tblCount 0 0x41 = 0 ∧
    tblCount 0 0x40 ≠ 0 ∧ s.on GRV_STS_READY = false := by unfold State.readyCmd; decide +kernel
theorem wit_TableCommands_3 : let d := descT 0x03 0x30 0 0 0 0
    let e := descT 0x04 0x41 0 0 0 0
    (dueOn 1 d).readyCmd 1023 0 0x03 (cmdOf d) ∧ (dueOn 1 e).readyCmd 1023 0 0x04 (cmdOf e) ∧ (cmdOf d).table = 0x30 ∧
    (cmdOf e).table = 0x41 ∧ (dueOn 1 d).writeGate 1023 0x30 = none := by unfold State.readyCmd; decide +kernel
theorem wit_TableCommands_4 : let d := descT 0x05 0x30 32767 0 0 0
    let e := descT 0x07 0x30 0 0 0 (2 ^ 20 + 3)
    let f := descT 0x08 0x40 (2 ^ 26) 0 0 1
    let g := descT 0x06 0x30 0 0 0 0
    (dueOn 1 d).readyCmd 1023 0 0x05 (cmdOf d) ∧ (dueOn 1 e).readyCmd 1023 0 0x07 (cmdOf e) ∧ (dueOn 1 f).readyCmd 1023 0 0x08 (cmdOf f) ∧
    (dueOn 1 g).readyCmd 1023 0 0x06 (cmdOf g) ∧ (cmdOf d).index < tblCount 0 0x30 ∧ 2 ^ 26 ≤ (cmdOf f).index ∧
    (up.wr GRV_STS_READY 1).on GRV_STS_READY = true ∧ up.brgFind 0 0 = none := by unfold State.readyCmd; decide +kernel
/-- Flows 5 and 9, the Grove ready. -/
def twoFlows : State :=
  ((up.wr GRV_STS_READY 1).rsPut (wayAddr 5) (natLe 64 (fset 0 KM_V 1 * 2 ^ 416))).rsPut (wayAddr 9) (natLe 64 (fset 0 KM_V 1 * 2 ^ 416))
theorem wit_TableCommands_5 : let s := twoFlows
    let u := (s.setPair clsHost 5 (some 9)).setPair clsHost 9 (some 5)
    s.isFlow 5 = true ∧ s.isFlow 9 = true ∧ s.isFlow 6 = false ∧ s.pairOf 5 = none ∧ s.flowFree 5 = true ∧ s.flowFree 9 = true ∧
    u.pairOf 5 = some 9 ∧ (s.trunkAsk trkHost 5).pairRefused 5 = false ∧ (s.trunkAsk trkHost 5).pairRefused 9 = false ∧
    ({ s with ecc.poison := [s.rsWord (wayAddr 9 + 52)] } : State).pairRefused 9 = true ∧ u.flowFree 5 = true ∧ u.flowFree 9 = true ∧ bit (2 ^ 32) 32 = true ∧ bit 9 32 = false ∧
    fon ((s.setEnt 0x30 0 7 (fset 0 BR_V 1)).ent 0x30 0 7) BR_V = true := by decide +kernel

/-! ### KnotsGraftsAndPatches -/

/-- The state with knot `k` held by channel 1023. -/
def knotted (s : State) (k : Nat) : State := { s with svn.knots := [(k, ⟨1023, 1, 10, 0, []⟩)] }
theorem wit_KnotsGraftsAndPatches_1 : let d := descT 0x10 15 0 0 0 (2 ^ 16)
    let e := descT 0x10 0 0 0 0 0
    (dueOn 1 d).alive islMgmt = true ∧ (dueOn 1 d).readyCmd 1023 0 0x10 (cmdOf d) ∧ (dueOn 1 d).svn.knots.find? 15 = none ∧
    (dueOn 1 d).knotOf 1023 = none ∧ (dueOn 1 e).readyCmd 1023 0 0x10 (cmdOf e) ∧ (dueOn 1 e).sw = none ∧ (dueOn 1 e).graftSt < 2 ∧
    2 ≤ ((dueOn 1 e).setGraft 2).graftSt ∧ (knotted (dueOn 1 d) 15).svn.knots.find? 15 ≠ none ∧
    (cmdOf (descT 0x10 16 0 0 0 0)).table = 16 ∧ getBits (2 ^ 16) 16 6 = 1 ∧
    (∃ x ∈ ({ dueOn 1 d with svn.knots := [(3, ⟨5, 1, 10, 0, []⟩)] } : State).svn.knots, x.1 ≠ 0 ∧ (x.2.mask &&& 1) ≠ 0) := by
  unfold State.readyCmd; decide +kernel
theorem wit_KnotsGraftsAndPatches_2 : let d := descT 0x11 15 0 0 0 1
    let e := descT 0x11 0 0 0 0 0
    let s := knotted (dueOn 1 d) 15
    let u := knotted (dueOn 1 e) 0
    s.readyCmd 1023 0 0x11 (cmdOf d) ∧ s.holds 1023 15 = true ∧ bit (cmdOf d).param 0 = true ∧ s.sw = none ∧
    (s.knotRun 0 0 []).isSome = true ∧ u.readyCmd 1023 0 0x11 (cmdOf e) ∧ u.holds 1023 0 = true ∧ bit (cmdOf e).param 0 = false ∧
    (dueOn 1 d).holds 1023 15 = false := by unfold State.readyCmd; decide +kernel
theorem wit_KnotsGraftsAndPatches_3 : let d := descT 0x12 15 0 0 0 0
    let e := descT 0x13 0 0 0 0 0
    let f := descT 0x14 0 0 0 0 0
    (knotted (dueOn 1 d) 15).readyCmd 1023 0 0x12 (cmdOf d) ∧ (knotted (dueOn 1 e) 0).readyCmd 1023 0 0x13 (cmdOf e) ∧
    (knotted (dueOn 1 e) 0).holds 1023 0 = true ∧ (dueOn 1 f).readyCmd 1023 0 0x14 (cmdOf f) ∧ (dueOn 1 f).rd TWG_PATCH_STS_STATE = 0 ∧
    (dueOn 1 f).sw = none ∧ (knotted up 15).svn.knots.find? 15 = some ⟨1023, 1, 10, 0, []⟩ ∧ 0 ≤ (knotted up 15).time.mono ∧
    (knotted up 0).svn.knots.find? 0 = some ⟨1023, 1, 10, 0, []⟩ ∧ (up.setGraft 1).graftSt = 1 := by unfold State.readyCmd; decide +kernel

/-! ### MemoryInjectionAndStreams -/

theorem wit_MemoryInjectionAndStreams_1 : let d := descT 0x20 0 0 4 0 (2 ^ 34 - 4)
    let e := descT 0x22 0 0 4 0 0
    let f := descT 0x21 0 0 4 0 0
    let s := (dueOn 1 d).wr RTS_STS_READY 3
    s.alive islMgmt = true ∧ s.readyCmd 1023 0 0x20 (cmdOf d) ∧ (dueOn 1 e).readyCmd 1023 0 0x22 (cmdOf e) ∧ (dueOn 1 f).readyCmd 1023 0 0x21 (cmdOf f) ∧
    (cmdOf d).count = 4 ∧ (cmdOf d).param + 4 ≤ 0x400000000 ∧ s.rd RTS_STS_READY = 3 ∧ s.dmaOk = true ∧ up.rd RTS_STS_READY ≠ 3 ∧
    (((s.trunkAsk trkHost 6 (ceilDiv 4 256)).rtsUse clsHost (0x800000000 + 2 ^ 34 - 4) 4 false).rsScan (0x800000000 + 2 ^ 34 - 4) 4).rsPoisoned (0x800000000 + 2 ^ 34 - 4) 4 = false ∧
    ({ s with ecc.poison := [s.rsWord 0x800000000] } : State).rsPoisoned 0x800000000 4 = true ∧
    s.protected 0 4 = false ∧ ((dueOn 1 f).setGraft 2).protected 0 4 = true ∧ s.ecc.diff = [] ∧ s.ecc.poison = [] ∧
    s.on ECC_INJ_CFG_ARM = false := by unfold State.readyCmd; decide +kernel
theorem wit_MemoryInjectionAndStreams_2 : let d := descT 0x23 0 0 1 0 (2 ^ 26 - 8)
    let e := descT 0x23 0 0 1 0 (2 ^ 63)
    let m : Cmd := { cmdOf e with started := true }
    let u : State := { withCh { st := 1, typ := 1, flight := [m] } with svn.snapAt := [(65536 * 1023, 5)], obs.bank1.t := 5, obs.bank1.done := true }
    (dueOn 1 d).readyCmd 1023 0 0x23 (cmdOf d) ∧ (dueOn 1 e).readyCmd 1023 0 0x23 (cmdOf e) ∧ (dueOn 1 d).svn.snapAt.find? (65536 * 1023) = none ∧
    (cmdOf d).param % 2 ^ 63 + 8 * 1 ≤ 0x4000000 ∧ bit (cmdOf e).param 63 = true ∧ (cmdOf e).param % 2 ^ 63 < 0x1000000 ∧
    (u.chan 1023).flight.find? (fun q => q.idx == 0 && q.started && q.fin.isNone) = some m ∧ u.svn.snapAt.find? (65536 * 1023 + 0) = some 5 ∧
    5 ∉ u.obs.snapDue ∧ u.obs.bank0.t ≠ 5 ∧ u.obs.bank1.t = 5 ∧ u.dmaOk = true := by unfold State.readyCmd; decide +kernel
/-- Port 255 ready, channel 1023 of TYPE 2 with an injection of 60 bytes due. -/
def injDue (op : Nat) : State :=
  { portReady with svn.ch := (dueOn 2 (descT op 0xFF 60 0 0 0)).svn.ch, svn.cache := [1023] }
theorem wit_MemoryInjectionAndStreams_3 : let d := descT 0x30 0xFF 60 0 0 0
    let e := descT 0x31 0xFF 60 0 0 0
    (injDue 0x30).alive islMgmt = true ∧ (injDue 0x30).readyCmd 1023 0 0x30 (cmdOf d) ∧ (injDue 0x31).readyCmd 1023 0 0x31 (cmdOf e) ∧
    (injDue 0x30).allocMay (portBough 255) 64 8 = true ∧ (injDue 0x31).allocMay (portBough 255) 64 8 = true ∧
    leAt d 2 1 = 255 ∧ leAt d 8 2 = 60 ∧ (injDue 0x30).injValid 255 60 = true ∧ (injDue 0x30).injValid 255 59 = false ∧
    ((injDue 0x30).inject 255 8191 none false (List.replicate 60 0)).isSome = true ∧
    ((injDue 0x31).inject 255 0 (some 0) false (List.replicate 60 0)).isSome = true ∧
    (((injDue 0x30).wr (BGH_TAG_STS_IN_USE 31) 8192).inject 255 0 none false []) = none := by unfold State.readyCmd; decide +kernel
theorem wit_MemoryInjectionAndStreams_4 : let d := descT 0x40 0 0 0 64 0
    let e := descT 0x41 0 0 0 64 0
    (dueOn 3 d).readyCmd 1023 0 0x40 (cmdOf d) ∧ (dueOn 4 e).readyCmd 1023 0 0x41 (cmdOf e) := by unfold State.readyCmd; decide +kernel
/-- A packet of 64 bytes with a copy for channel 1023, which has buffers of 256 bytes. -/
def copyFor (typ : Nat) (bufs : List PostedBuf) : State :=
  { with9 (framed 64) (fun x => { x with ended := true, hasBuf := true, stage := .sent, hostCopies := [⟨1023, 5, 0⟩] }) with
    svn.ch := [(1023, { st := 1, typ := typ, bufUnits := 1, bufs := bufs })], svn.cache := [1023] }
theorem wit_MemoryInjectionAndStreams_5 : let s := copyFor 3 [⟨0, 0, false⟩]
    s.alive islPcie = true ∧ ((s.pkt? (pkey 31 9)).any (fun p => p.ended && !p.stUe && (p.copyTo 1023 == some ⟨1023, 5, 0⟩) &&
      decide (ceilDiv (48 + p.bytes.length) (max 1 (256 * 1)) ≤ 1) && decide (48 + p.bytes.length ≤ 256 * 1))) = true ∧
    (s.chan 1023).st = 1 ∧ (s.chan 1023).typ = 3 ∧ s.cached 1023 = true ∧ (s.chan 1023).bufs = [⟨0, 0, false⟩] ∧ (s.chan 1023).bufUnits = 1 ∧
    s.pkts.any (fun e => e.1 != pkey 31 9 && e.2.ended) = false ∧ s.dmaOk = true ∧
    (s.chan 1023).cqOut + (s.chan 1023).comps.length < 2 ^ ((s.chan 1023).cqLog + 4) ∧ 2 ^ 4 ≤ ({ cqOut := 16 } : ChSt).cqOut ∧ ((copyFor 1 []).chan 1023).typ ≠ 3 ∧
    ((copyFor 3 []).chan 1023).bufs = [] ∧ ({ s with msi.bme := false } : State).dmaOk = false := by decide +kernel
theorem wit_MemoryInjectionAndStreams_6 : let s : State := { withCh { st := 1, typ := 4, evSel := 24, bufUnits := 1, bufs := [⟨0, 0, true⟩], evFill := 8 } with
        obs.evQ := [(3, [[1, 2]])], time.mono := 10 ^ 9 }
    s.alive islPcie = true ∧ s.streamChan 3 = some 1023 ∧ s.cached 1023 = true ∧
    (s.chan 1023).cqOut + (s.chan 1023).comps.length < 2 ^ ((s.chan 1023).cqLog + 4) ∧ s.dmaOk = true ∧ s.obs.evQ.get [] 3 = [[1, 2]] ∧
    s.obs.evQ.get [] 4 = [] ∧ s.evBody 3 1023 = some [1, 2] ∧ s.evBody 4 1023 = none ∧ (s.evWrite 1023 (List.replicate 16 0)).isSome = true ∧ (s.evWrite 1023 (List.replicate 600 0)) = none ∧
    (s.chan 1023).evAt + 8000 * max 1 (s.rd OBS_EV_CFG_FLUSH) ≤ s.time.mono ∧
    (∀ e ∈ s.svn.ch, e.2.st = 1 → e.2.typ = 4 → bit e.2.evSel 0 = false) := by decide +kernel

/-! ### ResetStatesAreSound -/

theorem wit_ResetStatesAreSound : up.rst.sysrstLow = false ∧ up.inPor = false := by decide

/-! ### PowerOnResetHoldsEverything -/

theorem wit_PowerOnResetHoldsEverything : let s : State := { State.reset with rst.porstLow := true, pending := [.regWrite 0 0] }
    s.heldAtReset ∧ step s = .next { s with pending := [] } ∧ s.inPor = true := by
  refine ⟨⟨rfl, fun _ => rfl, rfl, rfl, rfl, rfl, rfl, rfl, rfl, rfl, rfl, rfl, rfl, rfl⟩, rfl, rfl⟩

/-! ### NothingRunsInReset -/

theorem wit_NothingRunsInReset : let s : State := { up with rst.sysrstLow := true, pending := [.cmdNop 0 0] }
    s.idleInReset ∧ step s = .next { s with pending := [] } ∧ s.inReset = true := by
  refine ⟨⟨rfl, rfl, rfl, rfl, rfl, rfl⟩, rfl, rfl⟩

end Sys2Proof.Tests
end

section
/-!
SUPPORT. Host accesses of BAR0 (O17): what the access codes of R10 leave in a field, what an access event of R446 records,
and where the host's write of a register ends.
-/
namespace Sys2Proof.Machine

/-! ### The access codes, field by field (R10) -/

/-- What a register holding `old` has in the field once the host has written `v`. -/
def RegField.written (f : RegField) (old v : Nat) : Nat :=
  match f.acc with
  | .rw | .rws => getBits v f.lsb f.w
  | .ro => getBits old f.lsb f.w
  | .w1c => getBits old f.lsb f.w - (getBits old f.lsb f.w &&& getBits v f.lsb f.w)
  | .w1s => getBits old f.lsb f.w ||| getBits v f.lsb f.w
  | .wo => 0

/-- Two fields share no bit. -/
def RegField.apart (f g : RegField) : Prop := f.lsb + f.w ≤ g.lsb ∨ g.lsb + g.w ≤ f.lsb

theorem hostWritten_eq_foldl (fs : List RegField) (old v : Nat) :
    hostWritten fs old v = fs.foldl (fun x f => x + f.written old v * 2 ^ f.lsb) 0 := by
  unfold hostWritten RegField.written; rfl

/-- What is written into a field fits it. -/
theorem RegField.written_lt (f : RegField) (old v : Nat) : f.written old v < 2 ^ f.w := by
  have ho := getBits_lt old f.lsb f.w
  have hv := getBits_lt v f.lsb f.w
  unfold RegField.written
  cases f.acc with
  | rw | rws => exact hv
  | ro => exact ho
  | w1c => exact lt_of_le_of_lt (Nat.sub_le _ _) ho
  | w1s => exact Nat.or_lt_two_pow ho hv
  | wo => exact Nat.two_pow_pos _

/-- Adding a value to a field that reads 0 writes the field. -/
theorem add_eq_setBits {x l w r : Nat} (hx : getBits x l w = 0) (hr : r < 2 ^ w) : x + r * 2 ^ l = setBits x l w r := by
  unfold setBits; rw [hx, Nat.mod_eq_of_lt hr, Nat.zero_mul, Nat.sub_zero]

/-- Fields added one after another, each where 0 stood, leave the bits beside them all. -/
theorem getBits_foldl_written_other {fs : List RegField} {g : RegField} (old v : Nat) (hfs : fs.Pairwise RegField.apart)
    (hg : ∀ f ∈ fs, f.apart g) {x : Nat} (hx : ∀ f ∈ fs, getBits x f.lsb f.w = 0) :
    getBits (fs.foldl (fun x f => x + f.written old v * 2 ^ f.lsb) x) g.lsb g.w = getBits x g.lsb g.w := by
  induction fs generalizing x with
  | nil => rfl
  | cons f fs ih =>
    obtain ⟨hf, hfs⟩ := List.pairwise_cons.1 hfs
    obtain ⟨hxf, hxs⟩ := List.forall_mem_cons.1 hx
    obtain ⟨hfg, hg⟩ := List.forall_mem_cons.1 hg
    rw [List.foldl_cons, add_eq_setBits hxf (f.written_lt old v), ih hfs hg fun e he => ?_]
    · exact getBits_setBits_other _ _ _ _ _ _ hfg
    · rw [getBits_setBits_other _ _ _ _ _ _ (hf e he), hxs e he]

/-- Fields added one after another, each where 0 stood, read what was added. -/
theorem getBits_foldl_written {fs : List RegField} (old v : Nat) (hfs : fs.Pairwise RegField.apart) {x : Nat}
    (hx : ∀ f ∈ fs, getBits x f.lsb f.w = 0) {g : RegField} (hg : g ∈ fs) :
    getBits (fs.foldl (fun x f => x + f.written old v * 2 ^ f.lsb) x) g.lsb g.w = g.written old v := by
  induction fs generalizing x with
  | nil => cases hg
  | cons f fs ih =>
    obtain ⟨hf, hfs⟩ := List.pairwise_cons.1 hfs
    obtain ⟨hxf, hxs⟩ := List.forall_mem_cons.1 hx
    have hxs' : ∀ e ∈ fs, getBits (setBits x f.lsb f.w (f.written old v)) e.lsb e.w = 0 := fun e he => by
      rw [getBits_setBits_other _ _ _ _ _ _ (hf e he), hxs e he]
    rw [List.foldl_cons, add_eq_setBits hxf (f.written_lt old v)]
    rcases List.mem_cons.1 hg with hgf | hg
    · subst g; rw [getBits_foldl_written_other old v hfs (fun e he => (hf e he).symm) hxs', getBits_setBits_same,
        Nat.mod_eq_of_lt (RegField.written_lt _ old v)]
    · exact ih hfs hxs' hg

/-- A host write leaves in each field what its access code says. -/
theorem getBits_hostWritten {fs : List RegField} (old v : Nat) (hfs : fs.Pairwise RegField.apart) {f : RegField}
    (hf : f ∈ fs) : getBits (hostWritten fs old v) f.lsb f.w = f.written old v := by
  rw [hostWritten_eq_foldl]
  exact getBits_foldl_written old v hfs (fun e _ => by simp [getBits]) hf

/-- A plain field of a register reads what the host wrote. -/
theorem State.rd_hostWrite_rw (s : State) (g : RFld) (v : Nat) {f : RegField} (hfs : (fieldsAt g.addr).Pairwise RegField.apart)
    (hf : f ∈ fieldsAt g.addr) (hacc : f.acc = .rw) (hl : f.lsb = g.lsb) (hw : f.w = g.w) (h32 : g.lsb + g.w ≤ 32) :
    (s.hostWrite g.addr v).rd g = getBits v g.lsb g.w := by
  unfold State.rd
  rw [State.reg_hostWrite, if_pos rfl, getBits_mod _ _ _ _ h32, ← hl, ← hw, getBits_hostWritten _ _ hfs hf]
  unfold RegField.written; rw [hacc]

/-- A host write by the access codes touches one register. -/
theorem State.hostWrite_only (s : State) (a v : Nat) :
    s.hostWrite a v = { s with regs := (s.hostWrite a v).regs } ∧ regsKept [a] s (s.hostWrite a v) := by
  refine ⟨rfl, fun b hb => ?_⟩
  rw [State.reg_hostWrite, if_neg]
  exact fun h => hb (by simp [h])

/-! ### The exception configuration registers -/

/-- Each register 1 to 63 has the same four plain fields; ACT's reset value is the register's own. -/
theorem fieldsAt_excCfg : ∀ n : Fin 64, n.val ≠ 0 → ∃ act : Fin 3, fieldsAt (GRF_EXC_CFG n.val) =
    [⟨0, 3, .rw, act.val⟩, ⟨3, 1, .rw, 0⟩, ⟨4, 1, .rw, 0⟩, ⟨5, 10, .rw, 0⟩] := by
  decide

/-- No exception configuration register is an interrupt register or its mask. -/
theorem intBlock_excCfg : ∀ n : Fin 64, intBlock (GRF_EXC_CFG n.val) = none ∧ intBlock (GRF_EXC_CFG n.val - 4) = none := by
  decide

/-- In the blocks GRF and BRG, any register but an interrupt register and its mask takes its write from `grfApply`. -/
theorem State.regApply_grf (s : State) {a : Nat} (v : Nat) (hi : intBlock a = none) (hm : intBlock (a - 4) = none)
    (hlo : 0x3000000 ≤ a) (hhi : a < 0x4000000) : s.regApply a v = s.grfApply a v := by
  unfold State.regApply
  rw [hi, if_pos (by omega), hm]
  dsimp only
  rw [if_neg (by omega), if_neg (by omega), if_neg (by omega), if_neg (by omega), if_neg (by omega), if_pos hhi]

/-- No effect is attached to the write of an exception configuration register: it goes by the access codes. -/
theorem State.regApply_excCfg (s : State) (n : Fin 64) (v : Nat) :
    s.regApply (GRF_EXC_CFG n.val) v = s.hostWrite (GRF_EXC_CFG n.val) v := by
  obtain ⟨hi, hm⟩ := intBlock_excCfg n
  have ha : GRF_EXC_CFG n.val = 0x3001000 + n.val * 4 := rfl
  have hn := n.isLt
  rw [State.regApply_grf s v hi hm (by omega) (by omega)]
  unfold State.grfApply
  rw [if_neg, if_neg, if_neg]
  all_goals simp only [GRF_RS_CFG, GRF_LOG_CFG, BRG_FRAG_CFG]; omega

/-! ### Commands that touch setup registers alone -/

theorem onlyRegs_refl (l : List Nat) (s : State) : onlyRegs l s s := ⟨rfl, fun _ _ => rfl⟩

theorem onlyRegs.trans {l : List Nat} {s t u : State} (hst : onlyRegs l s t) (htu : onlyRegs l t u) : onlyRegs l s u := by
  obtain ⟨ht, hrt⟩ := hst
  obtain ⟨hu, hru⟩ := htu
  refine ⟨?_, fun a ha => (hru a ha).trans (hrt a ha)⟩
  generalize u.regs = r at hu ⊢
  generalize u.msi = m at hu ⊢
  rw [hu, ht]

theorem onlyRegs_setReg {l : List Nat} (s : State) {a : Nat} (v : Nat) (h : a ∈ l) : onlyRegs l s (s.setReg a v) :=
  ⟨rfl, fun _ hb => State.reg_setReg_other s v fun e => hb (e ▸ h)⟩

theorem onlyRegs_wr {l : List Nat} (s : State) {f : RFld} (v : Nat) (h : f.addr ∈ l) : onlyRegs l s (s.wr f v) :=
  onlyRegs_setReg s _ h

theorem onlyRegs_raise {l : List Nat} (s : State) {f : RFld} (h : f.addr ∈ l) : onlyRegs l s (s.raise f) :=
  ⟨State.raiseN_only s f 1, fun _ hb => State.reg_raise_other s fun e => hb (e ▸ h)⟩

/-! ### Access events (R446) -/

/-- An access event changes its sticky bit's register, GLB_ACC_ADDR and its cause's register, and nothing else. -/
theorem onlyRegs_accEvent {l : List Nat} (s : State) {stk int : RFld} (a : Nat) (w : Bool) (hs : stk.addr ∈ l)
    (ha : GLB_ACC_ADDR ∈ l) (hi : int.addr ∈ l) : onlyRegs l s (s.accEvent stk int a w) := by
  unfold State.accEvent
  dsimp only
  refine onlyRegs.trans ?_ ((onlyRegs_wr _ 1 hs).trans (onlyRegs_raise _ hi))
  split
  · exact onlyRegs_setReg s _ ha
  · exact onlyRegs_refl l s

theorem State.rd_accEvent_int (s : State) (stk : RFld) {int : RFld} (a : Nat) (w : Bool) (h : int.lsb + int.w ≤ 32)
    (hw : int.w = 1) : (s.accEvent stk int a w).rd int = 1 := State.rd_raise _ int h hw

theorem State.on_accEvent_stk (s : State) {stk int : RFld} (a : Nat) (w : Bool) (h : stk.lsb + stk.w ≤ 32)
    (hw : stk.w = 1) (hne : int.addr ≠ stk.addr) : (s.accEvent stk int a w).on stk = true := by
  have hrd : (s.accEvent stk int a w).rd stk = 1 := by
    unfold State.accEvent
    rw [State.rd_of_reg (State.reg_raise_other _ hne), State.rd_wr_same _ _ _ h, hw]; rfl
  unfold State.on; rw [hrd]; rfl

/-- The offset of the first event stands in GLB_ACC_ADDR until both sticky bits are clear, with bit 31 for a write. -/
theorem State.reg_accEvent_addr (s : State) {stk int : RFld} (off : BitVec 28) (w : Bool) (hs : stk.addr ≠ GLB_ACC_ADDR)
    (hi : int.addr ≠ GLB_ACC_ADDR) : (s.accEvent stk int off.toNat w).reg GLB_ACC_ADDR =
      if s.reg GLB_ACC_STS = 0 then off.toNat + b2n w * 2 ^ 31 else s.reg GLB_ACC_ADDR := by
  have hoff := off.isLt
  have hw : b2n w ≤ 1 := by cases w <;> decide
  unfold State.accEvent
  rw [State.reg_raise_other _ hi, State.reg_wr_other _ _ hs]
  split
  · rw [State.reg_setReg_same, Nat.mod_eq_of_lt hoff, Nat.mod_eq_of_lt (by omega)]
  · rfl

/-- The state in which an access that has no answer is recorded: a read has completed with all ones (R7). -/
def State.unanswered (s : State) (w : Bool) : State := if w then s else { s with lastRead := 0xFFFFFFFF }

theorem State.unanswered_only (s : State) (w : Bool) :
    s.unanswered w = { s with lastRead := if w then s.lastRead else 0xFFFFFFFF } := by
  cases w <;> rfl

theorem State.reg_unanswered (s : State) (w : Bool) (a : Nat) : (s.unanswered w).reg a = s.reg a := by
  cases w <;> rfl

@[simp] theorem State.unanswered_inReset (s : State) (w : Bool) : (s.unanswered w).inReset = s.inReset := by
  cases w <;> rfl

@[simp] theorem State.unanswered_islStopped (s : State) (w : Bool) (i : Nat) :
    (s.unanswered w).islStopped i = s.islStopped i := by
  cases w <;> rfl

theorem State.badAccess_eq (s : State) (off : Nat) (w : Bool) : s.badAccess off w =
    if (s.unanswered w).inReset || (s.unanswered w).islStopped islPcie || (s.unanswered w).islStopped islMgmt then
      s.unanswered w
    else (s.unanswered w).accEvent GLB_ACC_STS_ACC_ERR_STK GLB_INT_ACC_ERR off w := rfl

theorem State.badAccess_flagged (s : State) (off : Nat) (w : Bool) (hr : s.inReset = false)
    (hp : s.islStopped islPcie = false) (hm : s.islStopped islMgmt = false) :
    s.badAccess off w = (s.unanswered w).accEvent GLB_ACC_STS_ACC_ERR_STK GLB_INT_ACC_ERR off w := by
  rw [State.badAccess_eq, if_neg (by simp [hr, hp, hm])]

theorem State.accessTimeout_flagged (s : State) (off : Nat) (w : Bool) (hr : s.inReset = false)
    (hp : s.islStopped islPcie = false) (hm : s.islStopped islMgmt = false) (hi : s.islStopped (bar0Isl off) = true) :
    s.accessTimeout off w =
      ((s.advance 32000).unanswered w).accEvent GLB_ACC_STS_TMO_STK GLB_INT_ACC_TMO off w := by
  unfold State.accessTimeout
  rw [if_neg (by simp [hr, hp, hm, hi])]
  rfl

/-- An access without an answer changes the last read and what its event records. -/
theorem State.unanswered_accEvent_only (s : State) {stk int : RFld} (off : Nat) (w : Bool) (hs : stk.addr = GLB_ACC_STS)
    (hi : int.addr = GLB_INT) :
    let t := (s.unanswered w).accEvent stk int off w
    t.lastRead = (if w then s.lastRead else 0xFFFFFFFF) ∧
      t = { s with regs := t.regs, msi := t.msi, lastRead := t.lastRead } ∧
      regsKept [GLB_ACC_STS, GLB_ACC_ADDR, GLB_INT] s t := by
  intro t
  obtain ⟨ht, hkept⟩ : onlyRegs [GLB_ACC_STS, GLB_ACC_ADDR, GLB_INT] (s.unanswered w) t :=
    onlyRegs_accEvent _ off w (by simp [hs]) (by simp) (by simp [hi])
  have hlast : t.lastRead = if w then s.lastRead else 0xFFFFFFFF := by
    rw [ht, State.unanswered_only]
  refine ⟨hlast, ?_, fun a ha => (hkept a ha).trans (s.reg_unanswered w a)⟩
  rw [hlast]
  generalize t.regs = r at ht ⊢
  generalize t.msi = m at ht ⊢
  rw [ht, State.unanswered_only]

/-! ### REG_WRITE -/

theorem exec_regWrite (s : State) (a : BitVec 28) (v : Word) :
    exec (.regWrite a v) s = .next (s.regWrite a.toNat v.toNat) := rfl

theorem State.regWrite_misaligned (s : State) {a : Nat} (v : Nat) (ha : a % 4 ≠ 0) : s.regWrite a v = s.badAccess a true := by
  unfold State.regWrite; rw [if_pos ha]

theorem State.regWrite_aligned (s : State) {a : Nat} (v : Nat) (ha : a % 4 = 0) : s.regWrite a v = s.barWrite a fun s =>
    if a = GLB_RST_CMD then s.rstCmd v else if a = GLB_PROF_CMD then s.profCmdWrite v else s.regApply a v := by
  unfold State.regWrite; rw [if_neg (not_not.2 ha)]

theorem State.barWrite_reaches {s : State} {a : Nat} (f : State → State) (h : s.reaches a = true) : s.barWrite a f = f s :=
  Host.Outcome.next.inj (onBar0_up h)

/-- In reset every write is discarded (R427). -/
theorem State.barWrite_inReset {s : State} (a : Nat) (f : State → State) (h : s.inReset = true) : s.barWrite a f = s := by
  unfold State.barWrite; rw [if_pos (by simp [h])]

/-- While BUSY a write outside the GLB block is dropped and flagged (R427). -/
theorem State.barWrite_busy {s : State} {a : Nat} (f : State → State) (hr : s.inReset = false)
    (hp : s.islStopped islPcie = false) (hm : s.islStopped islMgmt = false) (hb : s.on GLB_BOOT_STS_BUSY = true)
    (hlo : 0x100000 ≤ a) : s.barWrite a f = s.wr GLB_BOOT_STS_WR_DROP_STK 1 := by
  unfold State.barWrite; rw [if_neg (by simp [hr, hp, hm]), if_pos (by simp [hb, hlo])]

theorem exec_regWrite_reaches {s : State} {a : BitVec 28} (v : Word) (h : s.reaches a.toNat = true) (ha : a.toNat % 4 = 0)
    (hr : a.toNat ≠ GLB_RST_CMD) (hp : a.toNat ≠ GLB_PROF_CMD) :
    exec (.regWrite a v) s = .next (s.regApply a.toNat v.toNat) := by
  rw [exec_regWrite, s.regWrite_aligned _ ha, State.barWrite_reaches _ h, if_neg hr, if_neg hp]

theorem exec_regWrite_rstCmd (s : State) (v : Word) :
    exec (.regWrite (BitVec.ofNat 28 GLB_RST_CMD) v) s = exec (.glbRstCmd v) s := by
  rw [exec_regWrite, s.regWrite_aligned _ (by decide)]; rfl

theorem exec_regWrite_misaligned (s : State) {a : BitVec 28} (v : Word) (ha : a.toNat % 4 ≠ 0) :
    exec (.regWrite a v) s = exec (.bar0BadAccess a true) s :=
  congrArg Host.Outcome.next (s.regWrite_misaligned _ ha)

/-- A misaligned write in reset is not flagged either (R427). -/
theorem exec_regWrite_inReset {s : State} (a : BitVec 28) (v : Word) (h : s.inReset = true) :
    exec (.regWrite a v) s = .next s := by
  rw [exec_regWrite]
  by_cases ha : a.toNat % 4 = 0
  · rw [s.regWrite_aligned _ ha, State.barWrite_inReset _ _ h]
  · rw [s.regWrite_misaligned _ ha, State.badAccess_eq, if_pos (by simp [h])]; rfl

theorem exec_regWrite_busy {s : State} {a : BitVec 28} (v : Word) (hr : s.inReset = false)
    (hp : s.islStopped islPcie = false) (hm : s.islStopped islMgmt = false) (hb : s.on GLB_BOOT_STS_BUSY = true)
    (hlo : 0x100000 ≤ a.toNat) (ha : a.toNat % 4 = 0) :
    exec (.regWrite a v) s = .next (s.wr GLB_BOOT_STS_WR_DROP_STK 1) := by
  rw [exec_regWrite, s.regWrite_aligned _ ha, State.barWrite_busy _ hr hp hm hb hlo]

/-- An exception configuration register stores its fields and nothing else changes. -/
theorem exec_regWrite_excCfg {s : State} {n : Fin 64} (v : Word) (hn : n.val ≠ 0)
    (h : s.reaches (GRF_EXC_CFG n.val) = true) :
    ∃ t, exec (.regWrite (BitVec.ofNat 28 (GRF_EXC_CFG n.val)) v) s = .next t ∧
      t.rd (GRF_EXC_CFG_ACT n.val) = getBits v.toNat (GRF_EXC_CFG_ACT n.val).lsb (GRF_EXC_CFG_ACT n.val).w ∧
      t.rd (GRF_EXC_CFG_HOST_CH n.val) = getBits v.toNat (GRF_EXC_CFG_HOST_CH n.val).lsb (GRF_EXC_CFG_HOST_CH n.val).w ∧
      t = { s with regs := t.regs } ∧ regsKept [GRF_EXC_CFG n.val] s t := by
  have ha : (BitVec.ofNat 28 (GRF_EXC_CFG n.val)).toNat = GRF_EXC_CFG n.val := by
    have := n.isLt
    rw [BitVec.toNat_ofNat, Nat.mod_eq_of_lt]; unfold GRF_EXC_CFG; omega
  obtain ⟨act, hfs⟩ := fieldsAt_excCfg n hn
  have hpw : (fieldsAt (GRF_EXC_CFG n.val)).Pairwise RegField.apart := by
    rw [hfs]; simp [RegField.apart]
  refine ⟨s.hostWrite (GRF_EXC_CFG n.val) v.toNat, ?_, ?_, ?_, s.hostWrite_only _ _⟩
  · rw [exec_regWrite_reaches v (by rwa [ha]), ha, State.regApply_excCfg]
    all_goals rw [ha]; simp only [GRF_EXC_CFG, GLB_RST_CMD, GLB_PROF_CMD]; omega
  · exact s.rd_hostWrite_rw (GRF_EXC_CFG_ACT n.val) _ (f := ⟨0, 3, .rw, act.val⟩) hpw (by simp [GRF_EXC_CFG_ACT, hfs])
      rfl rfl rfl (by simp [GRF_EXC_CFG_ACT])
  · exact s.rd_hostWrite_rw (GRF_EXC_CFG_HOST_CH n.val) _ (f := ⟨5, 10, .rw, 0⟩) hpw (by simp [GRF_EXC_CFG_HOST_CH, hfs])
      rfl rfl rfl (by simp [GRF_EXC_CFG_HOST_CH])

/-! ### The obligation -/

/-- Settles O17, clause by clause from the lemmas above. What a bad or late read returns (`lastRead`) is the model's
assumption 22, and that an offset which no register has is flagged as any other is its assumption 99. -/
theorem registerAccess : Obligations.RegisterAccess := by
  unfold Obligations.RegisterAccess
  refine ⟨fun s a v => exec_regWrite_reaches v, exec_regWrite_rstCmd, fun s a v => exec_regWrite_misaligned s v,
    fun s a v => ⟨by rw [State.reg_hostWrite, if_pos rfl], rfl⟩, fun fs old v hfs f hf => getBits_hostWritten old v hfs hf,
    fun s n v => exec_regWrite_excCfg v, fun s a v => exec_regWrite_inReset a v,
    fun s a v hr hp hm hb hlo ha _ => exec_regWrite_busy v hr hp hm hb hlo ha, fun s off w hr hp hm => ?_,
    fun s off w hr hp hm hi => ?_⟩
  · obtain ⟨hlast, honly, hkept⟩ := s.unanswered_accEvent_only (stk := GLB_ACC_STS_ACC_ERR_STK) (int := GLB_INT_ACC_ERR)
      off.toNat w rfl rfl
    refine ⟨_, congrArg Host.Outcome.next (s.badAccess_flagged off.toNat w hr hp hm),
      State.on_accEvent_stk _ _ _ (by decide) rfl (by decide), State.rd_accEvent_int _ _ _ _ (by decide) rfl, ?_,
      hlast, honly, hkept⟩
    rw [State.reg_accEvent_addr _ off w (by decide) (by decide), State.reg_unanswered, State.reg_unanswered]
  · obtain ⟨hlast, honly, hkept⟩ := (s.advance 32000).unanswered_accEvent_only (stk := GLB_ACC_STS_TMO_STK)
      (int := GLB_INT_ACC_TMO) off.toNat w rfl rfl
    rw [State.advance_lastRead] at hlast
    refine ⟨_, congrArg Host.Outcome.next (s.accessTimeout_flagged off.toNat w hr hp hm hi), ?_,
      State.on_accEvent_stk _ _ _ (by decide) rfl (by decide), State.rd_accEvent_int _ _ _ _ (by decide) rfl,
      hlast, honly, hkept⟩
    rw [honly]

end Sys2Proof.Machine
end

section
/-!
SUPPORT. Packets and the receive side as the packet path's commands change them (chapter 01): what each stored record reads
after a change, and the three ends of an SFD that is recognised (O23).
-/
namespace Sys2Proof.Machine

/-! ### The packet of a tag -/

theorem State.pkt?_congr {s t : State} (h : t.pkts = s.pkts) (k : Nat) : t.pkt? k = s.pkt? k := by
  unfold State.pkt?; rw [h]

theorem State.pkt?_putPkt (s : State) (k j : Nat) (p : Pkt) :
    (s.putPkt k p).pkt? j = if k = j then some p else s.pkt? j := Tab.find_insert s.pkts k j p

@[simp] theorem State.pkt?_putPkt_same (s : State) (k : Nat) (p : Pkt) : (s.putPkt k p).pkt? k = some p := by
  rw [State.pkt?_putPkt, if_pos rfl]

theorem State.pkt?_putPkt_other (s : State) {k j : Nat} (p : Pkt) (h : j ≠ k) : (s.putPkt k p).pkt? j = s.pkt? j := by
  rw [State.pkt?_putPkt, if_neg h.symm]

theorem State.modPkt_some {s : State} {k : Nat} {p : Pkt} (f : Pkt → Pkt) (h : s.pkt? k = some p) :
    s.modPkt k f = s.putPkt k (f p) := by
  unfold State.modPkt; rw [h]

theorem pkey_div {t : Nat} (b : Nat) (h : t < 8192) : pkey b t / 8192 = b := by unfold pkey; omega

theorem pkey_mod {t : Nat} (b : Nat) (h : t < 8192) : pkey b t % 8192 = t := by unfold pkey; omega

theorem State.withPkt_some {s : State} {b t : Nat} {p : Pkt} (f : Pkt → State) (h : s.pkt? (pkey b t) = some p) :
    s.withPkt b t f = f p := by
  unfold State.withPkt; rw [h]

/-! ### The receive side of a port -/

@[simp] theorem State.rxPort_setRx (s : State) (p : Nat) (x : RxPort) : (s.setRx p x).rxPort p = x := by
  unfold State.rxPort State.setRx; exact Tab.get_set_same _ _ _ _

theorem State.injPacket_unarmed {s : State} {src : Nat} (n unit isl : Nat) (h : s.injArmed src 0 = false) :
    s.injPacket src n unit isl = (false, s) := by
  unfold State.injPacket; rw [h]; rfl

/-! ### Frames at their SFD (R20, R21, R31, R32, R64) -/

/-- An SFD that is recognised: the port forwards, its line works, its link is up, its MAC is idle. -/
def State.sfdSeen (s : State) (p : Nat) : Prop :=
  s.portOn p = true ∧ s.lineOn p = true ∧ s.on (PRT_STS_LINK_UP p) = true ∧ (s.rxPort p).cur = .idle

/-- Frames of the port are kept out by its peer trace (R64), all but LLDP. -/
def State.traceBlocks (s : State) (p : Nat) (bytes : List Byte) : Bool :=
  s.on (PRT_CFG_TRACE_BLOCK_EN p) && s.rd (PRT_STS_TRACE p) == 2 && !isLldp bytes

theorem State.tagFrom_nextSeq (s : State) (p b n t : Nat) : (s.nextSeq p).tagFrom b n t = s.tagFrom b n t := by
  induction n generalizing t with
  | zero => rfl
  | succ n ih => unfold State.tagFrom; rw [ih]; rfl

theorem State.frameSfd_seen {s : State} {p : Nat} (t : Nat) (bytes : List Byte) (h : s.sfdSeen p) :
    s.frameSfd p t bytes =
      if s.traceBlocks p bytes then ((s.nextSeq p).cnt (RX_TRACE_DROP_CNT p)).setCur p (.skip bytes)
      else if !s.tagFree (portBough p) false then
        ((((s.nextSeq p).cnt (BGH_TAG_EXHAUST_CNT (portBough p))).cnt (RX_CAUSE_CNT p 0)).raise
          (BGH_TAG_INT_EXHAUST (portBough p))).setCur p (.skip bytes)
      else match s.tagFrom (portBough p) 8192 t with
        | none => s.nextSeq p
        | some f =>
          let i := (s.nextSeq p).injPacket 4 (ceilDiv bytes.length 8) (portBough p) (islBough (portBough p))
          (i.2.takeTag (portBough p) f { s.framePkt p f bytes with ue := i.1 }).setRx p
            { cur := .frame f, fifo := (s.rxPort p).fifo ++ [f] } := by
  obtain ⟨hport, hline, hlink, hcur⟩ := h
  unfold State.frameSfd
  rw [if_neg (by simp [hport, hline, hlink, hcur])]
  dsimp only
  rw [State.tagFrom_nextSeq]
  rfl

/-- A change of BGH_TAG_STS shown touches that register and the bough's tag interrupts. -/
theorem onlyRegs_tagShow {l : List Nat} (s : State) (b n : Nat) (hs : BGH_TAG_STS b ∈ l) (hi : BGH_TAG_INT b ∈ l) :
    onlyRegs l s (s.tagShow b n) := by
  have hw := (onlyRegs_wr s (f := BGH_TAG_STS_IN_USE b) n hs).trans
    (onlyRegs_wr _ (f := BGH_TAG_STS_HWM b) (max n ((s.wr (BGH_TAG_STS_IN_USE b) n).rd (BGH_TAG_STS_HWM b))) hs)
  unfold State.tagShow
  dsimp only
  split
  · exact hw.trans (onlyRegs_raise _ (f := BGH_TAG_INT_HIGH b) hi)
  · exact hw

theorem State.rd_tagShow_inUse (s : State) (b : Nat) {n : Nat} (h : n < 2 ^ 14) :
    (s.tagShow b n).rd (BGH_TAG_STS_IN_USE b) = n := by
  have hn : ((s.wr (BGH_TAG_STS_IN_USE b) n).wr (BGH_TAG_STS_HWM b)
      (max n ((s.wr (BGH_TAG_STS_IN_USE b) n).rd (BGH_TAG_STS_HWM b)))).rd (BGH_TAG_STS_IN_USE b) = n := by
    rw [State.rd_wr_beside _ _ (by simp [BGH_TAG_STS_HWM]) (Or.inr (by simp [BGH_TAG_STS_HWM, BGH_TAG_STS_IN_USE])),
      State.rd_wr_same _ _ _ (by simp [BGH_TAG_STS_IN_USE])]
    exact Nat.mod_eq_of_lt h
  unfold State.tagShow
  dsimp only
  split
  · rw [State.rd_of_reg (State.reg_raise_other _ _), hn]
    simp only [BGH_TAG_INT_HIGH, BGH_TAG_STS_IN_USE, BGH_TAG_INT, BGH_TAG_STS]; omega
  · exact hn

theorem State.inUse_lt_of_tagFree {s : State} {b : Nat} {host : Bool} (h : s.tagFree b host = true) :
    s.rd (BGH_TAG_STS_IN_USE b) < 8192 := by
  simp only [State.tagFree, Bool.and_eq_true, decide_eq_true_eq] at h
  obtain ⟨⟨-, hroom⟩, -⟩ := h
  omega

/-- SEQ after its use (R21). -/
theorem State.port_nextSeq_seq (s : State) (p : Nat) : ((s.nextSeq p).port p).seq = ((s.port p).seq + 1) % 2 ^ 32 := by
  unfold State.nextSeq State.modPort State.port
  rw [Tab.get_modify_same]

/-- With a free tag a recognised frame becomes that tag's packet and stands last in its port's FIFO. -/
theorem State.frameSfd_tagged {s : State} {p t f : Nat} {bytes : List Byte} (h : s.sfdSeen p)
    (hblk : s.traceBlocks p bytes = false) (hfree : s.tagFree (portBough p) false = true)
    (hf : s.tagFrom (portBough p) 8192 t = some f) (hinj : s.injArmed 4 0 = false) :
    s.frameSfd p t bytes = ((s.nextSeq p).takeTag (portBough p) f (s.framePkt p f bytes)).setRx p
      { cur := .frame f, fifo := (s.rxPort p).fifo ++ [f] } := by
  have hseq : (s.nextSeq p).injArmed 4 0 = false := hinj
  rw [State.frameSfd_seen t bytes h, hblk, hfree, hf]
  dsimp only
  rw [State.injPacket_unarmed _ _ _ hseq]
  rfl

theorem exec_frameSfd {s : State} {p : Fin 256} (t : Fin 8192) (bytes : List Byte) (h : s.alive (portQuad p.val) = true) :
    exec (.frameSfd p t bytes) s = .next (s.frameSfd p.val t.val bytes) :=
  onIsl_up (f := (·.frameSfd p.val t.val bytes)) h

theorem State.traceBlocks_eq_false {s : State} {p : Nat} {bytes : List Byte}
    (h : s.on (PRT_CFG_TRACE_BLOCK_EN p) = false ∨ s.rd (PRT_STS_TRACE p) ≠ 2 ∨ isLldp bytes = true) :
    s.traceBlocks p bytes = false := by
  unfold State.traceBlocks; rcases h with h | h | h <;> simp [h]

/-- A tag taken stores its packet and shows the count of tags; nothing else of the state changes. -/
theorem onlyRegs_takeTag (s : State) (b t : Nat) (x : Pkt) :
    onlyRegs [BGH_TAG_STS b, BGH_TAG_INT b] (s.putPkt (pkey b t) x) (s.takeTag b t x) :=
  onlyRegs_tagShow _ b _ (by simp) (by simp)

theorem State.pkt?_takeTag (s : State) (b t j : Nat) (x : Pkt) :
    (s.takeTag b t x).pkt? j = (s.putPkt (pkey b t) x).pkt? j :=
  State.pkt?_congr (by rw [(onlyRegs_takeTag s b t x).1]) j

/-- Settles O23: the three ends of an SFD that is recognised are a tag, no free tag, and the peer trace. -/
theorem frameAtSfd : Obligations.FrameAtSfd := by
  unfold Obligations.FrameAtSfd
  refine ⟨fun s p t bytes hal hport hline hlink hcur htr hfree f hf hinj => ?_,
    fun s p t bytes hal hport hline hlink hcur htr hfree => ?_, fun s p t bytes hal hport hline hlink hcur hon hst hll => ?_⟩
  · obtain ⟨honly, hkept⟩ := onlyRegs_takeTag (s.nextSeq p.val) (portBough p.val) f (s.framePkt p.val f bytes)
    have huse := State.inUse_lt_of_tagFree hfree
    refine ⟨_, by rw [exec_frameSfd t bytes hal, State.frameSfd_tagged ⟨hport, hline, hlink, hcur⟩
      (State.traceBlocks_eq_false htr) hfree hf hinj], ?_, fun k hk => ?_, State.rxPort_setRx _ _ _, ?_, ?_, ?_, ?_⟩
    · exact (State.pkt?_takeTag _ _ _ _ _).trans (State.pkt?_putPkt_same _ _ _)
    · exact (State.pkt?_takeTag _ _ _ _ _).trans (State.pkt?_putPkt_other _ _ hk)
    · rw [honly]; exact State.port_nextSeq_seq s p.val
    · exact State.rd_tagShow_inUse _ _ (n := s.rd (BGH_TAG_STS_IN_USE (portBough p.val)) + 1) (by omega)
    · rw [honly]; rfl
    · exact hkept
  · rw [exec_frameSfd t bytes hal, State.frameSfd_seen _ _ ⟨hport, hline, hlink, hcur⟩,
      State.traceBlocks_eq_false htr, hfree]
    rfl
  · have hblk : s.traceBlocks p.val bytes = true := by unfold State.traceBlocks; simp [hon, hst, hll]
    rw [exec_frameSfd t bytes hal, State.frameSfd_seen _ _ ⟨hport, hline, hlink, hcur⟩, hblk]
    rfl

end Sys2Proof.Machine
end

section
/-!
SUPPORT. What the MAC counts at a frame's end, and where the frame goes (O25; R65 to R67).
-/
namespace Sys2Proof.Machine

/-! ### Counters -/

theorem counted_cnt (s : State) (a n : Nat) : counted a n s (s.cnt a n) := State.cntAt_cnt s a n

theorem counted_congr {a n : Nat} {s t u : State} (h : counted a n s t) (hlo : u.reg a = t.reg a)
    (hhi : u.reg (a + 4) = t.reg (a + 4)) : counted a n s u := (State.cntAt_congr hlo hhi).trans h

theorem onlyRegs_cnt {l : List Nat} (s : State) {a : Nat} (n : Nat) (h : a ∈ l) (h4 : a + 4 ∈ l) :
    onlyRegs l s (s.cnt a n) := (onlyRegs_setReg s _ h).trans (onlyRegs_setReg _ _ h4)

/-! ### The end of a frame (R65 to R67) -/

theorem exec_frameEnd {s : State} {p : Fin 256} (e : Bool) (h : s.alive (portQuad p.val) = true) :
    exec (.frameEnd p e) s = .next (s.frameEnd p.val e) := onIsl_up (f := (·.frameEnd p.val e)) h

theorem State.frameEnd_gone {s : State} {p : Nat} (e : Bool) (h : (s.rxPort p).cur = .gone) :
    s.frameEnd p e = s.setCur p .idle := by
  unfold State.frameEnd; rw [h]

theorem State.frameEnd_skip {s : State} {p : Nat} {f : List Byte} (e : Bool) (h : (s.rxPort p).cur = .skip f) :
    s.frameEnd p e =
      if (macCause f e (s.maxFrame p)).isNone && isMacCtrl f then
        ((s.macCount p f (macCause f e (s.maxFrame p))).setCur p .idle).cnt (RX_MAC_CTRL_CNT p)
      else (s.macCount p f (macCause f e (s.maxFrame p))).setCur p .idle := by
  unfold State.frameEnd; rw [h]

/-- The end of a frame whose window has not been released: it is dropped for its cause, or stored and forwarded on. -/
theorem State.frameEnd_frame {s : State} {p t : Nat} {x : Pkt} (e : Bool) (h : (s.rxPort p).cur = .frame t)
    (hx : s.pkt? (pkey (portBough p) t) = some x) (hw : x.window = false) :
    s.frameEnd p e =
      let w := (s.setCur p .idle).macCount p x.bytes (macCause x.bytes (e || x.ue) (s.maxFrame p))
      if (macCause x.bytes (e || x.ue) (s.maxFrame p)).isSome then w.frameDrop (pkey (portBough p) t) x
      else w.sfEnd (pkey (portBough p) t) x := by
  have hx' : (s.setCur p .idle).pkt? (pkey (portBough p) t) = some x := hx
  unfold State.frameEnd
  rw [h]
  dsimp only
  rw [hx']
  dsimp only
  rw [hw]
  rfl

/-- A good frame that is not MAC Control: marked ended, and out of the FIFO once it has its buffer. -/
theorem State.sfEnd_data {s : State} {k : Nat} {x : Pkt} (h : isMacCtrl x.bytes = false) :
    s.sfEnd k x =
      let w := s.putPkt k { x with ended := true, endAt := s.time.mono, stage := if isLldp x.bytes then .lldp else .rx }
      if x.hasBuf && !x.promote then w.fifoOut x.bark.ingPort (k % 8192) else w := by
  unfold State.sfEnd; rw [h]; rfl

/-- The packet of a good frame whose window is not released, once its end has come. -/
def State.endedPkt (s : State) (x : Pkt) : Pkt :=
  { x with ended := true, endAt := s.time.mono, stage := if isLldp x.bytes then .lldp else .rx }

/-- A good data frame is counted, marked ended, and leaves the FIFO once it has its buffer. -/
theorem State.frameEnd_good {s : State} {p t : Nat} {x : Pkt} (e : Bool) (ht : t < 8192) (h : (s.rxPort p).cur = .frame t)
    (hx : s.pkt? (pkey (portBough p) t) = some x) (hw : x.window = false)
    (hc : macCause x.bytes (e || x.ue) (s.maxFrame p) = none) (hmc : isMacCtrl x.bytes = false) :
    s.frameEnd p e =
      let w := (((s.setCur p .idle).cnt (RX_FRAMES_CNT p)).cnt (RX_BYTES_CNT p) x.bytes.length).putPkt
        (pkey (portBough p) t) (s.endedPkt x)
      if x.hasBuf && !x.promote then w.fifoOut x.bark.ingPort t else w := by
  rw [State.frameEnd_frame e h hx hw, hc]
  refine (State.sfEnd_data hmc).trans ?_
  rw [pkey_mod _ ht]
  rfl

theorem State.sfEnd_macCtrl {s : State} {k : Nat} {x : Pkt} (h : isMacCtrl x.bytes = true) :
    s.sfEnd k x = (s.cnt (RX_MAC_CTRL_CNT x.bark.ingPort)).frameDrop k x := by
  unfold State.sfEnd; rw [h]; rfl

end Sys2Proof.Machine
end

section
/-!
SUPPORT. What a parse leaves of the state: the packets in flight and, with no error in a protected word, all but the fragment
table, setup registers, causes and journal records (O25).
-/
namespace Sys2Proof.Machine

/-! ### What codes, counters and parses leave alone -/

/-- The packets in flight and the count of parse-window releases. -/
def State.inFlight (s : State) : Tab Pkt × Nat := (s.pkts, s.nextRel)

@[simp] theorem State.inFlight_wr (s : State) (f : RFld) (v : Nat) : (s.wr f v).inFlight = s.inFlight := rfl
@[simp] theorem State.inFlight_cnt (s : State) (a n : Nat) : (s.cnt a n).inFlight = s.inFlight := rfl

@[simp] theorem State.inFlight_raiseN (s : State) (f : RFld) (v : Nat) : (s.raiseN f v).inFlight = s.inFlight := by
  rw [State.raiseN_only]; rfl

@[simp] theorem State.inFlight_raise (s : State) (f : RFld) : (s.raise f).inFlight = s.inFlight := s.inFlight_raiseN f 1

@[simp] theorem State.inFlight_journalRec (s : State) (i : Nat) (r : JRec) : (s.journalRec i r).inFlight = s.inFlight := by
  rw [State.journalRec_only]; rfl

@[simp] theorem State.inFlight_journal (s : State) (i ty u : Nat) (l : List Byte) :
    (s.journal i ty u l).inFlight = s.inFlight := s.inFlight_journalRec i _

@[simp] theorem State.inFlight_eccLog (s : State) (a b c d e f : Nat) : (s.eccLog a b c d e f).inFlight = s.inFlight := by
  unfold State.eccLog; split <;> rfl

@[simp] theorem State.inFlight_pageFail (s : State) (a b c d e : Nat) : (s.pageFail a b c d e).inFlight = s.inFlight := by
  unfold State.pageFail; simp

@[simp] theorem State.inFlight_leakDue (s : State) (n : Nat) : (s.leakDue n).inFlight = s.inFlight := by
  unfold State.leakDue; dsimp only; split <;> rfl

@[simp] theorem State.inFlight_ceCount (s : State) (a b : Nat) : (s.ceCount a b).inFlight = s.inFlight := by
  unfold State.ceCount; dsimp only; split <;> simp

@[simp] theorem State.inFlight_tblBad (s : State) (a b : Nat) : (s.tblBad a b).inFlight = s.inFlight := by
  unfold State.tblBad
  dsimp only
  split
  · rfl
  · rw [State.inFlight_pageFail]; split <;> rfl

@[simp] theorem State.inFlight_meetTbl (s : State) (a b : Nat) : (s.meetTbl a b).inFlight = s.inFlight := by
  unfold State.meetTbl
  split
  · rfl
  · simp
  · split <;> simp

@[simp] theorem State.inFlight_meetEnt (s : State) (u id c i : Nat) : (s.meetEnt u id c i).inFlight = s.inFlight := by
  unfold State.meetEnt
  split
  · rfl
  · exact foldl_kept State.inFlight _ (fun s w => s.inFlight_meetTbl _ _) _ _

@[simp] theorem State.inFlight_meetEnts (s : State) (u : Nat) (l : List (Nat × Nat × Nat)) :
    (s.meetEnts u l).inFlight = s.inFlight := by
  unfold State.meetEnts
  split
  · rfl
  · exact foldl_kept State.inFlight _ (fun s x => s.inFlight_meetEnt _ _ _ _) _ _

@[simp] theorem State.inFlight_meetWalk (s : State) (u c : Nat) (w : PWin) (n : Nat) :
    (s.meetWalk u c w n).inFlight = s.inFlight := by
  induction n generalizing s with
  | zero => rfl
  | succ n ih =>
    unfold State.meetWalk
    dsimp only
    split
    · simp
    · rw [ih, State.inFlight_meetEnts]

/-! ### What a parse changes: the fragment table, setup registers, causes and journal records (R77 to R97) -/

/-- The state without what a parse may change. -/
def State.besideParse (s : State) : State := { s with frags := [], regs := [], msi := {}, jrn := {} }

@[simp] theorem State.besideParse_wr (s : State) (f : RFld) (v : Nat) : (s.wr f v).besideParse = s.besideParse := (rfl)
@[simp] theorem State.besideParse_cnt (s : State) (a n : Nat) : (s.cnt a n).besideParse = s.besideParse := (rfl)

@[simp] theorem State.besideParse_journalRec (s : State) (i : Nat) (r : JRec) :
    (s.journalRec i r).besideParse = s.besideParse := by
  rw [State.journalRec_only]; rfl

@[simp] theorem State.besideParse_journalPkt (s : State) (i ty u : Nat) (b : Bark) (l : List Byte) :
    (s.journalPkt i ty u b l).besideParse = s.besideParse := s.besideParse_journalRec i _

@[simp] theorem State.besideParse_excCount (s : State) (b : Bark) (raised : List Nat) :
    (s.excCount b raised).besideParse = s.besideParse := by
  unfold State.excCount
  refine foldl_kept State.besideParse _ (fun s c => ?_) _ _
  dsimp only
  split <;> simp

@[simp] theorem State.besideParse_fragShow (s : State) : s.fragShow.besideParse = s.besideParse := by
  unfold State.fragShow; simp

@[simp] theorem State.besideParse_fragPut (s : State) (k : Nat) (e : FragEnt) :
    (s.fragPut k e).besideParse = s.besideParse := by
  unfold State.fragPut
  split
  · split
    · rw [State.besideParse_fragShow, State.besideParse_cnt]; rfl
    · rw [State.besideParse_fragShow]; rfl
  · rw [State.besideParse_fragShow]; rfl

@[simp] theorem State.besideParse_fragInstall (s : State) (id : List Byte) (e : FragEnt) :
    (s.fragInstall id e).2.besideParse = s.besideParse := by
  unfold State.fragInstall
  dsimp only
  split
  · simp
  · split <;> simp

@[simp] theorem State.besideParse_fragLookup (s : State) (id : List Byte) (f : FragInfo) :
    (s.fragLookup id f).2.besideParse = s.besideParse := by
  unfold State.fragLookup
  split <;> simp

@[simp] theorem State.besideParse_fragStep (s : State) (win : List Byte) (r : ParseRes) (cfg : Nat) (o : Bool) :
    (s.fragStep win r cfg o).2.besideParse = s.besideParse := by
  unfold State.fragStep
  extract_lets st
  clear_value st
  split
  · rfl
  · rename_i f _
    split
    · rfl
    · extract_lets id
      split
      · split
        · rfl
        · exact State.besideParse_fragInstall _ _ _
      · have h := s.besideParse_fragLookup id f
        split <;> rename_i heq <;> rw [heq] at h <;> exact h

/-- With no error in any protected word a parse changes nothing else. -/
theorem State.besideParse_parse {s : State} (bytes : List Byte) (ended : Bool) (port gen : Nat) (h : s.ecc.diff = []) :
    (s.parse bytes ended port gen).2.besideParse = s.besideParse := by
  have hme : ∀ u id c i, s.meetEnt u id c i = s := fun u id c i => by unfold State.meetEnt; rw [h]; rfl
  unfold State.parse
  simp only [h, List.isEmpty_nil, if_true, hme, State.besideParse_fragStep]

theorem State.inFlight_of_besideParse {s t : State} (h : t.besideParse = s.besideParse) : t.inFlight = s.inFlight :=
  (congrArg State.inFlight h :)

theorem State.inFlight_parse (s : State) (bytes : List Byte) (ended : Bool) (port gen : Nat) :
    (s.parse bytes ended port gen).2.inFlight = s.inFlight := by
  unfold State.parse
  dsimp only
  rw [State.inFlight_of_besideParse (State.besideParse_fragStep _ _ _ _ _), State.inFlight_meetEnt]
  split
  · rfl
  · rw [State.inFlight_meetWalk]

end Sys2Proof.Machine
end

section
/-!
SUPPORT. The release of a parse window: the packet it leaves, and the rest of the state (O25).
-/
namespace Sys2Proof.Machine

/-! ### The release of a parse window (R17, R18, R25, R125) -/

theorem State.excCount_pkts (s : State) (b : Bark) (raised : List Nat) : (s.excCount b raised).pkts = s.pkts :=
  congrArg Prod.fst (State.inFlight_of_besideParse (s.besideParse_excCount b raised))

/-- The rule key's configuration entry is met before the key is formed (R345). -/
def State.parsed (s : State) (p : Pkt) : State :=
  (s.parse p.bytes p.ended p.bark.ingPort p.bark.gen).2.meetEnt p.bark.bough 0x22 (p.bark.gen % 2) 0

/-- A packet with a parse's result: its EXC and KEY_PROF, and its stage. -/
def Pkt.withParse (p : Pkt) (r : ParseRes) : Pkt :=
  { p with ps := r, bark := { p.bark with exc := r.exc, keyProf := r.prof }, stage := .parsed }

theorem State.parsePkt_stored (s : State) (k : Nat) (p : Pkt) : ∃ r : ParseRes, s.parsePkt k p =
    ((s.parsed p).putPkt k (p.withParse r)).excCount (p.withParse r).bark r.raised := ⟨_, rfl⟩

theorem State.inFlight_parsed (s : State) (p : Pkt) : (s.parsed p).inFlight = s.inFlight := by
  unfold State.parsed; rw [State.inFlight_meetEnt, State.inFlight_parse]

theorem State.besideParse_parsed {s : State} (p : Pkt) (h : s.ecc.diff = []) : (s.parsed p).besideParse = s.besideParse := by
  have hp := s.besideParse_parse p.bytes p.ended p.bark.ingPort p.bark.gen h
  unfold State.parsed State.meetEnt
  rw [if_pos, hp]
  have hd : ((s.parse p.bytes p.ended p.bark.ingPort p.bark.gen).2).ecc.diff = s.ecc.diff :=
    (congrArg (fun t : State => t.ecc.diff) hp :)
  rw [hd, h]; rfl

/-- The packet as its window's release writes it before the parse: generation, order, LEN of a frame whose end has come. -/
def State.released (s : State) (k : Nat) (p : Pkt) : Pkt :=
  { p with window := true, genHeld := true, rel := s.nextRel
           bark := { p.bark with gen := s.boughGen (k / 8192), len := if p.ended then p.bytes.length else 0 } }

/-- The state in which a released packet is parsed. -/
def State.releasing (s : State) (k : Nat) : State := ({ s with nextRel := s.nextRel + 1 } : State).genTake (k / 8192)

/-- The release of a window that may be released: parsed, and LEN written once it is known (R25). -/
theorem State.windowRelease_ready {s : State} {k : Nat} {p : Pkt} (hst : p.stage = .rx) (hbuf : p.hasBuf = true)
    (hpro : p.promote = false) (hw : p.window = false)
    (hready : p.ended = true ∨
      (p.bark.ct = true ∧ 256 < p.bytes.length ∧ isLldp p.bytes = false ∧ isMacCtrl p.bytes = false)) :
    s.windowRelease k p =
      let t := (s.releasing k).parsePkt k (s.released k p)
      match t.pkt? k with
      | some p => if p.ended then t else t.putPkt k { p with bark := { p.bark with len := t.ctLen p } }
      | none => t := by
  unfold State.windowRelease
  rw [if_neg]
  · rfl
  · rcases hready with h | ⟨hct, hlen, hll, hmc⟩
    · simp [hst, hbuf, hpro, hw, h]
    · simp [hst, hbuf, hpro, hw, hct, hlen, hll, hmc]

theorem exec_parseWindowRelease {s : State} {b : Fin 32} {t : Fin 8192} {x : Pkt} (h : s.alive (islBough b.val) = true)
    (hx : s.pkt? (pkey b.val t.val) = some x) :
    exec (.parseWindowRelease b t) s = .next (s.windowRelease (pkey b.val t.val) x) := by
  rw [← State.withPkt_some (s.windowRelease (pkey b.val t.val)) hx]
  exact onIsl_up (f := fun s => s.withPkt b.val t.val (s.windowRelease (pkey b.val t.val))) h

theorem State.besideParse_putPkt {s t : State} (k : Nat) (p : Pkt) (h : t.besideParse = s.besideParse) :
    (t.putPkt k p).besideParse = ({ s with pkts := (t.putPkt k p).pkts } : State).besideParse :=
  (congrArg (fun v : State => { v with pkts := (t.putPkt k p).pkts }) h :)

/-- A parse stores the packet with what it found, and touches no other packet and no order of release. -/
theorem State.parsePkt_inFlight (s : State) (k : Nat) (p : Pkt) :
    ∃ r : ParseRes, (s.parsePkt k p).inFlight = (s.putPkt k (p.withParse r)).inFlight := by
  obtain ⟨r, hr⟩ := s.parsePkt_stored k p
  refine ⟨r, ?_⟩
  rw [hr, State.inFlight_of_besideParse (State.besideParse_excCount _ _ _)]
  exact (congrArg (fun f : Tab Pkt × Nat => (f.1.insert k (p.withParse r), f.2)) (s.inFlight_parsed p) :)

theorem State.besideParse_parsePkt {s : State} (k : Nat) (p : Pkt) (h : s.ecc.diff = []) :
    (s.parsePkt k p).besideParse = ({ s with pkts := (s.parsePkt k p).pkts } : State).besideParse := by
  obtain ⟨r, hr⟩ := s.parsePkt_stored k p
  rw [hr, State.besideParse_excCount, State.excCount_pkts]
  exact State.besideParse_putPkt k _ (State.besideParse_parsed p h)

/-- LEN as the release leaves it: that of a frame whose end has come, or what its parse says (R25). -/
def State.lenKnown (s : State) (p : Pkt) : Pkt :=
  { p with bark := { p.bark with len := if p.ended then p.bark.len else s.ctLen p } }

/-- The packet and the count of releases after a release, and the rest of the state with no error in a protected word. -/
theorem State.windowRelease_stored {s : State} {k : Nat} {x : Pkt} (hst : x.stage = .rx) (hbuf : x.hasBuf = true)
    (hpro : x.promote = false) (hw : x.window = false)
    (hready : x.ended = true ∨
      (x.bark.ct = true ∧ 256 < x.bytes.length ∧ isLldp x.bytes = false ∧ isMacCtrl x.bytes = false)) :
    ∃ r : ParseRes,
      (∀ j, (s.windowRelease k x).pkt? j =
        if k = j then some ((s.windowRelease k x).lenKnown ((s.released k x).withParse r)) else s.pkt? j) ∧
      (s.windowRelease k x).nextRel = s.nextRel + 1 ∧
      (s.ecc.diff = [] → (s.windowRelease k x).besideParse =
        ({ s with pkts := (s.windowRelease k x).pkts, nextRel := s.nextRel + 1 } : State).besideParse) := by
  obtain ⟨r, hr⟩ := (s.releasing k).parsePkt_inFlight k (s.released k x)
  have hb := fun h => (s.releasing k).besideParse_parsePkt k (s.released k x) h
  refine ⟨r, ?_⟩
  rw [State.windowRelease_ready hst hbuf hpro hw hready]
  generalize (s.releasing k).parsePkt k (s.released k x) = t at hr hb
  have hpk : ∀ j, t.pkt? j = if k = j then some ((s.released k x).withParse r) else s.pkt? j := fun j =>
    (State.pkt?_congr (congrArg Prod.fst hr) j).trans (State.pkt?_putPkt _ _ _ _)
  have hrel : t.nextRel = s.nextRel + 1 := congrArg Prod.snd hr
  simp only [hpk k, if_true]
  by_cases hx : ((s.released k x).withParse r).ended = true
  · have hlen : t.lenKnown ((s.released k x).withParse r) = (s.released k x).withParse r := by
      unfold State.lenKnown; rw [if_pos hx]
    rw [if_pos hx, hlen]
    exact ⟨hpk, hrel, hb⟩
  · have hlen (v : State) : v.lenKnown ((s.released k x).withParse r) = { (s.released k x).withParse r with
        bark := { ((s.released k x).withParse r).bark with len := v.ctLen ((s.released k x).withParse r) } } := by
      unfold State.lenKnown; rw [if_neg hx]
    rw [if_neg hx, hlen]
    refine ⟨fun j => ?_, hrel, fun h => State.besideParse_putPkt k _ (hb h)⟩
    rw [State.pkt?_putPkt, hpk j]
    split <;> rfl

/-- The state beside what a release may change, put together again. -/
theorem State.eq_of_besideParse {s u : State}
    (h : u.besideParse = ({ s with pkts := u.pkts, nextRel := u.nextRel } : State).besideParse) :
    u = { s with pkts := u.pkts, nextRel := u.nextRel, frags := u.frags, regs := u.regs, msi := u.msi, jrn := u.jrn } :=
  (congrArg (fun v : State => { v with frags := u.frags, regs := u.regs, msi := u.msi, jrn := u.jrn }) h :)

end Sys2Proof.Machine
end

section
/-!
SUPPORT. What a reception at the peer trace leaves of the state (O25).
-/
namespace Sys2Proof.Machine

/-! ### The peer trace (R61 to R63) -/

/-- The state without what the peer trace may change: a port's supervision, setup registers, causes, journal records. -/
def State.besideTrace (s : State) : State := { s with ports := [], regs := [], msi := {}, jrn := {} }

theorem State.besideTrace_wr (s : State) (f : RFld) (v : Nat) : (s.wr f v).besideTrace = s.besideTrace := (rfl)

theorem State.besideTrace_trcStore (s : State) (base : Nat) (str : List Byte) :
    (s.trcStore base str).besideTrace = s.besideTrace :=
  foldl_kept State.besideTrace (fun s i => s.setReg (base + 4 * i) _) (fun _ _ => rfl) _ _

theorem State.besideTrace_traceMove (s : State) (p st : Nat) : (s.traceMove p st).besideTrace = s.besideTrace := by
  have hset : (s.traceSet p st).besideTrace = s.besideTrace := by
    unfold State.traceSet
    split
    · rfl
    · rw [State.raise, State.raiseN_only]; rfl
  unfold State.traceMove
  dsimp only
  split
  · rfl
  · unfold State.journal
    rw [State.journalRec_only]
    exact hset

/-- The identity of a reception as the peer trace stores it. -/
def State.traceHeard (s : State) (p : Nat) (c q : List Byte) (run : Nat) : State :=
  ((((s.modPort p (fun x => { x with chs := c, prt := q, run := run, lastRx := s.now (portQuad p) })).trcStore
    (PRT_TRC_RCV_CHS p 0) c).trcStore (PRT_TRC_RCV_PRT p 0) q).wr (PRT_TRC_RCV_LEN_CHS_LEN p) c.length).wr
    (PRT_TRC_RCV_LEN_PRT_LEN p) q.length

/-- A reception is stored; the trace state moves after three equal ones. -/
theorem State.traceRx_cases (s : State) (p : Nat) (c q : List Byte) : ∃ run, s.traceRx p c q = s.traceHeard p c q run ∨
    ∃ st, s.traceRx p c q = (s.traceHeard p c q run).traceMove p st := by
  refine ⟨if (s.port p).chs = c ∧ (s.port p).prt = q then (s.port p).run + 1 else 1, ?_⟩
  unfold State.traceRx
  extract_lets x run s1 s2 s3
  split
  · exact .inl rfl
  · exact .inr ⟨_, rfl⟩

theorem State.besideTrace_traceRx (s : State) (p : Nat) (c q : List Byte) :
    (s.traceRx p c q).besideTrace = s.besideTrace := by
  have hheard (run : Nat) : (s.traceHeard p c q run).besideTrace = s.besideTrace := by
    unfold State.traceHeard
    rw [State.besideTrace_wr, State.besideTrace_wr, State.besideTrace_trcStore, State.besideTrace_trcStore]; rfl
  obtain ⟨run, h | ⟨st, h⟩⟩ := s.traceRx_cases p c q
  · rw [h, hheard]
  · rw [h, State.besideTrace_traceMove, hheard]

/-- A port's configuration register, and its registers from the counters on: those that the peer trace leaves alone. -/
def besideTraceRegs (p b : Nat) : Prop := b = PRT_CFG p ∨ (RX_FRAMES_CNT p ≤ b ∧ b < 0x2000000)

theorem State.reg_trcStore (s : State) {base : Nat} (str : List Byte) {b : Nat} (h : b < base ∨ base + 32 ≤ b) :
    (s.trcStore base str).reg b = s.reg b := by
  unfold State.trcStore
  refine List.foldlRecOn (motive := fun t : State => t.reg b = s.reg b) _ _ rfl fun t ht i hi => ?_
  have hi := List.mem_range.1 hi
  rw [State.reg_setReg_other _ _ (by omega), ht]

theorem State.reg_traceMove (s : State) {p : Nat} (st : Nat) {b : Nat} (h : besideTraceRegs p b) (hp : p < 256) :
    (s.traceMove p st).reg b = s.reg b := by
  have hbound : b ≠ PRT_STS p ∧ b ≠ PRT_INT p ∧ b < OBS_INT := by
    simp only [besideTraceRegs, PRT_CFG, RX_FRAMES_CNT, PRT_STS, PRT_INT, OBS_INT] at h ⊢; omega
  obtain ⟨hsts, hint, hobs⟩ := hbound
  have hlost : OBS_INT < OBS_JRN_LOST_CNT := by decide
  unfold State.traceMove
  dsimp only
  split
  · rfl
  · rw [State.reg_journal _ _ _ _ _ (by omega) (by omega) (by omega)]
    unfold State.traceSet
    split
    · rfl
    · rw [State.reg_raise_other _ (show (PRT_INT_TRACE_CHG p).addr ≠ b from hint.symm),
        State.reg_wr_other _ _ (show (PRT_STS_TRACE p).addr ≠ b from hsts.symm)]

theorem State.reg_traceRx (s : State) {p : Nat} (c q : List Byte) {b : Nat} (h : besideTraceRegs p b) (hp : p < 256) :
    (s.traceRx p c q).reg b = s.reg b := by
  have hbound : b ≠ PRT_TRC_RCV_LEN p ∧ (b < PRT_TRC_RCV_CHS p 0 ∨ PRT_TRC_RCV_CHS p 0 + 32 ≤ b) ∧
      (b < PRT_TRC_RCV_PRT p 0 ∨ PRT_TRC_RCV_PRT p 0 + 32 ≤ b) := by
    simp only [besideTraceRegs, PRT_CFG, RX_FRAMES_CNT, PRT_TRC_RCV_LEN, PRT_TRC_RCV_CHS, PRT_TRC_RCV_PRT] at h ⊢; omega
  obtain ⟨hlen, hchs, hprt⟩ := hbound
  have hheard (run : Nat) : (s.traceHeard p c q run).reg b = s.reg b := by
    unfold State.traceHeard
    rw [State.reg_wr_other _ _ (show (PRT_TRC_RCV_LEN_PRT_LEN p).addr ≠ b from hlen.symm),
      State.reg_wr_other _ _ (show (PRT_TRC_RCV_LEN_CHS_LEN p).addr ≠ b from hlen.symm),
      State.reg_trcStore _ _ hprt, State.reg_trcStore _ _ hchs]
    rfl
  obtain ⟨run, hr | ⟨st, hr⟩⟩ := s.traceRx_cases p c q
  · rw [hr, hheard]
  · rw [hr, State.reg_traceMove _ _ h hp, hheard]

end Sys2Proof.Machine
end

section
/-!
SUPPORT. What the release of a packet's buffer and tag leaves of the ports' registers, and when it comes (O25).
-/
namespace Sys2Proof.Machine

/-! ### The end of a packet (R30, R277) -/

theorem State.modPkt_regs (s : State) (k : Nat) (f : Pkt → Pkt) : (s.modPkt k f).regs = s.regs := by
  unfold State.modPkt; split <;> rfl

/-- The registers below those of the boughs: the ports' and the device's own. -/
abbrev belowBoughs (a : Nat) : Prop := a < 0x2000000

theorem State.reg_wr_above (s : State) {f : RFld} (v : Nat) {a : Nat} (h : belowBoughs a) (hf : 0x2000000 ≤ f.addr) :
    (s.wr f v).reg a = s.reg a := s.reg_wr_other v (by omega)

theorem State.reg_badFree_low (s : State) (b u q t c : Nat) {a : Nat} (h : belowBoughs a) :
    (s.badFree b u q t c).reg a = s.reg a := by
  have hobs : OBS_INT = 0xa000090 ∧ OBS_JRN_LOST_CNT = 0xa003030 := ⟨rfl, rfl⟩
  have hcnt : 0x2000000 ≤ (if c = 1 then CRN_DBL_FREE_CNT b else CRN_FOREIGN_FREE_CNT b) := by
    simp only [CRN_DBL_FREE_CNT, CRN_FOREIGN_FREE_CNT]; split <;> omega
  unfold State.badFree
  dsimp only
  rw [State.reg_raise_other _ (by simp only [CRN_INT_BAD_FREE, CRN_INT]; omega),
    State.reg_journal _ _ _ _ _ (by omega) (by omega) (by omega), State.reg_cnt_other _ _ (by omega) (by omega)]

theorem State.reg_bufFree_low (s : State) (b u q t : Nat) {a : Nat} (h : belowBoughs a) :
    (s.bufFree b u q t).reg a = s.reg a := by
  unfold State.bufFree
  split
  · exact s.reg_badFree_low _ _ _ _ _ h
  · split
    · exact s.reg_badFree_low _ _ _ _ _ h
    · split
      · exact s.reg_badFree_low _ _ _ _ _ h
      · rename_i x _ _
        dsimp only
        rw [State.wrB, State.reg_wr_above _ _ h (by simp only [CRN_STORE_STS_IDLE, CRN_STORE_STS]; omega),
          State.reg_wr_above _ _ h (by simp only [CRN_POOL_STS_FREE, CRN_POOL_STS]; omega),
          State.reg_wr_above _ _ h (by simp only [CRN_USE_USE, CRN_USE]; omega)]
        rfl

theorem State.reg_dropBuf_low (s : State) (k : Nat) {a : Nat} (h : belowBoughs a) : (s.dropBuf k).reg a = s.reg a := by
  unfold State.dropBuf
  split
  · rfl
  · split
    · rfl
    · rw [State.reg_bufFree_low _ _ _ _ _ h, State.reg_congr (s.modPkt_regs _ _)]

theorem State.reg_slotGo_low (s : State) (o : OrdSlot) {a : Nat} (h : belowBoughs a) : (s.slotGo o).reg a = s.reg a := by
  have hwin : (s.winSub o.win).reg a = s.reg a :=
    s.reg_wr_above _ h (by simp only [TWG_CLU_STS_WIN_USE, TWG_CLU_STS]; omega)
  unfold State.slotGo
  split
  · rw [State.reg_congr (State.modPkt_regs _ _ _), hwin]
  · exact hwin

theorem State.reg_slotChain_low (s : State) (port : Nat) (acc l : List OrdSlot) {a : Nat} (h : belowBoughs a) :
    (s.slotChain port acc l).reg a = s.reg a := by
  induction l generalizing s acc with
  | nil => rfl
  | cons o r ih =>
    unfold State.slotChain
    split
    · split
      · rw [ih, s.reg_slotGo_low o h]
      · rfl
    · exact ih s _

theorem State.reg_slotReady_low (s : State) (id : Nat) {a : Nat} (h : belowBoughs a) : (s.slotReady id).reg a = s.reg a := by
  unfold State.slotReady
  split
  · rfl
  · dsimp only
    split
    · rw [State.reg_slotGo_low _ _ h]
      split
      · rw [State.reg_raise_other _ (by simp only [TWG_INT_ORD_SKIP, TWG_INT]; omega),
          State.reg_cnt_other _ _ (by simp only [TWG_ORD_SKIP_CNT]; omega) (by simp only [TWG_ORD_SKIP_CNT]; omega)]
        rfl
      · rfl
    · exact (State.reg_slotChain_low _ _ _ _ h).trans rfl

theorem State.rxLoosen_regs (s : State) (k : Nat) (p : Pkt) : (s.rxLoosen k p).regs = s.regs := by
  unfold State.rxLoosen; split <;> rfl

theorem State.reg_freeTag_low (s : State) (k : Nat) {a : Nat} (h : belowBoughs a) : (s.freeTag k).reg a = s.reg a := by
  unfold State.freeTag
  split
  · rfl
  · rename_i p _
    dsimp only
    refine (State.reg_congr (State.rxLoosen_regs _ _ _) a).trans ?_
    have huse (t : State) (v : Nat) : (t.wr (BGH_TAG_STS_IN_USE (k / 8192)) v).reg a = t.reg a :=
      t.reg_wr_above _ h (by simp only [BGH_TAG_STS_IN_USE, BGH_TAG_STS]; omega)
    have hgen (v : Nat) : (if p.genHeld = true then s.wr (genCnt (k / 8192) p.bark.gen) v else s).reg a = s.reg a := by
      split
      · exact s.reg_wr_above _ h (by simp only [genCnt, BGH_GEN_CNT]; omega)
      · rfl
    split
    · rw [State.slotOrphan, State.reg_slotReady_low _ _ h]
      exact (huse _ _).trans (hgen _)
    · exact (huse _ _).trans (hgen _)

theorem State.pkt?_freeTag_same (s : State) (k : Nat) : (s.freeTag k).pkt? k = none := by
  unfold State.freeTag
  split
  · assumption
  · exact (Tab.find_erase _ _ _).trans (if_pos rfl)

/-- A packet sent with no copy left frees its buffer and its tag. -/
theorem State.settle_over {s : State} {k : Nat} {p : Pkt} (hp : s.pkt? k = some p) (hst : p.stage = .sent)
    (hhost : p.hostCopies = []) (hcs : s.copiesOf k = []) : s.settle k = (s.dropBuf k).freeTag k := by
  unfold State.settle
  rw [hp]
  dsimp only
  rw [hcs, hst, hhost]
  rfl

/-- A packet with a copy to the host pending keeps its buffer and its tag. -/
theorem State.settle_hostPending {s : State} {k : Nat} {p : Pkt} (hp : s.pkt? k = some p) (hhost : p.hostCopies ≠ []) :
    s.settle k = s := by
  have hne : p.hostCopies.isEmpty = false := by simp [hhost]
  unfold State.settle
  rw [hp]
  dsimp only
  rw [hne]
  split <;> rfl

end Sys2Proof.Machine
end

section
/-!
SUPPORT. An LLDP frame: what its reception counts and stores, and its packet on its way to the host (O25).
-/
namespace Sys2Proof.Machine

/-! ### LLDP frames (R61) -/

theorem exec_lldpFrame {s : State} {b : Fin 32} {t : Fin 8192} {x : Pkt} (h : s.alive (islBough b.val) = true)
    (hx : s.pkt? (pkey b.val t.val) = some x) :
    exec (.lldpFrame b t) s = .next (s.lldpFrame (pkey b.val t.val) x) := by
  rw [← State.withPkt_some (s.lldpFrame (pkey b.val t.val)) hx]
  exact onIsl_up (f := fun s => s.withPkt b.val t.val (s.lldpFrame (pkey b.val t.val))) h

/-- A received LLDP frame counted, and its identity at the peer trace. -/
def State.lldpHeard (s : State) (x : Pkt) : State :=
  match lldpIds ((x.bytes.take (x.bytes.length - 4)).drop 14) with
  | some (c, q) => (s.cnt (RX_LLDP_CNT x.bark.ingPort)).traceRx x.bark.ingPort c q
  | none => (s.cnt (RX_LLDP_CNT x.bark.ingPort)).cnt (TRACE_BAD_CNT x.bark.ingPort)

theorem State.besideTrace_cnt (s : State) (a n : Nat) : (s.cnt a n).besideTrace = s.besideTrace := (rfl)

theorem State.besideTrace_lldpHeard (s : State) (x : Pkt) : (s.lldpHeard x).besideTrace = s.besideTrace := by
  unfold State.lldpHeard
  split
  · rw [State.besideTrace_traceRx, State.besideTrace_cnt]
  · rw [State.besideTrace_cnt, State.besideTrace_cnt]

theorem State.pkt?_lldpHeard (s : State) (x : Pkt) (k : Nat) : (s.lldpHeard x).pkt? k = s.pkt? k :=
  State.pkt?_congr (congrArg State.pkts (s.besideTrace_lldpHeard x) :) k

/-- The reception of an LLDP frame leaves its port's registers alone but for the counters of receptions. -/
theorem State.reg_lldpHeard (s : State) (x : Pkt) {b : Nat} (h : besideTraceRegs x.bark.ingPort b)
    (hp : x.bark.ingPort < 256) (hbad : b ≠ TRACE_BAD_CNT x.bark.ingPort ∧ b ≠ TRACE_BAD_CNT x.bark.ingPort + 4) :
    (s.lldpHeard x).reg b = (s.cnt (RX_LLDP_CNT x.bark.ingPort)).reg b := by
  unfold State.lldpHeard
  split
  · exact State.reg_traceRx _ _ _ h hp
  · exact State.reg_cnt_other _ _ hbad.1.symm hbad.2.symm

theorem State.counted_lldpHeard (s : State) (x : Pkt) (hp : x.bark.ingPort < 256) :
    counted (RX_LLDP_CNT x.bark.ingPort) 1 s (s.lldpHeard x) := by
  refine counted_congr (counted_cnt s _ 1) (s.reg_lldpHeard x (.inr ?_) hp ?_) (s.reg_lldpHeard x (.inr ?_) hp ?_) <;>
    simp only [RX_LLDP_CNT, RX_FRAMES_CNT, TRACE_BAD_CNT] <;> omega

theorem State.rd_prtCfg_lldpHeard (s : State) (x : Pkt) (hp : x.bark.ingPort < 256) {f : RFld}
    (hf : f.addr = PRT_CFG x.bark.ingPort) : (s.lldpHeard x).rd f = s.rd f := by
  refine State.rd_of_reg ((s.reg_lldpHeard x (.inl hf) hp ?_).trans (s.reg_cnt_other _ ?_ ?_)) <;>
    simp only [hf, PRT_CFG, RX_LLDP_CNT, TRACE_BAD_CNT] <;> omega

/-- The LLDP frame's packet as it is sent on: its LEN known, no stage to come. -/
def Pkt.lldpSent (x : Pkt) : Pkt := { x with stage := .sent, bark := { x.bark with len := x.bytes.length } }

theorem State.lldpFrame_eq {s : State} {k : Nat} {x : Pkt} (hst : x.stage = .lldp) (hbuf : x.hasBuf = true) :
    s.lldpFrame k x =
      let w := (s.lldpHeard x).modPkt k (fun p => { p with stage := .sent, bark := { p.bark with len := p.bytes.length } })
      (if w.on (PRT_CFG_LLDP_COPY_EN x.bark.ingPort) then w.askHost k (w.rd (PRT_CFG_LLDP_CH x.bark.ingPort)) 4
        else w).settle k := by
  unfold State.lldpFrame State.lldpHeard
  refine (if_neg (by simp [hst, hbuf])).trans ?_
  cases lldpIds ((x.bytes.take (x.bytes.length - 4)).drop 14) <;> rfl

/-- LLDP_COPY_EN and LLDP_CH are as they were before the reception. -/
theorem State.lldpFrame_heard {s : State} {k : Nat} {x : Pkt} (hx : s.pkt? k = some x) (hst : x.stage = .lldp)
    (hbuf : x.hasBuf = true) (hp : x.bark.ingPort < 256) :
    s.lldpFrame k x =
      (if s.on (PRT_CFG_LLDP_COPY_EN x.bark.ingPort) then
        ((s.lldpHeard x).putPkt k x.lldpSent).askHost k (s.rd (PRT_CFG_LLDP_CH x.bark.ingPort)) 4
      else (s.lldpHeard x).putPkt k x.lldpSent).settle k := by
  have hon : ((s.lldpHeard x).putPkt k x.lldpSent).on (PRT_CFG_LLDP_COPY_EN x.bark.ingPort) =
      s.on (PRT_CFG_LLDP_COPY_EN x.bark.ingPort) :=
    congrArg (· != 0) (s.rd_prtCfg_lldpHeard x hp (f := PRT_CFG_LLDP_COPY_EN x.bark.ingPort) rfl)
  have hch : ((s.lldpHeard x).putPkt k x.lldpSent).rd (PRT_CFG_LLDP_CH x.bark.ingPort) =
      s.rd (PRT_CFG_LLDP_CH x.bark.ingPort) := s.rd_prtCfg_lldpHeard x hp rfl
  rw [State.lldpFrame_eq hst hbuf, State.modPkt_some _ ((s.pkt?_lldpHeard x k).trans hx)]
  exact congrArg (State.settle · k) (by dsimp only; rw [← hon, ← hch]; rfl)

end Sys2Proof.Machine
end

section
/-!
SUPPORT. LLDP frames to the host or at their end, good frames, and O25.
-/
namespace Sys2Proof.Machine

theorem State.askHost_good {s : State} {k : Nat} {p : Pkt} (ch info : Nat) (hp : s.pkt? k = some p)
    (hbad : p.bark.bad = false) : s.askHost k ch info = s.putPkt k { p with
      hostCopies := p.hostCopies ++ [⟨ch, info, s.time.mono⟩], bark := { p.bark with copy := true } } := by
  unfold State.askHost
  rw [State.modPkt_some _ hp]
  dsimp only
  rw [hbad]
  rfl

/-- The packet of an LLDP frame whose copy to the host has been asked for (R374). -/
def State.lldpCopied (s : State) (x : Pkt) : Pkt :=
  { x with stage := .sent, bark := { x.bark with len := x.bytes.length, copy := true }
           hostCopies := x.hostCopies ++ [⟨s.rd (PRT_CFG_LLDP_CH x.bark.ingPort), 4, s.time.mono⟩] }

/-- With LLDP_COPY_EN the packet waits for its copy to the host. -/
theorem State.lldpFrame_copied {s : State} {k : Nat} {x : Pkt} (hx : s.pkt? k = some x) (hst : x.stage = .lldp)
    (hbuf : x.hasBuf = true) (hp : x.bark.ingPort < 256) (hbad : x.bark.bad = false)
    (hon : s.on (PRT_CFG_LLDP_COPY_EN x.bark.ingPort) = true) :
    s.lldpFrame k x = ((s.lldpHeard x).putPkt k x.lldpSent).putPkt k (s.lldpCopied x) := by
  have htime : (s.lldpHeard x).time = s.time := (congrArg State.time (s.besideTrace_lldpHeard x) :)
  have hask : ((s.lldpHeard x).putPkt k x.lldpSent).askHost k (s.rd (PRT_CFG_LLDP_CH x.bark.ingPort)) 4 =
      ((s.lldpHeard x).putPkt k x.lldpSent).putPkt k (s.lldpCopied x) := by
    rw [State.askHost_good (p := x.lldpSent) _ _ (State.pkt?_putPkt_same _ _ _) hbad, State.lldpCopied, ← htime]
    rfl
  rw [State.lldpFrame_heard hx hst hbuf hp, if_pos hon, hask,
    State.settle_hostPending (State.pkt?_putPkt_same _ _ _) (by simp [State.lldpCopied])]

/-- Without it the packet is over: its buffer and its tag are freed. -/
theorem State.lldpFrame_over {s : State} {k : Nat} {x : Pkt} (hx : s.pkt? k = some x) (hst : x.stage = .lldp)
    (hbuf : x.hasBuf = true) (hp : x.bark.ingPort < 256) (hon : s.on (PRT_CFG_LLDP_COPY_EN x.bark.ingPort) = false)
    (hhost : x.hostCopies = []) (hcs : s.copiesOf k = []) :
    s.lldpFrame k x = (((s.lldpHeard x).putPkt k x.lldpSent).dropBuf k).freeTag k := by
  have hcopies : (s.lldpHeard x).copies = s.copies := (congrArg State.copies (s.besideTrace_lldpHeard x) :)
  have hcs' : ((s.lldpHeard x).putPkt k x.lldpSent).copiesOf k = [] := by
    rw [← hcs]; unfold State.copiesOf; rw [← hcopies]; rfl
  rw [State.lldpFrame_heard hx hst hbuf hp, if_neg (by simp [hon])]
  exact State.settle_over (State.pkt?_putPkt_same _ _ _) rfl hhost hcs'

/-! ### A good frame's end (R65, R275) -/

/-- The MAC's counts of a good frame. -/
def State.rxCounted (s : State) (p n : Nat) : State := (s.cnt (RX_FRAMES_CNT p)).cnt (RX_BYTES_CNT p) n

theorem State.counted_rxCounted (s : State) (p n : Nat) :
    counted (RX_FRAMES_CNT p) 1 s (s.rxCounted p n) ∧ counted (RX_BYTES_CNT p) n s (s.rxCounted p n) := by
  have hne : RX_FRAMES_CNT p + 8 ≤ RX_BYTES_CNT p ∨ RX_BYTES_CNT p + 8 ≤ RX_FRAMES_CNT p := by
    simp only [RX_FRAMES_CNT, RX_BYTES_CNT]; omega
  refine ⟨counted_congr (counted_cnt s _ 1) ?_ ?_, ?_⟩
  · exact State.reg_cnt_other _ _ (by omega) (by omega)
  · exact State.reg_cnt_other _ _ (by omega) (by omega)
  · refine (State.cntAt_cnt _ _ n).trans ?_
    rw [State.cntAt_congr (State.reg_cnt_other _ _ (by omega) (by omega)) (State.reg_cnt_other _ _ (by omega) (by omega))]

theorem State.regsKept_rxCounted (s : State) (p n : Nat) :
    regsKept [RX_FRAMES_CNT p, RX_FRAMES_CNT p + 4, RX_BYTES_CNT p, RX_BYTES_CNT p + 4] s (s.rxCounted p n) :=
  ((onlyRegs_cnt s 1 (by simp) (by simp)).trans (onlyRegs_cnt _ n (by simp) (by simp))).2

/-- A good data frame's end touches the receive side, its packet and the MAC's two counters. -/
theorem State.frameEnd_counted {s : State} {p t : Nat} {x : Pkt} (e : Bool) (ht : t < 8192) (h : (s.rxPort p).cur = .frame t)
    (hx : s.pkt? (pkey (portBough p) t) = some x) (hw : x.window = false)
    (hc : macCause x.bytes (e || x.ue) (s.maxFrame p) = none) (hmc : isMacCtrl x.bytes = false) :
    s.frameEnd p e = { s.putPkt (pkey (portBough p) t) (s.endedPkt x) with
      rx := if x.hasBuf && !x.promote then ((s.setCur p .idle).fifoOut x.bark.ingPort t).rx else (s.setCur p .idle).rx
      regs := (s.rxCounted p x.bytes.length).regs } := by
  rw [State.frameEnd_good e ht h hx hw hc hmc]
  dsimp only
  split <;> rfl

/-! ### The commands on a whole state -/

/-- The release of a window that may be released. -/
theorem exec_parseWindowRelease_ready {s : State} {b : Fin 32} {t : Fin 8192} {x : Pkt} (hal : s.alive (islBough b.val) = true)
    (hx : s.pkt? (pkey b.val t.val) = some x) (hst : x.stage = .rx) (hbuf : x.hasBuf = true) (hpro : x.promote = false)
    (hw : x.window = false) (hready : x.ended = true ∨
      (x.bark.ct = true ∧ 256 < x.bytes.length ∧ isLldp x.bytes = false ∧ isMacCtrl x.bytes = false)) :
    ∃ u y, exec (.parseWindowRelease b t) s = .next u ∧ u.pkt? (pkey b.val t.val) = some y ∧
      y.stage = .parsed ∧ y.window = true ∧ y.genHeld = true ∧ y.bark.gen = s.boughGen b.val ∧ y.rel = s.nextRel ∧
      y.bark.len = (if x.ended then x.bytes.length else u.ctLen y) ∧ y.bytes = x.bytes ∧ y.ended = x.ended ∧
      y.bark.arrTs = x.bark.arrTs ∧ y.bark.seq = x.bark.seq ∧
      u.nextRel = s.nextRel + 1 ∧ (s.ecc.diff = [] → (∀ k, k ≠ pkey b.val t.val → u.pkt? k = s.pkt? k) ∧
      u = { s with pkts := u.pkts, nextRel := u.nextRel, frags := u.frags, regs := u.regs, msi := u.msi, jrn := u.jrn }) := by
  obtain ⟨r, hpk, hrel, hrest⟩ := State.windowRelease_stored hst hbuf hpro hw hready
  have hgen : (s.released (pkey b.val t.val) x).bark.gen = s.boughGen b.val :=
    congrArg s.boughGen (pkey_div b.val t.isLt)
  refine ⟨_, _, exec_parseWindowRelease hal hx, (hpk (pkey b.val t.val)).trans (if_pos rfl), ?_⟩
  generalize s.windowRelease (pkey b.val t.val) x = u at hpk hrel hrest ⊢
  have hframe : s.ecc.diff = [] → (∀ k, k ≠ pkey b.val t.val → u.pkt? k = s.pkt? k) ∧
      u = { s with pkts := u.pkts, nextRel := u.nextRel, frags := u.frags, regs := u.regs, msi := u.msi, jrn := u.jrn } :=
    fun h => ⟨fun k hk => (hpk k).trans (if_neg hk.symm), State.eq_of_besideParse (by rw [hrest h, hrel])⟩
  dsimp only [State.lenKnown, Pkt.withParse, State.released] at hgen ⊢
  refine ⟨rfl, rfl, rfl, hgen, rfl, ?_, rfl, rfl, rfl, rfl, hrel, hframe⟩
  cases x.ended <;> rfl

theorem State.lldpHeard_some (s : State) {x : Pkt} {c q : List Byte}
    (h : lldpIds ((x.bytes.take (x.bytes.length - 4)).drop 14) = some (c, q)) :
    s.lldpHeard x = (s.cnt (RX_LLDP_CNT x.bark.ingPort)).traceRx x.bark.ingPort c q := by
  unfold State.lldpHeard; rw [h]

/-- Without an identity the reception is counted as bad beside. -/
theorem State.lldpHeard_none (s : State) {x : Pkt} (h : lldpIds ((x.bytes.take (x.bytes.length - 4)).drop 14) = none) :
    counted (TRACE_BAD_CNT x.bark.ingPort) 1 s (s.lldpHeard x) ∧ s.lldpHeard x = { s with regs := (s.lldpHeard x).regs } ∧
      regsKept [RX_LLDP_CNT x.bark.ingPort, RX_LLDP_CNT x.bark.ingPort + 4,
        TRACE_BAD_CNT x.bark.ingPort, TRACE_BAD_CNT x.bark.ingPort + 4] s (s.lldpHeard x) := by
  have hheard : s.lldpHeard x = (s.cnt (RX_LLDP_CNT x.bark.ingPort)).cnt (TRACE_BAD_CNT x.bark.ingPort) := by
    unfold State.lldpHeard; rw [h]
  rw [hheard]
  refine ⟨?_, rfl, ((onlyRegs_cnt s 1 (by simp) (by simp)).trans (onlyRegs_cnt _ 1 (by simp) (by simp))).2⟩
  refine (State.cntAt_cnt (s.cnt (RX_LLDP_CNT x.bark.ingPort)) _ 1).trans ?_
  rw [State.cntAt_congr (s.reg_cnt_other _ ?_ ?_) (s.reg_cnt_other _ ?_ ?_)] <;>
    simp only [RX_LLDP_CNT, TRACE_BAD_CNT] <;> omega

/-- An LLDP frame whose copy the host asks for. -/
theorem exec_lldpFrame_copied {s : State} {b : Fin 32} {t : Fin 8192} {x : Pkt} (hal : s.alive (islBough b.val) = true)
    (hx : s.pkt? (pkey b.val t.val) = some x) (hst : x.stage = .lldp) (hbuf : x.hasBuf = true) (hp : x.bark.ingPort < 256)
    (hbad : x.bark.bad = false) (hon : s.on (PRT_CFG_LLDP_COPY_EN x.bark.ingPort) = true) :
    ∃ u, exec (.lldpFrame b t) s = .next u ∧
      u.pkt? (pkey b.val t.val) = some (s.lldpCopied x) ∧
      (∀ k, k ≠ pkey b.val t.val → u.pkt? k = s.pkt? k) ∧
      counted (RX_LLDP_CNT x.bark.ingPort) 1 s u ∧
      (lldpIds ((x.bytes.take (x.bytes.length - 4)).drop 14) = none → counted (TRACE_BAD_CNT x.bark.ingPort) 1 s u ∧
        u = { s with pkts := u.pkts, regs := u.regs } ∧ regsKept [RX_LLDP_CNT x.bark.ingPort, RX_LLDP_CNT x.bark.ingPort + 4,
          TRACE_BAD_CNT x.bark.ingPort, TRACE_BAD_CNT x.bark.ingPort + 4] s u) ∧
      ∀ c q, lldpIds ((x.bytes.take (x.bytes.length - 4)).drop 14) = some (c, q) →
        u = { (s.cnt (RX_LLDP_CNT x.bark.ingPort)).traceRx x.bark.ingPort c q with pkts := u.pkts } := by
  have hnone := fun h => s.lldpHeard_none (x := x) h
  have hsome := fun c q h => s.lldpHeard_some (x := x) (c := c) (q := q) h
  have hcnt := s.counted_lldpHeard x hp
  have hpkt := s.pkt?_lldpHeard x
  rw [exec_lldpFrame hal hx, State.lldpFrame_copied hx hst hbuf hp hbad hon]
  generalize s.lldpHeard x = w at hnone hsome hcnt hpkt
  refine ⟨_, rfl, State.pkt?_putPkt_same _ _ (s.lldpCopied x), fun j hj => ?_, hcnt, fun hids => ?_, fun c q hids => ?_⟩
  · rw [State.pkt?_putPkt_other _ _ hj, State.pkt?_putPkt_other _ _ hj, hpkt]
  · obtain ⟨hbadcnt, hw, hkept⟩ := hnone hids
    refine ⟨hbadcnt, ?_, hkept⟩
    rw [hw]; rfl
  · rw [← hsome c q hids]; rfl

/-! ### The obligation -/

/-- Settles O25, clause by clause from the lemmas above. That a frame skipped for want of a tag is checked and counted, and
one cut short by a full FIFO is not, is the model's assumption 30. -/
theorem frameEndAndWindow : Obligations.FrameEndAndWindow := by
  unfold Obligations.FrameEndAndWindow
  refine ⟨fun s p e hal hcur => ?_, fun s p e f hal hcur => ?_, fun s p e t c x hal _ hcur hx hw hc => ?_,
    fun s p e t x hal _ hcur hx hw hc hmc => ?_, fun s p e t x hal ht hcur hx hw hc hmc => ?_,
    fun s b t x hal hx hst hbuf hpro hw hready => ?_, fun s b t x hal hx hst hbuf hp hbad hon => ?_,
    fun s b t x hal hx hst hbuf hp hon hhost hcs => ?_⟩
  · rw [exec_frameEnd e hal, State.frameEnd_gone e hcur]
  · rw [exec_frameEnd e hal, State.frameEnd_skip e hcur]
  · rw [exec_frameEnd e hal, State.frameEnd_frame e hcur hx hw, hc]
    rfl
  · rw [exec_frameEnd e hal, State.frameEnd_frame e hcur hx hw, hc]
    exact congrArg Host.Outcome.next (State.sfEnd_macCtrl hmc)
  · rw [exec_frameEnd e hal, State.frameEnd_counted e ht hcur hx hw hc hmc]
    obtain ⟨hframes, hbytes⟩ := s.counted_rxCounted p.val x.bytes.length
    exact ⟨_, rfl, State.pkt?_putPkt_same _ _ _, rfl, hframes, hbytes, rfl, s.regsKept_rxCounted _ _⟩
  · exact exec_parseWindowRelease_ready hal hx hst hbuf hpro hw hready
  · exact exec_lldpFrame_copied hal hx hst hbuf hp hbad hon
  · rw [exec_lldpFrame hal hx, State.lldpFrame_over hx hst hbuf hp hon hhost hcs]
    refine ⟨_, rfl, State.pkt?_freeTag_same _ _, ?_⟩
    have hlow : belowBoughs (RX_LLDP_CNT x.bark.ingPort) ∧ belowBoughs (RX_LLDP_CNT x.bark.ingPort + 4) := by
      simp only [belowBoughs, RX_LLDP_CNT]; omega
    refine counted_congr (s.counted_lldpHeard x hp) ?_ ?_
    · rw [State.reg_freeTag_low _ _ hlow.1, State.reg_dropBuf_low _ _ hlow.1]; rfl
    · rw [State.reg_freeTag_low _ _ hlow.2, State.reg_dropBuf_low _ _ hlow.2]; rfl

end Sys2Proof.Machine
end

section
/-!
SUPPORT. The admission of a packet's one copy (O29): its first failing check, its predicted departure, and its place in a queue.
-/
namespace Sys2Proof.Machine

/-! ### Admission of one forwarded copy (R299 to R301, R317) -/

theorem exec_admission {s : State} {b : Fin 32} {t : Fin 8192} {x : Pkt} (h : s.alive (islBough b.val) = true)
    (hx : s.pkt? (pkey b.val t.val) = some x) :
    exec (.admission b t) s = .next (s.admission (pkey b.val t.val) x) := by
  rw [← State.withPkt_some (s.admission (pkey b.val t.val)) hx]
  exact onIsl_up (f := fun s => s.withPkt b.val t.val (s.admission (pkey b.val t.val))) h

/-- When an admitted copy to a port leaves at the latest, as predicted (R318), in half ns. -/
def State.departsBy (s : State) (port cls w : Nat) : Nat :=
  2 * (s.now (islTm (portTm port)) + s.tQueue port cls w + 200) + s.ttx port

/-- A whole, good packet, or one that may cut through, with one copy to a port. -/
theorem State.admission_port {s : State} {k y : Nat} {x : Pkt} (hst : x.stage = .toAdmit) (hue : x.memUe = false)
    (hbad : x.bark.bad = false) (hcut : x.ended = true ∨ s.mayCut x = true) (heg : x.dec.eg = .port y)
    (hmir : x.dec.mir = none) :
    s.admission k x = ((s.putPkt k { x with stage := .sent }).admitCopy k x y x.bark.cls x.bark.len false false
      (!x.ended)).settle k := by
  have hports : s.copyPorts x = ([y], false, s) := by unfold State.copyPorts; rw [heg]
  unfold State.admission
  rw [if_neg (by simp [hst]), if_neg (by simp [hue]), if_neg (by simp [hbad]), if_neg (by rcases hcut with h | h <;> simp [h]),
    hports, hmir]
  rfl

theorem State.admitCopy_refused {s : State} {k port cls l slot sum : Nat} {p : Pkt} (mirror shared cut : Bool)
    (h : s.admCheck p port cls (l + 24) = some (slot, sum)) :
    s.admitCopy k p port cls l mirror shared cut = s.refuse p port cls slot sum := by
  unfold State.admitCopy
  dsimp only
  rw [h]

theorem State.admitCopy_late {s : State} {k port cls l : Nat} {p : Pkt} (mirror shared cut : Bool)
    (h : s.admCheck p port cls (l + 24) = none) (hlate : lateBy (s.departsBy port cls (l + 24)) p.bark.deadline = true) :
    s.admitCopy k p port cls l mirror shared cut = (s.refuse p port cls 4 TMG_REF_BOUND_CNT).raise TMG_INT_REF_BOUND := by
  unfold State.departsBy at hlate
  unfold State.admitCopy
  dsimp only
  rw [h]
  exact if_pos hlate

/-- The forwarded copy of a packet as admission makes it, its descriptor readable. -/
def State.forwardedCopy (s : State) (k : Nat) (p : Pkt) (port cls l : Nat) (cut : Bool) : Copy :=
  let len := if cut then 256 * poolSize p.bark.pool else l
  { bough := k / 8192, tag := k % 8192, port := port, cls := cls, w := l + 24, len := len, cells := copyCells p false len
    flen := l, deadline := p.bark.deadline, predDep := s.departsBy port cls (l + 24) / 2 % 2 ^ 32, colour := p.bark.colour
    mirror := false, ct := cut, shared := false, detached := false, stage := .queued, headAt := 0, ord := 0, xpAt := 0
    sfd := 0, out := [], teg := 0, ue := if p.stUe then 1 else 0 }

/-- The state in which an admitted copy is queued: it is counted, and its packet has its predicted departure. -/
def State.admitting (s : State) (k port cls l dep : Nat) : State :=
  (((s.qcount port cls 0).qcount port cls 1 l).pmuEv 0x50 (portTm port)).modPkt k
    (fun p => { p with bark := { p.bark with predDep := dep / 2 % 2 ^ 32 } })

theorem State.qcount_obs (s : State) (p q slot n : Nat) : s.qcount p q slot n = { s with obs := (s.qcount p q slot n).obs } := by
  unfold State.qcount; split <;> rfl

theorem State.modPkt_pkts (s : State) (k : Nat) (f : Pkt → Pkt) : s.modPkt k f = { s with pkts := (s.modPkt k f).pkts } := by
  unfold State.modPkt; split <;> rfl

theorem State.admitting_frame (s : State) (k port cls l dep : Nat) :
    s.admitting k port cls l dep =
      { s with pkts := (s.admitting k port cls l dep).pkts, obs := (s.admitting k port cls l dep).obs } := by
  unfold State.admitting
  rw [State.modPkt_pkts, State.pmuEv, State.qcount_obs (s.qcount port cls 0), State.qcount_obs s]

/-- A copy takes the next number and enters its queue. -/
def State.queueNew (s : State) (c : Copy) : State := ({ s with nextCopy := s.nextCopy + 1 } : State).enqueue s.nextCopy c

theorem State.admitCopy_queued {s : State} {k port cls l : Nat} {p : Pkt} (cut : Bool)
    (h : s.admCheck p port cls (l + 24) = none) (hdue : lateBy (s.departsBy port cls (l + 24)) p.bark.deadline = false)
    (hinj : s.injArmed 6 0 = false) :
    s.admitCopy k p port cls l false false cut =
      (s.admitting k port cls l (s.departsBy port cls (l + 24))).queueNew (s.forwardedCopy k p port cls l cut) := by
  have hinj' : (s.admitting k port cls l (s.departsBy port cls (l + 24))).injArmed 6 0 = false := by
    rw [State.admitting_frame]; exact hinj
  unfold State.admitCopy
  dsimp only
  rw [h]
  refine (if_neg (by unfold State.departsBy at hdue; simp [hdue])).trans ?_
  change (fun i : Bool × State => i.2.queueNew
    { s.forwardedCopy k p port cls l cut with ue := if i.1 then 3 else if p.stUe then 1 else 0 })
    ((s.admitting k port cls l (s.departsBy port cls (l + 24))).injPacket 6 1 (portTm port) (islTm (portTm port))) = _
  rw [State.injPacket_unarmed _ _ _ hinj']
  rfl

/-! ### A copy in its queue (R300, R304) -/

/-- The state without what a queue's change may touch. -/
def State.besideQueue (s : State) : State := { s with copies := [], qs := [], regs := [], msi := {} }

theorem State.besideQueue_putQ (s : State) (k : Nat) (x : TmQ) : (s.putQ k x).besideQueue = s.besideQueue := (rfl)

theorem State.besideQueue_descAdd (s : State) (t : Nat) : (s.descAdd t).besideQueue = s.besideQueue := by
  unfold State.descAdd
  dsimp only
  split
  · rw [State.raise, State.raiseN_only]; rfl
  · rfl

theorem State.q_putQ_same (s : State) (k : Nat) (x : TmQ) : (s.putQ k x).q k = x := Tab.get_set_same _ _ _ _

/-- A queue that holds one copy: the copy comes to its head. -/
theorem State.newHead_single {s : State} {k n : Nat} {c : Copy} (start : Nat) (hq : (s.q k).copies = [n])
    (hc : s.copies.find? n = some c) :
    s.newHead k start = (s.putCopy n { c with headAt := s.time.mono }).putQ k
      { s.q k with s := start, f := s.finish k start c.w } := by
  unfold State.newHead
  dsimp only
  rw [hq]
  dsimp only
  rw [hc]

/-- The queue of a copy that enters it, before the copy comes to its head. -/
def State.lined (s : State) (n : Nat) (c : Copy) : State :=
  ((s.putCopy n c).descAdd c.tm).putQ (qkey c.port c.cls)
    { s.q (qkey c.port c.cls) with
      copies := (s.q (qkey c.port c.cls)).copies ++ [n], bytes := (s.q (qkey c.port c.cls)).bytes + c.w }

theorem State.copies_descAdd (s : State) (t : Nat) : (s.descAdd t).copies = s.copies := by
  unfold State.descAdd; dsimp only; split
  · rw [State.raise, State.raiseN_only]; rfl
  · rfl

theorem State.copies_lined (s : State) (n : Nat) (c : Copy) : (s.lined n c).copies = s.copies.insert n c :=
  State.copies_descAdd (s.putCopy n c) c.tm

theorem State.enqueue_cases (s : State) (n : Nat) (c : Copy) :
    s.enqueue n c = s.lined n c ∨ ∃ h st f, s.enqueue n c = ((s.lined n c).putCopy n { c with headAt := h }).putQ
      (qkey c.port c.cls) { (s.lined n c).q (qkey c.port c.cls) with s := st, f := f } := by
  unfold State.enqueue
  dsimp only
  split
  · rename_i hempty
    refine .inr ⟨_, _, _, State.newHead_single (s := s.lined n c) _ ?_ ?_⟩
    · rw [State.lined, State.q_putQ_same, List.isEmpty_iff.1 hempty]; rfl
    · rw [State.copies_lined, Tab.find_insert, if_pos rfl]
  · exact .inl rfl

/-- A copy queued stands among the copies, last in its queue, with its bytes of backlog. -/
theorem State.enqueue_stored (s : State) (n : Nat) (c : Copy) :
    (∃ h, ∀ j, (s.enqueue n c).copies.find? j = if n = j then some { c with headAt := h } else s.copies.find? j) ∧
    ((s.enqueue n c).q (qkey c.port c.cls)).copies = (s.q (qkey c.port c.cls)).copies ++ [n] ∧
    ((s.enqueue n c).q (qkey c.port c.cls)).bytes = (s.q (qkey c.port c.cls)).bytes + c.w ∧
    (s.enqueue n c).besideQueue = s.besideQueue := by
  have hcs (j : Nat) : (s.lined n c).copies.find? j = if n = j then some c else s.copies.find? j := by
    rw [State.copies_lined, Tab.find_insert]
  have hq := ((s.putCopy n c).descAdd c.tm).q_putQ_same (qkey c.port c.cls) { s.q (qkey c.port c.cls) with
    copies := (s.q (qkey c.port c.cls)).copies ++ [n], bytes := (s.q (qkey c.port c.cls)).bytes + c.w }
  have hbeside : (s.lined n c).besideQueue = s.besideQueue := by
    rw [State.lined, State.besideQueue_putQ, State.besideQueue_descAdd]; rfl
  obtain h | ⟨hd, st, f, h⟩ := s.enqueue_cases n c
  · rw [h]
    exact ⟨⟨c.headAt, hcs⟩, congrArg TmQ.copies hq, congrArg TmQ.bytes hq, hbeside⟩
  · rw [h]
    refine ⟨⟨hd, fun j => ?_⟩, ?_, ?_, ?_⟩
    · refine (Tab.find_insert _ _ _ _).trans ?_
      rw [hcs]; split <;> rfl
    · rw [State.q_putQ_same]; exact congrArg TmQ.copies hq
    · rw [State.q_putQ_same]; exact congrArg TmQ.bytes hq
    · rw [State.besideQueue_putQ]; exact hbeside

/-! ### The packet stays while its copy waits (R277) -/

theorem Tab.mem_of_find {α : Type} {t : Tab α} {k : Nat} {v : α} (h : t.find? k = some v) : (k, v) ∈ t := by
  induction t with
  | nil => cases h
  | cons e r ih =>
    obtain ⟨j, u⟩ := e
    unfold Tab.find? at h
    split at h
    · rename_i hj; subst hj; cases h; exact .head _
    · exact .tail _ (ih h)

/-- A packet one of whose copies is queued keeps its buffer and its tag. -/
theorem State.settle_queued {s : State} {k n : Nat} {c : Copy} (hc : s.copies.find? n = some c)
    (hk : pkey c.bough c.tag = k) (hst : c.stage = .queued) : s.settle k = s := by
  have hmem : (n, c) ∈ s.copiesOf k := List.mem_filter.2 ⟨Tab.mem_of_find hc, by simp [hk]⟩
  unfold State.settle
  split
  · rfl
  · rename_i p _
    dsimp only
    have hstore : (s.copiesOf k).any (fun e => copyNeedsStore e.2 || !p.ended) = true :=
      List.any_eq_true.2 ⟨_, hmem, by simp [copyNeedsStore, hst]⟩
    have hne : (s.copiesOf k).isEmpty = false := List.isEmpty_eq_false_iff_exists_mem.2 ⟨_, hmem⟩
    rw [hstore, hne]
    split
    · rfl
    · split <;> rfl

/-! ### The admission of a packet that is queued -/

/-- A copy under the next number: where it stands in its queue, and what it leaves of the state. -/
theorem State.queueNew_stored (s : State) (c : Copy) :
    (∃ h, ∀ j, (s.queueNew c).copies.find? j = if s.nextCopy = j then some { c with headAt := h } else s.copies.find? j) ∧
    ((s.queueNew c).q (qkey c.port c.cls)).copies = (s.q (qkey c.port c.cls)).copies ++ [s.nextCopy] ∧
    ((s.queueNew c).q (qkey c.port c.cls)).bytes = (s.q (qkey c.port c.cls)).bytes + c.w ∧
    (s.queueNew c).besideQueue = ({ s with nextCopy := s.nextCopy + 1 } : State).besideQueue :=
  State.enqueue_stored { s with nextCopy := s.nextCopy + 1 } s.nextCopy c

/-- A state whose rest beside copies, queues and setup registers is that of `s` with packets, numbers and counters changed. -/
theorem State.eq_of_besideQueue {s u v : State}
    (h : u.besideQueue = ({ v with nextCopy := u.nextCopy } : State).besideQueue)
    (hv : v = { s with pkts := v.pkts, obs := v.obs }) :
    u = { s with pkts := u.pkts, copies := u.copies, nextCopy := u.nextCopy, qs := u.qs, regs := u.regs, msi := u.msi
                 obs := u.obs } := by
  rw [hv] at h
  have hpk : u.pkts = v.pkts := (congrArg State.pkts h :)
  have hobs : u.obs = v.obs := (congrArg State.obs h :)
  rw [hpk, hobs]
  exact (congrArg (fun w : State => { w with copies := u.copies, qs := u.qs, regs := u.regs, msi := u.msi }) h :)

/-- The admission of a copy that every check passes and that will not be late. -/
theorem State.admission_queued {s : State} {k y : Nat} {x : Pkt} (hst : x.stage = .toAdmit) (hue : x.memUe = false)
    (hbad : x.bark.bad = false) (hcut : x.ended = true ∨ s.mayCut x = true) (heg : x.dec.eg = .port y) (hmir : x.dec.mir = none)
    (hcheck : s.admCheck x y x.bark.cls (x.bark.len + 24) = none) (hinj : s.injArmed 6 0 = false)
    (hdue : lateBy (s.departsBy y x.bark.cls (x.bark.len + 24)) x.bark.deadline = false) :
    s.admission k x = ((s.putPkt k { x with stage := .sent }).admitting k y x.bark.cls x.bark.len
      (s.departsBy y x.bark.cls (x.bark.len + 24))).queueNew (s.forwardedCopy k x y x.bark.cls x.bark.len (!x.ended)) := by
  have hq : (s.putPkt k { x with stage := .sent }).admitCopy k x y x.bark.cls x.bark.len false false (!x.ended) =
      ((s.putPkt k { x with stage := .sent }).admitting k y x.bark.cls x.bark.len
        (s.departsBy y x.bark.cls (x.bark.len + 24))).queueNew (s.forwardedCopy k x y x.bark.cls x.bark.len (!x.ended)) :=
    State.admitCopy_queued (!x.ended) (s := s.putPkt k { x with stage := .sent }) hcheck hdue hinj
  rw [State.admission_port hst hue hbad hcut heg hmir, hq]
  generalize (s.putPkt k { x with stage := .sent }).admitting k y x.bark.cls x.bark.len _ = v
  obtain ⟨⟨h, hfind⟩, -⟩ := v.queueNew_stored (s.forwardedCopy k x y x.bark.cls x.bark.len (!x.ended))
  refine State.settle_queued ((hfind v.nextCopy).trans (if_pos rfl)) ?_ rfl
  change pkey (k / 8192) (k % 8192) = k
  unfold pkey; omega

/-! ### The obligation -/

/-- Settles O29, clause by clause: queued, refused under a check, refused under the bound, not readable, bad. -/
theorem admissionOfCopies : Obligations.AdmissionOfCopies := by
  unfold Obligations.AdmissionOfCopies
  refine ⟨fun s b t x y hal hx hst hue hbad hcut heg hmir hcheck hinj hdue => ?_,
    fun s b t x y slot sum hal hx hst hue hbad hcut heg hmir u hu => ⟨fun hcheck => ?_, fun hcheck hlate => ?_⟩,
    fun s b t x hal hx hst => ⟨fun hue => ?_, fun hue hbad => ?_⟩⟩
  · have hexec := (exec_admission hal hx).trans
      (congrArg Host.Outcome.next (State.admission_queued hst hue hbad hcut heg hmir hcheck hinj hdue))
    have hv := (s.putPkt (pkey b.val t.val) { x with stage := .sent }).admitting_frame (pkey b.val t.val) y x.bark.cls
      x.bark.len (s.departsBy y x.bark.cls (x.bark.len + 24))
    generalize (s.putPkt (pkey b.val t.val) { x with stage := .sent }).admitting _ _ _ _ _ = v at hexec hv
    have hnext : v.nextCopy = s.nextCopy := by rw [hv]; rfl
    have hcopies : v.copies = s.copies := by rw [hv]; rfl
    have hqs (k : Nat) : v.q k = s.q k := by rw [hv]; rfl
    obtain ⟨⟨h, hfind⟩, hqc, hqb, hrest⟩ :=
      v.queueNew_stored (s.forwardedCopy (pkey b.val t.val) x y x.bark.cls x.bark.len (!x.ended))
    rw [hnext, hcopies] at hfind
    rw [hqs, hnext] at hqc
    rw [hqs] at hqb
    refine ⟨_, _, hexec, (hfind s.nextCopy).trans (if_pos rfl), ?_⟩
    generalize v.queueNew _ = u at hfind hqc hqb hrest
    have hnum : u.nextCopy = v.nextCopy + 1 := (congrArg State.nextCopy hrest :)
    rw [← hnum] at hrest
    exact ⟨hnum.trans (congrArg (· + 1) hnext), pkey_div _ t.isLt, pkey_mod _ t.isLt, rfl, rfl, rfl, rfl, rfl, rfl, rfl, rfl,
      hqc, hqb, fun n hn => (hfind n).trans (if_neg hn.symm), State.eq_of_besideQueue hrest hv⟩
  · have hcheck' : u.admCheck x y x.bark.cls (x.bark.len + 24) = some (slot, sum) := by rw [hu]; exact hcheck
    rw [exec_admission hal hx, State.admission_port hst hue hbad hcut heg hmir, ← hu,
      State.admitCopy_refused false false _ hcheck']
    rfl
  · have hcheck' : u.admCheck x y x.bark.cls (x.bark.len + 24) = none := by rw [hu]; exact hcheck
    have hlate' : lateBy (u.departsBy y x.bark.cls (x.bark.len + 24)) x.bark.deadline = true := by rw [hu]; exact hlate
    rw [exec_admission hal hx, State.admission_port hst hue hbad hcut heg hmir, ← hu,
      State.admitCopy_late false false _ hcheck' hlate']
    rfl
  · rw [exec_admission hal hx]
    unfold State.admission
    rw [if_neg (by simp [hst]), if_pos hue]
  · rw [exec_admission hal hx]
    unfold State.admission
    rw [if_neg (by simp [hst]), if_neg (by simp [hue]), if_pos hbad]

end Sys2Proof.Machine
end

section
/-!
SUPPORT. What codes, injections, Root store accesses, samples and counts leave of the packets in flight (O33).
-/
namespace Sys2Proof.Machine

/-! ### Packets in flight beside codes and injections (R345, R354) -/

@[simp] theorem State.eccLog_pkts (s : State) (a b c d e f : Nat) : (s.eccLog a b c d e f).pkts = s.pkts :=
  congrArg Prod.fst (s.inFlight_eccLog a b c d e f)

@[simp] theorem State.pageFail_pkts (s : State) (a b c d e : Nat) : (s.pageFail a b c d e).pkts = s.pkts :=
  congrArg Prod.fst (s.inFlight_pageFail a b c d e)

@[simp] theorem State.ceCount_pkts (s : State) (a b : Nat) : (s.ceCount a b).pkts = s.pkts :=
  congrArg Prod.fst (s.inFlight_ceCount a b)

@[simp] theorem State.meetEnt_pkts (s : State) (u id c i : Nat) : (s.meetEnt u id c i).pkts = s.pkts :=
  congrArg Prod.fst (s.inFlight_meetEnt u id c i)

@[simp] theorem State.meetEnts_pkts (s : State) (u : Nat) (l : List (Nat × Nat × Nat)) : (s.meetEnts u l).pkts = s.pkts :=
  congrArg Prod.fst (s.inFlight_meetEnts u l)

@[simp] theorem State.injSpent_pkts (s : State) : s.injSpent.pkts = s.pkts := by
  unfold State.injSpent; dsimp only; split <;> simp

/-- An injection into a packet memory ends in a state with the same packets in flight: what holds of all of those holds of
its result. (Said of a predicate, so that the checker need not evaluate the injected word.) -/
theorem State.injPacket_elim (s : State) (src n unit isl : Nat) {P : Bool × State → Prop}
    (h : ∀ b t, t.pkts = s.pkts → P (b, t)) : P (s.injPacket src n unit isl) := by
  have hspent (l : List Nat) : (l.foldl (fun s _ => s.injSpent) s).pkts = s.pkts :=
    foldl_kept State.pkts _ (fun s _ => s.injSpent_pkts) l s
  have hce (l : List Nat) (t : State) : (l.foldl (fun s _ => s.ceCount src isl) t).pkts = t.pkts :=
    foldl_kept State.pkts _ (fun s _ => s.ceCount_pkts src isl) l t
  unfold State.injPacket
  split
  · exact h _ _ rfl
  · dsimp only
    split
    · exact h _ _ (hspent _)
    · exact h _ _ ((hce _ _).trans (hspent _))
    · exact h _ _ (by rw [State.pageFail_pkts, State.cnt_pkts, hspent])
    · exact h _ _ (by rw [State.eccLog_pkts, State.cnt_pkts, hspent])

@[simp] theorem State.injPacket_pkts (s : State) (src n unit isl : Nat) : (s.injPacket src n unit isl).2.pkts = s.pkts :=
  s.injPacket_elim src n unit isl (P := fun r => r.2.pkts = s.pkts) fun _ _ h => h

@[simp] theorem State.xorWord_pkts (s : State) (src w d : Nat) : (s.xorWord src w d).pkts = s.pkts := by
  unfold State.xorWord
  dsimp only
  split
  · split <;> rfl
  · rfl

@[simp] theorem State.symXor_pkts (s : State) (src w d : Nat) : (s.symXor src w d).pkts = s.pkts := (rfl)

@[simp] theorem State.symFix_pkts (s : State) (src page : Nat) : (s.symFix src page).pkts = s.pkts := by
  unfold State.symFix
  split
  · rfl
  · exact foldl_kept State.pkts _ (fun s w => by simp) _ _

@[simp] theorem State.pageFixed_pkts (s : State) (src page : Nat) (bad : List Nat) :
    (s.pageFixed src page bad).pkts = s.pkts := by
  unfold State.pageFixed; simp

@[simp] theorem State.symForget_pkts (s : State) (src page : Nat) : (s.symForget src page).pkts = s.pkts := (rfl)

@[simp] theorem State.fixRsWord_pkts (s : State) (src word : Nat) : (s.fixRsWord src word).pkts = s.pkts := by
  unfold State.fixRsWord
  dsimp only
  split
  · simp
  · refine (foldl_kept State.pkts _ ?_ _ _).trans ?_
    · exact fun _ _ => rfl
    · rw [State.symForget_pkts, State.pageFail_pkts]

@[simp] theorem State.readWord_pkts (s : State) (k : Nat) : (s.readWord k).pkts = s.pkts := by
  unfold State.readWord
  dsimp only
  split
  · simp
  · split <;> simp

@[simp] theorem State.flipWord_pkts (s : State) (src word pat : Nat) : (s.flipWord src word pat).pkts = s.pkts := by
  unfold State.flipWord
  dsimp only
  refine ite_kept State.pkts _ _ _ _ rfl ?_
  rw [State.symXor_pkts, State.xorWord_pkts]

@[simp] theorem State.wordWritten_pkts (s : State) (src word : Nat) : (s.wordWritten src word).pkts = s.pkts := by
  unfold State.wordWritten
  dsimp only
  split
  · rw [State.injSpent_pkts, State.flipWord_pkts]
  · rfl

@[simp] theorem State.pageWritten_pkts (s : State) (src page : Nat) : (s.pageWritten src page).pkts = s.pkts := by
  unfold State.pageWritten
  split
  · simp
  · rfl

/-! ### Packets in flight beside Root store accesses (R253, R264, R348) -/

@[simp] theorem State.rsPut_pkts (s : State) (a : Nat) (bs : List Byte) : (s.rsPut a bs).pkts = s.pkts := (rfl)

@[simp] theorem State.rsUnit_pkts (s : State) (a : Nat) (bs : List Byte) : (s.rsUnit a bs).pkts = s.pkts := by
  have hread (l : List Nat) : (l.foldl State.readWord s).pkts = s.pkts :=
    foldl_kept State.pkts _ (fun s k => s.readWord_pkts k) l s
  have hwritten (l : List Nat) (t : State) : (l.foldl (fun s k => s.wordWritten (k / 2 ^ 40) (k % 2 ^ 40)) t).pkts = t.pkts :=
    foldl_kept State.pkts _ (fun s k => s.wordWritten_pkts _ _) l t
  unfold State.rsUnit
  dsimp only
  split
  · simp [hread]
  · rw [State.pageWritten_pkts, hwritten, State.rsPut_pkts, hread]

@[simp] theorem State.rsUnits_pkts (s : State) (n a : Nat) (bs : List Byte) : (s.rsUnits n a bs).pkts = s.pkts := by
  induction n generalizing s a bs with
  | zero => rfl
  | succ n ih =>
    unfold State.rsUnits
    split
    · rfl
    · dsimp only
      rw [ih, State.rsUnit_pkts]

@[simp] theorem State.rsWrite_pkts (s : State) (a : Nat) (bs : List Byte) : (s.rsWrite a bs).pkts = s.pkts := by
  unfold State.rsWrite; split <;> simp

@[simp] theorem State.putRts_pkts (s : State) (c : Nat) (x : RtsSt) : (s.putRts c x).pkts = s.pkts := by
  unfold State.putRts; split <;> rfl

/-- A step taken under a condition leaves the packets alone when the step does. -/
theorem State.pkts_ite {c : Prop} [Decidable c] {s t : State} (h : t.pkts = s.pkts) :
    (if c then t else s).pkts = s.pkts := by
  split
  · exact h
  · rfl

@[simp] theorem State.rtsMove_pkts (s : State) (c : Nat) (r : RtsReq) : (s.rtsMove c r).pkts = s.pkts := by
  unfold State.rtsMove
  dsimp only
  rw [State.pkts_ite (State.cnt_pkts _ _ _), State.cnt_pkts, State.pkts_ite (State.cnt_pkts _ _ _),
    State.pkts_ite (State.cnt_pkts _ _ _)]
  split <;> simp

@[simp] theorem State.rtsTake_pkts (s : State) (r : RtsReq) : (s.rtsTake r).pkts = s.pkts := by
  unfold State.rtsTake
  dsimp only
  rw [State.rtsMove_pkts, State.pkts_ite (State.pmuEv_pkts _ _ _ _), State.wr_pkts, State.pmuEv_pkts,
    State.pkts_ite (State.cnt_pkts _ _ _)]

@[simp] theorem State.rtsUse_pkts (s : State) (cls a n : Nat) (w : Bool) : (s.rtsUse cls a n w).pkts = s.pkts :=
  foldl_kept State.pkts _ (fun s _ => s.rtsTake_pkts _) _ _

/-! ### Packets in flight beside exports and samples (R405, R420) -/

@[simp] theorem State.expPut_pkts (s : State) (r : ExpRec) : (s.expPut r).pkts = s.pkts := by
  unfold State.expPut
  split
  · rfl
  · split
    · simp
    · simp

@[simp] theorem State.packetSample_pkts (s : State) (p : Pkt) : (s.packetSample p).pkts = s.pkts := by
  unfold State.packetSample
  dsimp only
  split
  · rfl
  · split
    · rfl
    · split
      · rfl
      · split <;> split <;> simp

/-! ### Packets in flight beside counts, parks and queues -/

@[simp] theorem State.winAdd_pkts (s : State) (k : Nat) : (s.winAdd k).pkts = s.pkts := (rfl)

@[simp] theorem State.parkShow_pkts (s : State) : s.parkShow.pkts = s.pkts := by
  unfold State.parkShow; dsimp only; rw [State.wr_pkts, State.wr_pkts, State.wr_pkts, State.wr_pkts]

@[simp] theorem State.recircShow_pkts (s : State) (b : Nat) : (s.recircShow b).pkts = s.pkts := by
  unfold State.recircShow; dsimp only; rw [State.wr_pkts, State.wr_pkts]

theorem secAdd_pkts (s : State) (t : Tab (Nat × Nat)) (u now : Nat) {write : State → Nat → Nat → State}
    (h : ∀ s a n, (write s a n).pkts = s.pkts) : (secAdd s t u now write).1.pkts = s.pkts := by
  unfold secAdd
  dsimp only
  split
  · rfl
  · split
    · rfl
    · exact h _ _ _

@[simp] theorem State.causeCount_pkts (s : State) (c grp hB : Nat) : (s.causeCount c grp hB).pkts = s.pkts := by
  unfold State.causeCount
  extract_lets t
  have ht : t.pkts = s.pkts := by
    unfold t
    split
    · exact State.cnt_pkts _ _ _
    · rfl
  clear_value t
  rw [← ht]
  split
  · rw [State.raise_pkts]
    exact secAdd_pkts _ _ _ _ fun s a n => State.journalAt_pkts _ _ _ _ _ _
  · exact State.raise_pkts _ _
  · exact State.raise_pkts _ _
  · rw [State.raise_pkts]
    exact secAdd_pkts _ _ _ _ fun s a n => State.journalAt_pkts _ _ _ _ _ _
  · rfl

@[simp] theorem State.meetCreate_pkts (s : State) (p : Pkt) (fa : Nat) : (s.meetCreate p fa).pkts = s.pkts := by
  unfold State.meetCreate
  split
  · rfl
  · extract_lets u t
    have ht : t.pkts = s.pkts := State.pkts_ite (State.meetEnt_pkts _ _ _ _ _)
    clear_value t
    rw [← ht]
    split
    · rfl
    · split
      · exact State.meetEnt_pkts _ _ _ _ _
      · split
        · rw [State.meetEnts_pkts, State.meetEnt_pkts]
        · rfl

@[simp] theorem State.badFree_pkts (s : State) (b u q t c : Nat) : (s.badFree b u q t c).pkts = s.pkts := by
  unfold State.badFree; simp

@[simp] theorem State.bufFree_pkts (s : State) (b u q t : Nat) : (s.bufFree b u q t).pkts = s.pkts := by
  unfold State.bufFree
  split
  · simp
  · split
    · simp
    · split
      · simp
      · simp

end Sys2Proof.Machine
end

section
/-!
SUPPORT. What the packet of a tag satisfies while it is admitted, takes a second pass, or is released (O33).
-/
namespace Sys2Proof.Machine

/-! ### What the packet of a tag satisfies through a run of operations -/

/-- What the packet under a key satisfies, if there is one. -/
def State.pktHas (s : State) (k : Nat) (P : Pkt → Prop) : Prop := ∀ y, s.pkt? k = some y → P y

theorem State.pktHas_congr {s t : State} {k : Nat} {P : Pkt → Prop} (h : t.pkts = s.pkts) (hs : s.pktHas k P) : t.pktHas k P :=
  fun y hy => hs y ((State.pkt?_congr h k).symm.trans hy)

theorem State.pktHas_putPkt (s : State) (k : Nat) {P : Pkt → Prop} {p : Pkt} (h : P p) : (s.putPkt k p).pktHas k P := by
  intro y hy
  rw [State.pkt?_putPkt_same] at hy
  cases hy
  exact h

theorem State.pktHas_modPkt {s : State} {k : Nat} {P Q : Pkt → Prop} {f : Pkt → Pkt} (hf : ∀ y, P y → Q (f y))
    (h : s.pktHas k P) : (s.modPkt k f).pktHas k Q := by
  cases hp : s.pkt? k with
  | none =>
    intro y hy
    unfold State.modPkt at hy
    rw [hp] at hy
    exact absurd (hp.symm.trans hy) nofun
  | some p =>
    rw [State.modPkt_some f hp]
    exact State.pktHas_putPkt s k (hf p (h p hp))

theorem State.pktHas_askHost {s : State} {k : Nat} {P : Pkt → Prop} (ch info : Nat)
    (hf : ∀ (y : Pkt) (l : List HostCopy), P y → P { y with hostCopies := l, bark := { y.bark with copy := true } })
    (h : s.pktHas k P) : (s.askHost k ch info).pktHas k P := State.pktHas_modPkt (fun y => hf y _) h

/-! ### The identity of a packet: its flow-key hash, ARR_TS and SEQ -/

/-- A packet has a hash, ARR_TS and SEQ. -/
def Pkt.hasId (i : Nat × Nat × Nat) (y : Pkt) : Prop := (y.bark.hash, y.bark.arrTs, y.bark.seq) = i

theorem Pkt.hasId_iff {y : Pkt} {h ts seq : Nat} :
    y.hasId (h, ts, seq) ↔ y.bark.hash = h ∧ y.bark.arrTs = ts ∧ y.bark.seq = seq := by
  unfold Pkt.hasId; rw [Prod.mk.injEq, Prod.mk.injEq]

/-- A packet with that identity that is parsed no more. -/
def Pkt.decided (i : Nat × Nat × Nat) (y : Pkt) : Prop := y.stage ≠ .parsed ∧ y.hasId i

variable {s : State} {k : Nat} {i : Nat × Nat × Nat}

theorem State.hasId_askHost (ch info : Nat) (h : s.pktHas k (Pkt.hasId i)) : (s.askHost k ch info).pktHas k (Pkt.hasId i) :=
  State.pktHas_askHost ch info (fun _ _ hy => hy) h

theorem State.hasId_injMem (src n unit isl : Nat) (h : s.pktHas k (Pkt.hasId i)) :
    (s.injMem k src n unit isl).pktHas k (Pkt.hasId i) := by
  have h' : (s.injPacket src n unit isl).2.pktHas k (Pkt.hasId i) := State.pktHas_congr (State.injPacket_pkts _ _ _ _ _) h
  unfold State.injMem
  dsimp only
  split
  · exact State.pktHas_modPkt (fun _ hy => hy) h'
  · exact h'

/-! #### The end of a packet -/

theorem State.decided_dropBuf (h : s.pktHas k (Pkt.decided i)) : (s.dropBuf k).pktHas k (Pkt.decided i) := by
  unfold State.dropBuf
  split
  · exact h
  · split
    · exact h
    · exact State.pktHas_congr (State.bufFree_pkts _ _ _ _ _) (State.pktHas_modPkt (fun _ hy => hy) h)

theorem State.decided_freeTag (s : State) (k : Nat) (i : Nat × Nat × Nat) : (s.freeTag k).pktHas k (Pkt.decided i) :=
  fun _ hy => absurd ((s.pkt?_freeTag_same k).symm.trans hy) nofun

theorem State.decided_settle (h : s.pktHas k (Pkt.decided i)) : (s.settle k).pktHas k (Pkt.decided i) := by
  unfold State.settle
  split
  · exact h
  · split
    · exact h
    · dsimp only
      split
      · exact h
      · split
        · exact State.decided_freeTag _ _ _
        · split
          · exact h
          · exact State.decided_dropBuf h

/-! #### Admission and the second pass (R112, R128) -/

theorem State.dropCount_pkts (s : State) (p : Pkt) : (s.dropCount p).pkts = s.pkts := by
  unfold State.dropCount
  split
  · exact State.pkts_ite (State.cnt_pkts _ _ _)
  · exact State.pkts_ite (State.cnt_pkts _ _ _)

theorem State.hasId_askCopies (p : Pkt) (h : s.pktHas k (Pkt.hasId i)) : (s.askCopies k p).pktHas k (Pkt.hasId i) := by
  have h1 : (if fon p.dec.act AR_COPY then s.askHost k (fget p.dec.act AR_HOST_CH) p.dec.actInfo else s).pktHas k
      (Pkt.hasId i) := by
    split
    · exact State.hasId_askHost _ _ h
    · exact h
  unfold State.askCopies
  dsimp only
  split
  · exact State.hasId_askHost _ _ h1
  · exact h1

theorem State.decided_toAdmission (h : s.pktHas k (Pkt.hasId i)) : (s.toAdmission k).pktHas k (Pkt.decided i) := by
  refine State.pktHas_modPkt (fun y hy => ⟨?_, hy⟩) h
  dsimp only
  split <;> nofun

theorem State.decided_goAdmit (h : s.pktHas k (Pkt.hasId i)) : (s.goAdmit k).pktHas k (Pkt.decided i) := by
  unfold State.goAdmit
  split
  · rename_i hn
    exact fun y hy => absurd (hn.symm.trans hy) nofun
  · rename_i p hp
    have h1 : ((s.dropCount p).askCopies k p).pktHas k (Pkt.hasId i) :=
      State.hasId_askCopies p (State.pktHas_congr (s.dropCount_pkts p) h)
    extract_lets t dropped u
    have h2 : u.pktHas k (Pkt.hasId i) := State.pktHas_congr (State.pkts_ite (State.pmuEv_pkts _ _ _ _)) h1
    clear_value u
    split
    · rename_i hn
      exact fun y hy => absurd (hn.symm.trans hy) nofun
    · rename_i q hq
      split
      · exact State.decided_settle (State.pktHas_putPkt u k ⟨nofun, h2 q hq⟩)
      · exact State.decided_toAdmission h2

theorem State.decided_recircEnter (h : s.pktHas k (Pkt.hasId i)) : (s.recircEnter k).pktHas k (Pkt.decided i) := by
  unfold State.recircEnter
  extract_lets b q t u
  split
  · refine State.decided_settle (State.pktHas_modPkt (P := Pkt.hasId i) (fun y hy => ⟨nofun, hy⟩) ?_)
    exact State.pktHas_congr (State.cnt_pkts _ _ _) h
  · have hu : u.pktHas k (Pkt.hasId i) := State.hasId_injMem _ _ _ _ (State.pktHas_congr (s := s) rfl h)
    refine State.pktHas_congr (State.recircShow_pkts _ _)
      (State.pktHas_modPkt (P := Pkt.hasId i) (fun y hy => ⟨nofun, hy⟩) ?_)
    exact State.pktHas_congr (State.cnt_pkts _ _ _) hu

theorem State.decided_afterTwig (h : s.pktHas k (Pkt.hasId i)) : (s.afterTwig k).pktHas k (Pkt.decided i) := by
  unfold State.afterTwig
  split
  · rename_i hn
    exact fun y hy => absurd (hn.symm.trans hy) nofun
  · split
    · exact State.decided_goAdmit h
    · split
      · exact State.decided_recircEnter h
      · exact State.decided_goAdmit h

end Sys2Proof.Machine
end

section
/-!
SUPPORT. The identity of a packet through resolution, action stage, work items, the park and C8 (O33).
-/
namespace Sys2Proof.Machine

variable {s : State} {k : Nat} {i : Nat × Nat × Nat}

/-! #### Resolution, action stage and work items (R112, R189, R216, R243) -/

theorem hasId_egrBark {p : Pkt} (eg : Egress) (h : p.hasId i) : ({ p with bark := egrBark eg p.bark } : Pkt).hasId i := by
  unfold egrBark
  cases eg <;> exact h

theorem State.hasId_resolveEg {p : Pkt} (s : State) (h : p.hasId i) : (s.resolveEg p).1.hasId i :=
  hasId_egrBark (p := p) _ h

theorem State.hasId_withRecord {p : Pkt} (s : State) (a : Nat) (h : p.hasId i) : (s.withRecord p a).hasId i := h

theorem State.hasId_reDeadline {p : Pkt} (s : State) (old : Nat) (h : p.hasId i) : (s.reDeadline old p).hasId i := by
  unfold State.reDeadline; split <;> exact h

theorem State.hasId_verdict {p : Pkt} (s : State) (fa hot : Nat) (h : p.hasId i) : (s.verdict p fa hot).1.hasId i := by
  unfold State.verdict; dsimp only; split <;> exact h

theorem State.hasId_steps456 {p : Pkt} (s : State) (fa hot : Nat) (h : p.hasId i) : (s.steps456 p fa hot).1.hasId i := by
  have hv := s.hasId_verdict fa hot h
  unfold State.steps456
  generalize s.verdict p fa hot = v at hv
  obtain ⟨q, t⟩ := v
  dsimp only at hv ⊢
  split
  · exact hv
  · generalize t.bindStep q hot = r
    obtain ⟨r, u⟩ := r
    dsimp only
    split
    · exact hv
    · split
      · exact hv
      · split <;> exact hv

theorem State.hasId_actionStage {p : Pkt} (s : State) (fa hot : Nat) (h : p.hasId i) : (s.actionStage p fa hot).1.hasId i := by
  unfold State.actionStage
  split
  · have hv := s.hasId_verdict fa hot h
    unfold State.stepsBridged
    generalize s.verdict p fa hot = v at hv
    obtain ⟨q, t⟩ := v
    dsimp only at hv ⊢
    split <;> exact hv
  · exact s.hasId_steps456 fa hot h

/-- A fallback with nothing committed: FB_ACT's record, or a drop. -/
theorem State.decided_twigFallback (rt epoch : Nat) (h : s.pktHas k (Pkt.hasId i)) :
    (s.twigFallback k rt epoch []).pktHas k (Pkt.decided i) := by
  unfold State.twigFallback
  split
  · rename_i hn
    exact fun y hy => absurd (hn.symm.trans hy) nofun
  · rename_i p hp
    have hid := h p hp
    extract_lets t e
    rw [if_neg (by simp)]
    split
    · exact State.decided_afterTwig (State.pktHas_putPkt _ k
        (State.hasId_reDeadline _ _ (State.hasId_resolveEg _ (State.hasId_withRecord _ _ hid))))
    · exact State.decided_afterTwig (State.pktHas_putPkt _ k hid)

theorem State.decided_twigRefuse (rt c : Nat) (h : s.pktHas k (Pkt.hasId i)) :
    (s.twigRefuse k rt c).pktHas k (Pkt.decided i) :=
  State.decided_twigFallback rt _ (State.pktHas_congr ((State.raise_pkts _ _).trans (State.cnt_pkts _ _ _)) h)

theorem State.decided_twigCreate (rt : Nat) (h : s.pktHas k (Pkt.hasId i)) : (s.twigCreate k rt).pktHas k (Pkt.decided i) := by
  unfold State.twigCreate
  split
  · rename_i hn
    exact fun y hy => absurd (hn.symm.trans hy) nofun
  · rename_i p hp
    extract_lets c e it t u twig v
    split
    · exact State.decided_twigRefuse rt _ h
    · have ht : t.pktHas k (Pkt.hasId i) := by
        unfold t
        split
        · exact h
        · exact State.pktHas_congr (State.winAdd_pkts _ _) h
      have hu : u.pktHas k (Pkt.hasId i) := State.hasId_injMem _ _ _ _ ht
      refine State.pktHas_congr (State.pmuEv_pkts _ _ _ _)
        (State.pktHas_modPkt (P := Pkt.hasId i) (fun y hy => ⟨nofun, hy⟩) ?_)
      exact State.pktHas_congr (s := u) (State.cnt_pkts v _ _) hu

theorem State.decided_afterAction (h : s.pktHas k (Pkt.hasId i)) : (s.afterAction k).pktHas k (Pkt.decided i) := by
  unfold State.afterAction
  split
  · rename_i hn
    exact fun y hy => absurd (hn.symm.trans hy) nofun
  · rename_i p hp
    have hq := State.hasId_resolveEg s (h p hp)
    generalize s.resolveEg p = r at hq
    obtain ⟨q, t⟩ := r
    have ht : (t.putPkt k q).pktHas k (Pkt.hasId i) := State.pktHas_putPkt t k hq
    dsimp only
    split
    · exact State.decided_goAdmit ht
    · split
      · split
        · exact State.decided_afterTwig ht
        · exact State.decided_twigCreate _ ht
      · exact State.decided_afterTwig ht

/-! #### The unstated action and the park (R167, R168, R177) -/

theorem State.hasId_unstated (cause : Nat) (h : s.pktHas k (Pkt.hasId i)) : (s.unstated k cause).pktHas k (Pkt.hasId i) := by
  unfold State.unstated
  split
  · exact h
  · extract_lets cls act t u v
    have hv : v.pktHas k (Pkt.hasId i) := by
      refine State.pktHas_modPkt (P := Pkt.hasId i) (fun y hy => hy) (State.pktHas_congr ?_ h)
      rw [State.raise_pkts, State.causeCount_pkts, State.cnt_pkts, State.cnt_pkts]
    split
    · exact State.hasId_askHost _ _ hv
    · exact hv

theorem State.decided_parkIn (h : s.pktHas k (Pkt.hasId i)) : (s.parkIn k).pktHas k (Pkt.decided i) := by
  unfold State.parkIn
  extract_lets due grp t
  refine State.pktHas_congr (s := t) ((State.pmuEv_pkts _ _ _ _).trans (State.parkShow_pkts t)) ?_
  exact State.pktHas_modPkt (P := Pkt.hasId i) (fun y hy => ⟨nofun, hy⟩) (State.hasId_injMem _ _ _ _ h)

theorem State.decided_joinPend (ek : Nat) (e : PendEnt) (h : s.pktHas k (Pkt.decided i)) :
    (s.joinPend k ek e).pktHas k (Pkt.decided i) := State.pktHas_modPkt (s := s.putPend ek _) (fun _ hy => hy) h

theorem State.decided_newPend (ek : Nat) (p : Pkt) (h : s.pktHas k (Pkt.decided i)) :
    (s.newPend k ek p).pktHas k (Pkt.decided i) := by
  unfold State.newPend
  extract_lets t e u
  refine State.pktHas_congr (State.parkShow_pkts _) (State.pktHas_modPkt (P := Pkt.decided i) (fun y hy => hy) ?_)
  exact State.pktHas_congr ((State.cnt_pkts (t.putPend ek e) _ _).trans (State.meetCreate_pkts s p p.dec.fa)) h

/-- A packet parks, or it takes the unstated action and goes on. -/
theorem State.park_elim (join : Option Nat) (h : s.pktHas k (Pkt.hasId i)) {P : Bool × State → Prop}
    (hin : ∀ t, t.pktHas k (Pkt.decided i) → P (true, t)) (hout : ∀ t, t.pktHas k (Pkt.hasId i) → P (false, t)) :
    P (s.park k join) := by
  unfold State.park
  split
  · rename_i hn
    exact hin _ fun y hy => absurd (hn.symm.trans hy) nofun
  · extract_lets g t u
    have ht : t.pktHas k (Pkt.hasId i) := State.pktHas_modPkt (fun _ hy => hy) h
    have hu : u.pktHas k (Pkt.hasId i) := State.pktHas_congr (State.pmuEv_pkts _ _ _ _) ht
    clear_value u t
    split
    · exact hout _ (State.hasId_unstated _ ht)
    · split
      · extract_lets v
        have hparked := State.decided_parkIn hu
        split
        · split
          · split
            · exact hout _ (State.hasId_unstated _ hu)
            · exact hin _ (State.pktHas_congr (State.cnt_pkts _ _ _) (State.decided_joinPend _ _ hparked))
          · exact hin _ (State.pktHas_modPkt (fun _ hy => hy) hparked)
        · exact hin _ (State.pktHas_congr (State.cnt_pkts v _ _) (State.pktHas_modPkt (fun _ hy => hy) hparked))
      · have hparked := State.decided_parkIn ht
        split
        · exact hout _ (State.hasId_unstated _ ht)
        · exact hin _ (State.pktHas_congr
            ((State.pmuEv_pkts _ _ _ _).trans ((State.cnt_pkts _ _ _).trans (State.cnt_pkts _ _ _)))
            (State.decided_joinPend _ _ hparked))
        · exact hin _ (State.pktHas_congr (State.cnt_pkts _ _ _) (State.decided_newPend _ _ hparked))

/-! #### C8 (R163, R164, R167, R184) -/

theorem State.decided_c8Hit {p : Pkt} (l : Nat) (h : p.hasId i) : (s.c8Hit k l p).pktHas k (Pkt.decided i) := by
  unfold State.c8Hit
  extract_lets b x t u bark flow q push
  have hq : q.hasId i := h
  split
  · exact State.decided_afterAction (State.pktHas_congr rfl (State.pktHas_putPkt u k (P := Pkt.hasId i) hq))
  · generalize u.steps123 q q.dec.fa (hotNat (u.seenHot b l)) = r
    obtain ⟨hot, col, v⟩ := r
    dsimp only
    exact State.decided_afterAction (State.pktHas_putPkt _ k (State.hasId_actionStage _ _ _ hq))

theorem State.decided_c8 {p : Pkt} (c4 : C4) (h : s.pktHas k (Pkt.hasId i)) (hp : p.hasId i) :
    (s.c8 k p c4).pktHas k (Pkt.decided i) := by
  have hpark (join : Option Nat) : (match s.park k join with
      | (true, s) => s
      | (false, s) => s.afterAction k).pktHas k (Pkt.decided i) :=
    s.park_elim join h (P := fun r => (match r with | (true, s) => s | (false, s) => s.afterAction k).pktHas k (Pkt.decided i))
      (fun _ ht => ht) (fun _ ht => State.decided_afterAction ht)
  cases c4 with
  | noAccess => exact State.decided_afterAction h
  | off =>
    unfold State.c8
    dsimp only
    split
    · exact State.decided_afterAction h
    · exact State.decided_afterAction (State.hasId_unstated _ h)
  | hit l => exact State.decided_c8Hit l hp
  | join l =>
    unfold State.c8
    dsimp only
    split
    · exact State.decided_afterAction h
    · exact hpark _
  | miss =>
    unfold State.c8
    dsimp only
    split
    · exact State.decided_afterAction h
    · exact hpark _

/-! #### DECISION -/

theorem State.hasId_ordReserve (p : Pkt) (r : Nat) (h : s.pktHas k (Pkt.hasId i)) :
    (s.ordReserve k p r).pktHas k (Pkt.hasId i) := by
  unfold State.ordReserve
  extract_lets port fa wants w id tw
  split
  · exact h
  · split
    · exact State.pktHas_congr ((State.raise_pkts _ _).trans (State.cnt_pkts _ _ _)) h
    · exact State.pktHas_modPkt (fun _ hy => hy) (State.pktHas_congr (s := s) (State.winAdd_pkts _ _) h)

/-- A packet with the hashes of its flow key (C1). -/
def State.hashed (s : State) (p : Pkt) : Pkt :=
  { p with bark := { p.bark with hash := (s.hashes p.ps.key p.ps.prof).1 }
           flow := { p.flow with hA := (s.hashes p.ps.key p.ps.prof).1, hB := (s.hashes p.ps.key p.ps.prof).2 } }

/-- The decision counted as performance events. -/
def State.deciding (s : State) (k : Nat) (p : Pkt) : State :=
  if !p.host && !p.bark.pass then (s.pmuEv 0x01 (k / 8192)).pmuEv 0x02 (k / 8192) else s.pmuEv 0x01 (k / 8192)

/-- The packet under a key, resolved, may be sampled. -/
def State.sampled (s : State) (k : Nat) : State :=
  match s.pkt? k with
  | some p => s.packetSample (s.resolveEg p).1
  | none => s

/-- What follows the merge of C8: the bark is stored, a slot reserved, a sample taken, and the flow part of C8. -/
def State.decideOn (s : State) (k : Nat) (p : Pkt) (c : C4) : State :=
  let t := (((s.putPkt k p).injMem k 4 8 (k / 8192) (islBough (k / 8192))).ordReserve k p p.dec.act).sampled k
  match t.pkt? k with
  | some p => t.c8 k p c
  | none => t

theorem State.decidePkt_eq {p : Pkt} (hp : s.pkt? k = some p) :
    s.decidePkt k =
      (((s.deciding k p).c4 (s.hashed p)).2.merge k (s.hashed p)).2.decideOn k
        (((s.deciding k p).c4 (s.hashed p)).2.merge k (s.hashed p)).1 ((s.deciding k p).c4 (s.hashed p)).1 := by
  unfold State.decidePkt
  rw [hp]
  rfl

theorem State.sampled_pkts (s : State) (k : Nat) : (s.sampled k).pkts = s.pkts := by
  unfold State.sampled
  split
  · exact State.packetSample_pkts _ _
  · rfl

/-- The identity of a packet that is decided: the hash of its flow key, and what its bark held. -/
def State.decisionId (s : State) (p : Pkt) : Nat × Nat × Nat := ((s.hashes p.ps.key p.ps.prof).1, p.bark.arrTs, p.bark.seq)

theorem State.decided_decideOn {p : Pkt} (s : State) (k : Nat) (c : C4) (h : p.hasId i) :
    (s.decideOn k p c).pktHas k (Pkt.decided i) := by
  unfold State.decideOn
  extract_lets t
  have ht : t.pktHas k (Pkt.hasId i) := State.pktHas_congr (State.sampled_pkts _ _)
    (State.hasId_ordReserve _ _ (State.hasId_injMem _ _ _ _ (State.pktHas_putPkt s k h)))
  clear_value t
  split
  · rename_i q hq
    exact State.decided_c8 c ht (ht q hq)
  · rename_i hn
    exact fun y hy => absurd (hn.symm.trans hy) nofun

/-- Whatever its lookups find, a decided packet keeps its ARR_TS and SEQ and has its flow key's hash. -/
theorem State.decided_decidePkt {p : Pkt} (hp : s.pkt? k = some p) :
    (s.decidePkt k).pktHas k (Pkt.decided (s.decisionId p)) := by
  rw [State.decidePkt_eq hp]
  exact State.decided_decideOn _ k _ rfl

/-! ### A packet's turn for a decision slot (R19) -/

/-- The state in which a packet whose turn it is is decided: an injected packet takes its place in the round robin. -/
def State.slotTaken (s : State) (b : Nat) (p : Pkt) : State := if p.host then s.rrServed (rrSlots b) 2 1 else s

theorem State.decision_turn {b t : Nat} {p : Pkt} (ht : t < 8192) (hp : s.pkt? (pkey b t) = some p)
    (hst : p.stage = .parsed) (hfirst : s.slotFirst b p.host = some (pkey b t))
    (hturn : p.host = false ∨ s.slotMay b 1 = true) :
    s.decision (pkey b t) = (s.slotTaken b p).decidePkt (pkey b t) := by
  unfold State.decision
  rw [hp]
  dsimp only
  rw [pkey_div b ht, hst, hfirst, State.slotTaken]
  rcases hturn with h | h
  · simp [h]
  · cases hh : p.host <;> simp [h]

theorem exec_decision {b : Fin 32} {t : BitVec 13} (h : s.alive (islBough b.val) = true) :
    exec (.decision b t) s = .next (s.decision (pkey b.val t.toNat)) :=
  onIsl_up (f := (·.decision (pkey b.val t.toNat))) h

end Sys2Proof.Machine
end

section
/-!
SUPPORT. The decision of a packet that a record forwards, and O33.
-/
namespace Sys2Proof.Machine

/-! ### What the merge of a forwarding record changes (R24, R112, R135 to R141) -/

/-- Beside bridging requests, events, counts and MSI-X messages, only setup registers below the clusters' may differ. -/
def onlyBrg (s t : State) : Prop :=
  t = { s with regs := t.regs, msi := t.msi, brg := t.brg, obs := t.obs } ∧ ∀ a, 0x4800000 ≤ a → t.reg a = s.reg a

theorem onlyBrg_refl (s : State) : onlyBrg s s := ⟨rfl, fun _ _ => rfl⟩

theorem onlyBrg.trans {s t u : State} (hst : onlyBrg s t) (htu : onlyBrg t u) : onlyBrg s u := by
  obtain ⟨ht, hrt⟩ := hst
  obtain ⟨hu, hru⟩ := htu
  refine ⟨?_, fun a ha => (hru a ha).trans (hrt a ha)⟩
  rw [hu, ht]

theorem onlyBrg_cnt (s : State) {a : Nat} (n : Nat) (h : a + 4 < 0x4800000) : onlyBrg s (s.cnt a n) :=
  ⟨rfl, fun _ hb => s.reg_cnt_other n (by omega) (by omega)⟩

theorem onlyBrg_raise (s : State) {f : RFld} (h : f.addr < 0x4800000) : onlyBrg s (s.raise f) :=
  ⟨by rw [State.raise, State.raiseN_only], fun _ hb => State.reg_raise_other s (by omega)⟩

theorem onlyBrg_pmuEv (s : State) (c u n : Nat) : onlyBrg s (s.pmuEv c u n) := ⟨rfl, fun _ _ => rfl⟩

theorem onlyBrg_brg (s : State) (b : BrgSt) : onlyBrg s { s with brg := b } := ⟨rfl, fun _ _ => rfl⟩

theorem onlyBrg_ite {c : Prop} [Decidable c] {s t : State} (h : onlyBrg s t) : onlyBrg s (if c then t else s) := by
  split
  · exact h
  · exact onlyBrg_refl s

theorem onlyBrg_brgResult (s : State) (vid port : Nat) (dst src : List Byte) (line : Bool) :
    onlyBrg s (s.brgResult vid port dst src line).2 := by
  unfold State.brgResult
  extract_lets vl mem flood
  split
  · exact onlyBrg_cnt s 1 (by decide)
  · split
    · exact onlyBrg_cnt s 1 (by decide)
    · split
      · exact (onlyBrg_cnt s (a := LEARN_FAIL_CNT) 1 (by decide)).trans (onlyBrg_raise _ (f := BRG_INT_LEARN_FAIL) (by decide))
      · split
        · split
          · exact onlyBrg_cnt s 1 (by decide)
          · exact onlyBrg_refl s
        · exact onlyBrg_cnt s 1 (by decide)

theorem onlyBrg_learnAsk (s : State) (vid port ts seq : Nat) (src : List Byte) (ended : Bool) :
    onlyBrg s (s.learnAsk vid port ts seq src ended) := by
  unfold State.learnAsk
  extract_lets mac ask
  clear_value ask
  split
  · exact onlyBrg_refl s
  · split
    · exact onlyBrg_refl s
    · split
      · exact onlyBrg_refl s
      · split
        · exact (onlyBrg_cnt s (a := LEARN_Q_DROP_CNT) 1 (by decide)).trans (onlyBrg_raise _ (f := BRG_INT_LQ_DROP) (by decide))
        · exact (onlyBrg_brg s _).trans (onlyBrg_pmuEv _ _ _ _)

theorem onlyBrg_brgSource (s : State) (vid port : Nat) (src : List Byte) : onlyBrg s (s.brgSource vid port src) := by
  unfold State.brgSource
  split
  · exact onlyBrg_ite (onlyBrg_brg s _)
  · exact onlyBrg_refl s

/-! ### Lookups whose words have no errors, and a record without a policer -/

theorem State.meetEnt_clean {s : State} (h : s.ecc.diff = []) (u id c i : Nat) : s.meetEnt u id c i = s := by
  unfold State.meetEnt; rw [h]; rfl

theorem State.meetFound_clean {s : State} (h : s.ecc.diff = []) (u id : Nat) (f : State → Option (Nat × Nat)) :
    s.meetFound u id f = s := by
  unfold State.meetFound; rw [h]; rfl

theorem State.police_none (s : State) {r : Nat} (h : fon r AR_POL_V = false) (b ts len : Nat) :
    s.police r b ts len = (3, false, s) := by
  unfold State.police; dsimp only; rw [h]; rfl

theorem State.deadline_onlyBrg {s t : State} (h : onlyBrg s t) (ts cls : Nat) : t.deadline ts cls = s.deadline ts cls := by
  have hrd : t.rd (TMG_CLS_CFG_BOUND cls) = s.rd (TMG_CLS_CFG_BOUND cls) :=
    State.rd_of_reg (h.2 _ (by simp only [TMG_CLS_CFG_BOUND, TMG_CLS_CFG]; omega))
  unfold State.deadline
  rw [hrd]

/-- What the merge of C8 makes of a first-pass packet under a record `r` of number `a` that asks for no policer, second pass
or Twig routine. -/
structure Pkt.Merged (s : State) (p q : Pkt) (a r : Nat) : Prop where
  action : q.bark.action = a
  cls : q.bark.cls = fget r AR_CLASS
  colour : q.bark.colour = 3
  twig : q.bark.twig = false
  deadline : q.bark.deadline = s.deadline p.bark.arrTs (fget r AR_CLASS)
  hasId : q.hasId (p.bark.hash, p.bark.arrTs, p.bark.seq)
  ingPort : q.bark.ingPort = p.bark.ingPort
  act : q.dec.act = r
  drop : q.dec.drop = none
  recirc : q.dec.recirc = false
  rt : q.dec.rt = none
  unst : q.flow.unst = none
  kept : q.ps = p.ps ∧ q.slot = p.slot ∧ q.bytes = p.bytes

/-- The merge under such a record gives such a packet, and changes beside it what bridging may change. -/
theorem State.merge_elim {s : State} {k : Nat} {p : Pkt} {a r : Nat} (hd : s.ecc.diff = []) (hpass : p.bark.pass = false)
    (ha : s.ruleLookup (k / 8192 / 4) (p.bark.gen % 2) p.ps.rkey = a) (hr : s.actRec p.bark.gen a = r)
    (hpol : fon r AR_POL_V = false) (htwig : fon r AR_TWIG_V = false) (hrec : fon r AR_RECIRC = false)
    {P : Pkt × State → Prop} (h : ∀ q t, onlyBrg s t → Pkt.Merged s p q a r → P (q, t)) : P (s.merge k p) := by
  unfold State.merge
  extract_lets b port pass gen a' s1 r' loop s2 s3 vip s4 vid dst src line s5 s6
  have h1 : s1 = s := State.meetEnt_clean hd _ _ _ _
  have hr' : r' = r := by unfold r' a'; rw [ha, h1]; exact hr
  have h2 : s2 = s1 := if_neg (by simp [loop, pass, hpass])
  have h3 : s3 = s := by unfold s3; rw [h2, h1, State.meetFound_clean hd]
  have h4 : onlyBrg s s4 := by unfold s4; rw [h3]; exact onlyBrg_ite (onlyBrg_cnt s (a := VIP_HIT_CNT) 1 (by decide))
  have hd4 : s4.ecc.diff = [] := by rw [h4.1]; exact hd
  have h5 : s5 = s4 := State.meetEnt_clean hd4 _ _ _ _
  have h6 : onlyBrg s s6 := by
    unfold s6; rw [h5, State.meetFound_clean hd4, State.meetFound_clean hd4]; exact h4
  clear_value s6 s5 s4 s3 s2 s1 r' vip vid
  subst hr'
  have h7 := h6.trans (onlyBrg_brgResult s6 vid port dst src line)
  generalize s6.brgResult vid port dst src line = res at h7
  obtain ⟨br, s7⟩ := res
  have hpolice (t : State) : t.police r' b p.bark.arrTs p.bark.len = (3, false, t) := t.police_none hpol _ _ _
  simp -zeta only [hpolice] at h7 ⊢
  extract_lets s8 s9
  have h9 : onlyBrg s s9 :=
    h7.trans ((onlyBrg_ite (onlyBrg_learnAsk s7 _ _ _ _ _ _)).trans (onlyBrg_brgSource _ _ _ _))
  clear_value s9 s8
  refine h _ _ h9 ⟨ha, rfl, rfl, ?_, ?_, rfl, rfl, rfl, rfl, ?_, ?_, rfl, rfl, rfl, rfl⟩
  · change (fon r' AR_TWIG_V && !actBridges p.ps.act) = false
    rw [htwig]; rfl
  · refine (if_neg (by simp [pass, hpass])).trans (State.deadline_onlyBrg h9 _ _)
  · change (fon r' AR_RECIRC && !pass) = false
    rw [hrec]; rfl
  · exact if_neg (by simp [htwig])

/-! ### The rest of the decision: a packet forwarded by its record (R110 to R113) -/

/-- A packet whose exceptions continue and whose record forwards it to a port, and asks for nothing beside. -/
structure Pkt.Forwards (q : Pkt) : Prop where
  exc : q.ps.act = 0
  op : fget q.dec.act AR_OP = 1
  copy : fon q.dec.act AR_COPY = false
  ttl : fon q.dec.act AR_TTL_DEC = false
  drop : q.dec.drop = none
  recirc : q.dec.recirc = false
  rt : q.dec.rt = none
  unst : q.flow.unst = none
  slot : q.slot = none

/-- A packet with its record's port as egress. -/
def Pkt.forwarded (q : Pkt) : Pkt :=
  { q with bark := egrBark (.port (fget q.dec.act AR_EGR)) q.bark
           dec := { q.dec with eg := .port (fget q.dec.act AR_EGR), drop := none, mir := nth q.dec.mirs q.bark.mirror none } }

/-- A forwarded packet waits for admission. -/
def Pkt.toAdmit (q : Pkt) : Pkt := { q.forwarded with stage := .toAdmit }

section
variable {s : State} {k : Nat} {q : Pkt}

theorem State.resolveEg_forward (s : State) (h : q.Forwards) : s.resolveEg q = (q.forwarded, s) := by
  have hres : resolved q = (.port (fget q.dec.act AR_EGR), none) := by
    unfold resolved opEgress
    simp [h.exc, h.op, h.drop, h.unst, opDrops, actBridges]
  have httl : s.ttlDrop q = false := by unfold State.ttlDrop; dsimp only; rw [h.ttl]; rfl
  unfold State.resolveEg
  rw [hres, httl]
  rfl

theorem State.goAdmit_forward (hq : s.pkt? k = some q.forwarded) (h : q.Forwards) : s.goAdmit k = s.putPkt k q.toAdmit := by
  have hcount : s.dropCount q.forwarded = s := rfl
  have hask : s.askCopies k q.forwarded = s := by
    have hcopy : fon q.forwarded.dec.act AR_COPY = false := h.copy
    have hexc : q.forwarded.ps.act = 0 := h.exc
    unfold State.askCopies
    rw [hcopy, hexc]
    rfl
  have heg : q.forwarded.dec.eg = .port (fget q.dec.act AR_EGR) := rfl
  have hstage : (if q.forwarded.slot.isSome then PStage.ordered else .toAdmit) = .toAdmit := by
    have hslot : q.forwarded.slot = none := h.slot
    rw [hslot]; rfl
  unfold State.goAdmit
  rw [hq]
  dsimp only
  rw [hcount, hask, heg]
  simp only [reduceCtorEq, if_false, hq, decide_false, Bool.false_and]
  unfold State.toAdmission
  rw [State.modPkt_some _ hq, hstage]
  rfl

theorem State.afterAction_forward (hq : s.pkt? k = some q) (h : q.Forwards) :
    s.afterAction k = (s.putPkt k q.forwarded).putPkt k q.toAdmit := by
  have hput := s.pkt?_putPkt_same k q.forwarded
  have hrec : q.forwarded.dec.recirc = false := h.recirc
  have hrt : q.forwarded.dec.rt = none := h.rt
  have htwig : (s.putPkt k q.forwarded).afterTwig k = (s.putPkt k q.forwarded).goAdmit k := by
    unfold State.afterTwig
    rw [hput]
    dsimp only
    rw [hrec]
    rfl
  unfold State.afterAction
  rw [hq]
  dsimp only
  rw [State.resolveEg_forward s h]
  dsimp only
  rw [hrt]
  exact htwig.trans (State.goAdmit_forward hput h)

/-- After its merge such a packet reserves no slot and makes no flow lookup. -/
theorem State.decideOn_forward (h : q.Forwards) (hinj : s.injArmed 4 0 = false)
    (hord : s.portBit TWG_ORD_EN q.bark.ingPort = false) :
    s.decideOn k q .noAccess = (((s.putPkt k q).sampled k).putPkt k q.forwarded).putPkt k q.toAdmit := by
  have hmem : (s.putPkt k q).injMem k 4 8 (k / 8192) (islBough (k / 8192)) = s.putPkt k q := by
    unfold State.injMem
    rw [State.injPacket_unarmed (s := s.putPkt k q) _ _ _ hinj]
    rfl
  have hslot : (s.putPkt k q).ordReserve k q q.dec.act = s.putPkt k q := by
    have hord' : (s.putPkt k q).portBit TWG_ORD_EN q.bark.ingPort = false := hord
    unfold State.ordReserve
    dsimp only
    rw [hord']
    rfl
  have hq : ((s.putPkt k q).sampled k).pkt? k = some q :=
    (State.pkt?_congr (State.sampled_pkts _ _) k).trans (State.pkt?_putPkt_same _ _ _)
  unfold State.decideOn
  rw [hmem, hslot]
  dsimp only
  rw [hq]
  exact State.afterAction_forward hq h

/-- With no sampling on its port the packet is not sampled. -/
theorem State.sampled_off (hq : s.pkt? k = some q) (h : s.rd (OBS_PSMP_CFG_N q.bark.ingPort) = 0) : s.sampled k = s := by
  have hport : (s.resolveEg q).1.bark.ingPort = q.bark.ingPort := by
    unfold State.resolveEg egrBark
    dsimp only
    split <;> rfl
  unfold State.sampled
  rw [hq]
  unfold State.packetSample
  dsimp only
  rw [hport, h]
  rfl

theorem State.c4_none (s : State) (h : q.ps.flowEn = false) : s.c4 q = (.noAccess, s) := by
  unfold State.c4; rw [h]; rfl

theorem State.slotTaken_frame (s : State) (b : Nat) (p : Pkt) :
    s.slotTaken b p = { s with turns := (s.slotTaken b p).turns } := by
  unfold State.slotTaken; split <;> rfl

theorem State.deciding_frame (s : State) (k : Nat) (p : Pkt) : s.deciding k p = { s with obs := (s.deciding k p).obs } := by
  unfold State.deciding; split <;> rfl

theorem State.hashed_slotTaken (s : State) (b : Nat) (p q : Pkt) : (s.slotTaken b p).hashed q = s.hashed q := by
  unfold State.slotTaken; split <;> rfl

end

/-- The state in which a packet is merged: its turn is taken, its decision counted. -/
def State.atMerge (s : State) (b k : Nat) (x : Pkt) : State := (s.slotTaken b x).deciding k x

theorem State.atMerge_frame (s : State) (b k : Nat) (x : Pkt) :
    s.atMerge b k x = { s with turns := (s.atMerge b k x).turns, obs := (s.atMerge b k x).obs } := by
  have hslot := s.slotTaken_frame b x
  have hdec := (s.slotTaken b x).deciding_frame k x
  unfold State.atMerge
  generalize (s.slotTaken b x).deciding k x = d at hdec ⊢
  generalize s.slotTaken b x = e at hslot hdec
  rw [hdec, hslot]

/-- DECISION of a packet whose turn it is and that makes no flow lookup. -/
theorem State.decision_noFlow {s : State} {b t : Nat} {x : Pkt} (ht : t < 8192) (hx : s.pkt? (pkey b t) = some x)
    (hst : x.stage = .parsed) (hfirst : s.slotFirst b x.host = some (pkey b t))
    (hturn : x.host = false ∨ s.slotMay b 1 = true) (hflow : x.ps.flowEn = false) :
    s.decision (pkey b t) = ((s.atMerge b (pkey b t) x).merge (pkey b t) (s.hashed x)).2.decideOn (pkey b t)
      ((s.atMerge b (pkey b t) x).merge (pkey b t) (s.hashed x)).1 .noAccess := by
  have hx' : (s.slotTaken b x).pkt? (pkey b t) = some x := by rw [State.slotTaken_frame]; exact hx
  have hflow' : (s.hashed x).ps.flowEn = false := hflow
  rw [State.decision_turn ht hx hst hfirst hturn, State.decidePkt_eq hx', State.hashed_slotTaken, State.c4_none _ hflow']
  rfl

theorem State.injArmed_congr {s t : State} (h : t.reg ECC_INJ_CFG = s.reg ECC_INJ_CFG) (src level : Nat) :
    t.injArmed src level = s.injArmed src level := by
  have hrd (f : RFld) (hf : f.addr = ECC_INJ_CFG) : t.rd f = s.rd f := State.rd_of_reg (by rw [hf]; exact h)
  unfold State.injArmed State.on
  rw [hrd ECC_INJ_CFG_ARM rfl, hrd ECC_INJ_CFG_SRC rfl, hrd ECC_INJ_CFG_LEVEL rfl]

theorem State.portBit_congr {s t : State} {f : Nat → Nat} {p : Nat} (h : t.reg (f (p / 32)) = s.reg (f (p / 32))) :
    t.portBit f p = s.portBit f p := by
  unfold State.portBit; rw [h]

/-- A state whose packets differ from those that a merge left: beside them it is as the merge left it. -/
theorem State.eq_of_merged {s d m u : State} (hd : d = { s with turns := d.turns, obs := d.obs }) (hm : onlyBrg d m)
    (hu : u = { m with pkts := u.pkts }) :
    u = { s with pkts := u.pkts, regs := u.regs, msi := u.msi, brg := u.brg, obs := u.obs, turns := u.turns } := by
  obtain ⟨hm, -⟩ := hm
  rw [hd] at hm
  generalize u.pkts = w at hu ⊢
  subst hu
  exact (congrArg (fun v : State => { v with pkts := w, turns := m.turns }) hm :)

/-- What a packet sent to admission by the record `r` of number `a` is, and what its decision leaves of the state. -/
def State.sentOn (s : State) (k : Nat) (x : Pkt) (a r : Nat) (u : State) (y : Pkt) : Prop :=
  u.pkt? k = some y ∧ y.stage = .toAdmit ∧
  y.dec.eg = .port (fget r AR_EGR) ∧ y.dec.drop = none ∧ y.bark.action = a ∧ y.bark.cls = fget r AR_CLASS ∧
  y.bark.egr = fget r AR_EGR ∧ y.bark.mcast = false ∧ y.bark.colour = 3 ∧ y.bark.twig = false ∧
  y.bark.hash = (s.hashes x.ps.key x.ps.prof).1 ∧ y.bark.deadline = s.deadline x.bark.arrTs (fget r AR_CLASS) ∧
  y.bark.arrTs = x.bark.arrTs ∧ y.bark.seq = x.bark.seq ∧ y.bytes = x.bytes ∧
  (∀ j, j ≠ k → u.pkt? j = s.pkt? j) ∧ (s.rd (OBS_PSMP_CFG_N x.bark.ingPort) = 0 →
    u = { s with pkts := u.pkts, regs := u.regs, msi := u.msi, brg := u.brg, obs := u.obs, turns := u.turns })

theorem State.decideOn_sentOn {s d m : State} {k a r : Nat} {x q : Pkt} (hd : d = { s with turns := d.turns, obs := d.obs })
    (hm : onlyBrg d m) (hq : Pkt.Merged d (s.hashed x) q a r) (hf : q.Forwards)
    (hinj : s.injArmed 4 0 = false) (hord : s.portBit TWG_ORD_EN x.bark.ingPort = false) :
    s.sentOn k x a r (m.decideOn k q .noAccess) q.toAdmit := by
  have hreg (c : Nat) (h : 0x4800000 ≤ c) : m.reg c = s.reg c := (hm.2 c h).trans (by rw [hd]; rfl)
  have hport : q.bark.ingPort = x.bark.ingPort := hq.ingPort
  have hinj' : m.injArmed 4 0 = false := (State.injArmed_congr (hreg _ (by decide)) 4 0).trans hinj
  have hord' : m.portBit TWG_ORD_EN q.bark.ingPort = false := by
    rw [hport, ← hord]
    exact State.portBit_congr (hreg _ (by simp only [TWG_ORD_EN]; omega))
  have hpkts : m.pkts = s.pkts := by rw [hm.1, hd]
  obtain ⟨hhash, hts, hseq⟩ := Pkt.hasId_iff.1 hq.hasId
  obtain ⟨-, -, hbytes⟩ := hq.kept
  have hdl : d.deadline x.bark.arrTs (fget r AR_CLASS) = s.deadline x.bark.arrTs (fget r AR_CLASS) := by rw [hd]; rfl
  have hegr : fget q.dec.act AR_EGR = fget r AR_EGR := by rw [hq.act]
  rw [State.decideOn_forward hf hinj' hord']
  refine ⟨State.pkt?_putPkt_same _ _ _, rfl, congrArg Egress.port hegr, rfl, hq.action, hq.cls, hegr, rfl, hq.colour, hq.twig,
    hhash, hq.deadline.trans hdl, hts, hseq, hbytes, fun j hj => ?_, fun hn => ?_⟩
  · rw [State.pkt?_putPkt_other _ _ hj, State.pkt?_putPkt_other _ _ hj, State.pkt?_congr (State.sampled_pkts _ _),
      State.pkt?_putPkt_other _ _ hj, State.pkt?_congr hpkts]
  · have hn' : (m.putPkt k q).rd (OBS_PSMP_CFG_N q.bark.ingPort) = 0 := by
      rw [hport, ← hn]
      exact State.rd_of_reg (hreg _ (by simp only [OBS_PSMP_CFG_N, OBS_PSMP_CFG]; omega))
    rw [State.sampled_off (State.pkt?_putPkt_same _ _ _) hn']
    exact State.eq_of_merged hd hm rfl

/-! ### The obligation -/

/-- Settles O33: whatever is found a decided packet keeps its identity; a record that forwards it sends it to admission. -/
theorem decisionOfAPacket : Obligations.DecisionOfAPacket := by
  unfold Obligations.DecisionOfAPacket
  refine ⟨fun s b t x hal hx hst hfirst hturn => ?_,
    fun s b t x hal hx hst hfirst hturn hflow hpass hexc hslot hord hd hinj => ?_⟩
  · have hx' : (s.slotTaken b.val x).pkt? (pkey b.val t.toNat) = some x := by rw [State.slotTaken_frame]; exact hx
    have hhash : ((s.slotTaken b.val x).hashes x.ps.key x.ps.prof).1 = (s.hashes x.ps.key x.ps.prof).1 :=
      congrArg (fun q : Pkt => q.bark.hash) (s.hashed_slotTaken b.val x x)
    refine ⟨_, (exec_decision hal).trans (congrArg _ (State.decision_turn t.isLt hx hst hfirst hturn)), fun y hy => ?_⟩
    obtain ⟨hstage, hid⟩ := State.decided_decidePkt hx' y hy
    obtain ⟨hh, hts, hseq⟩ := Pkt.hasId_iff.1 hid
    exact ⟨hstage, hh.trans hhash, hts, hseq⟩
  · intro a r hop hcopy hrec htwig hpol httl
    have hframe := s.atMerge_frame b.val (pkey b.val t.toNat) x
    have hexec := (exec_decision hal).trans
      (congrArg Host.Outcome.next (State.decision_noFlow t.isLt hx hst hfirst hturn hflow))
    generalize s.atMerge b.val (pkey b.val t.toNat) x = d at hframe hexec
    have hsent : ∃ y, s.sentOn (pkey b.val t.toNat) x a r ((d.merge (pkey b.val t.toNat) (s.hashed x)).2.decideOn
        (pkey b.val t.toNat) (d.merge (pkey b.val t.toNat) (s.hashed x)).1 .noAccess) y := by
      refine State.merge_elim (P := fun m => ∃ y, s.sentOn (pkey b.val t.toNat) x a r
          (m.2.decideOn (pkey b.val t.toNat) m.1 .noAccess) y) (s := d) (p := s.hashed x) (a := a) (r := r)
        ?_ hpass ?_ ?_ hpol htwig hrec fun q m hm hq => ⟨q.toAdmit, ?_⟩
      · rw [hframe]; exact hd
      · rw [hframe, pkey_div b.val t.isLt]; rfl
      · rw [hframe]; rfl
      · obtain ⟨hps, hsl, -⟩ := hq.kept
        refine State.decideOn_sentOn hframe hm hq ⟨?_, ?_, ?_, ?_, hq.drop, hq.recirc, hq.rt, hq.unst, hsl.trans hslot⟩
          hinj hord
        · rw [hps]; exact hexc
        · rw [hq.act]; exact hop
        · rw [hq.act]; exact hcopy
        · rw [hq.act]; exact httl
    obtain ⟨y, hsent⟩ := hsent
    exact ⟨_, y, hexec, hsent⟩

end Sys2Proof.Machine
end

section
/-!
SUPPORT. One-bit fields and a port's supervision state, read after a change (chapter 02).
-/
namespace Sys2Proof.Machine

/-! ### One-bit fields -/

theorem State.on_of_reg {s t : State} {f : RFld} (h : t.reg f.addr = s.reg f.addr) : t.on f = s.on f :=
  congrArg (· != 0) (State.rd_of_reg h)

theorem State.on_of_rd_one {s : State} {f : RFld} (h : s.rd f = 1) : s.on f = true := by
  unfold State.on; rw [h]; rfl

theorem State.on_wr_one (s : State) {f : RFld} (h : f.lsb + f.w ≤ 32) (hw : f.w = 1) : (s.wr f 1).on f = true :=
  State.on_of_rd_one (by rw [State.rd_wr_same _ _ _ h, hw]; rfl)

theorem State.on_wr_zero (s : State) {f : RFld} (h : f.lsb + f.w ≤ 32) : (s.wr f 0).on f = false := by
  unfold State.on; rw [State.rd_wr_same _ _ _ h, Nat.zero_mod]; rfl

theorem State.on_wr_beside (s : State) {f g : RFld} (v : Nat) (hf : f.lsb + f.w ≤ 32)
    (h : f.lsb + f.w ≤ g.lsb ∨ g.lsb + g.w ≤ f.lsb) : (s.wr f v).on g = s.on g :=
  congrArg (· != 0) (State.rd_wr_beside s v hf h)

theorem State.on_raise_other (s : State) {f g : RFld} (h : f.addr ≠ g.addr) : (s.raise f).on g = s.on g :=
  State.on_of_reg (State.reg_raise_other s h)

/-! ### A port's supervision state -/

@[simp] theorem State.modPort_regs (s : State) (p : Nat) (f : PortSt → PortSt) : (s.modPort p f).regs = s.regs := (rfl)

@[simp] theorem State.port_modPort_same (s : State) (p : Nat) (f : PortSt → PortSt) :
    (s.modPort p f).port p = f (s.port p) := Tab.get_modify_same _ _ _ _

/-! ### Reads beside the registers that a step touches -/

theorem onlyRegs.on {l : List Nat} {s t : State} {f : RFld} (h : onlyRegs l s t) (hf : f.addr ∉ l) : t.on f = s.on f :=
  State.on_of_reg (h.2 _ hf)

/-- A step that touches setup registers alone keeps what another one has counted elsewhere. -/
theorem counted_onlyRegs {l : List Nat} {a n : Nat} {s t u : State} (h : counted a n s t) (hu : onlyRegs l t u)
    (hlo : a ∉ l) (hhi : a + 4 ∉ l) : counted a n s u := counted_congr h (hu.2 _ hlo) (hu.2 _ hhi)

/-- A count that starts after a step which leaves the counter alone is one from before it. -/
theorem counted_of_onlyRegs {l : List Nat} {a n : Nat} {s t u : State} (ht : onlyRegs l s t) (hlo : a ∉ l) (hhi : a + 4 ∉ l)
    (h : counted a n t u) : counted a n s u := by
  unfold counted at h ⊢; rw [h, State.cntAt_congr (ht.2 _ hlo) (ht.2 _ hhi)]

/-- What a step counts and keeps speaks of the register file alone that it starts from. -/
theorem counted_of_regs {a n : Nat} {s s' t : State} (h : s'.regs = s.regs) (hc : counted a n s' t) : counted a n s t := by
  unfold counted at hc ⊢; rw [hc, State.cntAt_congr (State.reg_congr h _) (State.reg_congr h _)]

theorem regsKept_of_regs {l : List Nat} {s s' t : State} (h : s'.regs = s.regs) (hk : regsKept l s' t) : regsKept l s t :=
  fun a ha => (hk a ha).trans (State.reg_congr h a)

theorem onlyRegs.mono {l m : List Nat} {s t : State} (h : onlyRegs l s t) (hlm : l ⊆ m) : onlyRegs m s t :=
  ⟨h.1, fun a ha => h.2 a fun hl => ha (hlm hl)⟩

/-- Without a message due only the register file differs. -/
theorem onlyRegs.regs_only {l : List Nat} {s t : State} (h : onlyRegs l s t) (hm : t.msi = s.msi) :
    t = { s with regs := t.regs } := by
  have ht := h.1
  rw [hm] at ht
  exact ht

end Sys2Proof.Machine
end

section
/-!
SUPPORT. Modes, auto-negotiation, training and LINK_UP (R45, R47, R48, R54), and O18.
-/
namespace Sys2Proof.Machine

/-! ### MODE writes (R45) -/

theorem exec_modeWrite {s : State} {g : Fin 32} (m : BitVec 3) (h : s.reaches (PRT_GRP_CFG g.val) = true) :
    exec (.modeWrite g m) s = .next (s.modeWrite g.val m.toNat) := onBar0_up (f := (·.modeWrite g.val m.toNat)) h

/-- Every port of the group is disabled and drained (R45). -/
def State.groupIdle (s : State) (g : Nat) : Prop :=
  ∀ k < 8, s.isPort (8 * g + k) = true →
    s.on (PRT_CFG_EN (8 * g + k)) = false ∧ s.on (PRT_STS_DRAINED (8 * g + k)) = true

theorem State.groupIdle_iff (s : State) (g : Nat) : s.groupIdle g ↔ ((List.range 8).map (8 * g + ·)).all
    (fun p => !s.isPort p || (!s.on (PRT_CFG_EN p) && s.on (PRT_STS_DRAINED p))) = true := by
  simp only [State.groupIdle, List.all_map, List.all_eq_true, List.mem_range, Function.comp_apply, Bool.or_eq_true,
    Bool.and_eq_true, Bool.not_eq_true']
  exact forall₂_congr fun k _ => by cases s.isPort (8 * g + k) <;> simp

theorem State.modeWrite_accepted {s : State} {g : Nat} (m : Nat) (h : s.groupIdle g) :
    s.modeWrite g m = (s.wr (PRT_GRP_CFG_MODE g) m).modPort (8 * g) ({ · with modePend := true }) :=
  if_pos ((s.groupIdle_iff g).1 h)

theorem State.modeWrite_refused {s : State} {g : Nat} (m : Nat) (h : ¬ s.groupIdle g) :
    s.modeWrite g m = s.wr (PRT_GRP_STS_MODE_REJ_STK g) 1 := if_neg fun hall => h ((s.groupIdle_iff g).2 hall)

/-! ### Auto-negotiation and training (R47, R48) -/

theorem exec_anDone {s : State} {p : Fin 256} (agreed : Bool) (h : s.alive (portQuad p.val) = true) :
    exec (.anDone p agreed) s = .next (s.anDone p.val agreed) := onIsl_up (f := (·.anDone p.val agreed)) h

theorem State.anDone_line {s : State} {p : Nat} (agreed : Bool) (hl : s.lineOn p = true)
    (ha : s.on (PRT_CFG_AN_EN p) = true) :
    s.anDone p agreed = if agreed then s.wr (PRT_STS_AN_DONE p) 1 else s.anFail p := by
  unfold State.anDone; rw [hl, ha]; rfl

theorem exec_anFail {s : State} {p : Fin 256} (h : s.alive (portQuad p.val) = true) (hl : s.lineOn p.val = true)
    (ha : s.on (PRT_CFG_AN_EN p.val) = true) (hd : s.on (PRT_STS_AN_DONE p.val) = false) :
    exec (.anFail p) s = .next (s.anFail p.val) := by
  refine (onIsl_up (f := fun s => if !s.lineOn p.val || !s.on (PRT_CFG_AN_EN p.val) || s.on (PRT_STS_AN_DONE p.val) then s
    else s.anFail p.val) h).trans ?_
  rw [hl, ha, hd]; rfl

/-- A failed negotiation shows, counts and interrupts. -/
theorem State.anFail_shows (s : State) (p : Nat) :
    (s.anFail p).on (PRT_STS_AN_DONE p) = false ∧ counted (AN_FAIL_CNT p) 1 s (s.anFail p) ∧
      (s.anFail p).rd (PRT_INT_AN_FAIL p) = 1 ∧
      onlyRegs [PRT_STS p, AN_FAIL_CNT p, AN_FAIL_CNT p + 4, PRT_INT p] s (s.anFail p) := by
  have hdone : onlyRegs [PRT_STS p] s (s.wr (PRT_STS_AN_DONE p) 0) := onlyRegs_wr _ _ (List.mem_singleton_self _)
  have hcnt : onlyRegs [AN_FAIL_CNT p, AN_FAIL_CNT p + 4] _ ((s.wr (PRT_STS_AN_DONE p) 0).cnt (AN_FAIL_CNT p)) :=
    onlyRegs_cnt _ 1 (by simp) (by simp)
  have hint : onlyRegs [PRT_INT p] _ (s.anFail p) := onlyRegs_raise _ (List.mem_singleton_self _)
  refine ⟨?_, ?_, State.rd_raise _ _ (Nat.le_of_ble_eq_true rfl) rfl, ?_⟩
  · refine (hint.on ?_).trans ((hcnt.on ?_).trans (State.on_wr_zero _ (Nat.le_of_ble_eq_true rfl))) <;>
      simp only [List.mem_cons, List.not_mem_nil, or_false, PRT_STS_AN_DONE, PRT_STS, PRT_INT, AN_FAIL_CNT] <;> omega
  · refine counted_onlyRegs (counted_of_onlyRegs hdone ?_ ?_ (counted_cnt _ _ 1)) hint ?_ ?_ <;>
      simp only [List.mem_singleton, PRT_STS, PRT_INT, AN_FAIL_CNT] <;> omega
  · exact ((hdone.mono (by simp)).trans (hcnt.mono (by simp))).trans (hint.mono (by simp))

theorem exec_ltDone {s : State} {p : Fin 256} (h : s.alive (portQuad p.val) = true) (hl : s.lineOn p.val = true)
    (he : s.on (PRT_CFG_LT_EN p.val) = true) (ha : s.anOk p.val = true) :
    exec (.ltDone p) s = .next (s.wr (PRT_STS_LT_DONE p.val) 1) := by
  refine (onIsl_up (f := (·.ltDone p.val)) h).trans ?_
  rw [State.ltDone, hl, he, ha]; rfl

theorem exec_ltFail {s : State} {p : Fin 256} (h : s.alive (portQuad p.val) = true) (hl : s.lineOn p.val = true)
    (he : s.on (PRT_CFG_LT_EN p.val) = true) :
    exec (.ltFail p) s = .next ((s.wr (PRT_STS_LT_DONE p.val) 0).raise (PRT_INT_LT_FAIL p.val)) := by
  refine (onIsl_up (f := (·.ltFail p.val)) h).trans ?_
  rw [State.ltFail, hl, he]; rfl

/-! ### LINK_UP (R54) -/

/-- No fault is detected any more. -/
def State.faultsClear (s : State) (p : Nat) : State := (s.wr (PRT_STS_LOCAL_FAULT p) 0).wr (PRT_STS_REMOTE_FAULT p) 0

/-- The other conditions of LINK_UP: lock, and what is enabled of negotiation and training completed. -/
def State.linkHolds (s : State) (p : Nat) : Prop :=
  s.on (PRT_STS_ALIGNED p) = true ∧ (s.on (PRT_CFG_AN_EN p) = true → s.on (PRT_STS_AN_DONE p) = true) ∧
    (s.on (PRT_CFG_LT_EN p) = true → s.on (PRT_STS_LT_DONE p) = true)

theorem onlyRegs_faultsClear (s : State) (p : Nat) : onlyRegs [PRT_STS p] s (s.faultsClear p) :=
  (onlyRegs_wr s (f := PRT_STS_LOCAL_FAULT p) 0 (List.mem_singleton_self _)).trans
    (onlyRegs_wr _ (f := PRT_STS_REMOTE_FAULT p) 0 (List.mem_singleton_self _))

/-- A field of PRT_STS beside the two faults stays. -/
theorem State.on_faultsClear (s : State) (p : Nat) {f : RFld} (h : f.lsb + f.w ≤ 2 ∨ 4 ≤ f.lsb) :
    (s.faultsClear p).on f = s.on f := by
  rw [State.faultsClear, State.on_wr_beside _ _ (Nat.le_of_ble_eq_true rfl) ?_,
    State.on_wr_beside _ _ (Nat.le_of_ble_eq_true rfl) ?_] <;>
    simp only [PRT_STS_LOCAL_FAULT, PRT_STS_REMOTE_FAULT] <;> omega

theorem State.faults_faultsClear (s : State) (p : Nat) : (s.faultsClear p).on (PRT_STS_LOCAL_FAULT p) = false ∧
    (s.faultsClear p).on (PRT_STS_REMOTE_FAULT p) = false := by
  refine ⟨?_, State.on_wr_zero _ (Nat.le_of_ble_eq_true rfl)⟩
  rw [State.faultsClear, State.on_wr_beside _ _ (Nat.le_of_ble_eq_true rfl) (.inr (Nat.le_of_ble_eq_true rfl)),
    State.on_wr_zero _ (Nat.le_of_ble_eq_true rfl)]

theorem State.linkCond_faultsClear (s : State) (p : Nat) : (s.faultsClear p).linkCond p = true ↔ s.linkHolds p := by
  obtain ⟨hlf, hrf⟩ := s.faults_faultsClear p
  have hcfg (f : RFld) (hf : f.addr = PRT_CFG p) : (s.faultsClear p).on f = s.on f :=
    State.on_of_reg ((onlyRegs_faultsClear s p).2 _ (by simp [hf, PRT_CFG, PRT_STS]))
  have hal : (s.faultsClear p).on (PRT_STS_ALIGNED p) = s.on (PRT_STS_ALIGNED p) :=
    s.on_faultsClear p (.inl (Nat.le_of_ble_eq_true rfl))
  have han : (s.faultsClear p).on (PRT_STS_AN_DONE p) = s.on (PRT_STS_AN_DONE p) :=
    s.on_faultsClear p (.inr (Nat.le_of_ble_eq_true rfl))
  have hlt : (s.faultsClear p).on (PRT_STS_LT_DONE p) = s.on (PRT_STS_LT_DONE p) :=
    s.on_faultsClear p (.inr (Nat.le_of_ble_eq_true rfl))
  unfold State.linkCond State.anOk State.linkHolds
  rw [hlf, hrf, hcfg (PRT_CFG_AN_EN p) rfl, hcfg (PRT_CFG_LT_EN p) rfl, hal, han, hlt]
  cases s.on (PRT_CFG_AN_EN p) <;> cases s.on (PRT_CFG_LT_EN p) <;> simp [and_assoc]

theorem exec_linkUp {s : State} {p : Fin 256} (h : s.alive (portQuad p.val) = true) :
    exec (.linkUp p) s = .next (s.linkUp p.val) := onIsl_up (f := (·.linkUp p.val)) h

theorem State.linkUp_line {s : State} {p : Nat} (h : s.lineOn p = true) :
    s.linkUp p = if s.on (PRT_STS_LINK_UP p) || !(s.faultsClear p).linkCond p then s.faultsClear p
      else ((s.faultsClear p).wr (PRT_STS_LINK_UP p) 1).raise (PRT_INT_LINK p) := by
  have hup : (s.faultsClear p).on (PRT_STS_LINK_UP p) = s.on (PRT_STS_LINK_UP p) :=
    s.on_faultsClear p (.inl (Nat.le_of_ble_eq_true rfl))
  unfold State.linkUp
  rw [h, ← hup]; rfl

/-- LINK_UP rises with its cause when every other condition holds. -/
theorem State.linkUp_rises {s : State} {p : Nat} (h : s.lineOn p = true) (hup : s.on (PRT_STS_LINK_UP p) = false)
    (hh : s.linkHolds p) :
    s.linkUp p = ((s.faultsClear p).wr (PRT_STS_LINK_UP p) 1).raise (PRT_INT_LINK p) := by
  rw [State.linkUp_line h, hup, (s.linkCond_faultsClear p).2 hh]; rfl

/-- Otherwise only the faults go. -/
theorem State.linkUp_stays {s : State} {p : Nat} (h : s.lineOn p = true)
    (hst : s.on (PRT_STS_LINK_UP p) = true ∨ ¬ s.linkHolds p) : s.linkUp p = s.faultsClear p := by
  rw [State.linkUp_line h]
  rcases hst with hup | hh
  · rw [hup]; rfl
  · rw [Bool.eq_false_iff.2 (mt (s.linkCond_faultsClear p).1 hh), Bool.not_false, Bool.or_true, if_pos rfl]

/-- LINK_UP: both faults clear; it is 1 when it was or when the conditions of R54 hold, and a rise sets its cause. -/
theorem State.linkUp_shows {s : State} {p : Nat} (h : s.lineOn p = true) :
    (s.linkUp p).on (PRT_STS_LOCAL_FAULT p) = false ∧ (s.linkUp p).on (PRT_STS_REMOTE_FAULT p) = false ∧
      ((s.linkUp p).on (PRT_STS_LINK_UP p) = true ↔ s.on (PRT_STS_LINK_UP p) = true ∨ s.linkHolds p) ∧
      (¬ s.on (PRT_STS_LINK_UP p) = true → s.linkHolds p → (s.linkUp p).rd (PRT_INT_LINK p) = 1) ∧
      (s.on (PRT_STS_LINK_UP p) = true ∨ ¬ s.linkHolds p → (s.linkUp p).reg (PRT_INT p) = s.reg (PRT_INT p)) ∧
      onlyRegs [PRT_STS p, PRT_INT p] s (s.linkUp p) := by
  obtain ⟨hlf, hrf⟩ := s.faults_faultsClear p
  have hclear := onlyRegs_faultsClear s p
  have hne : PRT_INT p ≠ PRT_STS p := by simp only [PRT_INT, PRT_STS]; omega
  have hup : (s.faultsClear p).on (PRT_STS_LINK_UP p) = s.on (PRT_STS_LINK_UP p) :=
    s.on_faultsClear p (.inl (Nat.le_of_ble_eq_true rfl))
  by_cases hrise : s.on (PRT_STS_LINK_UP p) = false ∧ s.linkHolds p
  · obtain ⟨hdown, hh⟩ := hrise
    rw [State.linkUp_rises h hdown hh]
    generalize s.faultsClear p = u at hlf hrf hclear
    refine ⟨?_, ?_, ?_, fun _ _ => State.rd_raise _ _ (Nat.le_of_ble_eq_true rfl) rfl, fun hst => ?_, ?_⟩
    · rw [State.on_raise_other _ hne, State.on_wr_beside _ _ (Nat.le_of_ble_eq_true rfl) (.inl (Nat.le_of_ble_eq_true rfl)), hlf]
    · rw [State.on_raise_other _ hne, State.on_wr_beside _ _ (Nat.le_of_ble_eq_true rfl) (.inl (Nat.le_of_ble_eq_true rfl)), hrf]
    · rw [State.on_raise_other _ hne, State.on_wr_one _ (Nat.le_of_ble_eq_true rfl) rfl]; simp [hh]
    · exact absurd hst (by simp [hdown, hh])
    · exact (hclear.mono (by simp)).trans ((onlyRegs_wr _ 1 (by exact List.mem_cons_self)).trans
        (onlyRegs_raise _ (by exact List.mem_cons_of_mem _ List.mem_cons_self)))
  · have hst : s.on (PRT_STS_LINK_UP p) = true ∨ ¬ s.linkHolds p := by
      simpa only [not_and_or, Bool.not_eq_false] using hrise
    rw [State.linkUp_stays h hst]
    refine ⟨hlf, hrf, ?_, fun hn hh => absurd hst (by simp [hn, hh]),
      fun _ => hclear.2 _ (by simp [hne]), hclear.mono (by simp)⟩
    rw [hup]
    exact ⟨.inl, fun hor => hor.elim id fun hh => hst.resolve_right (not_not_intro hh)⟩

/-! ### The obligation -/

/-- Settles O18, from what each command shows. -/
theorem portModesAndTraining : Obligations.PortModesAndTraining := by
  unfold Obligations.PortModesAndTraining
  refine ⟨fun s g m hr hidle => ?_, fun s g m hr ⟨k, hk, hport, hbusy⟩ => ?_, fun s p hal hl ha => ?_,
    fun s p hal hl ha => ?_, fun s p hal hl ha hd => ?_, fun s p hal hl he ha => ?_, fun s p hal hl he => ?_,
    fun s p hal hl => ?_⟩
  · rw [exec_modeWrite m hr, State.modeWrite_accepted _ hidle]
    refine ⟨_, rfl, ?_, by rw [State.port_modPort_same], rfl,
      (onlyRegs_wr s (f := PRT_GRP_CFG_MODE g.val) _ (List.mem_singleton_self _)).2⟩
    exact (s.rd_wr_same (PRT_GRP_CFG_MODE g.val) _ (Nat.le_of_ble_eq_true rfl)).trans (Nat.mod_eq_of_lt m.isLt)
  · rw [exec_modeWrite m hr, State.modeWrite_refused _ fun hidle => ?_]
    obtain ⟨hen, hdr⟩ := hidle k hk hport
    simp [hen, hdr] at hbusy
  · rw [exec_anDone true hal, State.anDone_line true hl ha]
    exact ⟨_, rfl, State.on_wr_one _ (Nat.le_of_ble_eq_true rfl) rfl, onlyRegs_wr _ _ (List.mem_singleton_self _)⟩
  · rw [exec_anDone false hal, State.anDone_line false hl ha]
    exact ⟨_, rfl, s.anFail_shows p.val⟩
  · exact ⟨_, exec_anFail hal hl ha hd, s.anFail_shows p.val⟩
  · exact ⟨_, exec_ltDone hal hl he ha, State.on_wr_one _ (Nat.le_of_ble_eq_true rfl) rfl,
      onlyRegs_wr _ _ (List.mem_singleton_self _)⟩
  · refine ⟨_, exec_ltFail hal hl he, ?_, State.rd_raise _ _ (Nat.le_of_ble_eq_true rfl) rfl,
      (onlyRegs_wr s (f := PRT_STS_LT_DONE p.val) 0 (by exact List.mem_cons_self)).trans
        (onlyRegs_raise _ (by exact List.mem_cons_of_mem _ List.mem_cons_self))⟩
    rw [State.on_raise_other _ (by simp only [PRT_INT_LT_FAIL, PRT_STS_LT_DONE, PRT_INT, PRT_STS]; omega),
      State.on_wr_zero _ (Nat.le_of_ble_eq_true rfl)]
  · exact ⟨_, exec_linkUp hal, State.linkUp_shows hl⟩

end Sys2Proof.Machine
end

section
/-!
SUPPORT. Transmit equalisation and the tag mark (R76, R31), and O21.
-/
namespace Sys2Proof.Machine

theorem exec_txeqWrite {s : State} {p : Fin 256} (v : Word) (h : s.reaches (PRT_LN_TXEQ p.val) = true) :
    exec (.txeqWrite p v) s = .next (s.txeqWrite p.val v.toNat) := onBar0_up (f := (·.txeqWrite p.val v.toNat)) h

theorem exec_tagHwmClr {s : State} {b : Fin 32} (v : Word) (h : s.reaches (BGH_TAG_CFG b.val) = true) :
    exec (.tagHwmClr b v) s = .next (s.tagHwmClr b.val v.toNat) := onBar0_up (f := (·.tagHwmClr b.val v.toNat)) h

/-- The mark is set to the tags in use, which the write itself leaves alone. -/
theorem State.tagHwmClr_eq (s : State) (b v : Nat) : s.tagHwmClr b v =
    (s.hostWrite (BGH_TAG_CFG b) v).wr (BGH_TAG_STS_HWM b) (s.rd (BGH_TAG_STS_IN_USE b)) := by
  have hkept : (s.hostWrite (BGH_TAG_CFG b) v).rd (BGH_TAG_STS_IN_USE b) = s.rd (BGH_TAG_STS_IN_USE b) :=
    State.rd_of_reg ((s.hostWrite_only _ v).2 _ (by simp [BGH_TAG_STS_IN_USE, BGH_TAG_STS, BGH_TAG_CFG]))
  unfold State.tagHwmClr
  rw [← hkept]

/-- Settles O21: a write of taps is stored or ignored by their sum, and HWM_CLR copies IN_USE. -/
theorem laneTapsAndTagMark : Obligations.LaneTapsAndTagMark := by
  unfold Obligations.LaneTapsAndTagMark
  refine ⟨fun s p v hr hsum => ?_, fun s p v hr hsum => ?_, fun s b v hr => ?_⟩
  · rw [exec_txeqWrite v hr, State.txeqWrite, if_pos hsum]
  · rw [exec_txeqWrite v hr, State.txeqWrite, if_neg (Nat.not_lt.2 hsum)]
  · rw [exec_tagHwmClr v hr, State.tagHwmClr_eq]
    refine ⟨_, rfl, ?_, (onlyRegs_setReg s _ List.mem_cons_self).trans
      (onlyRegs_wr _ (f := BGH_TAG_STS_HWM b.val) _ (List.mem_cons_of_mem _ (List.mem_singleton_self _)))⟩
    rw [State.rd_wr_same _ _ _ (Nat.le_of_ble_eq_true rfl)]
    exact Nat.mod_eq_of_lt (getBits_lt _ _ _)

end Sys2Proof.Machine
end

section
/-!
SUPPORT. The alignment-marker search and lock of a PCS lane (R49 to R54), O19 and O22.
-/
namespace Sys2Proof.Machine

/-! ### A PCS lane's record -/

@[simp] theorem State.pcsLane_setPcs_same (s : State) (p ln : Nat) (x : PcsLane) : (s.setPcs p ln x).pcsLane p ln = x := by
  unfold State.pcsLane State.setPcs; rw [State.port_modPort_same]; exact Tab.get_set_same _ _ _ _

@[simp] theorem State.setPcs_regs (s : State) (p ln : Nat) (x : PcsLane) : (s.setPcs p ln x).regs = s.regs := (rfl)

theorem State.pcsLane_of_ports {s t : State} (h : t.ports = s.ports) (p ln : Nat) : t.pcsLane p ln = s.pcsLane p ln := by
  unfold State.pcsLane State.port; rw [h]

/-- A change of the port's supervision that keeps its PCS lanes. -/
theorem State.pcsLane_modPort (s : State) (p ln : Nat) {f : PortSt → PortSt} (h : ∀ q, (f q).pcs = q.pcs) :
    (s.modPort p f).pcsLane p ln = s.pcsLane p ln := by
  unfold State.pcsLane; rw [State.port_modPort_same, h]

/-- Beside MSI-X messages that became due, only line supervision and setup registers may differ. -/
def onlyLine (s t : State) : Prop := t = { s with ports := t.ports, regs := t.regs, msi := t.msi }

theorem onlyLine.trans {s t u : State} (hst : onlyLine s t) (htu : onlyLine t u) : onlyLine s u := by
  unfold onlyLine at hst htu ⊢
  generalize u.ports = q at htu ⊢
  generalize u.regs = r at htu ⊢
  generalize u.msi = m at htu ⊢
  rw [htu, hst]

theorem onlyRegs.onlyLine {l : List Nat} {s t : State} (h : onlyRegs l s t) : onlyLine s t := by
  have ht := h.1
  have hp : t.ports = s.ports := (congrArg State.ports ht :)
  unfold Machine.onlyLine; rw [hp]; exact ht

/-! ### A signal shown on the lanes of a port -/

/-- SIG_DET and CDR_LOCK of a lane. -/
def State.laneSignal (s : State) (l : Nat) (v : Bool) : State := (s.wrB (PRT_LN_STS_SIG_DET l) v).wrB (PRT_LN_STS_CDR_LOCK l) v

theorem State.sigDetect_eq (s : State) (p : Nat) (v : Bool) :
    s.sigDetect p v = (s.portLanes p).foldl (·.laneSignal · v) s := rfl

theorem State.laneSignal_only (s : State) (l : Nat) (v : Bool) :
    onlyRegs [PRT_LN_STS l] s (s.laneSignal l v) ∧ s.laneSignal l v = { s with regs := (s.laneSignal l v).regs } :=
  ⟨(onlyRegs_wr s (f := PRT_LN_STS_SIG_DET l) _ (List.mem_singleton_self _)).trans
    (onlyRegs_wr _ (f := PRT_LN_STS_CDR_LOCK l) _ (List.mem_singleton_self _)), rfl⟩

/-- The lane's signal is shown. -/
def State.signalled (s : State) (l : Nat) : Prop :=
  s.on (PRT_LN_STS_SIG_DET l) = true ∧ s.on (PRT_LN_STS_CDR_LOCK l) = true

theorem State.signalled_of_reg {s t : State} {l : Nat} (h : t.reg (PRT_LN_STS l) = s.reg (PRT_LN_STS l)) :
    t.signalled l ↔ s.signalled l := by
  unfold State.signalled
  rw [State.on_of_reg (f := PRT_LN_STS_SIG_DET l) h, State.on_of_reg (f := PRT_LN_STS_CDR_LOCK l) h]

theorem State.signalled_laneSignal (s : State) (l m : Nat) : (s.laneSignal m true).signalled l ↔ l = m ∨ s.signalled l := by
  by_cases h : l = m
  · subst h
    refine iff_of_true ⟨?_, State.on_wr_one _ (Nat.le_of_ble_eq_true rfl) rfl⟩ (.inl rfl)
    exact (State.on_wr_beside _ _ (Nat.le_of_ble_eq_true rfl) (.inr (Nat.le_of_ble_eq_true rfl))).trans
      (State.on_wr_one _ (Nat.le_of_ble_eq_true rfl) rfl)
  · rw [State.signalled_of_reg ((s.laneSignal_only m true).1.2 _ (by simp only [List.mem_singleton, PRT_LN_STS]; omega))]
    exact ⟨.inr, fun hor => hor.resolve_left h⟩

theorem State.signalled_foldl (s : State) (l : Nat) (ls : List Nat) :
    (ls.foldl (·.laneSignal · true) s).signalled l ↔ l ∈ ls ∨ s.signalled l := by
  induction ls generalizing s with
  | nil => simp
  | cons m ls ih => rw [List.foldl_cons, ih, State.signalled_laneSignal, List.mem_cons, or_left_comm, or_assoc]

/-- A signal seen shows on every lane of the port, and nowhere else. -/
theorem State.sigDetect_shows (s : State) (p : Nat) :
    (∀ l ∈ s.portLanes p, (s.sigDetect p true).signalled l) ∧
      s.sigDetect p true = { s with regs := (s.sigDetect p true).regs } ∧
      ∀ a, (∀ l, a ≠ PRT_LN_STS l) → (s.sigDetect p true).reg a = s.reg a := by
  rw [State.sigDetect_eq]
  refine ⟨fun l hl => (State.signalled_foldl _ _ _).2 (.inl hl), ?_, fun a ha => ?_⟩
  · refine List.foldlRecOn (motive := fun t : State => t = { s with regs := t.regs }) _ _ rfl fun t ht l _ => ?_
    rw [(t.laneSignal_only l true).2]
    generalize (t.laneSignal l true).regs = r
    rw [ht]
  · refine List.foldlRecOn (motive := fun t : State => t.reg a = s.reg a) _ _ rfl fun t ht l _ => ?_
    exact ((t.laneSignal_only l true).1.2 a (by simpa using ha l)).trans ht

/-! ### Candidates (R49, R50) -/

theorem exec_amMatch {s : State} {p : Fin 256} (ln mk : Fin 32) (pos : Nat) (h : s.alive (portQuad p.val) = true) :
    exec (.amMatch p ln pos mk) s = .next (s.amMatch p.val ln.val pos mk.val) :=
  onIsl_up (f := (·.amMatch p.val ln.val pos mk.val)) h

/-- A marker at a new position opens a candidate where fewer than 4 are open. -/
theorem State.amMatch_new {s : State} {p ln : Nat} {pos : Nat} (mk : Nat) (hl : s.lineOn p = true)
    (hln : ln < modePcsLanes (s.portMode p)) (hlock : (s.pcsLane p ln).lock = none)
    (hnew : ∀ c ∈ (s.pcsLane p ln).cands, c.pos ≠ pos) : s.amMatch p ln pos mk =
      if 4 ≤ (s.pcsLane p ln).cands.length then (s.sigDetect p true).cnt (AM_CAND_DROP_CNT p)
      else (s.sigDetect p true).setPcs p ln { s.pcsLane p ln with cands := (s.pcsLane p ln).cands ++ [⟨pos, mk, 1⟩] } := by
  have hany : (s.pcsLane p ln).cands.any (·.pos == pos) = false := by simpa using hnew
  unfold State.amMatch
  dsimp only
  rw [if_neg (by simp only [hl, hlock, hany, decide_eq_false (Nat.not_le.2 hln)]; decide)]

/-- The port's lanes show their signal; the candidate is opened, or only counted as dropped. -/
theorem State.amMatch_shows {s : State} {p ln pos : Nat} (mk : Nat) (hl : s.lineOn p = true)
    (hln : ln < modePcsLanes (s.portMode p)) (hlock : (s.pcsLane p ln).lock = none)
    (hnew : ∀ c ∈ (s.pcsLane p ln).cands, c.pos ≠ pos) :
    (∀ l ∈ s.portLanes p, (s.amMatch p ln pos mk).signalled l) ∧
      ((s.pcsLane p ln).cands.length < 4 → (s.amMatch p ln pos mk).pcsLane p ln =
          { s.pcsLane p ln with cands := (s.pcsLane p ln).cands ++ [⟨pos, mk, 1⟩] } ∧
        s.amMatch p ln pos mk = { s with ports := (s.amMatch p ln pos mk).ports, regs := (s.amMatch p ln pos mk).regs }) ∧
      (4 ≤ (s.pcsLane p ln).cands.length → counted (AM_CAND_DROP_CNT p) 1 s (s.amMatch p ln pos mk) ∧
        s.amMatch p ln pos mk = { s with regs := (s.amMatch p ln pos mk).regs }) := by
  obtain ⟨hsig, honly, hregs⟩ := s.sigDetect_shows p
  rw [State.amMatch_new mk hl hln hlock hnew]
  generalize s.sigDetect p true = u at hsig honly hregs ⊢
  split
  · rename_i hfull
    have hne (l : Nat) : AM_CAND_DROP_CNT p ≠ PRT_LN_STS l ∧ AM_CAND_DROP_CNT p + 4 ≠ PRT_LN_STS l := by
      simp only [AM_CAND_DROP_CNT, PRT_LN_STS]; omega
    refine ⟨fun l hl => (State.signalled_of_reg (State.reg_cnt_other _ _ (hne l).1 (hne l).2)).2 (hsig l hl),
      fun h => absurd hfull (Nat.not_le.2 h), fun _ => ⟨(State.cntAt_cnt u _ 1).trans ?_, by rw [honly]; rfl⟩⟩
    rw [State.cntAt_congr (hregs _ fun l => (hne l).1) (hregs _ fun l => (hne l).2)]
  · rename_i hroom
    exact ⟨hsig, fun _ => ⟨State.pcsLane_setPcs_same _ _ _ _, by rw [honly]; rfl⟩, fun h => absurd h hroom⟩

theorem exec_amCandCheck {s : State} {p : Fin 256} (ln : Fin 32) (pos : Nat) (mk : Option (Fin 32))
    (h : s.alive (portQuad p.val) = true) :
    exec (.amCandCheck p ln pos mk) s = .next (s.amCandCheck p.val ln.val pos (mk.map (·.val))) :=
  onIsl_up (f := (·.amCandCheck p.val ln.val pos (mk.map Fin.val))) h

theorem State.amCandCheck_cand {s : State} {p ln pos : Nat} {c : AmCand} (mk : Option Nat) (hl : s.lineOn p = true)
    (hc : (s.pcsLane p ln).cands.find? (·.pos == pos) = some c) : s.amCandCheck p ln pos mk =
      if mk = some c.lane then
        if s.amN p ≤ c.count + 1 then (s.setPcs p ln { cands := [], lock := some (pos, c.lane), run := 0 }).alignCheck p
        else s.setPcs p ln { s.pcsLane p ln with
          cands := (s.pcsLane p ln).cands.map (fun d => if d.pos = pos then { d with count := d.count + 1 } else d) }
      else (s.setPcs p ln { s.pcsLane p ln with cands := (s.pcsLane p ln).cands.filter (·.pos != pos) }).cnt
        (AM_MIMIC_CNT p) := by
  unfold State.amCandCheck
  dsimp only
  rw [hc]
  dsimp only
  rw [hl]; rfl

/-- The candidate found at a position has one more count once all at that position have. -/
theorem find?_counted {cands : List AmCand} {pos : Nat} {c : AmCand} (h : cands.find? (·.pos == pos) = some c) :
    (cands.map fun d => if d.pos = pos then { d with count := d.count + 1 } else d).find? (·.pos == pos) =
      some { c with count := c.count + 1 } := by
  have hpos : c.pos = pos := by simpa using List.find?_some h
  have hsame : ((·.pos == pos) ∘ fun d : AmCand => if d.pos = pos then { d with count := d.count + 1 } else d) =
      (·.pos == pos) := by
    funext d; simp only [Function.comp_apply]; split <;> rfl
  rw [List.find?_map, hsame, h, Option.map_some, if_pos hpos]

/-- ALIGNED is brought up to date in PRT_STS alone. -/
theorem State.alignCheck_only (s : State) (p : Nat) :
    onlyRegs [PRT_STS p] s (s.alignCheck p) ∧ s.alignCheck p = { s with regs := (s.alignCheck p).regs } :=
  ⟨onlyRegs_wr _ _ (List.mem_singleton_self _), rfl⟩

@[simp] theorem State.pcsLane_alignCheck (s : State) (p q ln : Nat) : (s.alignCheck p).pcsLane q ln = s.pcsLane q ln := (rfl)

/-- The candidate's marker: the lane locks at N, and until then the candidate counts. -/
theorem State.amCandCheck_marker {s : State} {p ln pos : Nat} {c : AmCand} {mk : Option Nat} (hl : s.lineOn p = true)
    (hc : (s.pcsLane p ln).cands.find? (·.pos == pos) = some c) (hmk : mk = some c.lane) :
    (s.amN p ≤ c.count + 1 →
      (s.amCandCheck p ln pos mk).pcsLane p ln = { cands := [], lock := some (pos, c.lane), run := 0 } ∧
        s.amCandCheck p ln pos mk =
          { s with ports := (s.amCandCheck p ln pos mk).ports, regs := (s.amCandCheck p ln pos mk).regs } ∧
        regsKept [PRT_STS p] s (s.amCandCheck p ln pos mk)) ∧
      (c.count + 1 < s.amN p → ((s.amCandCheck p ln pos mk).pcsLane p ln).lock = (s.pcsLane p ln).lock ∧
        ((s.amCandCheck p ln pos mk).pcsLane p ln).cands.find? (·.pos == pos) = some { c with count := c.count + 1 } ∧
        s.amCandCheck p ln pos mk = { s with ports := (s.amCandCheck p ln pos mk).ports }) := by
  rw [State.amCandCheck_cand mk hl hc, if_pos hmk]
  refine ⟨fun hn => ?_, fun hn => ?_⟩
  · rw [if_pos hn]
    exact ⟨State.pcsLane_setPcs_same _ _ _ _, rfl, regsKept_of_regs (s.setPcs_regs _ _ _) (State.alignCheck_only _ _).1.2⟩
  · rw [if_neg (Nat.not_le.2 hn), State.pcsLane_setPcs_same]
    exact ⟨rfl, find?_counted hc, rfl⟩

/-- Any other marker, or none: the candidate closes and counts as a mimic. -/
theorem State.amCandCheck_mimic {s : State} {p ln pos : Nat} {c : AmCand} {mk : Option Nat} (hl : s.lineOn p = true)
    (hc : (s.pcsLane p ln).cands.find? (·.pos == pos) = some c) (hmk : mk ≠ some c.lane) :
    ((s.amCandCheck p ln pos mk).pcsLane p ln).cands = (s.pcsLane p ln).cands.filter (·.pos != pos) ∧
      counted (AM_MIMIC_CNT p) 1 s (s.amCandCheck p ln pos mk) ∧
      s.amCandCheck p ln pos mk =
        { s with ports := (s.amCandCheck p ln pos mk).ports, regs := (s.amCandCheck p ln pos mk).regs } ∧
      regsKept [AM_MIMIC_CNT p, AM_MIMIC_CNT p + 4] s (s.amCandCheck p ln pos mk) := by
  rw [State.amCandCheck_cand mk hl hc, if_neg hmk]
  have hregs := s.setPcs_regs p ln { s.pcsLane p ln with cands := (s.pcsLane p ln).cands.filter (·.pos != pos) }
  have hports := s.pcsLane_setPcs_same p ln
    { s.pcsLane p ln with cands := (s.pcsLane p ln).cands.filter (·.pos != pos) }
  generalize hu : s.setPcs p ln _ = u at hregs hports ⊢
  exact ⟨congrArg PcsLane.cands hports, counted_of_regs hregs (counted_cnt _ _ 1), by rw [← hu]; rfl,
    regsKept_of_regs hregs (onlyRegs_cnt _ 1 (by simp) (by simp)).2⟩

/-! ### A lane in lock (R51, R54) -/

theorem exec_amLockCheck {s : State} {p : Fin 256} (ln : Fin 32) (v : Bool) (h : s.alive (portQuad p.val) = true) :
    exec (.amLockCheck p ln v) s = .next (s.amLockCheck p.val ln.val v) := onIsl_up (f := (·.amLockCheck p.val ln.val v)) h

theorem State.amLockCheck_locked {s : State} {p ln : Nat} (v : Bool) (hp : s.isPort p = true)
    (hlock : (s.pcsLane p ln).lock ≠ none) : s.amLockCheck p ln v =
      if v && s.lineOn p then s.setPcs p ln { s.pcsLane p ln with run := 0 }
      else if (s.pcsLane p ln).run + 1 < s.amM p then
        s.setPcs p ln { s.pcsLane p ln with run := (s.pcsLane p ln).run + 1 }
      else s.amLockLose p ln := by
  have hsome : (s.pcsLane p ln).lock.isNone = false := Option.isNone_eq_false_iff.2 (Option.isSome_iff_ne_none.2 hlock)
  unfold State.amLockCheck
  dsimp only
  rw [hp, hsome]; rfl

theorem State.isPort_of_lineOn {s : State} {p : Nat} (h : s.lineOn p = true) : s.isPort p = true := by
  unfold State.lineOn at h; exact (Bool.and_eq_true_iff.1 h).1

/-- The current second's flag of an SES condition is its port's. -/
theorem State.secFlag_only (s : State) (p : Nat) : (s.secFlag p).pcsLane p = s.pcsLane p ∧
    ((s.secFlag p).port p).secLock = (s.port p).secLock ∧ (s.secFlag p).regs = s.regs ∧
    s.secFlag p = { s with ports := (s.secFlag p).ports } := by
  unfold State.secFlag
  split
  · refine ⟨funext fun ln => ?_, by rw [State.port_modPort_same], rfl, rfl⟩
    rw [State.pcsLane_modPort]
    exact fun _ => rfl
  · exact ⟨rfl, rfl, rfl, rfl⟩

/-- A loss of lock counted, shown, and kept for the class of its second. -/
def State.lossCounted (s : State) (p : Nat) : State :=
  ((s.cnt (AM_LOCK_LOSS_CNT p)).raise (PRT_INT_LOCK_LOSS p)).modPort p (fun q => { q with secLock := q.secLock + 1 })

theorem State.lossCounted_port (s : State) (p : Nat) : ((s.lossCounted p).port p).secLock = (s.port p).secLock + 1 ∧
    ∀ ln, (s.lossCounted p).pcsLane p ln = s.pcsLane p ln := by
  have hports : ((s.cnt (AM_LOCK_LOSS_CNT p)).raise (PRT_INT_LOCK_LOSS p)).ports = s.ports := State.raise_ports _ _
  unfold State.lossCounted
  refine ⟨?_, fun ln => ?_⟩
  · rw [State.port_modPort_same, State.port, hports]; rfl
  · rw [State.pcsLane_modPort, State.pcsLane_of_ports hports]
    exact fun _ => rfl

theorem State.lossCounted_regs (s : State) (p : Nat) :
    counted (AM_LOCK_LOSS_CNT p) 1 s (s.lossCounted p) ∧ (s.lossCounted p).rd (PRT_INT_LOCK_LOSS p) = 1 ∧
      onlyLine s (s.lossCounted p) ∧
      regsKept [AM_LOCK_LOSS_CNT p, AM_LOCK_LOSS_CNT p + 4, PRT_INT p] s (s.lossCounted p) := by
  have hcnt : onlyRegs [AM_LOCK_LOSS_CNT p, AM_LOCK_LOSS_CNT p + 4, PRT_INT p] s (s.cnt (AM_LOCK_LOSS_CNT p)) :=
    onlyRegs_cnt s 1 (by simp) (by simp)
  have hint : onlyRegs [PRT_INT p] (s.cnt (AM_LOCK_LOSS_CNT p))
      ((s.cnt (AM_LOCK_LOSS_CNT p)).raise (PRT_INT_LOCK_LOSS p)) := onlyRegs_raise _ (List.mem_singleton_self _)
  have hboth := hcnt.trans (hint.mono (by simp))
  have hcounted : counted (AM_LOCK_LOSS_CNT p) 1 s ((s.cnt (AM_LOCK_LOSS_CNT p)).raise (PRT_INT_LOCK_LOSS p)) := by
    refine counted_onlyRegs (counted_cnt _ _ 1) hint ?_ ?_ <;>
      simp only [List.mem_singleton, AM_LOCK_LOSS_CNT, PRT_INT] <;> omega
  exact ⟨hcounted, State.rd_raise _ _ (Nat.le_of_ble_eq_true rfl) rfl, hboth.onlyLine.trans rfl, hboth.2⟩

theorem State.amLockLose_eq (s : State) (p ln : Nat) :
    s.amLockLose p ln = (((s.setPcs p ln {}).lossCounted p).alignCheck p).secFlag p := rfl

/-- A lock lost: the lane searches again, and the loss is counted, shown and kept for its second's class. -/
theorem State.amLockLose_shows (s : State) (p ln : Nat) :
    (s.amLockLose p ln).pcsLane p ln = {} ∧ ((s.amLockLose p ln).port p).secLock = (s.port p).secLock + 1 ∧
      counted (AM_LOCK_LOSS_CNT p) 1 s (s.amLockLose p ln) ∧ (s.amLockLose p ln).rd (PRT_INT_LOCK_LOSS p) = 1 ∧
      onlyLine s (s.amLockLose p ln) ∧
      regsKept [AM_LOCK_LOSS_CNT p, AM_LOCK_LOSS_CNT p + 4, PRT_INT p, PRT_STS p] s (s.amLockLose p ln) := by
  obtain ⟨hsec, hpcs⟩ := (s.setPcs p ln {}).lossCounted_port p
  obtain ⟨hcnt, hint, hline, hkept⟩ := (s.setPcs p ln {}).lossCounted_regs p
  replace hpcs := (hpcs ln).trans (State.pcsLane_setPcs_same _ _ _ _)
  have hport : ((s.setPcs p ln {}).port p).secLock = (s.port p).secLock := by rw [State.setPcs, State.port_modPort_same]
  rw [hport] at hsec
  rw [State.amLockLose_eq]
  generalize (s.setPcs p ln {}).lossCounted p = u at hsec hpcs hcnt hint hline hkept ⊢
  obtain ⟨hpcsF, hsecF, hregsF, hF⟩ := (u.alignCheck p).secFlag_only p
  have halign : onlyRegs [PRT_STS p] u (u.alignCheck p) := (u.alignCheck_only p).1
  have hother {a : Nat} (ha : a ≠ PRT_STS p) : ((u.alignCheck p).secFlag p).reg a = u.reg a :=
    (State.reg_congr hregsF a).trans (halign.2 a (by simpa using ha))
  refine ⟨?_, hsecF.trans hsec, counted_congr (counted_of_regs (s.setPcs_regs p ln {}) hcnt) (hother ?_) (hother ?_), ?_, ?_,
    fun a ha => ?_⟩
  · rw [hpcsF, State.pcsLane_alignCheck, hpcs]
  · simp only [AM_LOCK_LOSS_CNT, PRT_STS]; omega
  · simp only [AM_LOCK_LOSS_CNT, PRT_STS]; omega
  · rw [State.rd_of_reg (hother (by simp only [PRT_INT_LOCK_LOSS, PRT_INT, PRT_STS]; omega)), hint]
  · have hflag : onlyLine (u.alignCheck p) ((u.alignCheck p).secFlag p) := by unfold onlyLine; rw [hF]
    exact (onlyLine.trans (t := s.setPcs p ln {}) rfl hline).trans (halign.onlyLine.trans hflag)
  · simp only [List.mem_cons, List.not_mem_nil, or_false, not_or] at ha
    obtain ⟨hlo, hhi, hi, hsts⟩ := ha
    exact (hother hsts).trans (hkept a (by simp [hlo, hhi, hi]))

/-! ### The obligations -/

/-- Settles O19. -/
theorem alignmentMarkers : Obligations.AlignmentMarkers := by
  unfold Obligations.AlignmentMarkers
  refine ⟨fun s p ln mk pos hal hl hln hlock hnew => ?_, fun s p ln mk pos c hal hl hc hmk => ?_,
    fun s p ln mk pos c hal hl hc hmk => ?_, fun s p ln v hal hp hlock hrun => ?_,
    fun s p ln v hal hp hlock hv hm => ?_⟩
  · exact ⟨_, exec_amMatch ln mk pos hal, State.amMatch_shows mk.val hl hln hlock hnew⟩
  · exact ⟨_, exec_amCandCheck ln pos _ hal, State.amCandCheck_marker hl hc (by rw [← hmk]; rfl)⟩
  · exact ⟨_, exec_amCandCheck ln pos _ hal, State.amCandCheck_mimic hl hc hmk⟩
  · rw [exec_amLockCheck ln v hal, State.amLockCheck_locked v hp hlock]
    cases hv : v && s.lineOn p.val
    · exact congrArg Host.Outcome.next (if_pos (hrun.resolve_left (by simp [hv])))
    · rfl
  · rw [exec_amLockCheck ln v hal, State.amLockCheck_locked v hp hlock, hv, if_neg Bool.false_ne_true,
      if_neg (Nat.not_lt.2 hm)]
    exact ⟨_, rfl, s.amLockLose_shows p.val ln.val⟩

/-- Settles O22: the same two checks, whatever N and M were when the candidate opened or the run began. -/
theorem markerBounds : Obligations.MarkerBounds := by
  unfold Obligations.MarkerBounds
  refine ⟨fun s p ln mk pos c hal hl hlock hc hmk => ?_, fun s p ln hal hl hlock => ?_⟩
  · obtain ⟨hat, hbelow⟩ := State.amCandCheck_marker hl hc (show some mk.val = some c.lane by rw [hmk])
    refine ⟨_, exec_amCandCheck ln pos _ hal, ?_⟩
    change _ ↔ s.amN p.val ≤ c.count + 1
    rcases Nat.lt_or_ge (c.count + 1) (s.amN p.val) with hn | hn
    · exact iff_of_false (by rw [Option.map_some, (hbelow hn).1, hlock]; simp) (Nat.not_le.2 hn)
    · exact iff_of_true (by rw [Option.map_some, (hat hn).1]; rfl) hn
  · rw [exec_amLockCheck ln false hal, State.amLockCheck_locked false (State.isPort_of_lineOn hl) hlock]
    refine ⟨_, rfl, ?_⟩
    change _ ↔ s.amM p.val ≤ (s.pcsLane p.val ln.val).run + 1
    rw [Bool.false_and, if_neg Bool.false_ne_true]
    split
    · rename_i hrun
      rw [State.pcsLane_setPcs_same]
      exact iff_of_false hlock (Nat.not_le.2 hrun)
    · rename_i hrun
      rw [(s.amLockLose_shows p.val ln.val).1]
      exact iff_of_true rfl (Nat.not_lt.1 hrun)

end Sys2Proof.Machine
end

section
/-!
SUPPORT. Codewords, seconds and PRBS checks (R55 to R60, R389).
-/
namespace Sys2Proof.Machine

/-! ### Codewords (R55) -/

theorem exec_fecCodeword {s : State} {p : Fin 256} (ucw : Bool) (l : List (Fin 4)) (h : s.alive (portQuad p.val) = true) :
    exec (.fecCodeword p ucw l) s = .next (s.fecCodeword p.val ucw ((l.take 15).map Fin.val)) :=
  onIsl_up (f := (·.fecCodeword p.val ucw ((l.take 15).map Fin.val))) h

/-- A codeword counted as uncorrectable, for its second's class too. -/
def State.ucwCounted (s : State) (p : Nat) : State :=
  ((s.cnt (FEC_CW_CNT p)).cnt (FEC_UCW_CNT p)).modPort p (fun q => { q with secUcw := q.secUcw + 1 })

theorem State.fecCodeword_counted {s : State} {p : Nat} (ucw : Bool) (l : List Nat) (hl : s.lineOn p = true)
    (he : s.on (PRT_CFG_EN p) = true) (ha : s.on (PRT_STS_ALIGNED p) = true) : s.fecCodeword p ucw l =
      if ucw then s.ucwCounted p
      else l.foldl (fun s k => s.cnt (PRT_LN_SYM_ERR_CNT (p + k)))
        (let c := ((s.cnt (FEC_CW_CNT p)).cnt (FEC_HIST_CNT p l.length)).cnt (FEC_CORR_SYM_CNT p) l.length
         if l.length = 0 then c else c.cnt (FEC_CORR_CW_CNT p)) := by
  unfold State.fecCodeword
  rw [hl, he, ha]; rfl

theorem State.ucwCounted_shows (s : State) (p : Nat) :
    counted (FEC_CW_CNT p) 1 s (s.ucwCounted p) ∧ counted (FEC_UCW_CNT p) 1 s (s.ucwCounted p) ∧
      ((s.ucwCounted p).port p).secUcw = (s.port p).secUcw + 1 ∧
      s.ucwCounted p = { s with ports := (s.ucwCounted p).ports, regs := (s.ucwCounted p).regs } ∧
      regsKept [FEC_CW_CNT p, FEC_CW_CNT p + 4, FEC_UCW_CNT p, FEC_UCW_CNT p + 4] s (s.ucwCounted p) := by
  have hcw : onlyRegs [FEC_CW_CNT p, FEC_CW_CNT p + 4] s (s.cnt (FEC_CW_CNT p)) := onlyRegs_cnt s 1 (by simp) (by simp)
  have hucw : onlyRegs [FEC_UCW_CNT p, FEC_UCW_CNT p + 4] (s.cnt (FEC_CW_CNT p))
      ((s.cnt (FEC_CW_CNT p)).cnt (FEC_UCW_CNT p)) := onlyRegs_cnt _ 1 (by simp) (by simp)
  have hfirst : counted (FEC_CW_CNT p) 1 s ((s.cnt (FEC_CW_CNT p)).cnt (FEC_UCW_CNT p)) := by
    refine counted_onlyRegs (counted_cnt s _ 1) hucw ?_ ?_ <;>
      simp only [List.mem_cons, List.not_mem_nil, or_false, FEC_CW_CNT, FEC_UCW_CNT] <;> omega
  have hsecond : counted (FEC_UCW_CNT p) 1 s ((s.cnt (FEC_CW_CNT p)).cnt (FEC_UCW_CNT p)) := by
    refine counted_of_onlyRegs hcw ?_ ?_ (counted_cnt _ _ 1) <;>
      simp only [List.mem_cons, List.not_mem_nil, or_false, FEC_CW_CNT, FEC_UCW_CNT] <;> omega
  have hboth : onlyRegs [FEC_CW_CNT p, FEC_CW_CNT p + 4, FEC_UCW_CNT p, FEC_UCW_CNT p + 4] s
      ((s.cnt (FEC_CW_CNT p)).cnt (FEC_UCW_CNT p)) := (hcw.mono (by simp)).trans (hucw.mono (by simp))
  have honly := hboth.regs_only (by rw [State.cnt_msi, State.cnt_msi])
  unfold State.ucwCounted
  generalize (s.cnt (FEC_CW_CNT p)).cnt (FEC_UCW_CNT p) = u at hfirst hsecond hboth honly ⊢
  refine ⟨hfirst, hsecond, ?_, ?_, hboth.2⟩
  · rw [State.port_modPort_same, honly]; rfl
  · rw [honly]; rfl

/-! ### Seconds (R56 to R60) -/

/-- The instant at which the current second of a port ends. -/
abbrev State.secDue (s : State) (p : Nat) : Nat := ((s.port p).secStart / 1000000000 + 1) * 1000000000

theorem exec_secondEnd {s : State} {p : Fin 256} (h : s.alive (portQuad p.val) = true) :
    exec (.secondEnd p) s = .next (s.secondEnd p.val) := onIsl_up (f := (·.secondEnd p.val)) h

/-- A second that no step of device time has cut short ends when it is due. -/
theorem State.secondEnd_due {s : State} {p : Nat} (hp : s.portOn p = true) (hstep : s.cntAt STEP_CNT = (s.port p).secStep)
    (hdue : s.secDue p ≤ s.now (portQuad p)) :
    s.secondEnd p = ((s.secClassify p).secSettle p).secBegin p (s.secDue p) := by
  have hne : (s.cntAt STEP_CNT != (s.port p).secStep) = false := by simp [hstep]
  unfold State.secondEnd
  dsimp only
  rw [hp, hne, State.waitIsl_due _ _ _ hdue]; rfl

/-- The current second, classified. -/
def State.thisSecond (s : State) (p : Nat) : Second := ⟨(s.port p).secStart, s.secClass p, s.on (PRT_STS_UAS p)⟩

/-- With fewer than ten seconds at hand the availability cannot change. -/
theorem State.secClassify_few {s : State} {p : Nat} (h : (s.port p).secs.length < 9) :
    s.secClassify p = s.modPort p ({ · with secs := (s.port p).secs ++ [s.thisSecond p] }) := by
  have hrun (bad : Bool) : runOfTen ((s.port p).secs ++ [s.thisSecond p]) bad = false := by
    unfold runOfTen
    rw [decide_eq_false (by simp only [List.length_append, List.length_singleton]; omega), Bool.false_and]
  exact if_neg (ne_true_of_eq_false (hrun _))

/-- Fewer than eleven seconds that await commitment all go on waiting. -/
theorem State.secSettle_few {s : State} {p : Nat} (h : (s.port p).secs.length ≤ 10) : s.secSettle p = s := by
  unfold State.secSettle
  split
  · rename_i x r hsecs
    rw [hsecs, List.length_cons] at h
    exact if_neg (by omega)
  · rfl

/-- A second ends while fewer than nine await commitment: it joins them, and the next begins. -/
theorem State.secondEnd_few {s : State} {p : Nat} (hp : s.portOn p = true) (hstep : s.cntAt STEP_CNT = (s.port p).secStep)
    (hdue : s.secDue p ≤ s.now (portQuad p)) (h : (s.port p).secs.length < 9) :
    s.secondEnd p = (s.modPort p ({ · with secs := (s.port p).secs ++ [s.thisSecond p] })).secBegin p (s.secDue p) := by
  rw [State.secondEnd_due hp hstep hdue, State.secClassify_few h, State.secSettle_few]
  rw [State.port_modPort_same, List.length_append, List.length_singleton]; omega

theorem State.port_secBegin (s : State) (p t : Nat) : (s.secBegin p t).port p =
    { s.port p with
      secStart := t, secStep := s.cntAt STEP_CNT, secSes := s.sesNow p, secUcw := 0, secErr := 0, secLock := 0 } :=
  s.port_modPort_same p _

/-! ### PRBS (R389) -/

theorem exec_prbsCheck {s : State} {p : Fin 256} (lock : Bool) (e : BitVec 48) (h : s.alive (portQuad p.val) = true) :
    exec (.prbsCheck p lock e) s = .next (s.prbsCheck p.val lock e.toNat) :=
  onIsl_up (f := (·.prbsCheck p.val lock e.toNat)) h

theorem State.prbsCheck_lane {s : State} {p : Nat} (lock : Bool) (e : Nat) (ht : s.laneTraffic p = false)
    (hu : s.laneUsed p = true) : s.prbsCheck p lock e =
      if lock then (s.wrB (PRT_LN_STS_PRBS_LOCK p) true).cnt (PRT_LN_PRBS_ERR_CNT p) e
      else s.wrB (PRT_LN_STS_PRBS_LOCK p) false := by
  unfold State.prbsCheck
  rw [ht, hu]
  cases lock <;> rfl

/-- A lane in lock shows it and counts its errors. -/
theorem State.prbsCheck_locked {s : State} {p : Nat} (e : Nat) (ht : s.laneTraffic p = false) (hu : s.laneUsed p = true) :
    (s.prbsCheck p true e).on (PRT_LN_STS_PRBS_LOCK p) = true ∧
      counted (PRT_LN_PRBS_ERR_CNT p) e s (s.prbsCheck p true e) ∧
      onlyRegs [PRT_LN_STS p, PRT_LN_PRBS_ERR_CNT p, PRT_LN_PRBS_ERR_CNT p + 4] s (s.prbsCheck p true e) := by
  have hlock : onlyRegs [PRT_LN_STS p] s (s.wrB (PRT_LN_STS_PRBS_LOCK p) true) := onlyRegs_wr _ _ (List.mem_singleton_self _)
  rw [State.prbsCheck_lane true e ht hu, if_pos rfl]
  have hon : (s.wrB (PRT_LN_STS_PRBS_LOCK p) true).on (PRT_LN_STS_PRBS_LOCK p) = true :=
    State.on_wr_one _ (Nat.le_of_ble_eq_true rfl) rfl
  generalize s.wrB (PRT_LN_STS_PRBS_LOCK p) true = u at hlock hon ⊢
  have hcnt : onlyRegs [PRT_LN_PRBS_ERR_CNT p, PRT_LN_PRBS_ERR_CNT p + 4] u (u.cnt (PRT_LN_PRBS_ERR_CNT p) e) :=
    onlyRegs_cnt _ e (by simp) (by simp)
  refine ⟨(hcnt.on ?_).trans hon, counted_of_onlyRegs hlock ?_ ?_ (counted_cnt _ _ e),
    (hlock.mono (by simp)).trans (hcnt.mono (by simp))⟩ <;>
    simp only [List.mem_cons, List.not_mem_nil, or_false, PRT_LN_STS_PRBS_LOCK, PRT_LN_STS, PRT_LN_PRBS_ERR_CNT] <;> omega

/-! ### Journal records beside what a step touches -/

theorem onlyRegs.jrn {l : List Nat} {s t : State} (h : onlyRegs l s t) : onlyRegsJrn l s t := by
  have ht := h.1
  have hj : t.jrn = s.jrn := (congrArg State.jrn ht :)
  refine ⟨?_, fun a ha => h.2 a fun hl => ha (List.mem_append_right _ hl)⟩
  rw [hj]; exact ht

theorem onlyRegsJrn.trans {l : List Nat} {s t u : State} (hst : onlyRegsJrn l s t) (htu : onlyRegsJrn l t u) :
    onlyRegsJrn l s u := by
  obtain ⟨ht, hrt⟩ := hst
  obtain ⟨hu, hru⟩ := htu
  refine ⟨?_, fun a ha => (hru a ha).trans (hrt a ha)⟩
  generalize u.regs = r at hu ⊢
  generalize u.msi = m at hu ⊢
  generalize u.jrn = j at hu ⊢
  rw [hu, ht]

theorem onlyRegsJrn_journal (l : List Nat) (s : State) (i ty u : Nat) (b : List Byte) :
    onlyRegsJrn l s (s.journal i ty u b) := by
  have honly := s.journalRec_only i ⟨s.now i, ty, u, false, 0, 0, b⟩
  refine ⟨?_, fun a ha => ?_⟩
  · rw [State.journal]
    generalize (s.journalRec i ⟨s.now i, ty, u, false, 0, 0, b⟩).regs = r at honly ⊢
    generalize (s.journalRec i ⟨s.now i, ty, u, false, 0, 0, b⟩).msi = m at honly ⊢
    generalize (s.journalRec i ⟨s.now i, ty, u, false, 0, 0, b⟩).jrn = j at honly ⊢
    exact honly
  · simp only [jrnRegs, List.cons_append, List.nil_append, List.mem_cons, not_or] at ha
    obtain ⟨hlo, hhi, hint, -⟩ := ha
    exact s.reg_journal _ _ _ _ (Ne.symm hlo) (Ne.symm hhi) (Ne.symm hint)

/-! ### The trace's time-out (R63) -/

theorem exec_traceTimeout {s : State} {p : Fin 256} (h : s.alive (portQuad p.val) = true) :
    exec (.traceTimeout p) s = .next (s.traceTimeout p.val) := onIsl_up (f := (·.traceTimeout p.val)) h

theorem State.traceTimeout_due {s : State} {p : Nat} (hp : s.isPort p = true) (ht : s.rd (PRT_TRC_CFG_TMO p) ≠ 0)
    (hst : s.rd (PRT_STS_TRACE p) ≠ 0)
    (hdue : (s.port p).lastRx + s.rd (PRT_TRC_CFG_TMO p) * 1000000000 ≤ s.now (portQuad p)) :
    s.traceTimeout p = s.traceMove p 3 := by
  unfold State.traceTimeout
  dsimp only
  rw [if_neg (by simp [hp, ht, hst]), State.waitIsl_due _ _ _ hdue]

/-- A new state of the trace shows, sets its cause, and goes to the journal. -/
theorem State.traceMove_shows {s : State} {p st : Nat} (h : s.rd (PRT_STS_TRACE p) ≠ st) (hst : st < 4) (hp : p < 256) :
    (s.traceMove p st).rd (PRT_STS_TRACE p) = st ∧ onlyRegsJrn [PRT_STS p, PRT_INT p] s (s.traceMove p st) := by
  have hset : s.traceSet p st = (s.wr (PRT_STS_TRACE p) st).raise (PRT_INT_TRACE_CHG p) := if_neg h
  have hmove : s.traceMove p st = (s.traceSet p st).journal (portQuad p) 0x0103 p
      (natLe 1 (s.rd (PRT_STS_TRACE p)) ++ natLe 1 st) := if_neg h
  have hrd : (s.traceSet p st).rd (PRT_STS_TRACE p) = st := by
    rw [hset, State.rd_of_reg (State.reg_raise_other _
        (by simp only [PRT_INT_TRACE_CHG, PRT_STS_TRACE, PRT_INT, PRT_STS]; omega)),
      State.rd_wr_same _ _ _ (Nat.le_of_ble_eq_true rfl)]
    exact Nat.mod_eq_of_lt hst
  have hregs : onlyRegs [PRT_STS p, PRT_INT p] s (s.traceSet p st) := by
    rw [hset]
    exact (onlyRegs_wr s (f := PRT_STS_TRACE p) st List.mem_cons_self).trans
      (onlyRegs_raise _ (f := PRT_INT_TRACE_CHG p) (List.mem_cons_of_mem _ List.mem_cons_self))
  rw [hmove]
  refine ⟨(State.rd_of_reg (State.reg_journal _ _ _ _ _ ?_ ?_ ?_)).trans hrd,
    hregs.jrn.trans (onlyRegsJrn_journal _ _ _ _ _ _)⟩ <;>
    simp only [PRT_STS_TRACE, PRT_STS, OBS_JRN_LOST_CNT, OBS_INT] <;> omega

theorem exec_traceExpWrite {s : State} {p : Fin 256} {i : Fin 17} (v : Word)
    (h : s.reaches (PRT_TRC_EXP_CHS p.val i.val) = true) : exec (.traceExpWrite p i v) s =
      .next (s.traceExpWrite p.val (PRT_TRC_EXP_CHS p.val i.val) v.toNat) :=
  onBar0_up (f := (·.traceExpWrite p.val (PRT_TRC_EXP_CHS p.val i.val) v.toNat)) h

end Sys2Proof.Machine
end

section
/-!
SUPPORT. What an island's copy of device time rests on, and a port's enabling (R60, R312).
-/
namespace Sys2Proof.Machine

/-! ### An island's time rests on the time island's state and registers (R325, R326) -/

/-- The registers of the global, clock and time blocks. -/
abbrev belowPorts (a : Nat) : Prop := a < 0x1000000

theorem State.localAcc_congr {s t : State} (ht : t.time = s.time) (hr : ∀ a, belowPorts a → t.reg a = s.reg a) {i : Nat}
    (hi : i < 256) : t.localAcc i = s.localAcc i := by
  have hstop {j : Nat} (hj : j < 256) : t.islStopped j = s.islStopped j := by
    unfold State.islStopped
    rw [State.rd_of_reg (f := CLK_ISL_FAIL_ISL (j / 32)) (hr _ (by simp only [CLK_ISL_FAIL_ISL, CLK_ISL_FAIL]; omega))]
  have hfreq : t.freqOff = s.freqOff := by unfold State.freqOff; rw [hr _ (by decide)]
  have hslew : t.slewStep = s.slewStep := by
    unfold State.slewStep
    rw [State.rd_of_reg (f := TIM_SLEW_CFG_MAX) (hr _ (by decide)), hfreq, ht]
  have hrate : t.sentRate = s.sentRate := by unfold State.sentRate; rw [hfreq, hslew, ht]
  have hfine : t.accFine = s.accFine := by unfold State.accFine; rw [hrate, ht, hstop (by decide)]
  have hagree : t.agrees i = s.agrees i := by unfold State.agrees; rw [ht, hstop hi]
  have hraw : t.rawCopy i = s.rawCopy i := by unfold State.rawCopy; rw [ht]
  have hold : t.copyOld i = s.copyOld i := by unfold State.copyOld; rw [hagree, hraw, hfine, ht]
  have hcopy : t.copyNow i = s.copyNow i := by unfold State.copyNow; rw [hold, ht]
  unfold State.localAcc
  rw [hcopy, ht]

theorem State.now_congr {s t : State} (ht : t.time = s.time) (hr : ∀ a, belowPorts a → t.reg a = s.reg a) {i : Nat}
    (hi : i < 256) : t.now i = s.now i := by
  unfold State.now; rw [State.localAcc_congr ht hr hi]

theorem portQuad_lt {p : Nat} (h : p < 256) : portQuad p < 256 := by unfold portQuad islQuad; omega

/-! ### Gate terms (R312) -/

/-- The registers that show the gate terms of a port's queues. -/
def gateRegs (p : Nat) : List Nat := (List.range 16).map (fun q => (TMG_Q_GATE_OPEN p q).addr)

theorem not_mem_gateRegs {p a : Nat} (h : a < 0x7000000) : a ∉ gateRegs p := by
  simp only [gateRegs, List.mem_map, TMG_Q_GATE_OPEN, TMG_Q_GATE, not_exists]; omega

/-- Gate terms recomputed change queues and the registers that show them. -/
theorem State.gateCalc_only (s : State) (p : Nat) :
    s.gateCalc p = { s with regs := (s.gateCalc p).regs, qs := (s.gateCalc p).qs } ∧ regsKept (gateRegs p) s (s.gateCalc p) := by
  unfold State.gateCalc
  dsimp only
  refine List.foldlRecOn (motive := fun t : State => t = { s with regs := t.regs, qs := t.qs } ∧ regsKept (gateRegs p) s t)
    _ _ ⟨rfl, fun _ _ => rfl⟩ fun t ht q hq => ?_
  obtain ⟨honly, hkept⟩ := ht
  refine ⟨?_, fun a ha => ?_⟩
  · rw [honly]; rfl
  · rw [State.reg_wr_other _ _ fun e => ha (List.mem_map.2 ⟨q, hq, e⟩)]
    exact hkept a ha

/-! ### A port enabled (R45, R60) -/

theorem exec_portEnable {s : State} {p : Fin 256} (v : Word) (h : s.reaches (PRT_CFG p.val) = true) :
    exec (.portEnable p v) s = .next (s.portEnable p.val v.toNat) := onBar0_up (f := (·.portEnable p.val v.toNat)) h

/-- A row with one index holds an address at its stride. -/
theorem RegRow.holds_one (base c st : Nat) (fs : List RegField) (a : Nat) :
    RegRow.holds ⟨base, [(c, st)], fs⟩ a = true ↔ base ≤ a ∧ (a - base) / st < c ∧ (a - base) % st = 0 := by
  simp [RegRow.holds, offIn]

/-- PRT_CFG stands third in its block: its own row is the first that holds it. -/
theorem fieldsAt_prtCfg {p : Nat} (hp : p < 256) : fieldsAt (PRT_CFG p) = [⟨0, 1, .rw, 0⟩, ⟨1, 1, .rw, 0⟩, ⟨2, 1, .rw, 0⟩,
    ⟨3, 1, .rw, 1⟩, ⟨4, 1, .rw, 0⟩, ⟨5, 1, .rw, 1⟩, ⟨8, 14, .rw, 0x2400⟩, ⟨22, 10, .rw, 0⟩] := by
  have hrows : rowsAt (PRT_CFG p) = rowsPrt := by
    unfold rowsAt PRT_CFG
    rw [if_neg (by omega), if_neg (by omega), if_neg (by omega), if_pos (by omega)]
  have hfind : rowsPrt0.find? (·.holds (PRT_CFG p)) = rowsPrt0[2]? := by
    unfold rowsPrt0
    rw [List.find?_cons_of_neg, List.find?_cons_of_neg, List.find?_cons_of_pos]
    · rfl
    all_goals
      rw [RegRow.holds_one]
      unfold PRT_CFG
      omega
  unfold fieldsAt
  rw [hrows, rowsPrt, List.append_assoc, List.find?_append, hfind]
  rfl

theorem State.rd_hostWrite_maxFrame (s : State) {p : Nat} (v : Nat) (hp : p < 256) :
    (s.hostWrite (PRT_CFG p) v).rd (PRT_CFG_MAX_FRAME p) = getBits v 8 14 := by
  have hfields : fieldsAt (PRT_CFG_MAX_FRAME p).addr = _ := fieldsAt_prtCfg hp
  refine s.rd_hostWrite_rw (PRT_CFG_MAX_FRAME p) v (f := ⟨8, 14, .rw, 0x2400⟩) ?_ ?_ rfl rfl rfl (Nat.le_of_ble_eq_true rfl)
  · rw [hfields]
    change List.Pairwise (fun f g : RegField => f.lsb + f.w ≤ g.lsb ∨ g.lsb + g.w ≤ f.lsb) _
    decide
  · rw [hfields]; simp

/-- A write of PRT_CFG with EN = 1, and the gate terms that follow MAX_FRAME. -/
def State.cfgEnabled (s : State) (p v : Nat) : State :=
  ((s.hostWrite (PRT_CFG p) v).wr (PRT_CFG_EN p) 1).gateIfMax p (s.maxFrame p)

theorem State.portEnable_eq (s : State) (p v : Nat) : s.portEnable p v =
    if s.on (PRT_CFG_EN p) || !(s.cfgEnabled p v).isPort p then s.cfgEnabled p v else (s.cfgEnabled p v).portStart p := rfl

theorem State.gateIfMax_only (s : State) (p old : Nat) :
    s.gateIfMax p old = { s with regs := (s.gateIfMax p old).regs, qs := (s.gateIfMax p old).qs } ∧
      regsKept (gateRegs p) s (s.gateIfMax p old) := by
  unfold State.gateIfMax
  split
  · exact ⟨rfl, fun _ _ => rfl⟩
  · exact s.gateCalc_only p

/-- The write itself. -/
theorem State.cfgWritten_shows (s : State) (v : Nat) {p : Nat} (hp : p < 256) :
    ((s.hostWrite (PRT_CFG p) v).wr (PRT_CFG_EN p) 1).on (PRT_CFG_EN p) = true ∧
      ((s.hostWrite (PRT_CFG p) v).wr (PRT_CFG_EN p) 1).rd (PRT_CFG_MAX_FRAME p) = getBits v 8 14 ∧
      onlyRegs [PRT_CFG p] s ((s.hostWrite (PRT_CFG p) v).wr (PRT_CFG_EN p) 1) := by
  refine ⟨State.on_wr_one _ (Nat.le_of_ble_eq_true rfl) rfl, ?_, (onlyRegs_setReg s _ (List.mem_singleton_self _)).trans
    (onlyRegs_wr _ (f := PRT_CFG_EN p) 1 (List.mem_singleton_self _))⟩
  rw [State.rd_wr_beside _ _ (Nat.le_of_ble_eq_true rfl) (.inl (Nat.le_of_ble_eq_true rfl)), s.rd_hostWrite_maxFrame v hp]

/-- EN and MAX_FRAME show what was written; beside PRT_CFG only queues and gate terms change. -/
theorem State.cfgEnabled_shows (s : State) (v : Nat) {p : Nat} (hp : p < 256) :
    (s.cfgEnabled p v).on (PRT_CFG_EN p) = true ∧ (s.cfgEnabled p v).rd (PRT_CFG_MAX_FRAME p) = getBits v 8 14 ∧
      s.cfgEnabled p v = { s with regs := (s.cfgEnabled p v).regs, qs := (s.cfgEnabled p v).qs } ∧
      regsKept (PRT_CFG p :: gateRegs p) s (s.cfgEnabled p v) := by
  obtain ⟨hen, hmax, hregs⟩ := s.cfgWritten_shows v hp
  have hw := hregs.regs_only (by rw [State.wr_msi, State.hostWrite_msi])
  unfold State.cfgEnabled
  generalize (s.hostWrite (PRT_CFG p) v).wr (PRT_CFG_EN p) 1 = w at hen hmax hregs hw ⊢
  obtain ⟨honly, hkept⟩ := w.gateIfMax_only p (s.maxFrame p)
  have hcfg := hkept (PRT_CFG p) (not_mem_gateRegs (by simp only [PRT_CFG]; omega))
  generalize w.gateIfMax p (s.maxFrame p) = u at honly hkept hcfg ⊢
  refine ⟨(State.on_of_reg (f := PRT_CFG_EN p) hcfg).trans hen, (State.rd_of_reg (f := PRT_CFG_MAX_FRAME p) hcfg).trans hmax,
    ?_, fun a ha => ?_⟩
  · generalize u.regs = r at honly ⊢
    generalize u.qs = q at honly ⊢
    rw [honly, hw]
  · rw [List.mem_cons, not_or] at ha
    obtain ⟨hne, hgate⟩ := ha
    exact (hkept a hgate).trans (hregs.2 a (by simpa using hne))

theorem State.isPort_congr {s t : State} {p : Nat} (h : t.reg (PRT_GRP_STS (p / 8)) = s.reg (PRT_GRP_STS (p / 8))) :
    t.isPort p = s.isPort p := by
  unfold State.isPort State.portMode
  rw [State.rd_of_reg (f := PRT_GRP_STS_MODE_ACT (p / 8)) h]

/-- A port that starts is not drained, available, and in the first second of its classification. -/
theorem State.portStart_shows (s : State) {p : Nat} (hp : p < 256) :
    (s.portStart p).on (PRT_STS_DRAINED p) = false ∧ (s.portStart p).on (PRT_STS_UAS p) = false ∧
      ((s.portStart p).port p).secs = [] ∧ ((s.portStart p).port p).secStart = s.now (portQuad p) ∧
      s.portStart p = { s with ports := (s.portStart p).ports, regs := (s.portStart p).regs } ∧
      regsKept [PRT_STS p] s (s.portStart p) := by
  have hdr : ((s.wr (PRT_STS_DRAINED p) 0).wr (PRT_STS_UAS p) 0).on (PRT_STS_DRAINED p) = false :=
    (State.on_wr_beside _ _ (Nat.le_of_ble_eq_true rfl) (.inl (Nat.le_of_ble_eq_true rfl))).trans
      (State.on_wr_zero _ (Nat.le_of_ble_eq_true rfl))
  have huas : ((s.wr (PRT_STS_DRAINED p) 0).wr (PRT_STS_UAS p) 0).on (PRT_STS_UAS p) = false :=
    State.on_wr_zero _ (Nat.le_of_ble_eq_true rfl)
  have hregs : onlyRegs [PRT_STS p] s ((s.wr (PRT_STS_DRAINED p) 0).wr (PRT_STS_UAS p) 0) :=
    (onlyRegs_wr s (f := PRT_STS_DRAINED p) 0 (List.mem_singleton_self _)).trans
      (onlyRegs_wr _ (f := PRT_STS_UAS p) 0 (List.mem_singleton_self _))
  have honly := hregs.regs_only (by rw [State.wr_msi, State.wr_msi])
  have hnow : ((s.wr (PRT_STS_DRAINED p) 0).wr (PRT_STS_UAS p) 0).now (portQuad p) = s.now (portQuad p) := by
    refine State.now_congr (by rw [State.wr_time, State.wr_time]) (fun a ha => hregs.2 a ?_) (portQuad_lt hp)
    simp only [List.mem_singleton, PRT_STS]; omega
  unfold State.portStart
  dsimp only
  generalize (s.wr (PRT_STS_DRAINED p) 0).wr (PRT_STS_UAS p) 0 = u at hdr huas hregs honly hnow ⊢
  refine ⟨hdr, huas, ?_, ?_, ?_, hregs.2⟩
  · rw [State.port_secBegin, State.port_modPort_same]
  · rw [State.port_secBegin, hnow]
  · rw [honly]; rfl

/-- A write with EN = 1: it stores, and a port that was disabled starts. -/
theorem State.portEnable_shows (s : State) (p : Fin 256) (v : Nat) :
    (s.portEnable p.val v).on (PRT_CFG_EN p.val) = true ∧
      (s.portEnable p.val v).rd (PRT_CFG_MAX_FRAME p.val) =
        getBits v (PRT_CFG_MAX_FRAME p.val).lsb (PRT_CFG_MAX_FRAME p.val).w ∧
      (s.isPort p.val = true → s.on (PRT_CFG_EN p.val) = false →
        (s.portEnable p.val v).on (PRT_STS_DRAINED p.val) = false ∧ (s.portEnable p.val v).on (PRT_STS_UAS p.val) = false ∧
        ((s.portEnable p.val v).port p.val).secs = [] ∧
        ((s.portEnable p.val v).port p.val).secStart = s.now (portQuad p.val)) ∧
      (s.isPort p.val = false ∨ s.on (PRT_CFG_EN p.val) = true → (s.portEnable p.val v).ports = s.ports ∧
        (s.portEnable p.val v).reg (PRT_STS p.val) = s.reg (PRT_STS p.val)) ∧
      s.portEnable p.val v =
        { s with ports := (s.portEnable p.val v).ports, regs := (s.portEnable p.val v).regs, qs := (s.portEnable p.val v).qs } ∧
      regsKept ([PRT_CFG p.val, PRT_STS p.val] ++ gateRegs p.val) s (s.portEnable p.val v) := by
  obtain ⟨hen, hmax, honly, hkept⟩ := s.cfgEnabled_shows v p.isLt
  have hlow {a : Nat} (ha : a < 0x7000000) (hne : a ≠ PRT_CFG p.val) : (s.cfgEnabled p.val v).reg a = s.reg a :=
    hkept a (by rw [List.mem_cons, not_or]; exact ⟨hne, not_mem_gateRegs ha⟩)
  have hport : (s.cfgEnabled p.val v).isPort p.val = s.isPort p.val :=
    State.isPort_congr (hlow (by simp only [PRT_GRP_STS]; omega) (by simp only [PRT_GRP_STS, PRT_CFG]; omega))
  have hnow : (s.cfgEnabled p.val v).now (portQuad p.val) = s.now (portQuad p.val) := by
    refine State.now_congr (by rw [honly]) (fun a ha => hlow (by unfold belowPorts at ha; omega) ?_) (portQuad_lt p.isLt)
    simp only [belowPorts, PRT_CFG] at ha ⊢; omega
  have hsts : (s.cfgEnabled p.val v).reg (PRT_STS p.val) = s.reg (PRT_STS p.val) :=
    hlow (by simp only [PRT_STS]; omega) (by simp only [PRT_STS, PRT_CFG]; omega)
  rw [State.portEnable_eq, hport]
  generalize s.cfgEnabled p.val v = u at hen hmax honly hkept hnow hsts ⊢
  cases hstart : s.on (PRT_CFG_EN p.val) || !s.isPort p.val
  · rw [if_neg Bool.false_ne_true]
    obtain ⟨hdr, huas, hsecs, hbegin, hst, hstKept⟩ := u.portStart_shows p.isLt
    have hcfg := hstKept (PRT_CFG p.val) (by simp only [List.mem_singleton, PRT_CFG, PRT_STS]; omega)
    refine ⟨(State.on_of_reg (f := PRT_CFG_EN p.val) hcfg).trans hen,
      (State.rd_of_reg (f := PRT_CFG_MAX_FRAME p.val) hcfg).trans hmax,
      fun _ _ => ⟨hdr, huas, hsecs, hbegin.trans hnow⟩, fun hno => ?_, ?_, fun a ha => ?_⟩
    · rcases hno with hno | hno <;> rw [hno] at hstart <;> simp at hstart
    · generalize (u.portStart p.val).ports = q at hst ⊢
      generalize (u.portStart p.val).regs = r at hst ⊢
      rw [hst, honly]
    · simp only [List.cons_append, List.nil_append, List.mem_cons, not_or] at ha
      obtain ⟨hc, hs, hg⟩ := ha
      exact (hstKept a (by simpa using hs)).trans (hkept a (by simp [hc, hg]))
  · rw [if_pos rfl]
    refine ⟨hen, hmax, fun hp hoff => ?_, fun _ => ⟨by rw [honly], hsts⟩, ?_, fun a ha => hkept a ?_⟩
    · rw [hp, hoff] at hstart; exact absurd hstart Bool.false_ne_true
    · have hports : u.ports = s.ports := by rw [honly]
      rw [hports]; exact honly
    · simp only [List.cons_append, List.nil_append, List.mem_cons, not_or] at ha ⊢
      exact ⟨ha.1, ha.2.2⟩

/-! ### The obligation -/

/-- Settles O20, from what each command counts and shows. -/
theorem secondsFecAndTrace : Obligations.SecondsFecAndTrace := by
  unfold Obligations.SecondsFecAndTrace
  refine ⟨fun s p l hal hl he ha => ?_, fun s p l hal hl he ha hlen => ?_, fun s p hal hp hstep hdue => ?_,
    fun s p hal hp hstep hdue hfew => ?_, fun s p v hr => ⟨_, exec_portEnable v hr, s.portEnable_shows p v.toNat⟩,
    fun s p hal hp ht hst hdue => ?_, fun s p i v hr => exec_traceExpWrite v hr,
    fun s p e hal ht hu => ⟨⟨_, exec_prbsCheck true e hal, State.prbsCheck_locked _ ht hu⟩, ?_⟩⟩
  · rw [exec_fecCodeword true l hal, State.fecCodeword_counted true _ hl he ha]
    exact ⟨_, rfl, s.ucwCounted_shows p.val⟩
  · rw [exec_fecCodeword false l hal, State.fecCodeword_counted false _ hl he ha, List.take_of_length_le hlen,
      if_neg Bool.false_ne_true, List.foldl_map, List.length_map]
    simp only [List.length_eq_zero_iff]
  · rw [exec_secondEnd hal, State.secondEnd_due hp hstep hdue]
  · rw [exec_secondEnd hal, State.secondEnd_few hp hstep hdue hfew]
    refine ⟨_, rfl, rfl, ?_⟩
    rw [State.port_secBegin, State.port_modPort_same]
    exact ⟨rfl, rfl, rfl, rfl, rfl, rfl⟩
  · have hne : s.rd (PRT_STS_TRACE p.val) ≠ 0 ∧ s.rd (PRT_STS_TRACE p.val) ≠ 3 := by omega
    rw [exec_traceTimeout hal, State.traceTimeout_due hp ht hne.1 hdue]
    exact ⟨_, rfl, State.traceMove_shows hne.2 (by decide) p.isLt⟩
  · rw [exec_prbsCheck false e hal, State.prbsCheck_lane false _ ht hu]
    rfl

end Sys2Proof.Machine
end

section
/-!
SUPPORT. Ingress-store buffers taken (R271 to R274): what a grant and a failure change.
-/
namespace Sys2Proof.Machine

/-! ### The pool found (R272, R273) -/

/-- Neither the packets nor the turns bear on the pool found. -/
theorem State.allocPool_beside (s : State) (P : Tab Pkt) (T : Tab Nat) (b o n q : Nat) :
    ({ s with pkts := P, turns := T } : State).allocPool b o n q = s.allocPool b o n q := by
  induction n generalizing q with
  | zero => rfl
  | succ n ih => unfold State.allocPool; rw [ih]; rfl

theorem State.allocPool_lt {s : State} {b o n q r : Nat} (h : s.allocPool b o n q = some r) : r < 4 := by
  induction n generalizing q with
  | zero => cases h
  | succ n ih =>
    unfold State.allocPool at h
    split at h
    · cases h
    · split at h
      · cases h; omega
      · split at h
        · exact ih h
        · cases h

theorem ownerOf_le (x : Pkt) : ownerOf x ≤ 8 := by unfold ownerOf; split <;> omega

/-! ### A buffer taken (R272) -/

/-- The use of a pool shown after an allocation. -/
def State.useShown (s : State) (b o q : Nat) : State :=
  let free := s.rd (CRN_POOL_STS_FREE b q) - 1
  let used := s.rd (CRN_POOL_CFG_COUNT b q) - free
  let s := (s.wr (CRN_USE_USE b o q) (s.rd (CRN_USE_USE b o q) + 1)).wr (CRN_POOL_STS_FREE b q) free
  (s.wr (CRN_POOL_STS_HWM b q) (max used (s.rd (CRN_POOL_STS_HWM b q)))).wr (CRN_STORE_STS_IDLE b) 0

/-- An allocation counted, and one beyond the pool that fits as a spill. -/
def State.allocCounted (s : State) (b : Nat) (spill : Bool) : State :=
  if spill then (s.cnt (CRN_ALLOC_CNT b)).cnt (CRN_SPILL_CNT b) else s.cnt (CRN_ALLOC_CNT b)

/-- The lowest free buffer of pool `q` taken for owner `o`. -/
def State.bufTaken (s : State) (b o tag q : Nat) (spill : Bool) : State :=
  ((({ s with bufs := s.bufs.insert (pkey b (s.lowestBuf b q)) ⟨tag, q, o, s.time.mono⟩ } : State).useShown b o q).allocCounted
    b spill).pmuEv 0x09 b

theorem State.bufAlloc_some {s : State} {b o est q : Nat} (tag : Nat) (h : s.allocPool b o 4 (firstFit est) = some q) :
    s.bufAlloc b o est tag = some (s.lowestBuf b q, q, s.bufTaken b o tag q (q != firstFit est)) := by
  unfold State.bufAlloc State.bufTaken State.allocCounted
  rw [h]
  by_cases hq : q = firstFit est
  · rw [show (q != firstFit est) = false by simp [hq]]
    dsimp only
    rw [if_pos hq]; rfl
  · rw [show (q != firstFit est) = true by simp [hq]]
    dsimp only
    rw [if_neg hq]; rfl

theorem State.bufAlloc_none {s : State} {b o est : Nat} (tag : Nat) (h : s.allocPool b o 4 (firstFit est) = none) :
    s.bufAlloc b o est tag = none := by
  unfold State.bufAlloc; rw [h]

theorem onlyRegs_useShown (s : State) (b o q : Nat) :
    onlyRegs [CRN_USE b o q, CRN_POOL_STS b q, CRN_STORE_STS b] s (s.useShown b o q) := by
  unfold State.useShown
  extract_lets free used t
  have ht : onlyRegs [CRN_USE b o q, CRN_POOL_STS b q, CRN_STORE_STS b] s t :=
    (onlyRegs_wr s (f := CRN_USE_USE b o q) _ List.mem_cons_self).trans
      (onlyRegs_wr _ (f := CRN_POOL_STS_FREE b q) _ (List.mem_cons_of_mem _ List.mem_cons_self))
  exact (ht.trans (onlyRegs_wr _ (f := CRN_POOL_STS_HWM b q) _ (List.mem_cons_of_mem _ List.mem_cons_self))).trans
    (onlyRegs_wr _ (f := CRN_STORE_STS_IDLE b) _ (by simp [CRN_STORE_STS_IDLE]))

theorem State.allocCounted_shows (s : State) (b : Nat) (spill : Bool) :
    counted (CRN_ALLOC_CNT b) 1 s (s.allocCounted b spill) ∧
      onlyRegs [CRN_ALLOC_CNT b, CRN_ALLOC_CNT b + 4, CRN_SPILL_CNT b, CRN_SPILL_CNT b + 4] s (s.allocCounted b spill) := by
  have halloc : onlyRegs [CRN_ALLOC_CNT b, CRN_ALLOC_CNT b + 4, CRN_SPILL_CNT b, CRN_SPILL_CNT b + 4] s
      (s.cnt (CRN_ALLOC_CNT b)) := onlyRegs_cnt s 1 (by simp) (by simp)
  unfold State.allocCounted
  cases spill
  · exact ⟨counted_cnt s _ 1, halloc⟩
  · have hspill : onlyRegs [CRN_SPILL_CNT b, CRN_SPILL_CNT b + 4] (s.cnt (CRN_ALLOC_CNT b))
        ((s.cnt (CRN_ALLOC_CNT b)).cnt (CRN_SPILL_CNT b)) := onlyRegs_cnt _ 1 (by simp) (by simp)
    refine ⟨counted_onlyRegs (counted_cnt s _ 1) hspill ?_ ?_, halloc.trans (hspill.mono (by simp))⟩ <;>
      simp only [List.mem_cons, List.not_mem_nil, or_false, CRN_ALLOC_CNT, CRN_SPILL_CNT] <;> omega

/-- The registers that an allocation of owner `o` from pool `q` touches. -/
def allocRegs (b o q : Nat) : List Nat := [CRN_USE b o q, CRN_POOL_STS b q, CRN_STORE_STS b, CRN_ALLOC_CNT b,
  CRN_ALLOC_CNT b + 4, CRN_SPILL_CNT b, CRN_SPILL_CNT b + 4]

/-- A buffer taken: it is listed, its use shown and the allocation counted. -/
theorem State.bufTaken_shows (s : State) {b o q : Nat} (tag : Nat) (spill : Bool) (ho : o ≤ 8) (hq : q < 4) :
    (∃ R O, s.bufTaken b o tag q spill = { s with
      bufs := s.bufs.insert (pkey b (s.lowestBuf b q)) ⟨tag, q, o, s.time.mono⟩, regs := R, obs := O }) ∧
      counted (CRN_ALLOC_CNT b) 1 s (s.bufTaken b o tag q spill) ∧
      regsKept (allocRegs b o q) s (s.bufTaken b o tag q spill) := by
  unfold State.bufTaken
  generalize hw : ({ s with bufs := s.bufs.insert (pkey b (s.lowestBuf b q)) ⟨tag, q, o, s.time.mono⟩ } : State) = w
  have hregs : w.regs = s.regs := by rw [← hw]
  have huse := onlyRegs_useShown w b o q
  obtain ⟨hcnt, honly⟩ := (w.useShown b o q).allocCounted_shows b spill
  have hboth : onlyRegs (allocRegs b o q) w ((w.useShown b o q).allocCounted b spill) :=
    (huse.mono (by simp [allocRegs])).trans (honly.mono (by simp [allocRegs]))
  have hmsi : ((w.useShown b o q).allocCounted b spill).msi = w.msi := by
    unfold State.allocCounted State.useShown; cases spill <;> simp
  replace hcnt := counted_of_regs hregs (counted_of_onlyRegs huse
    (by simp only [List.mem_cons, List.not_mem_nil, or_false, CRN_ALLOC_CNT, CRN_USE, CRN_POOL_STS, CRN_STORE_STS]; omega)
    (by simp only [List.mem_cons, List.not_mem_nil, or_false, CRN_ALLOC_CNT, CRN_USE, CRN_POOL_STS, CRN_STORE_STS]; omega) hcnt)
  have hkept := regsKept_of_regs hregs hboth.2
  have hframe := hboth.regs_only hmsi
  generalize (w.useShown b o q).allocCounted b spill = t at hcnt hkept hframe ⊢
  refine ⟨⟨t.regs, (t.pmuEv 0x09 b).obs, ?_⟩, counted_congr hcnt rfl rfl, hkept⟩
  rw [hframe, ← hw]; rfl

/-! ### A frame asks (R271 to R274) -/

theorem exec_bufferAlloc {s : State} {p : Fin 256} (h : s.alive (islBough (portBough p.val)) = true) :
    exec (.bufferAlloc p) s = .next (s.bufferAlloc p.val) := onIsl_up (f := (·.bufferAlloc p.val)) h

theorem State.pkt?_of_wantsBuf {s : State} {p k : Nat} {x : Pkt} (h : s.wantsBuf p = some (k, x)) : s.pkt? k = some x := by
  unfold State.wantsBuf at h
  split at h
  · cases h
  · split at h
    · cases h
    · rename_i hx
      split at h
      · cases h
      · cases h; exact hx

/-- In its turn the frame asks; only the arbiter's turn moves with it. -/
theorem State.bufferAlloc_turn {s : State} {p k : Nat} {x : Pkt} (hw : s.wantsBuf p = some (k, x))
    (hmay : s.allocMay (portBough p) (s.injHeld (portBough p)) (p % 8) = true) :
    ∃ T, s.bufferAlloc p = ({ s with turns := T } : State).bufAsk k x := by
  unfold State.bufferAlloc
  rw [hw]
  dsimp only
  rw [hmay]
  cases s.allocWaits (portBough p) (s.injHeld (portBough p)) (p % 8)
  · exact ⟨s.turns, rfl⟩
  · exact ⟨_, rfl⟩

/-- A frame that no pool can serve does not wait in the arbiter: it asks at once. -/
theorem State.bufferAlloc_unserved {s : State} {p k : Nat} {x : Pkt} (hw : s.wantsBuf p = some (k, x))
    (hnone : s.allocPool (portBough p) (p % 8) 4 (firstFit (s.wantBytes x)) = none) : s.bufferAlloc p = s.bufAsk k x := by
  have hp : 8 * portBough p + p % 8 = p := by unfold portBough; omega
  have hwait : s.allocWaits (portBough p) (s.injHeld (portBough p)) (p % 8) = false := by
    unfold State.allocWaits
    rw [if_neg (by omega), hp, hw]
    dsimp only
    rw [hnone]; rfl
  unfold State.bufferAlloc
  rw [hw]
  dsimp only
  rw [State.allocMay, hwait]; rfl

/-- The estimate that a frame keeps from its first request (R271). -/
def State.estimated (s : State) (x : Pkt) : Pkt := { x with est := some (s.wantBytes x) }

theorem State.bufAsk_granted {s t : State} {k u q : Nat} {x : Pkt} (hx : s.pkt? k = some x) (hpro : x.promote = false)
    (h : (s.putPkt k (s.estimated x)).bufAlloc (k / 8192) (ownerOf x) (s.wantBytes x) (k % 8192) = some (u, q, t)) :
    s.bufAsk k x = t.bufGrant k u q x := by
  unfold State.bufAsk
  dsimp only
  rw [hpro, if_neg Bool.false_ne_true, State.modPkt_some _ hx]
  unfold State.estimated at h
  rw [h]

theorem State.bufAsk_failed {s : State} {k : Nat} {x : Pkt} (hx : s.pkt? k = some x) (hpro : x.promote = false)
    (h : (s.putPkt k (s.estimated x)).bufAlloc (k / 8192) (ownerOf x) (s.wantBytes x) (k % 8192) = none) :
    s.bufAsk k x = if x.nobuf then s.putPkt k (s.estimated x)
      else ((s.putPkt k (s.estimated x)).cnt (CRN_NOBUF_CNT (k / 8192))).putPkt k { s.estimated x with nobuf := true } := by
  unfold State.bufAsk
  dsimp only
  rw [hpro, if_neg Bool.false_ne_true, State.modPkt_some _ hx]
  unfold State.estimated at h ⊢
  rw [h, Bool.or_false]
  dsimp only
  rw [State.modPkt_some (p := { x with est := some (s.wantBytes x) }) _
    ((State.pkt?_congr (State.cnt_pkts _ _ _) k).trans (State.pkt?_putPkt_same _ _ _))]

/-- A packet that holds the buffer at unit `u` of pool `q`. -/
def withBuf (x : Pkt) (u q : Nat) : Pkt :=
  { x with hasBuf := true, promote := false, bark := { x.bark with buf := u, pool := q } }

theorem withBuf_of_first {x : Pkt} (hpro : x.promote = false) (u q : Nat) :
    withBuf x u q = { x with hasBuf := true, bark := { x.bark with buf := u, pool := q } } := by
  unfold withBuf; rw [← hpro]

/-- A first grant is written into the packet and its bark; an ended frame leaves the FIFO. -/
theorem State.bufGrant_first {t : State} {k : Nat} {x y : Pkt} (u q : Nat) (hy : t.pkt? k = some y) (hpro : x.promote = false) :
    t.bufGrant k u q x = if x.ended then (t.putPkt k (withBuf y u q)).fifoOut x.bark.ingPort (k % 8192)
      else t.putPkt k (withBuf y u q) := by
  unfold State.bufGrant
  rw [hpro, if_neg Bool.false_ne_true]
  dsimp only
  rw [State.modPkt_some _ hy]
  rfl

/-- A first request that a pool serves: the buffer is taken, written into the packet, and an ended frame leaves the FIFO. -/
theorem State.bufAsk_takes {s : State} {k q : Nat} {x : Pkt} (hx : s.pkt? k = some x) (hpro : x.promote = false)
    (hpool : s.allocPool (k / 8192) (ownerOf x) 4 (firstFit (s.wantBytes x)) = some q) :
    (∃ R O, s.bufAsk k x = { s with
      pkts := (s.pkts.insert k (s.estimated x)).insert k (withBuf (s.estimated x) (s.lowestBuf (k / 8192) q) q)
      bufs := s.bufs.insert (pkey (k / 8192) (s.lowestBuf (k / 8192) q)) ⟨k % 8192, q, ownerOf x, s.time.mono⟩
      rx := if x.ended then (s.fifoOut x.bark.ingPort (k % 8192)).rx else s.rx
      regs := R, obs := O }) ∧
      counted (CRN_ALLOC_CNT (k / 8192)) 1 s (s.bufAsk k x) ∧
      regsKept (allocRegs (k / 8192) (ownerOf x) q) s (s.bufAsk k x) := by
  have hpool' : (s.putPkt k (s.estimated x)).allocPool (k / 8192) (ownerOf x) 4 (firstFit (s.wantBytes x)) = some q :=
    (State.allocPool_beside s (s.pkts.insert k (s.estimated x)) s.turns _ _ _ _).trans hpool
  have hask := State.bufAsk_granted hx hpro (State.bufAlloc_some (k % 8192) hpool')
  obtain ⟨⟨R, O, htaken⟩, hcnt, hkept⟩ := (s.putPkt k (s.estimated x)).bufTaken_shows (b := k / 8192) (k % 8192)
    (q != firstFit (s.wantBytes x)) (ownerOf_le x) (State.allocPool_lt hpool)
  have hlow : (s.putPkt k (s.estimated x)).lowestBuf (k / 8192) q = s.lowestBuf (k / 8192) q := rfl
  rw [hlow] at hask htaken
  generalize (s.putPkt k (s.estimated x)).bufTaken (k / 8192) (ownerOf x) (k % 8192) q (q != firstFit (s.wantBytes x)) = t
    at hask htaken hcnt hkept
  have hy : t.pkt? k = some (s.estimated x) := by rw [htaken]; exact State.pkt?_putPkt_same s k _
  rw [State.bufGrant_first _ _ hy hpro] at hask
  rw [hask]
  have hregs : (s.putPkt k (s.estimated x)).regs = s.regs := rfl
  replace hcnt := counted_of_regs hregs hcnt
  replace hkept := regsKept_of_regs hregs hkept
  cases x.ended
  · exact ⟨⟨R, O, by rw [htaken]; rfl⟩, counted_congr hcnt rfl rfl, hkept⟩
  · exact ⟨⟨R, O, by rw [htaken]; rfl⟩, counted_congr hcnt rfl rfl, hkept⟩

theorem State.allocPool_turns (s : State) (T : Tab Nat) (b o n q : Nat) :
    ({ s with turns := T } : State).allocPool b o n q = s.allocPool b o n q := State.allocPool_beside s s.pkts T b o n q

theorem State.wantBytes_turns (s : State) (T : Tab Nat) (x : Pkt) :
    ({ s with turns := T } : State).wantBytes x = s.wantBytes x := by
  have hmax (p : Nat) : ({ s with turns := T } : State).maxFrame p = s.maxFrame p := rfl
  unfold State.wantBytes State.estimate
  rw [hmax]

theorem State.estimated_turns (s : State) (T : Tab Nat) (x : Pkt) :
    ({ s with turns := T } : State).estimated x = s.estimated x := by
  unfold State.estimated; rw [s.wantBytes_turns]

theorem State.fifoOut_turns (s : State) (T : Tab Nat) (p t : Nat) :
    (({ s with turns := T } : State).fifoOut p t).rx = (s.fifoOut p t).rx := rfl

theorem State.lowestBuf_turns (s : State) (T : Tab Nat) (b q : Nat) :
    ({ s with turns := T } : State).lowestBuf b q = s.lowestBuf b q := rfl

/-- The frame at the FIFO's head, in its turn and with a pool that serves it. -/
theorem State.bufferAlloc_takes {s : State} {p k q : Nat} {x : Pkt} (hw : s.wantsBuf p = some (k, x))
    (hpro : x.promote = false) (hmay : s.allocMay (portBough p) (s.injHeld (portBough p)) (p % 8) = true)
    (hpool : s.allocPool (k / 8192) (ownerOf x) 4 (firstFit (s.wantBytes x)) = some q) :
    (∃ T R O, s.bufferAlloc p = { s with
      pkts := (s.pkts.insert k (s.estimated x)).insert k (withBuf (s.estimated x) (s.lowestBuf (k / 8192) q) q)
      bufs := s.bufs.insert (pkey (k / 8192) (s.lowestBuf (k / 8192) q)) ⟨k % 8192, q, ownerOf x, s.time.mono⟩
      rx := if x.ended then (s.fifoOut x.bark.ingPort (k % 8192)).rx else s.rx
      turns := T, regs := R, obs := O }) ∧
      counted (CRN_ALLOC_CNT (k / 8192)) 1 s (s.bufferAlloc p) ∧
      regsKept (allocRegs (k / 8192) (ownerOf x) q) s (s.bufferAlloc p) := by
  obtain ⟨T, hT⟩ := State.bufferAlloc_turn hw hmay
  have hx : ({ s with turns := T } : State).pkt? k = some x := State.pkt?_of_wantsBuf hw
  have hpool' : ({ s with turns := T } : State).allocPool (k / 8192) (ownerOf x) 4
      (firstFit (({ s with turns := T } : State).wantBytes x)) = some q := by
    rw [s.wantBytes_turns, s.allocPool_turns, hpool]
  obtain ⟨⟨R, O, hask⟩, hcnt, hkept⟩ := State.bufAsk_takes hx hpro hpool'
  rw [hT]
  rw [s.estimated_turns, s.lowestBuf_turns, s.fifoOut_turns] at hask
  generalize ({ s with turns := T } : State).bufAsk k x = t at hask hcnt hkept ⊢
  exact ⟨⟨T, R, O, hask⟩, counted_of_regs rfl hcnt, regsKept_of_regs rfl hkept⟩

/-- A packet replaced is the only one that a lookup sees changed. -/
theorem State.pkt?_of_replaced {s u : State} {k : Nat} {y z : Pkt} (h : u.pkts = (s.pkts.insert k y).insert k z) :
    u.pkt? k = some z ∧ ∀ j, j ≠ k → u.pkt? j = s.pkt? j := by
  have hu : ∀ j, u.pkt? j = ((s.putPkt k y).putPkt k z).pkt? j := State.pkt?_congr h
  refine ⟨(hu k).trans (State.pkt?_putPkt_same _ _ _), fun j hj => ?_⟩
  rw [hu, State.pkt?_putPkt_other _ _ hj, State.pkt?_putPkt_other _ _ hj]

/-! ### A first request that no pool serves (R274) -/

theorem counted_zero (s : State) (a : Nat) : counted a 0 s s := by
  have hlo : s.reg a < 2 ^ 32 := (regAt s.regs a).isLt
  unfold counted State.cntAt
  omega

theorem State.bufAsk_waits {s : State} {k : Nat} {x : Pkt} (hx : s.pkt? k = some x) (hpro : x.promote = false)
    (hpool : s.allocPool (k / 8192) (ownerOf x) 4 (firstFit (s.wantBytes x)) = none) :
    (s.bufAsk k x).pkt? k = some { s.estimated x with nobuf := true } ∧
      (∀ j, j ≠ k → (s.bufAsk k x).pkt? j = s.pkt? j) ∧
      counted (CRN_NOBUF_CNT (k / 8192)) (if x.nobuf then 0 else 1) s (s.bufAsk k x) ∧
      (∃ P R, s.bufAsk k x = { s with pkts := P, regs := R }) ∧
      regsKept [CRN_NOBUF_CNT (k / 8192), CRN_NOBUF_CNT (k / 8192) + 4] s (s.bufAsk k x) := by
  have hpool' : (s.putPkt k (s.estimated x)).allocPool (k / 8192) (ownerOf x) 4 (firstFit (s.wantBytes x)) = none :=
    (State.allocPool_beside s (s.pkts.insert k (s.estimated x)) s.turns _ _ _ _).trans hpool
  rw [State.bufAsk_failed hx hpro (State.bufAlloc_none _ hpool')]
  by_cases hnobuf : x.nobuf = true
  · have hsame : s.estimated x = { s.estimated x with nobuf := true } := by
      unfold State.estimated; rw [← hnobuf]
    rw [if_pos hnobuf, if_pos hnobuf, ← hsame]
    exact ⟨State.pkt?_putPkt_same _ _ _, fun j hj => State.pkt?_putPkt_other _ _ hj, counted_of_regs rfl (counted_zero _ _),
      ⟨s.pkts.insert k (s.estimated x), s.regs, rfl⟩, fun _ _ => rfl⟩
  · rw [if_neg hnobuf, if_neg hnobuf]
    have honly : onlyRegs [CRN_NOBUF_CNT (k / 8192), CRN_NOBUF_CNT (k / 8192) + 4] (s.putPkt k (s.estimated x))
        ((s.putPkt k (s.estimated x)).cnt (CRN_NOBUF_CNT (k / 8192))) := onlyRegs_cnt _ 1 (by simp) (by simp)
    have hcnt := counted_of_regs (s := s) rfl (counted_cnt (s.putPkt k (s.estimated x)) (CRN_NOBUF_CNT (k / 8192)) 1)
    have hframe := honly.regs_only rfl
    have hkept := regsKept_of_regs (s := s) rfl honly.2
    generalize (s.putPkt k (s.estimated x)).cnt (CRN_NOBUF_CNT (k / 8192)) = t at hcnt hframe hkept ⊢
    have hpkts : (t.putPkt k { s.estimated x with nobuf := true }).pkts =
        (s.pkts.insert k (s.estimated x)).insert k { s.estimated x with nobuf := true } := by rw [hframe]; rfl
    obtain ⟨hsame, hother⟩ := State.pkt?_of_replaced hpkts
    exact ⟨hsame, hother, counted_congr hcnt rfl rfl, ⟨_, t.regs, by rw [hframe]; rfl⟩, hkept⟩

end Sys2Proof.Machine
end

section
/-!
SUPPORT. Frames that outgrow their buffer or the FIFO (R70, R276), and free requests (R277, R278).
-/
namespace Sys2Proof.Machine

/-! ### Frames that outgrow what holds them (R70, R276) -/

theorem State.bufferOverrun_outgrown {s : State} {p t : Nat} {x : Pkt} (hcur : (s.rxPort p).cur = .frame t)
    (hx : s.pkt? (pkey (portBough p) t) = some x) (hbuf : x.hasBuf = true) (hpro : x.promote = false)
    (hcap : 256 * poolSize x.bark.pool < s.macTakes p x.bytes.length) :
    s.bufferOverrun p = if s.transferBegun (pkey (portBough p) t) then
      ((s.cnt (CRN_OVERRUN_CNT (portBough p))).setCur p (.skip x.bytes)).frameBad (pkey (portBough p) t)
        (256 * poolSize x.bark.pool) x
      else (s.putPkt (pkey (portBough p) t) { x with promote := true }).bufAsk (pkey (portBough p) t)
        { x with promote := true } := by
  unfold State.bufferOverrun
  rw [hcur]; dsimp only
  rw [hx]; dsimp only
  rw [hbuf, hpro, decide_eq_false (Nat.not_le.mpr hcap)]; rfl

theorem State.rxOverflow_full {s : State} {p t got : Nat} {x : Pkt} (hcur : (s.rxPort p).cur = .frame t)
    (hx : s.pkt? (pkey (portBough p) t) = some x) (hgot : got < s.macTakes p x.bytes.length)
    (hfull : 8192 * modeLanes (s.portMode p) ≤ s.fifoBytes p t got) :
    s.rxOverflow p got =
      let u := ((s.cnt (RX_FIFO_OVF_CNT p)).raise (PRT_INT_RX_FIFO_OVF p)).setCur p .gone
      if x.window then u.frameBad (pkey (portBough p) t) got x else u.frameDrop (pkey (portBough p) t) x := by
  unfold State.rxOverflow
  rw [hcur]; dsimp only
  rw [hx]; dsimp only
  rw [if_neg (by omega)]

/-! ### A buffer freed (R277) -/

theorem exec_bufferFree {s : State} {b : Fin 32} {u : BitVec 13} {q : BitVec 2} {t : Fin 8192}
    (h : s.alive (islBough b.val) = true) :
    exec (.bufferFree b u q t) s = .next (s.freeRequest b.val u.toNat q.toNat t.val) :=
  onIsl_up (f := (·.freeRequest b.val u.toNat q.toNat t.val)) h

/-- The buffer at unit `u` taken off the list, and kept from reuse for the cycle. -/
def State.bufUnlisted (s : State) (b u q : Nat) : State :=
  { s with bufs := s.bufs.erase (pkey b u)
           freedBufs := s.freedBufs.filter (fun (e : Nat × Nat × Nat) => s.thisCycle e.2.2) ++ [(pkey b u, q, s.time.mono)] }

/-- The registers that a free of owner `o` from pool `q` touches. -/
def freeRegs (b o q : Nat) : List Nat := [CRN_USE b o q, CRN_POOL_STS b q, CRN_STORE_STS b]

/-- The use of a pool shown after a free. -/
def State.freeShown (s : State) (b o q : Nat) : State :=
  let s := (s.wr (CRN_USE_USE b o q) (s.rd (CRN_USE_USE b o q) - 1)).wr (CRN_POOL_STS_FREE b q) (s.rd (CRN_POOL_STS_FREE b q) + 1)
  s.wrB (CRN_STORE_STS_IDLE b) (!s.bufs.any (fun e => e.1 / 8192 == b))

theorem onlyRegs_freeShown (s : State) (b o q : Nat) : onlyRegs (freeRegs b o q) s (s.freeShown b o q) := by
  unfold State.freeShown
  extract_lets t
  have ht : onlyRegs (freeRegs b o q) s t :=
    (onlyRegs_wr s (f := CRN_USE_USE b o q) _ List.mem_cons_self).trans
      (onlyRegs_wr _ (f := CRN_POOL_STS_FREE b q) _ (List.mem_cons_of_mem _ List.mem_cons_self))
  exact ht.trans (onlyRegs_wr t (f := CRN_STORE_STS_IDLE b) _ (by simp [CRN_STORE_STS_IDLE, freeRegs]))

/-- A free with the owner's tag: the buffer is unlisted and the use shown. -/
theorem State.bufFree_owned {s : State} {b u q : Nat} {x : BufSt} (hplaced : s.bufPlaced b u q = true)
    (hbuf : s.bufs.find? (pkey b u) = some x) : s.bufFree b u q x.tag = (s.bufUnlisted b u q).freeShown b x.owner q := by
  unfold State.bufFree
  rw [hplaced, hbuf, if_neg (by simp)]
  dsimp only
  rw [if_neg (by simp)]
  rfl

theorem State.freeShown_msi (s : State) (b o q : Nat) : (s.freeShown b o q).msi = s.msi := by
  unfold State.freeShown; simp

theorem State.modPkt_pkts_congr {s t : State} (h : t.pkts = s.pkts) (k : Nat) (f : Pkt → Pkt) :
    (t.modPkt k f).pkts = (s.modPkt k f).pkts := by
  unfold State.modPkt
  rw [State.pkt?_congr h]
  cases s.pkt? k
  · exact h
  · simp only [State.putPkt, h]

/-- A freed buffer is no longer its packet's; nothing else changes but the use shown. -/
theorem State.freeRequest_owned {s : State} {b u q : Nat} {x : BufSt} (hplaced : s.bufPlaced b u q = true)
    (hbuf : s.bufs.find? (pkey b u) = some x) :
    (∃ R, s.freeRequest b u q x.tag = { s.bufUnlisted b u q with
      regs := R
      pkts := (s.modPkt (pkey b x.tag) (fun p => if p.bark.buf = u then { p with hasBuf := false } else p)).pkts }) ∧
      regsKept (freeRegs b x.owner q) s (s.freeRequest b u q x.tag) := by
  have honly := onlyRegs_freeShown (s.bufUnlisted b u q) b x.owner q
  have hframe := honly.regs_only (State.freeShown_msi _ _ _ _)
  have hkept := regsKept_of_regs (s := s) rfl honly.2
  unfold State.freeRequest
  rw [State.bufFree_owned hplaced hbuf]
  generalize (s.bufUnlisted b u q).freeShown b x.owner q = t at hframe hkept ⊢
  have hbufs : t.bufs = s.bufs.erase (pkey b u) := by rw [hframe]; rfl
  have hgone : ((t.bufs.find? (pkey b u)).isSome || (s.bufs.find? (pkey b u)).isNone) = false := by
    rw [hbufs, Tab.find_erase, if_pos rfl, hbuf]; rfl
  dsimp only
  rw [hgone, if_neg Bool.false_ne_true]
  have hpkts : t.pkts = s.pkts := by rw [hframe]; rfl
  refine ⟨⟨t.regs, ?_⟩, fun a ha => (State.reg_congr (State.modPkt_regs _ _ _) a).trans (hkept a ha)⟩
  rw [State.modPkt_pkts t, State.modPkt_pkts_congr hpkts]
  generalize (s.modPkt _ _).pkts = P
  rw [hframe]

/-! ### A free that fails a check (R278) -/

/-- The counter of a free that fails a check. -/
def badFreeCnt (b check : Nat) : Nat := if check = 1 then CRN_DBL_FREE_CNT b else CRN_FOREIGN_FREE_CNT b

/-- The counter lies between the Crown's causes and the journal's registers. -/
theorem badFreeCnt_bounds {b : Nat} (hb : b < 32) (check : Nat) :
    CRN_INT < badFreeCnt b check ∧ badFreeCnt b check + 4 < OBS_INT := by
  unfold badFreeCnt CRN_INT OBS_INT CRN_DBL_FREE_CNT CRN_FOREIGN_FREE_CNT; split <;> omega

theorem State.badFree_shows (s : State) {b : Nat} (hb : b < 32) (u q tag check : Nat) :
    counted (badFreeCnt b check) 1 s (s.badFree b u q tag check) ∧ (s.badFree b u q tag check).rd CRN_INT_BAD_FREE = 1 ∧
      onlyRegsJrn [badFreeCnt b check, badFreeCnt b check + 4, CRN_INT] s (s.badFree b u q tag check) := by
  obtain ⟨hlo, hhi⟩ := badFreeCnt_bounds hb check
  have hkeeps (t : State) (l : List Byte) {a : Nat} (ha : CRN_INT < a) (ha' : a < OBS_INT) :
      ((t.journal (islBough b) 0x0701 b l).raise CRN_INT_BAD_FREE).reg a = t.reg a := by
    unfold CRN_INT at ha
    unfold OBS_INT at ha'
    rw [State.reg_raise_other _ (by simp only [CRN_INT_BAD_FREE, CRN_INT]; omega)]
    exact State.reg_journal t _ _ _ _ (by unfold OBS_JRN_LOST_CNT; omega) (by unfold OBS_JRN_LOST_CNT; omega)
      (by unfold OBS_INT; omega)
  have hcnt : counted (badFreeCnt b check) 1 s (s.cnt (badFreeCnt b check)) := counted_cnt s _ 1
  have honly : onlyRegs [badFreeCnt b check, badFreeCnt b check + 4, CRN_INT] s (s.cnt (badFreeCnt b check)) :=
    onlyRegs_cnt s 1 (by simp) (by simp)
  have hfree : s.badFree b u q tag check = ((s.cnt (badFreeCnt b check)).journal (islBough b) 0x0701 b
      (natLe 2 u ++ natLe 1 q ++ [0] ++ natLe 2 tag ++ natLe 1 check)).raise CRN_INT_BAD_FREE := rfl
  rw [hfree]
  generalize s.cnt (badFreeCnt b check) = t at hcnt honly ⊢
  exact ⟨counted_congr hcnt (hkeeps t _ hlo (by omega)) (hkeeps t _ (by omega) hhi), State.rd_raise _ _ (by decide) rfl,
    (honly.jrn.trans (onlyRegsJrn_journal _ _ _ _ _ _)).trans
      (onlyRegs_raise _ (f := CRN_INT_BAD_FREE) (by simp [CRN_INT_BAD_FREE])).jrn⟩

/-- A free that fails a check changes no buffer and no packet. -/
theorem State.freeRequest_bad {s : State} {b u q t check : Nat} (h : s.bufFree b u q t = s.badFree b u q t check) :
    s.freeRequest b u q t = s.badFree b u q t check := by
  have hbufs : (s.badFree b u q t check).bufs = s.bufs := by unfold State.badFree; simp
  unfold State.freeRequest
  dsimp only
  rw [h, hbufs, if_pos (by cases s.bufs.find? (pkey b u) <;> rfl)]

theorem State.bufFree_doubled {s : State} {b u q : Nat} (t : Nat) (hplaced : s.bufPlaced b u q = true)
    (hnone : s.bufs.find? (pkey b u) = none) : s.bufFree b u q t = s.badFree b u q t 1 := by
  unfold State.bufFree
  rw [hplaced, hnone]; rfl

/-- A misplaced free fails the placement check, one with another tag the owner's. -/
theorem State.bufFree_foreign {s : State} {b u q t : Nat}
    (h : s.bufPlaced b u q = false ∨ ∃ x, s.bufs.find? (pkey b u) = some x ∧ x.tag ≠ t) :
    ∃ check, check ≠ 1 ∧ s.bufFree b u q t = s.badFree b u q t check := by
  unfold State.bufFree
  cases hplaced : s.bufPlaced b u q
  · exact ⟨0, by decide, rfl⟩
  · obtain ⟨x, hbuf, htag⟩ := h.resolve_left (by simp [hplaced])
    refine ⟨2, by decide, ?_⟩
    rw [hbuf, if_neg (by simp)]
    dsimp only
    rw [if_pos htag]

theorem badFreeCnt_foreign (b : Nat) {check : Nat} (h : check ≠ 1) : badFreeCnt b check = CRN_FOREIGN_FREE_CNT b := if_neg h

/-! ### O24 -/

/-- Settles O24: a grant and a failed request each change the frame and the use shown only; an outgrown frame and a full FIFO by
the branch that applies; a free by the check that it fails, or none. -/
theorem bufferAllocation : Obligations.BufferAllocation := by
  unfold Obligations.BufferAllocation
  refine ⟨?grants, ?waits, ?overruns, ?overflows, ?frees, ?doubled, ?foreign⟩
  case grants =>
    intro s p k q x halive hw hk hpro hmay hpool
    rw [← hk] at hpool ⊢
    obtain ⟨⟨T, R, O, hframe⟩, hcnt, hkept⟩ := State.bufferAlloc_takes hw hpro hmay hpool
    refine ⟨_, exec_bufferAlloc (hk ▸ halive), ?_⟩
    generalize s.bufferAlloc p.val = u at hframe hcnt hkept ⊢
    obtain ⟨hsame, hother⟩ := State.pkt?_of_replaced (congrArg State.pkts hframe)
    refine ⟨?_, hother, by rw [hframe], by rw [hframe], hcnt, by rw [hframe], hkept⟩
    rw [hsame, withBuf_of_first (x := s.estimated x) hpro]; rfl
  case waits =>
    intro s p k x halive hw hk hpro hown hpool
    have hask := State.bufferAlloc_unserved hw hpool
    rw [← hown, ← hk] at hpool
    obtain ⟨hsame, hother, hcnt, ⟨P, R, hframe⟩, hkept⟩ := State.bufAsk_waits (State.pkt?_of_wantsBuf hw) hpro hpool
    refine ⟨_, exec_bufferAlloc halive, ?_⟩
    rw [hask, ← hk]
    exact ⟨hsame, hother, hcnt, by rw [hframe], hkept⟩
  case overruns =>
    intro s p t x halive hcur hx hbuf hpro hcap
    rw [← State.bufferOverrun_outgrown hcur hx hbuf hpro hcap]
    exact onIsl_up (f := (·.bufferOverrun p.val)) halive
  case overflows =>
    intro s p t got x halive hcur hx hgot hfull
    rw [← State.rxOverflow_full hcur hx hgot hfull]
    exact onIsl_up (f := (·.rxOverflow p.val got)) halive
  case frees =>
    intro s b u q t x halive hplaced hbuf htag
    obtain ⟨⟨R, hframe⟩, hkept⟩ := State.freeRequest_owned hplaced hbuf
    rw [htag] at hframe hkept
    refine ⟨_, exec_bufferFree halive, ?_⟩
    generalize s.freeRequest b.val u.toNat q.toNat t.val = v at hframe hkept ⊢
    refine ⟨by rw [hframe]; rfl, by rw [hframe]; rfl, fun hnone => ?_, fun y hy => ?_, by rw [hframe]; rfl, hkept⟩
    · rw [hframe]; unfold State.modPkt; rw [hnone]
    · rw [hframe, State.modPkt_some _ hy]; rfl
  case doubled =>
    intro s b u q t halive hplaced hnone
    refine ⟨_, exec_bufferFree halive, ?_⟩
    rw [State.freeRequest_bad (State.bufFree_doubled t.val hplaced hnone)]
    exact s.badFree_shows b.isLt u.toNat q.toNat t.val 1
  case foreign =>
    intro s b u q t halive hbad
    refine ⟨_, exec_bufferFree halive, ?_⟩
    obtain ⟨check, hcheck, hfree⟩ := State.bufFree_foreign hbad
    rw [State.freeRequest_bad hfree, ← badFreeCnt_foreign b.val hcheck]
    exact s.badFree_shows b.isLt u.toNat q.toNat t.val check

end Sys2Proof.Machine
end

section
/-!
SUPPORT. The second pass, packets back from a wait, and the end of fragment entries (R94, R97, R128, R190), and O34.
-/
namespace Sys2Proof.Machine

/-! ### The second pass (R128 to R130) -/

theorem exec_recircPass {s : State} {b : Fin 32} (h : s.alive (islBough b.val) = true) :
    exec (.recircPass b) s = .next (s.recircPass b.val) := onIsl_up (f := (·.recircPass b.val)) h

/-- The queue in its turn for a slot loses its head, which is parsed and decided with PASS 1 unless a word of it is
unreadable. -/
theorem State.recircPass_head {s : State} {b k : Nat} {q : List Nat} {x : Pkt} (hq : s.recircQ.get [] b = k :: q)
    (hx : s.pkt? k = some x) (hmay : s.slotMay b 0 = true) {u : State}
    (hu : u = ({ s.rrServed (rrSlots b) 2 0 with recircQ := s.recircQ.set [] b q } : State).recircShow b) :
    s.recircPass b = if x.memUe then u.memDrop k x
      else (u.parsePkt k { x with bark := { x.bark with pass := true, parked := false } }).decidePkt k := by
  have hxu : u.pkt? k = some x := (State.pkt?_congr (by rw [hu, State.recircShow_pkts]; rfl) k).trans hx
  unfold State.recircPass
  rw [hq]; dsimp -zeta only
  rw [hmay, Bool.not_true, if_neg Bool.false_ne_true]
  extract_lets served shown
  rw [show shown = u from hu.symm, hxu]

/-! ### A released packet back in its bough (R190) -/

theorem exec_parkReturn {s : State} {b : Fin 32} {t : BitVec 13} (h : s.alive (islBough b.val) = true) :
    exec (.parkReturn b t) s = .next (s.parkReturn (pkey b.val t.toNat)) :=
  onIsl_up (f := (·.parkReturn (pkey b.val t.toNat))) h

/-- The flow action is left to do: a record was read for the packet and its decision names an action. -/
def Pkt.actionLeft (x : Pkt) : Bool := x.flow.unst.isNone && x.dec.fa != 0 && x.flow.line.isSome

theorem Pkt.actionLeft_eq_false {x : Pkt} (h : x.flow.unst.isSome = true ∨ x.dec.fa = 0 ∨ x.flow.line = none) :
    x.actionLeft = false := by
  unfold Pkt.actionLeft
  rcases h with h | h | h
  · rw [Option.isNone_eq_false_iff.2 h]; rfl
  · rw [h, bne_self_eq_false, Bool.and_false, Bool.false_and]
  · rw [h]; exact Bool.and_false _

theorem Pkt.actionLeft_eq_true {x : Pkt} (hu : x.flow.unst = none) (hfa : x.dec.fa ≠ 0) (hl : x.flow.line.isSome = true) :
    x.actionLeft = true := by
  unfold Pkt.actionLeft; rw [hu, hl, bne_iff_ne.2 hfa]; rfl

theorem State.parkReturn_returned {s : State} {k : Nat} {x : Pkt} (hx : s.pkt? k = some x) (hst : x.stage = .returned) :
    s.parkReturn k = if x.memUe then s.memDrop k x
      else if x.actionLeft then
        ((s.actionStage x x.dec.fa (hotNat x.dec.hot)).2.putPkt k (s.actionStage x x.dec.fa (hotNat x.dec.hot)).1).afterAction k
      else s.afterAction k := by
  unfold State.parkReturn
  rw [hx]; dsimp only
  rw [if_neg (not_not.2 hst)]; rfl

/-! ### Fragment entries that end (R94, R97) -/

theorem exec_fragTimeout {s : State} {fs : BitVec 12} {w : Fin 4} (h : s.alive islMgmt = true) :
    exec (.fragTimeout fs w) s = .next (s.fragTimeout (4 * fs.toNat + w.val)) :=
  onIsl_up (f := (·.fragTimeout (4 * fs.toNat + w.val))) h

theorem exec_fragTableDisable {s : State} (v : Word) (h : s.reaches BRG_FRAG_CFG = true) :
    exec (.fragTableDisable v) s = .next (s.fragDisable v.toNat) := onBar0_up (f := (·.fragDisable v.toNat)) h

/-- The fill shown is one register's. -/
theorem onlyRegs_fragShow (s : State) : onlyRegs [BRG_FRAG_STS] s s.fragShow :=
  (onlyRegs_wr s (f := BRG_FRAG_STS_IN_USE) _ List.mem_cons_self).trans
    (onlyRegs_wr _ (f := BRG_FRAG_STS_HWM) _ List.mem_cons_self)

theorem State.rd_fragShow_inUse (s : State) : s.fragShow.rd BRG_FRAG_STS_IN_USE = s.frags.length % 2 ^ 15 := by
  unfold State.fragShow
  dsimp only
  rw [State.rd_wr_beside _ _ (by decide) (by decide), State.rd_wr_same _ _ _ (by decide)]; rfl

/-- At its time an entry is freed with no time passing. -/
theorem State.fragTimeout_due {s : State} {k : Nat} {e : FragEnt} (he : s.frags.find? k = some e)
    (hdue : e.inst + max 1 (s.rd BRG_FRAG_CFG_TMO) * 1000000 ≤ s.now islMgmt) :
    s.fragTimeout k = ({ s with frags := s.frags.erase k }.cnt FRAG_TMO_CNT).fragShow := by
  unfold State.fragTimeout State.waitIsl
  rw [he]; dsimp only
  rw [if_pos hdue]

/-- An entry that is freed and counted changes the fill shown and the counter beside the table. -/
theorem State.fragFreed_shows (s : State) (F : Tab FragEnt) :
    let t := ({ s with frags := F }.cnt FRAG_TMO_CNT).fragShow
    counted FRAG_TMO_CNT 1 s t ∧ t = { s with frags := F, regs := t.regs } ∧
      regsKept [FRAG_TMO_CNT, FRAG_TMO_CNT + 4, BRG_FRAG_STS] s t := by
  intro t
  have hcnt : counted FRAG_TMO_CNT 1 { s with frags := F } t :=
    counted_onlyRegs (counted_cnt _ _ 1) (onlyRegs_fragShow _) (by decide) (by decide)
  have honly : onlyRegs [FRAG_TMO_CNT, FRAG_TMO_CNT + 4, BRG_FRAG_STS] { s with frags := F } t :=
    (onlyRegs_cnt _ 1 (by simp) (by simp)).trans ((onlyRegs_fragShow _).mono (by simp))
  exact ⟨counted_of_regs (s := s) rfl hcnt, honly.regs_only rfl, regsKept_of_regs (s := s) rfl honly.2⟩

/-- Turning the table off empties it; EN and the fill read 0. -/
theorem State.fragDisable_shows (s : State) (v : Nat) :
    (s.fragDisable v).on BRG_FRAG_CFG_EN = false ∧ (s.fragDisable v).rd BRG_FRAG_STS_IN_USE = 0 ∧
      s.fragDisable v = { s with frags := [], regs := (s.fragDisable v).regs } ∧
      regsKept [BRG_FRAG_CFG, BRG_FRAG_STS] s (s.fragDisable v) := by
  have hoff : ((s.hostWrite BRG_FRAG_CFG v).wr BRG_FRAG_CFG_EN 0).on BRG_FRAG_CFG_EN = false := State.on_wr_zero _ (by decide)
  have hw : onlyRegs [BRG_FRAG_CFG] s ((s.hostWrite BRG_FRAG_CFG v).wr BRG_FRAG_CFG_EN 0) :=
    (onlyRegs_setReg s _ List.mem_cons_self).trans (onlyRegs_wr _ (f := BRG_FRAG_CFG_EN) 0 List.mem_cons_self)
  have hwr := hw.regs_only rfl
  unfold State.fragDisable
  generalize (s.hostWrite BRG_FRAG_CFG v).wr BRG_FRAG_CFG_EN 0 = w at hoff hw hwr ⊢
  have hshow := onlyRegs_fragShow { w with frags := [] }
  have hfill := hshow.regs_only rfl
  refine ⟨(hshow.on (by decide)).trans hoff, State.rd_fragShow_inUse _, ?_, fun a ha => ?_⟩
  · generalize ({ w with frags := [] } : State).fragShow.regs = r at hfill ⊢
    rw [hfill, hwr]
  · rw [List.mem_cons, not_or] at ha
    exact (hshow.2 a ha.2).trans (hw.2 a (by simpa using ha.1))

/-! ### O34 -/

/-- Settles O34: the head of the recirculation queue, a packet back from its wait, an entry at its time, the table turned
off. -/
theorem secondPassParkReturnFragments : Obligations.SecondPassParkReturnFragments := by
  unfold Obligations.SecondPassParkReturnFragments
  refine ⟨?recirc, ?returned, ?timeout, ?disable⟩
  case recirc =>
    intro s b k q x halive hq hx hmay u hu
    rw [exec_recircPass halive, State.recircPass_head hq hx hmay hu]
  case returned =>
    intro s b t x halive hx hst
    rw [exec_parkReturn halive, State.parkReturn_returned hx hst]
    refine ⟨fun hue => ?_, fun hue hrest => ?_, fun hue hunst hfa hline => ?_⟩
    · rw [if_pos hue]
    · rw [hue, Pkt.actionLeft_eq_false hrest]; rfl
    · rw [hue, Pkt.actionLeft_eq_true hunst hfa hline]; rfl
  case timeout =>
    intro s fs w e halive he hdue
    rw [exec_fragTimeout halive, State.fragTimeout_due he hdue]
    obtain ⟨hcnt, hframe, hkept⟩ := s.fragFreed_shows (s.frags.erase (4 * fs.toNat + w.val))
    exact ⟨_, rfl, rfl, hcnt, hframe, hkept⟩
  case disable =>
    intro s v hreach
    obtain ⟨hoff, huse, hframe, hkept⟩ := s.fragDisable_shows v.toNat
    exact ⟨_, exec_fragTableDisable v hreach, rfl, hoff, huse, hframe, hkept⟩

end Sys2Proof.Machine
end

section
/-!
SUPPORT. What the graft's registers show and what stays beside them: fields and counters beside a step that touches listed
registers, a cause that is raised and journaled, GRF_GRAFT_STS and GRF_LOG_STS (R120, R379, R411).
-/
namespace Sys2Proof.Machine

/-! ### Fields and counters beside the registers that a step touches -/

theorem regsKept.rd {l : List Nat} {s t : State} {f : RFld} (h : regsKept l s t) (hf : f.addr ∉ l) : t.rd f = s.rd f :=
  State.rd_of_reg (h _ hf)

theorem regsKept.rd64 {l : List Nat} {s t : State} {a : Nat} (h : regsKept l s t) (hlo : a ∉ l) (hhi : a + 4 ∉ l) :
    t.rd64 a = s.rd64 a := by
  unfold State.rd64; rw [h _ hlo, h _ hhi]

theorem regsKept.counted {l : List Nat} {a n : Nat} {s t u : State} (h : regsKept l t u) (hc : counted a n s t) (hlo : a ∉ l)
    (hhi : a + 4 ∉ l) : counted a n s u := counted_congr hc (h _ hlo) (h _ hhi)

theorem regsKept.trans {l m n : List Nat} {s t u : State} (hst : regsKept l s t) (htu : regsKept m t u) (hl : l ⊆ n)
    (hm : m ⊆ n) : regsKept n s u :=
  fun a ha => (htu a fun h => ha (hm h)).trans (hst a fun h => ha (hl h))

theorem onlyRegs_foldl {β : Type} {l : List Nat} {f : State → β → State} (bs : List β) (s : State)
    (hf : ∀ t, ∀ b ∈ bs, onlyRegs l t (f t b)) : onlyRegs l s (bs.foldl f s) := by
  induction bs generalizing s with
  | nil => exact onlyRegs_refl l s
  | cons b bs ih => exact (hf s b List.mem_cons_self).trans (ih _ fun t x hx => hf t x (List.mem_cons_of_mem _ hx))

/-- A cause raised and its event handed to the journal. -/
theorem State.raise_journal_shows (s : State) {f : RFld} (i ty u : Nat) (b : List Byte) (hf : f.lsb + f.w ≤ 32) (hw : f.w = 1)
    (hj : f.addr ∉ jrnRegs) : ((s.raise f).journal i ty u b).rd f = 1 ∧ onlyRegsJrn [f.addr] s ((s.raise f).journal i ty u b) := by
  have hjrn : onlyRegsJrn [] (s.raise f) ((s.raise f).journal i ty u b) := onlyRegsJrn_journal _ _ _ _ _ _
  refine ⟨(hjrn.2.rd (by simpa using hj)).trans (State.rd_raise s f hf hw), ?_⟩
  exact (onlyRegs_raise s (List.mem_singleton_self _)).jrn.trans (onlyRegsJrn_journal _ _ _ _ _ _)

/-! ### The graft's status -/

theorem onlyRegs_setGraft (s : State) (st : Nat) : onlyRegs [GRF_GRAFT_STS] s (s.setGraft st) :=
  (onlyRegs_wr s (f := GRF_GRAFT_STS_STATE) st (List.mem_singleton_self _)).trans
    (onlyRegs_wr _ (f := GRF_GRAFT_STS_BUSY) _ (List.mem_singleton_self _))

theorem State.rd_setGraft (s : State) {st : Nat} (h : st < 8) : (s.setGraft st).rd GRF_GRAFT_STS_STATE = st ∧
    (s.setGraft st).rd GRF_GRAFT_STS_BUSY = b2n (decide (2 ≤ st)) := by
  have hb : b2n (decide (2 ≤ st)) < 2 ^ 1 := by unfold b2n; split <;> decide
  unfold State.setGraft
  refine ⟨?_, (State.rd_wr_same _ _ _ (by decide)).trans (Nat.mod_eq_of_lt hb)⟩
  rw [State.rd_wr_beside _ _ (by decide) (by decide), State.rd_wr_same _ _ _ (by decide)]
  exact Nat.mod_eq_of_lt h

theorem State.putLog_nil_shows (s : State) : (s.putLog []).rd GRF_LOG_STS_STAGED = 0 ∧
    s.putLog [] = { s with regs := (s.putLog []).regs, gr := { s.gr with log := [] } } ∧
    regsKept [GRF_LOG_STS] s (s.putLog []) :=
  ⟨State.rd_wr_same _ _ _ (by decide), rfl,
    (onlyRegs_wr ({ s with gr.log := [] } : State) (f := GRF_LOG_STS_STAGED) _ (List.mem_singleton_self _)).2⟩

/-- The log emptied and the graft in another state: KNOT_ACQ and KNOT_REL of the graft knot, and the ends of a graft. -/
theorem State.putLog_setGraft_shows (s : State) {st : Nat} (h : st < 8) :
    let t := (s.putLog []).setGraft st
    t.rd GRF_GRAFT_STS_STATE = st ∧ t.rd GRF_GRAFT_STS_BUSY = b2n (decide (2 ≤ st)) ∧ t.rd GRF_LOG_STS_STAGED = 0 ∧
      t = { s with regs := t.regs, gr := { s.gr with log := [] } } ∧ regsKept [GRF_LOG_STS, GRF_GRAFT_STS] s t := by
  intro t
  obtain ⟨hlog, -, hkept⟩ := s.putLog_nil_shows
  obtain ⟨hst, hbusy⟩ := (s.putLog []).rd_setGraft h
  have honly := onlyRegs_setGraft (s.putLog []) st
  exact ⟨hst, hbusy, (honly.2.rd (by decide)).trans hlog, rfl,
    hkept.trans honly.2 (by simp) (by simp)⟩

/-- The waiting command's end leaves everything beside it and the channels alone. -/
theorem State.cmdEnd_only (s : State) (c i st r : Nat) :
    s.cmdEnd c i st r = { s with svn := { s.svn with ch := (s.cmdEnd c i st r).svn.ch } } := rfl

theorem State.cmdEnd_svn_congr {s t : State} (h : t.svn = s.svn) (c i st r : Nat) :
    (t.cmdEnd c i st r).svn = (s.cmdEnd c i st r).svn := by
  unfold State.cmdEnd State.putChan State.chan; rw [h]

theorem State.cmdEnd_ch_congr {s t : State} (h : t.svn.ch = s.svn.ch) (c i st r : Nat) :
    (t.cmdEnd c i st r).svn.ch = (s.cmdEnd c i st r).svn.ch := by
  unfold State.cmdEnd State.putChan State.chan; rw [h]

theorem State.graftReply_none {s : State} (h : s.gr.by_ = none) (st r : Nat) : s.graftReply st r = s := by
  unfold State.graftReply; rw [h]

theorem State.graftReply_some {s : State} {c i : Nat} (h : s.gr.by_ = some (c, i)) (st r : Nat) :
    s.graftReply st r = ({ s with gr.by_ := none } : State).cmdEnd c i st r := by
  unfold State.graftReply; rw [h]

/-- The command that awaits the graft, if there is one, ends, and none awaits it any more. -/
theorem State.graftReply_shows (s : State) (st r : Nat) :
    (s.gr.by_ = none → (s.graftReply st r).svn = s.svn) ∧
      (∀ c i, s.gr.by_ = some (c, i) → (s.graftReply st r).svn = (s.cmdEnd c i st r).svn) ∧
      s.graftReply st r = { s with gr := { s.gr with by_ := none }, svn := (s.graftReply st r).svn } := by
  refine ⟨fun h => by rw [State.graftReply_none h], fun c i h => ?_, ?_⟩
  · rw [State.graftReply_some h]; rfl
  · cases h : s.gr.by_ with
    | none =>
      rw [State.graftReply_none h, ← h]
    | some w =>
      obtain ⟨c, i⟩ := w
      rw [State.graftReply_some h]; rfl

end Sys2Proof.Machine
end

section
/-!
SUPPORT. The journal and the causes beside the graft's own state, and the entry to DRAIN (R120, R124).
-/
namespace Sys2Proof.Machine

/-! ### The graft's state changed beside causes and journal records -/

/-- The state with another graft state. -/
def State.withGr (s : State) (g : GraftSt) : State := { s with gr := g }

theorem State.withGr_withGr (s : State) (x y : GraftSt) : (s.withGr x).withGr y = s.withGr y := (rfl)

theorem State.dmaOk_withGr (s : State) (g : GraftSt) : (s.withGr g).dmaOk = s.dmaOk := (rfl)

theorem State.withGr_ite {c : Prop} [Decidable c] (s t : State) (g : GraftSt) :
    (if c then s else t).withGr g = if c then s.withGr g else t.withGr g := apply_ite (·.withGr g) c s t

theorem State.wr_withGr (s : State) (f : RFld) (v : Nat) (g : GraftSt) : (s.withGr g).wr f v = (s.wr f v).withGr g := (rfl)

theorem State.cnt_withGr (s : State) (a n : Nat) (g : GraftSt) : (s.withGr g).cnt a n = (s.cnt a n).withGr g := (rfl)

theorem State.rd_withGr (s : State) (f : RFld) (g : GraftSt) : (s.withGr g).rd f = s.rd f := (rfl)

theorem State.rd64_withGr (s : State) (a : Nat) (g : GraftSt) : (s.withGr g).rd64 a = s.rd64 a := (rfl)

theorem State.raise_withGr (s : State) (f : RFld) (g : GraftSt) : (s.withGr g).raise f = (s.raise f).withGr g := by
  unfold State.raise State.raiseN
  cases intBlock f.addr with
  | none => rfl
  | some b => dsimp only; rw [State.withGr_ite]; rfl

theorem State.now_withGr (s : State) (g : GraftSt) {i : Nat} (h : i < 256) : (s.withGr g).now i = s.now i :=
  State.now_congr rfl (fun _ _ => rfl) h

theorem State.jrnFlushLost_withGr (s : State) (g : GraftSt) {i : Nat} (u : Nat) (h : i < 256) :
    (s.withGr g).jrnFlushLost i u = (s.jrnFlushLost i u).withGr g := by
  unfold State.jrnFlushLost
  dsimp only
  rw [State.now_withGr s g h, State.withGr_ite]
  rfl

theorem State.journal_withGr (s : State) (g : GraftSt) {i : Nat} (ty u : Nat) (b : List Byte) (h : i < 256) :
    (s.withGr g).journal i ty u b = (s.journal i ty u b).withGr g := by
  unfold State.journal State.journalRec
  dsimp only
  rw [State.now_withGr s g h, State.jrnFlushLost_withGr s g _ h, State.withGr_ite, State.withGr_ite, ← State.raise_withGr]
  rfl

theorem State.dmaOk_raise (s : State) (f : RFld) : (s.raise f).dmaOk = s.dmaOk := by
  unfold State.raise State.raiseN
  cases intBlock f.addr with
  | none => rfl
  | some b => dsimp only; split <;> rfl

theorem State.dmaOk_journal (s : State) (i ty u : Nat) (b : List Byte) : (s.journal i ty u b).dmaOk = s.dmaOk := by
  have hflush (r : JRec) (u : Nat) : (s.jrnFlushLost r.ts u).dmaOk = s.dmaOk := by rw [State.jrnFlushLost_only]; rfl
  unfold State.journal State.journalRec
  dsimp only
  rw [State.jrnFlushLost_only]
  split
  · rfl
  · split
    · rw [State.dmaOk_raise]; rfl
    · rfl

/-! ### The entry to DRAIN (R120) -/

/-- The new generation `g` shown as current, and the graft counted. -/
def State.generationShown (s : State) (g : Nat) : State :=
  (((s.wr GRF_GEN_CUR_GEN g).wr GRF_GEN_CUR_PREV_LIVE 1).setGraft 4).cnt GRAFT_CNT

theorem State.generationShown_msi (s : State) (g : Nat) : (s.generationShown g).msi = s.msi := by
  simp only [State.generationShown, State.setGraft, State.cnt_msi, State.wr_msi]

theorem State.generationShown_shows (s : State) {g : Nat} (h : g < 2 ^ 16) :
    (s.generationShown g).rd GRF_GEN_CUR_GEN = g ∧ (s.generationShown g).rd GRF_GEN_CUR_PREV_LIVE = 1 ∧
      (s.generationShown g).rd GRF_GRAFT_STS_STATE = 4 ∧ (s.generationShown g).rd GRF_GRAFT_STS_BUSY = 1 ∧
      counted GRAFT_CNT 1 s (s.generationShown g) ∧
      s.generationShown g = { s with regs := (s.generationShown g).regs } ∧
      regsKept [GRF_GEN_CUR, GRF_GRAFT_STS, GRAFT_CNT, GRAFT_CNT + 4] s (s.generationShown g) := by
  have hmsi := s.generationShown_msi g
  unfold State.generationShown at hmsi ⊢
  have hu : onlyRegs [GRF_GEN_CUR] s ((s.wr GRF_GEN_CUR_GEN g).wr GRF_GEN_CUR_PREV_LIVE 1) :=
    (onlyRegs_wr s (f := GRF_GEN_CUR_GEN) _ (List.mem_singleton_self _)).trans
      (onlyRegs_wr _ (f := GRF_GEN_CUR_PREV_LIVE) _ (List.mem_singleton_self _))
  have hgen : ((s.wr GRF_GEN_CUR_GEN g).wr GRF_GEN_CUR_PREV_LIVE 1).rd GRF_GEN_CUR_GEN = g := by
    rw [State.rd_wr_beside _ _ (by decide) (by decide), State.rd_wr_same _ _ _ (by decide)]
    exact Nat.mod_eq_of_lt h
  have hlive : ((s.wr GRF_GEN_CUR_GEN g).wr GRF_GEN_CUR_PREV_LIVE 1).rd GRF_GEN_CUR_PREV_LIVE = 1 :=
    State.rd_wr_same _ _ _ (by decide)
  generalize (s.wr GRF_GEN_CUR_GEN g).wr GRF_GEN_CUR_PREV_LIVE 1 = u at hmsi hu hgen hlive ⊢
  have hset := onlyRegs_setGraft u 4
  obtain ⟨hst, hbusy⟩ := u.rd_setGraft (st := 4) (by decide)
  generalize u.setGraft 4 = v at hmsi hset hst hbusy ⊢
  have hcnt : onlyRegs [GRAFT_CNT, GRAFT_CNT + 4] v (v.cnt GRAFT_CNT) := onlyRegs_cnt _ 1 (by simp) (by simp)
  have hv : onlyRegs [GRF_GEN_CUR, GRF_GRAFT_STS] s v := (hu.mono (by simp)).trans (hset.mono (by simp))
  have hall : onlyRegs [GRF_GEN_CUR, GRF_GRAFT_STS, GRAFT_CNT, GRAFT_CNT + 4] s (v.cnt GRAFT_CNT) :=
    (hv.mono (by simp)).trans (hcnt.mono (by simp))
  exact ⟨(hcnt.2.rd (by decide)).trans ((hset.2.rd (by decide)).trans hgen),
    (hcnt.2.rd (by decide)).trans ((hset.2.rd (by decide)).trans hlive), (hcnt.2.rd (by decide)).trans hst,
    (hcnt.2.rd (by decide)).trans hbusy, counted_of_onlyRegs hv (by decide) (by decide) (counted_cnt _ _ 1),
    hall.regs_only hmsi, hall.2⟩

theorem State.generationShown_withGr (s : State) (g : Nat) (x : GraftSt) :
    (s.withGr x).generationShown g = (s.generationShown g).withGr x := by
  simp only [State.generationShown, State.setGraft, State.wr_withGr, State.cnt_withGr]

/-- The graft's state once every bough has flipped. -/
def State.drainGr (s : State) : GraftSt := { s.gr with drainAt := s.time.mono, warned := false }

theorem State.generationShown_drainGr (s : State) (g : Nat) : (s.generationShown g).drainGr = s.drainGr := by
  unfold State.drainGr
  simp only [State.generationShown, State.setGraft, State.cnt_gr, State.wr_gr, State.cnt_time, State.wr_time]

/-- The flip to generation `g` at `t`, raised and journaled. -/
def State.flipReported (s : State) (g t : Nat) : State :=
  (((s.generationShown g).withGr (s.generationShown g).drainGr).raise GRF_GRAFT_INT_FLIPPED).journal islMgmt 0x0202 0
    (natLe 2 g ++ [0, 0] ++ natLe 4 (s.generationShown g).drainGr.log.length ++ natLe 8 t)

theorem State.flipReported_shows (s : State) (g t : Nat) : (s.flipReported g t).rd GRF_GRAFT_INT_FLIPPED = 1 ∧
    onlyRegsJrn [GRF_GRAFT_INT] ((s.generationShown g).withGr s.drainGr) (s.flipReported g t) := by
  unfold State.flipReported
  rw [State.generationShown_drainGr]
  exact State.raise_journal_shows _ _ _ _ _ (by decide) rfl (by decide)

/-- A profile switch in progress has its graft. -/
def State.switchGrafted (s : State) : State := { s with sw := s.sw.map (fun (w : ProfSw) => { w with graftDone := true }) }

/-- DRAIN entered: what stands before the waiting command ends. -/
def State.inDrain (s : State) (g t : Nat) : State := (s.flipReported g t).switchGrafted

theorem State.switchGrafted_gr (s : State) : s.switchGrafted.gr = s.gr := (rfl)

theorem State.withGr_gr (s : State) (x : GraftSt) : (s.withGr x).gr = x := (rfl)

theorem State.inDrain_gr (s : State) (g t : Nat) : (s.inDrain g t).gr = s.drainGr := by
  unfold State.inDrain State.flipReported
  rw [State.switchGrafted_gr, State.journal_gr, State.raise_gr, State.withGr_gr, State.generationShown_drainGr]

theorem State.dmaOk_switchGrafted (s : State) : s.switchGrafted.dmaOk = s.dmaOk := (rfl)

theorem State.inDrain_dmaOk (s : State) (g t : Nat) : (s.inDrain g t).dmaOk = s.dmaOk := by
  unfold State.inDrain State.flipReported
  rw [State.dmaOk_switchGrafted, State.dmaOk_journal, State.dmaOk_raise, State.dmaOk_withGr]
  unfold State.dmaOk; rw [State.generationShown_msi]

theorem State.switchGrafted_withGr (s : State) (x : GraftSt) : (s.withGr x).switchGrafted = s.switchGrafted.withGr x := (rfl)

/-- Who awaits the flip makes no difference before its command ends. -/
theorem State.inDrain_withGr (s : State) (g t : Nat) {x : GraftSt} (h : x.log = s.gr.log) :
    (s.withGr x).inDrain g t = (s.inDrain g t).withGr { x with drainAt := s.time.mono, warned := false } := by
  have hlog : (s.withGr x).drainGr.log = s.drainGr.log := h
  have hgr : (s.withGr x).drainGr = { x with drainAt := s.time.mono, warned := false } := rfl
  unfold State.inDrain State.flipReported
  rw [State.generationShown_drainGr, State.generationShown_drainGr, hlog, ← State.switchGrafted_withGr,
    ← State.journal_withGr _ _ _ _ _ (by decide), ← State.raise_withGr, State.generationShown_withGr, State.withGr_withGr,
    State.withGr_withGr, hgr]

/-- The command that awaits the flip ends with the new generation, once T_flip is written where it asked for it; where the
function may issue no DMA it ends with DMA_ERR and its channel halts (R358, R382). -/
def State.flipAnswered (s : State) (g t : Nat) : State :=
  match s.gr.by_ with
  | some (c, _) =>
    if s.gr.tflipAddr = 0 then s.graftReply 0 g
    else if s.dmaOk then (s.hostPut s.gr.tflipAddr (natLe 8 t)).graftReply 0 g
    else (s.graftReply 15 0).chHalt c 4
  | none => s

theorem State.enterDrain_eq (s : State) : s.enterDrain =
    (s.inDrain ((s.rd GRF_GEN_CUR_GEN + 1) % 65536) (s.rd64 GRF_FLIP_TS)).flipAnswered ((s.rd GRF_GEN_CUR_GEN + 1) % 65536)
      (s.rd64 GRF_FLIP_TS) := by
  unfold State.enterDrain
  generalize (s.rd GRF_GEN_CUR_GEN + 1) % 65536 = g
  generalize s.rd64 GRF_FLIP_TS = t
  rfl

theorem State.flipAnswered_none {s : State} (h : s.gr.by_ = none) (g t : Nat) : s.flipAnswered g t = s := by
  rw [State.flipAnswered, h]

theorem State.enterDrain_unawaited {s : State} (h : s.gr.by_ = none) :
    s.enterDrain = s.inDrain ((s.rd GRF_GEN_CUR_GEN + 1) % 65536) (s.rd64 GRF_FLIP_TS) := by
  rw [State.enterDrain_eq, State.flipAnswered_none]
  rw [State.inDrain_gr]; exact h

theorem State.hostPut_withGr (s : State) (a : Nat) (b : List Byte) (x : GraftSt) :
    (s.withGr x).hostPut a b = (s.hostPut a b).withGr x := (rfl)

theorem State.flipAnswered_some {s : State} {c i : Nat} (h : s.gr.by_ = some (c, i)) (g t : Nat) : s.flipAnswered g t =
    if s.gr.tflipAddr = 0 then (s.withGr { s.gr with by_ := none }).cmdEnd c i 0 g
    else if s.dmaOk then ((s.withGr { s.gr with by_ := none }).hostPut s.gr.tflipAddr (natLe 8 t)).cmdEnd c i 0 g
    else ((s.withGr { s.gr with by_ := none }).cmdEnd c i 15 0).chHalt c 4 := by
  have hput : (s.hostPut s.gr.tflipAddr (natLe 8 t)).gr.by_ = some (c, i) := h
  rw [State.flipAnswered, h]
  dsimp only
  rw [State.graftReply_some h, State.graftReply_some h, State.graftReply_some hput]
  rfl

/-- What awaits the flip ends in the state that the flip leaves where nothing awaits it. -/
theorem State.enterDrain_awaited {s : State} {c i : Nat} (h : s.gr.by_ = some (c, i)) :
    s.enterDrain =
      if s.gr.tflipAddr = 0 then
        (s.withGr { s.gr with by_ := none }).enterDrain.cmdEnd c i 0 ((s.rd GRF_GEN_CUR_GEN + 1) % 65536)
      else if s.dmaOk then
        ((s.withGr { s.gr with by_ := none }).enterDrain.hostPut s.gr.tflipAddr (natLe 8 (s.rd64 GRF_FLIP_TS))).cmdEnd c i 0
          ((s.rd GRF_GEN_CUR_GEN + 1) % 65536)
      else ((s.withGr { s.gr with by_ := none }).enterDrain.cmdEnd c i 15 0).chHalt c 4 := by
  rw [State.enterDrain_eq s, State.enterDrain_unawaited (s := s.withGr _) rfl, State.rd_withGr, State.rd64_withGr,
    State.inDrain_withGr s _ _ (x := { s.gr with by_ := none }) rfl]
  generalize (s.rd GRF_GEN_CUR_GEN + 1) % 65536 = g
  generalize s.rd64 GRF_FLIP_TS = t
  have hgr := s.inDrain_gr g t
  have hdma := s.inDrain_dmaOk g t
  generalize s.inDrain g t = u at hgr hdma ⊢
  have hby : u.gr.by_ = some (c, i) := by rw [hgr]; exact h
  rw [State.flipAnswered_some hby, hdma, hgr]
  rfl

theorem State.rd_switchGrafted (s : State) (f : RFld) : s.switchGrafted.rd f = s.rd f := (rfl)

/-- A profile switch told of the graft, after steps that show it, change the graft's state and report it. -/
theorem State.switchGrafted_shows {s v u : State} {x : GraftSt} {l : List Nat} (hv : v = { s with regs := v.regs })
    (hu : onlyRegsJrn l (v.withGr x) u) : let d := u.switchGrafted
    d.sw = s.sw.map (fun (w : ProfSw) => { w with graftDone := true }) ∧
      d = { s with regs := d.regs, msi := d.msi, jrn := d.jrn, gr := x, sw := d.sw } ∧ regsKept (jrnRegs ++ l) v d := by
  obtain ⟨hrep, hkept⟩ := hu
  have hsw : u.sw = s.sw := by rw [hrep, hv]; rfl
  refine ⟨?_, ?_, hkept⟩
  · unfold State.switchGrafted; rw [hsw]
  · unfold State.switchGrafted
    dsimp only
    generalize u.regs = r at hrep ⊢
    generalize u.msi = m at hrep ⊢
    generalize u.jrn = j at hrep ⊢
    rw [hrep, hv]; rfl

/-- DRAIN entered: the new generation is current, counted, flagged and journaled, and a profile switch has its graft. -/
theorem State.inDrain_shows {s d : State} {g t : Nat} (hd : d = s.inDrain g t) (h : g < 2 ^ 16) :
    d.rd GRF_GEN_CUR_GEN = g ∧ d.rd GRF_GEN_CUR_PREV_LIVE = 1 ∧ d.rd GRF_GRAFT_STS_STATE = 4 ∧ d.rd GRF_GRAFT_STS_BUSY = 1 ∧
      counted GRAFT_CNT 1 s d ∧ d.rd GRF_GRAFT_INT_FLIPPED = 1 ∧
      d.sw = s.sw.map (fun (w : ProfSw) => { w with graftDone := true }) ∧
      d = { s with regs := d.regs, msi := d.msi, jrn := d.jrn, gr := s.drainGr, sw := d.sw } ∧
      regsKept (jrnRegs ++ [GRF_GEN_CUR, GRF_GRAFT_STS, GRAFT_CNT, GRAFT_CNT + 4, GRF_GRAFT_INT]) s d := by
  obtain ⟨hgen, hlive, hst, hbusy, hcnt, hshown, hkept⟩ := s.generationShown_shows h
  obtain ⟨hint, hrep⟩ := s.flipReported_shows g t
  obtain ⟨hsw, honly, hregs⟩ := State.switchGrafted_shows hshown hrep
  rw [← State.rd_switchGrafted] at hint
  rw [← State.inDrain, ← hd] at hint hsw honly hregs
  exact ⟨(hregs.rd (by decide)).trans hgen, (hregs.rd (by decide)).trans hlive, (hregs.rd (by decide)).trans hst,
    (hregs.rd (by decide)).trans hbusy, hregs.counted hcnt (by decide) (by decide), hint, hsw, honly,
    hkept.trans hregs (by simp) (by simp [jrnRegs])⟩

end Sys2Proof.Machine
end

section
/-!
SUPPORT. The graft log read from the Root store and written to a copy of the tables (R120, R121, R264, R347, R354).
-/
namespace Sys2Proof.Machine

/-! ### Entries written beside what an injection touches (R354) -/

/-- Beside error protection's own state only the injection's registers and its cause may differ. -/
def onlyEcc (s t : State) : Prop :=
  t = { s with regs := t.regs, msi := t.msi, ecc := t.ecc } ∧ regsKept [ECC_INJ_CFG, ECC_INJ_STS, ECC_INT] s t

theorem onlyEcc_refl (s : State) : onlyEcc s s := ⟨rfl, fun _ _ => rfl⟩

theorem onlyEcc_ecc (s : State) (e : EccSt) : onlyEcc s { s with ecc := e } := ⟨rfl, fun _ _ => rfl⟩

theorem onlyEcc.trans {s t u : State} (hst : onlyEcc s t) (htu : onlyEcc t u) : onlyEcc s u := by
  obtain ⟨ht, hrt⟩ := hst
  obtain ⟨hu, hru⟩ := htu
  refine ⟨?_, hrt.trans hru (List.Subset.refl _) (List.Subset.refl _)⟩
  generalize u.regs = r at hu ⊢
  generalize u.msi = m at hu ⊢
  generalize u.ecc = e at hu ⊢
  rw [hu, ht]

theorem onlyRegs.onlyEcc {l : List Nat} {s t : State} (h : onlyRegs l s t) (hl : l ⊆ [ECC_INJ_CFG, ECC_INJ_STS, ECC_INT]) :
    onlyEcc s t := by
  have he : t.ecc = s.ecc := (congrArg State.ecc h.1 :)
  refine ⟨?_, (h.mono hl).2⟩
  rw [he]; exact h.1

theorem onlyEcc_foldl {β : Type} {f : State → β → State} (bs : List β) (s : State) (hf : ∀ t, ∀ b ∈ bs, onlyEcc t (f t b)) :
    onlyEcc s (bs.foldl f s) := by
  induction bs generalizing s with
  | nil => exact onlyEcc_refl s
  | cons b bs ih => exact (hf s b List.mem_cons_self).trans (ih _ fun t x hx => hf t x (List.mem_cons_of_mem _ hx))

theorem onlyEcc_injSpent (s : State) : onlyEcc s s.injSpent := by
  have hleft : onlyEcc s (s.wr ECC_INJ_STS_LEFT (s.rd ECC_INJ_STS_LEFT - 1)) :=
    (onlyRegs_wr s _ (List.mem_singleton_self _)).onlyEcc (by simp [ECC_INJ_STS_LEFT])
  unfold State.injSpent
  dsimp only
  split
  · exact (hleft.trans ((onlyRegs_wr _ _ (List.mem_singleton_self _)).onlyEcc (by simp [ECC_INJ_CFG_ARM]))).trans
      ((onlyRegs_raise _ (List.mem_singleton_self _)).onlyEcc (by simp [ECC_INT_INJ_DONE]))
  · exact hleft

/-- Errors in a table's or a control store's word stand beside its contents. -/
theorem onlyEcc_flipWord (s : State) {src : Nat} (w pat : Nat) (h : 2 < src) : onlyEcc s (s.flipWord src w pat) := by
  unfold State.flipWord
  dsimp only
  rw [if_pos (Or.inr h)]
  exact ⟨rfl, fun _ _ => rfl⟩

theorem onlyEcc_wordWritten (s : State) {src : Nat} (w : Nat) (h : 2 < src) : onlyEcc s (s.wordWritten src w) := by
  unfold State.wordWritten
  dsimp only
  split
  · exact ((onlyEcc_ecc s _).trans (onlyEcc_flipWord _ _ _ h)).trans (onlyEcc_injSpent _)
  · exact onlyEcc_ecc s _

theorem onlyEcc_pageWritten (s : State) (src page : Nat) : onlyEcc s (s.pageWritten src page) := by
  unfold State.pageWritten
  split
  · exact (onlyEcc_ecc s _).trans (onlyEcc_injSpent _)
  · exact onlyEcc_refl s

/-- The words of an entry are a table's or a control store's. -/
theorem two_lt_of_mem_entryWords {width id copy idx : Nat} {x : Nat × Nat} (h : x ∈ entryWords width id copy idx) : 2 < x.1 := by
  unfold entryWords at h
  split at h <;> simp only [List.mem_flatMap, List.mem_map, List.mem_cons, List.not_mem_nil, or_false] at h
  · obtain ⟨k, -, rfl | rfl⟩ := h <;> exact Nat.le_of_ble_eq_true rfl
  · obtain ⟨k, -, rfl | rfl⟩ := h <;> exact Nat.le_of_ble_eq_true rfl
  · obtain ⟨u, -, w, -, rfl⟩ := h; exact Nat.le_of_ble_eq_true rfl
  · obtain ⟨u, -, w, -, rfl⟩ := h; exact Nat.le_of_ble_eq_true rfl

theorem onlyEcc_entWritten (s : State) (id copy idx : Nat) : onlyEcc s (s.entWritten id copy idx) := by
  unfold State.entWritten
  split
  · exact onlyEcc_refl s
  · dsimp only
    have hwords (t : State) (width : Nat) :
        onlyEcc t ((entryWords width id copy idx).foldl (fun s w => s.wordWritten w.1 w.2) t) :=
      onlyEcc_foldl _ t fun u x hx => onlyEcc_wordWritten u x.2 (two_lt_of_mem_entryWords hx)
    split
    · refine ((onlyEcc_ecc s _).trans (hwords _ _)).trans (onlyEcc_foldl _ _ fun t k _ => ?_)
      exact onlyEcc_foldl _ t fun u p _ => onlyEcc_pageWritten u 3 p
    · exact (onlyEcc_ecc s _).trans (hwords _ _)

/-! ### The log written to a copy (R121) -/

/-- Beside the tables and error protection's own state only the injection's registers and its cause may differ. -/
def onlyTables (s t : State) : Prop :=
  t = { s with regs := t.regs, msi := t.msi, tbl := t.tbl, ecc := t.ecc } ∧ regsKept [ECC_INJ_CFG, ECC_INJ_STS, ECC_INT] s t

theorem onlyTables.trans {s t u : State} (hst : onlyTables s t) (htu : onlyTables t u) : onlyTables s u := by
  obtain ⟨ht, hrt⟩ := hst
  obtain ⟨hu, hru⟩ := htu
  refine ⟨?_, hrt.trans hru (List.Subset.refl _) (List.Subset.refl _)⟩
  generalize u.regs = r at hu ⊢
  generalize u.msi = m at hu ⊢
  generalize u.tbl = b at hu ⊢
  generalize u.ecc = e at hu ⊢
  rw [hu, ht]

theorem onlyEcc.onlyTables {s t u : State} (hst : t = { s with tbl := t.tbl }) (htu : onlyEcc t u) : onlyTables s u := by
  obtain ⟨hu, hru⟩ := htu
  have htbl : u.tbl = t.tbl := (congrArg State.tbl hu :)
  have hregs : t.regs = s.regs := (congrArg State.regs hst :)
  refine ⟨?_, fun a ha => (hru a ha).trans (State.reg_congr hregs a)⟩
  rw [htbl]
  generalize u.regs = r at hu ⊢
  generalize u.msi = m at hu ⊢
  generalize u.ecc = e at hu ⊢
  generalize t.tbl = b at hst ⊢
  rw [hu, hst]

/-- One staged write performed on a copy: the entry, and what an armed injection makes of its words. -/
theorem onlyTables_entWrite (s : State) (id copy idx v : Nat) :
    onlyTables s ((s.setEnt id copy idx v).entWritten id copy idx) :=
  (onlyEcc_entWritten _ id copy idx).onlyTables rfl

theorem State.entWrite_tbl (s : State) (id copy idx v : Nat) :
    ((s.setEnt id copy idx v).entWritten id copy idx).tbl = s.tbl.set (tblDefault id idx) (tblKey id copy idx) v :=
  (congrArg State.tbl (onlyEcc_entWritten (s.setEnt id copy idx v) id copy idx).1 :)

/-- The copy takes the log's entries in order, with their words' errors gone or, by an injection, there. -/
theorem State.logApply_shows (s : State) (copy : Nat) :
    (s.logApply copy).tbl = (s.gr.log.foldl (fun s (w : Staged) => s.setEnt w.table copy w.idx w.val) s).tbl ∧
      onlyTables s (s.logApply copy) := by
  unfold State.logApply
  constructor
  · rw [← List.foldl_hom State.tbl (g₂ := fun t (w : Staged) =>
        t.set (tblDefault w.table w.idx) (tblKey w.table copy w.idx) w.val) (fun t w => (t.entWrite_tbl _ _ _ _).symm),
      ← List.foldl_hom State.tbl (g₂ := fun t (w : Staged) =>
        t.set (tblDefault w.table w.idx) (tblKey w.table copy w.idx) w.val) (fun _ _ => rfl)]
  · generalize s.gr.log = l
    induction l generalizing s with
    | nil => exact ⟨rfl, fun _ _ => rfl⟩
    | cons w l ih => exact (onlyTables_entWrite s _ _ _ _).trans (ih _)

/-! ### The log read (R264, R347) -/

theorem State.ecc_ite {c : Prop} [Decidable c] {s t u : State} (hs : s.ecc = u.ecc) (ht : t.ecc = u.ecc) :
    (if c then s else t).ecc = u.ecc := by split <;> assumption

theorem State.putRts_ecc (s : State) (c : Nat) (x : RtsSt) : (s.putRts c x).ecc = s.ecc := by
  unfold State.putRts; exact State.ecc_ite rfl rfl

theorem State.rtsMove_ecc (s : State) (c : Nat) (r : RtsReq) : (s.rtsMove c r).ecc = s.ecc := by
  unfold State.rtsMove
  simp only [apply_ite State.ecc, State.cnt_ecc, State.pmuEv_ecc, State.putRts_ecc, ite_self]

theorem State.rtsTake_ecc (s : State) (r : RtsReq) : (s.rtsTake r).ecc = s.ecc := by
  unfold State.rtsTake
  simp only [State.rtsMove_ecc, apply_ite State.ecc, State.cnt_ecc, State.wr_ecc, State.pmuEv_ecc, ite_self]

theorem State.rtsUse_ecc (s : State) (cls a n : Nat) (w : Bool) : (s.rtsUse cls a n w).ecc = s.ecc := by
  unfold State.rtsUse
  exact foldl_kept State.ecc _ (fun _ _ => State.rtsTake_ecc _ _) _ _

/-- Where no word has an error or a mark, a read finds none. -/
theorem State.rsScan_clean {s : State} (hd : s.ecc.diff = []) (hp : s.ecc.poison = []) (a n : Nat) :
    s.rsScan a n = s ∧ s.rsPoisoned a n = false := by
  unfold State.rsScan State.rsPoisoned
  rw [hd, hp]
  exact ⟨rfl, rfl⟩

/-- Slots read one after another where no word has an error: none is poisoned. -/
theorem State.slotsRead_clean (slot : Nat → Nat) (l : List Nat) {s : State} (hd : s.ecc.diff = []) (hp : s.ecc.poison = []) :
    l.foldl (fun (x : Bool × State) n =>
      let t := (x.2.rtsUse clsHost (slot n) 256 false).rsScan (slot n) 256
      (x.1 || t.rsPoisoned (slot n) 256, t)) (false, s) =
        (false, l.foldl (fun (u : State) n => u.rtsUse clsHost (slot n) 256 false) s) := by
  induction l generalizing s with
  | nil => rfl
  | cons n l ih =>
    have hecc := s.rtsUse_ecc clsHost (slot n) 256 false
    obtain ⟨hscan, hok⟩ := State.rsScan_clean (s := s.rtsUse clsHost (slot n) 256 false) (by rw [hecc]; exact hd)
      (by rw [hecc]; exact hp) (slot n) 256
    rw [List.foldl_cons, List.foldl_cons, ← ih (by rw [hecc]; exact hd) (by rw [hecc]; exact hp)]
    dsimp only
    rw [hscan, hok]; rfl

theorem State.logRead_clean {s : State} (hd : s.ecc.diff = []) (hp : s.ecc.poison = []) : s.logRead =
    (false, (List.range s.gr.log.length).foldl (fun (u : State) n => u.rtsUse clsHost (s.logSlot n) 256 false) s) :=
  State.slotsRead_clean s.logSlot _ hd hp

end Sys2Proof.Machine
end

section
/-!
SUPPORT. The graft's commands from its apply to its end (R120 to R126), and the writes of the registers it guards (R106,
R122).
-/
namespace Sys2Proof.Machine

/-! ### Apply: the log read, written to the staging copy, and T_flip set -/

/-- T_flip set one lead ahead, with its timer. -/
def State.flipArmed (s : State) : State :=
  let lead := max 1000 (s.rd GRF_GRAFT_CFG_FLIP_LEAD)
  let s := s.wr64 GRF_FLIP_TS (s.now islMgmt + lead)
  ({ s with gr.flipped := 0, gr.timerEnd := s.time.mono + (lead + 10000) * 8 } : State).setGraft 3

theorem State.graftApplyDone_poisoned {s : State} (hst : s.graftSt = 2) (hdue : s.gr.phaseEnd ≤ s.time.mono)
    (hbad : s.logRead.1 = true) : s.graftApplyDone = s.logRead.2.graftLogUe := by
  unfold State.graftApplyDone
  rw [if_neg (not_not.2 hst), State.waitMono_due _ _ hdue]
  exact if_pos hbad

theorem State.graftApplyDone_read {s : State} (hst : s.graftSt = 2) (hdue : s.gr.phaseEnd ≤ s.time.mono)
    (hok : s.logRead.1 = false) :
    s.graftApplyDone = (s.logRead.2.logApply ((s.logRead.2.rd GRF_GEN_CUR_GEN + 1) % 2)).flipArmed := by
  unfold State.graftApplyDone
  rw [if_neg (not_not.2 hst), State.waitMono_due _ _ hdue]
  exact if_neg (ne_true_of_eq_false hok)

theorem State.catchupDone_poisoned {s : State} (hst : s.graftSt = 5) (hdue : s.gr.phaseEnd ≤ s.time.mono)
    (hbad : s.logRead.1 = true) : s.catchupDone = s.logRead.2.graftLogUe := by
  unfold State.catchupDone
  rw [if_neg (not_not.2 hst), State.waitMono_due _ _ hdue]
  exact if_pos hbad

theorem State.catchupDone_read {s : State} (hst : s.graftSt = 5) (hdue : s.gr.phaseEnd ≤ s.time.mono)
    (hok : s.logRead.1 = false) :
    s.catchupDone = ((s.logRead.2.logApply ((s.logRead.2.rd GRF_GEN_CUR_GEN + 1) % 2)).putLog []).setGraft 0 := by
  unfold State.catchupDone
  rw [if_neg (not_not.2 hst), State.waitMono_due _ _ hdue]
  exact if_neg (ne_true_of_eq_false hok)

theorem State.setGraft_only (s : State) (st : Nat) : s.setGraft st = { s with regs := (s.setGraft st).regs } := (rfl)

/-- The graft's state shown after another field of it and listed registers have changed. -/
theorem State.setGraft_withGr_shows {s v : State} {l : List Nat} (hv : v = { s with regs := v.regs }) (hk : regsKept l s v)
    (x : GraftSt) {st : Nat} (h : st < 8) : let t := (v.withGr x).setGraft st
    t.rd GRF_GRAFT_STS_STATE = st ∧ t.rd GRF_GRAFT_STS_BUSY = b2n (decide (2 ≤ st)) ∧
      t = { s with regs := t.regs, gr := x } ∧ regsKept [GRF_GRAFT_STS] v t ∧ regsKept (GRF_GRAFT_STS :: l) s t := by
  intro t
  obtain ⟨hst, hbusy⟩ := (v.withGr x).rd_setGraft h
  have hset : regsKept [GRF_GRAFT_STS] v t := (onlyRegs_setGraft (v.withGr x) st).2
  have ht : t = { v.withGr x with regs := t.regs } := State.setGraft_only _ _
  refine ⟨hst, hbusy, ?_, hset, hk.trans hset (by simp) (by simp)⟩
  generalize t.regs = r at ht ⊢
  rw [ht, hv]; rfl

theorem State.flipArmed_eq (s : State) : s.flipArmed =
    ((s.wr64 GRF_FLIP_TS (s.now islMgmt + max 1000 (s.rd GRF_GRAFT_CFG_FLIP_LEAD))).withGr { s.gr with
      flipped := 0
      timerEnd := s.time.mono + (max 1000 (s.rd GRF_GRAFT_CFG_FLIP_LEAD) + 10000) * 8 }).setGraft 3 := rfl

theorem State.wr64_only (s : State) (a v : Nat) : s.wr64 a v = { s with regs := (s.wr64 a v).regs } := (rfl)

theorem State.wr64_kept (s : State) (a v : Nat) : regsKept [a, a + 4] s (s.wr64 a v) := fun b hb => by
  rw [List.mem_cons, List.mem_singleton, not_or] at hb
  rw [State.reg_wr64, if_neg (Ne.symm hb.2), if_neg (Ne.symm hb.1)]

theorem State.flipArmed_shows (s : State) {lead : Nat} (hlead : max 1000 (s.rd GRF_GRAFT_CFG_FLIP_LEAD) = lead) :
    s.flipArmed.rd GRF_GRAFT_STS_STATE = 3 ∧ s.flipArmed.rd GRF_GRAFT_STS_BUSY = 1 ∧
      s.flipArmed.rd64 GRF_FLIP_TS = (s.now islMgmt + lead) % 2 ^ 64 ∧
      s.flipArmed = { s with regs := s.flipArmed.regs,
                             gr := { s.gr with flipped := 0, timerEnd := s.time.mono + (lead + 10000) * 8 } } ∧
      regsKept [GRF_GRAFT_STS, GRF_FLIP_TS, GRF_FLIP_TS + 4] s s.flipArmed := by
  rw [State.flipArmed_eq, hlead]
  obtain ⟨hst, hbusy, honly, hset, hkept⟩ := State.setGraft_withGr_shows (st := 3) (s.wr64_only _ _)
    (s.wr64_kept GRF_FLIP_TS (s.now islMgmt + lead))
    { s.gr with flipped := 0, timerEnd := s.time.mono + (lead + 10000) * 8 } (by decide)
  exact ⟨hst, hbusy, (hset.rd64 (by decide) (by decide)).trans (State.rd64_wr64 s _ _), honly, hkept⟩

/-- What a step beside the tables' writes leaves, when it changes the registers and the graft's state. -/
theorem onlyTables.withGr {r u t : State} {x : GraftSt} (hu : onlyTables r u) (ht : t = { u with regs := t.regs, gr := x }) :
    t.tbl = u.tbl ∧ t.gr = x ∧ t = { r with regs := t.regs, msi := t.msi, tbl := t.tbl, gr := t.gr, ecc := t.ecc } := by
  have htg : t.gr = x := (congrArg State.gr ht :)
  have htb : t.tbl = u.tbl := (congrArg State.tbl ht :)
  have htm : t.msi = u.msi := (congrArg State.msi ht :)
  have hte : t.ecc = u.ecc := (congrArg State.ecc ht :)
  refine ⟨htb, htg, ?_⟩
  have honly := hu.1
  rw [htb, htg, htm, hte]
  generalize t.regs = q at ht ⊢
  generalize u.msi = m at honly ⊢
  generalize u.tbl = b at honly ⊢
  generalize u.ecc = e at honly ⊢
  rw [ht, honly]

/-- Device time does not rest on what the tables' writes touch. -/
theorem onlyTables.now {r u : State} (hu : onlyTables r u) : u.now islMgmt = r.now islMgmt := by
  obtain ⟨honly, hkept⟩ := hu
  have htime : u.time = r.time := (congrArg State.time honly :)
  refine State.now_congr htime (fun a ha => hkept a ?_) (by decide)
  unfold belowPorts at ha
  simp only [List.mem_cons, List.not_mem_nil, or_false, ECC_INJ_CFG, ECC_INJ_STS, ECC_INT]
  omega

/-- T_flip set after the staging copy has taken the log. -/
theorem onlyTables.flipArmed {r u : State} (hu : onlyTables r u) {lead : Nat}
    (hlead : max 1000 (r.rd GRF_GRAFT_CFG_FLIP_LEAD) = lead) :
    u.flipArmed.rd GRF_GRAFT_STS_STATE = 3 ∧ u.flipArmed.rd GRF_GRAFT_STS_BUSY = 1 ∧
      u.flipArmed.rd64 GRF_FLIP_TS = (r.now islMgmt + lead) % 2 ^ 64 ∧
      u.flipArmed = { u with regs := u.flipArmed.regs,
                             gr := { r.gr with flipped := 0, timerEnd := r.time.mono + (lead + 10000) * 8 } } ∧
      regsKept [GRF_GRAFT_STS, GRF_FLIP_TS, GRF_FLIP_TS + 4, ECC_INJ_CFG, ECC_INJ_STS, ECC_INT] r u.flipArmed := by
  obtain ⟨honly, hkept⟩ := hu
  have htime : u.time = r.time := (congrArg State.time honly :)
  have hgr : u.gr = r.gr := (congrArg State.gr honly :)
  obtain ⟨hst, hbusy, hts, ht, hregs⟩ := u.flipArmed_shows (lead := lead) (by rw [hkept.rd (by decide)]; exact hlead)
  rw [onlyTables.now ⟨honly, hkept⟩] at hts
  have hx : ({ u.gr with flipped := 0, timerEnd := u.time.mono + (lead + 10000) * 8 } : GraftSt) =
      { r.gr with flipped := 0, timerEnd := r.time.mono + (lead + 10000) * 8 } := by rw [hgr, htime]
  rw [hx] at ht
  exact ⟨hst, hbusy, hts, ht, hkept.trans hregs (by simp) (by simp)⟩

theorem onlyRegsJrn.mono {l m : List Nat} {s t : State} (h : onlyRegsJrn l s t) (hlm : l ⊆ m) : onlyRegsJrn m s t :=
  ⟨h.1, fun a ha => h.2 a fun hl => ha (List.mem_append.2 ((List.mem_append.1 hl).imp_right (hlm ·)))⟩

/-! ### Failure (R120) -/

/-- The failure shown, counted, raised and journaled. -/
def State.failReported (s : State) (body : List Byte) : State :=
  (((s.setGraft 6).cnt GRAFT_FAIL_CNT).raise GRF_GRAFT_INT_FAIL).journal islMgmt 0x0204 0 body

theorem State.failReported_shows (s : State) (body : List Byte) : let t := s.failReported body
    t.rd GRF_GRAFT_STS_STATE = 6 ∧ t.rd GRF_GRAFT_STS_BUSY = 1 ∧ counted GRAFT_FAIL_CNT 1 s t ∧
      t.rd GRF_GRAFT_INT_FAIL = 1 ∧ onlyRegsJrn [GRF_GRAFT_STS, GRAFT_FAIL_CNT, GRAFT_FAIL_CNT + 4, GRF_GRAFT_INT] s t := by
  intro t
  have hset := onlyRegs_setGraft s 6
  obtain ⟨hst, hbusy⟩ := s.rd_setGraft (st := 6) (by decide)
  have hcnt : onlyRegs [GRAFT_FAIL_CNT, GRAFT_FAIL_CNT + 4] (s.setGraft 6) ((s.setGraft 6).cnt GRAFT_FAIL_CNT) :=
    onlyRegs_cnt _ 1 (by simp) (by simp)
  have hcounted : counted GRAFT_FAIL_CNT 1 s ((s.setGraft 6).cnt GRAFT_FAIL_CNT) :=
    counted_of_onlyRegs hset (by decide) (by decide) (counted_cnt _ _ 1)
  obtain ⟨hint, hjrn⟩ : t.rd GRF_GRAFT_INT_FAIL = 1 ∧
      onlyRegsJrn [GRF_GRAFT_INT] ((s.setGraft 6).cnt GRAFT_FAIL_CNT) t :=
    State.raise_journal_shows _ _ _ _ _ (by decide) rfl (by decide)
  have hall : onlyRegs [GRF_GRAFT_STS, GRAFT_FAIL_CNT, GRAFT_FAIL_CNT + 4, GRF_GRAFT_INT] s
      ((s.setGraft 6).cnt GRAFT_FAIL_CNT) := (hset.mono (by simp)).trans (hcnt.mono (by simp))
  exact ⟨(hjrn.2.rd (by decide)).trans ((hcnt.2.rd (by decide)).trans hst),
    (hjrn.2.rd (by decide)).trans ((hcnt.2.rd (by decide)).trans hbusy), hjrn.2.counted hcounted (by decide) (by decide), hint,
    hall.jrn.trans (hjrn.mono (by simp))⟩

theorem State.graftLogUe_idle {s : State} (h2 : s.graftSt ≠ 2) (h5 : s.graftSt ≠ 5) : s.graftLogUe = s := by
  unfold State.graftLogUe
  exact if_pos (by simp [h2, h5])

theorem State.graftLogUe_fails {s : State} (h : s.graftSt = 2 ∨ s.graftSt = 5) :
    ∃ body, s.graftLogUe = (s.failReported body).graftReply 10 0 := by
  unfold State.graftLogUe
  dsimp only
  rw [if_neg (by rcases h with h | h <;> simp [h])]
  exact ⟨_, rfl⟩

/-- The answer to the command that awaits the graft, after steps that journal. -/
theorem onlyRegsJrn.graftReply {l : List Nat} {s v : State} (hv : onlyRegsJrn l s v) (st r : Nat) {t : State}
    (ht : t = v.graftReply st r) : t.regs = v.regs ∧ t.gr = { s.gr with by_ := none } ∧
      (s.gr.by_ = none → t.svn = s.svn) ∧ (∀ c i, s.gr.by_ = some (c, i) → t.svn = (s.cmdEnd c i st r).svn) ∧
      t = { s with regs := t.regs, msi := t.msi, jrn := t.jrn, gr := t.gr, svn := t.svn } := by
  have honly := hv.1
  have hgr : v.gr = s.gr := (congrArg State.gr honly :)
  have hsvn : v.svn = s.svn := (congrArg State.svn honly :)
  obtain ⟨hnone, hsome, hreply⟩ := v.graftReply_shows st r
  rw [← ht] at hnone hsome hreply
  rw [hgr] at hnone hsome hreply
  have htr : t.regs = v.regs := (congrArg State.regs hreply :)
  have htm : t.msi = v.msi := (congrArg State.msi hreply :)
  have htj : t.jrn = v.jrn := (congrArg State.jrn hreply :)
  have htg : t.gr = { s.gr with by_ := none } := (congrArg State.gr hreply :)
  refine ⟨htr, htg, fun h => (hnone h).trans hsvn, fun c i h => (hsome c i h).trans (State.cmdEnd_svn_congr hsvn c i st r), ?_⟩
  rw [htr, htm, htj, htg]
  generalize t.svn = x at hreply ⊢
  generalize v.regs = q at honly ⊢
  generalize v.msi = m at honly ⊢
  generalize v.jrn = j at honly ⊢
  rw [hreply, honly]

/-- A log that cannot be read fails the graft into RESYNC. -/
theorem State.graftLogUe_shows {s : State} (h : s.graftSt = 2 ∨ s.graftSt = 5) {t : State} (ht : t = s.graftLogUe) :
    t.rd GRF_GRAFT_STS_STATE = 6 ∧ t.rd GRF_GRAFT_STS_BUSY = 1 ∧ counted GRAFT_FAIL_CNT 1 s t ∧
      t.rd GRF_GRAFT_INT_FAIL = 1 ∧ t.gr = { s.gr with by_ := none } ∧
      (s.gr.by_ = none → t.svn = s.svn) ∧ (∀ c i, s.gr.by_ = some (c, i) → t.svn = (s.cmdEnd c i 10 0).svn) ∧
      t = { s with regs := t.regs, msi := t.msi, jrn := t.jrn, gr := t.gr, svn := t.svn } ∧
      regsKept (jrnRegs ++ [GRF_GRAFT_STS, GRAFT_FAIL_CNT, GRAFT_FAIL_CNT + 4, GRF_GRAFT_INT]) s t := by
  obtain ⟨body, hbody⟩ := State.graftLogUe_fails h
  obtain ⟨hst, hbusy, hcnt, hint, hv⟩ := s.failReported_shows body
  obtain ⟨hregs, hgr, hnone, hsome, honly⟩ := hv.graftReply 10 0 (ht.trans hbody)
  exact ⟨(State.rd_congr hregs _).trans hst, (State.rd_congr hregs _).trans hbusy,
    counted_congr hcnt (State.reg_congr hregs _) (State.reg_congr hregs _), (State.rd_congr hregs _).trans hint, hgr, hnone,
    hsome, honly, fun a ha => (State.reg_congr hregs a).trans (hv.2 a ha)⟩

/-! ### DRAIN and CATCHUP (R126) -/

theorem State.genRetire_held {s : State} (h : s.genHolders ((s.rd GRF_GEN_CUR_GEN + 65535) % 65536) ≠ []) :
    s.genRetire = s := by
  unfold State.genRetire
  exact if_pos (by simp [h])

/-- The old generation shown as retired, raised and journaled. -/
def State.retireReported (s : State) (old : Nat) : State :=
  (((s.wr GRF_GEN_CUR_PREV_LIVE 0).setGraft 5).raise GRF_GRAFT_INT_RETIRED).journal islMgmt 0x0203 0 (natLe 2 old)

theorem State.genRetire_free {s : State} (hst : s.graftSt = 4)
    (h : s.genHolders ((s.rd GRF_GEN_CUR_GEN + 65535) % 65536) = []) :
    s.genRetire = (s.retireReported ((s.rd GRF_GEN_CUR_GEN + 65535) % 65536)).graftPhase := by
  unfold State.genRetire
  exact if_neg (by simp [h, hst])

theorem State.retireReported_shows (s : State) (old : Nat) : let t := s.retireReported old
    t.rd GRF_GEN_CUR_PREV_LIVE = 0 ∧ t.rd GRF_GEN_CUR_GEN = s.rd GRF_GEN_CUR_GEN ∧ t.rd GRF_GRAFT_STS_STATE = 5 ∧
      t.rd GRF_GRAFT_STS_BUSY = 1 ∧ t.rd GRF_GRAFT_INT_RETIRED = 1 ∧
      onlyRegsJrn [GRF_GEN_CUR, GRF_GRAFT_STS, GRF_GRAFT_INT] s t := by
  intro t
  have hlive : onlyRegs [GRF_GEN_CUR] s (s.wr GRF_GEN_CUR_PREV_LIVE 0) := onlyRegs_wr s _ (List.mem_singleton_self _)
  have hset := onlyRegs_setGraft (s.wr GRF_GEN_CUR_PREV_LIVE 0) 5
  obtain ⟨hst, hbusy⟩ := (s.wr GRF_GEN_CUR_PREV_LIVE 0).rd_setGraft (st := 5) (by decide)
  obtain ⟨hint, hjrn⟩ : t.rd GRF_GRAFT_INT_RETIRED = 1 ∧
      onlyRegsJrn [GRF_GRAFT_INT] ((s.wr GRF_GEN_CUR_PREV_LIVE 0).setGraft 5) t :=
    State.raise_journal_shows _ _ _ _ _ (by decide) rfl (by decide)
  have hall : onlyRegs [GRF_GEN_CUR, GRF_GRAFT_STS, GRF_GRAFT_INT] s ((s.wr GRF_GEN_CUR_PREV_LIVE 0).setGraft 5) :=
    (hlive.mono (by simp)).trans (hset.mono (by simp))
  exact ⟨(hjrn.2.rd (by decide)).trans ((hset.2.rd (by decide)).trans (State.rd_wr_same _ _ _ (by decide))),
    (hjrn.2.rd (by decide)).trans ((hset.2.rd (by decide)).trans (State.rd_wr_beside _ _ (by decide) (by decide))),
    (hjrn.2.rd (by decide)).trans hst, (hjrn.2.rd (by decide)).trans hbusy, hint, hall.jrn.trans (hjrn.mono (by simp))⟩

/-- What a phase of a graft asks of the Trunk bus. -/
def State.graftWant (s : State) (n : Nat) : List TrkReq := s.trk.want ++ List.replicate n ⟨trkGraft, 5, s.time.mono⟩

theorem State.graftPhase_eq (s : State) : s.graftPhase =
    { s with gr := { s.gr with phaseEnd := s.time.mono + 400 * s.gr.log.length }
             trk := { s.trk with want := s.graftWant s.gr.log.length } } := (rfl)

/-- A phase started after steps that journal. -/
theorem onlyRegsJrn.graftPhase {l : List Nat} {s v : State} (hv : onlyRegsJrn l s v) {t : State} (ht : t = v.graftPhase) :
    t.regs = v.regs ∧ t.gr = { s.gr with phaseEnd := s.time.mono + 400 * s.gr.log.length } ∧
      t.trk.want = s.graftWant s.gr.log.length ∧
      t = { s with regs := t.regs, msi := t.msi, jrn := t.jrn, gr := t.gr, trk := { s.trk with want := t.trk.want } } := by
  obtain ⟨honly, -⟩ := hv
  rw [State.graftPhase_eq] at ht
  have hgr : v.gr = s.gr := (congrArg State.gr honly :)
  have htime : v.time = s.time := (congrArg State.time honly :)
  have htrk : v.trk = s.trk := (congrArg State.trk honly :)
  have hwant : v.graftWant v.gr.log.length = s.graftWant s.gr.log.length := by
    unfold State.graftWant; rw [hgr, htrk, htime]
  have hx : ({ v.gr with phaseEnd := v.time.mono + 400 * v.gr.log.length } : GraftSt) =
      { s.gr with phaseEnd := s.time.mono + 400 * s.gr.log.length } := by rw [hgr, htime]
  rw [hwant, hx] at ht
  have htr : t.regs = v.regs := (congrArg State.regs ht :)
  have htm : t.msi = v.msi := (congrArg State.msi ht :)
  have htj : t.jrn = v.jrn := (congrArg State.jrn ht :)
  have htg : t.gr = { s.gr with phaseEnd := s.time.mono + 400 * s.gr.log.length } := (congrArg State.gr ht :)
  have htw : t.trk.want = s.graftWant s.gr.log.length := (congrArg (·.trk.want) ht :)
  refine ⟨htr, htg, htw, ?_⟩
  rw [htr, htm, htj, htg, htw]
  generalize v.regs = q at honly ⊢
  generalize v.msi = m at honly ⊢
  generalize v.jrn = j at honly ⊢
  rw [ht, honly]

/-- The retirement shown once no bough holds the old generation: CATCHUP begins. -/
theorem State.genRetire_shows {s : State} (hst : s.graftSt = 4)
    (hfree : s.genHolders ((s.rd GRF_GEN_CUR_GEN + 65535) % 65536) = []) {t : State} (ht : t = s.genRetire) :
    t.rd GRF_GEN_CUR_PREV_LIVE = 0 ∧ t.rd GRF_GEN_CUR_GEN = s.rd GRF_GEN_CUR_GEN ∧ t.rd GRF_GRAFT_STS_STATE = 5 ∧
      t.rd GRF_GRAFT_STS_BUSY = 1 ∧ t.rd GRF_GRAFT_INT_RETIRED = 1 ∧
      t.gr = { s.gr with phaseEnd := s.time.mono + 400 * s.gr.log.length } ∧ t.trk.want = s.graftWant s.gr.log.length ∧
      t = { s with regs := t.regs, msi := t.msi, jrn := t.jrn, gr := t.gr, trk := { s.trk with want := t.trk.want } } ∧
      regsKept (jrnRegs ++ [GRF_GEN_CUR, GRF_GRAFT_STS, GRF_GRAFT_INT]) s t := by
  obtain ⟨hlive, hgen, hst', hbusy, hint, hv⟩ := s.retireReported_shows ((s.rd GRF_GEN_CUR_GEN + 65535) % 65536)
  obtain ⟨hregs, hgr, hwant, honly⟩ := hv.graftPhase (ht.trans (State.genRetire_free hst hfree))
  exact ⟨(State.rd_congr hregs _).trans hlive, (State.rd_congr hregs _).trans hgen, (State.rd_congr hregs _).trans hst',
    (State.rd_congr hregs _).trans hbusy, (State.rd_congr hregs _).trans hint, hgr, hwant, honly,
    fun a ha => (State.reg_congr hregs a).trans (hv.2 a ha)⟩

theorem State.drainSlow_silent {s : State} (h : s.rd GRF_GRAFT_CFG_DRAIN_WARN = 0 ∨ s.gr.warned = true) : s.drainSlow = s := by
  unfold State.drainSlow
  exact if_pos (by rcases h with h | h <;> simp [h])

theorem State.drainSlow_warns {s : State} (hst : s.graftSt = 4) (hw : s.rd GRF_GRAFT_CFG_DRAIN_WARN ≠ 0)
    (hn : s.gr.warned = false) (hdue : s.gr.drainAt + s.rd GRF_GRAFT_CFG_DRAIN_WARN * 8000000 ≤ s.time.mono) :
    s.drainSlow = (({ s with gr := { s.gr with warned := true } } : State).raise GRF_GRAFT_INT_DRAIN_SLOW).journal islMgmt 0x0205 0
      (natLe 2 ((s.rd GRF_GEN_CUR_GEN + 65535) % 65536) ++ [0, 0] ++
        natLe 4 ((s.genHolders ((s.rd GRF_GEN_CUR_GEN + 65535) % 65536)).foldl (fun m b => m + 2 ^ b) 0)) := by
  unfold State.drainSlow
  dsimp only
  rw [if_neg (by simp [hst, hw, hn]), State.waitMono_due _ _ hdue]

/-! ### RESYNC (R120) -/

theorem State.resyncDone_copies {s : State} (hst : s.graftSt = 6) : s.resyncDone =
    (((genTables.foldl (fun t id => t.tblCopy id (s.rd GRF_GEN_CUR_GEN % 2) (1 - s.rd GRF_GEN_CUR_GEN % 2)) s).trunkAsk trkGraft 5
      s.resyncSize).putLog []).setGraft 0 := by
  unfold State.resyncDone
  exact if_neg (not_not.2 hst)

/-- Tables copied one after another change the tables alone. -/
theorem State.tblCopies_only (s : State) (l : List Nat) (c d : Nat) : l.foldl (fun t id => t.tblCopy id c d) s =
    { s with tbl := (l.foldl (fun t id => t.tblCopy id c d) s).tbl } := by
  induction l generalizing s with
  | nil => rfl
  | cons id l ih => rw [List.foldl_cons, ih]; rfl

theorem State.resyncDone_shows {s : State} (hst : s.graftSt = 6) {t : State} (ht : t = s.resyncDone) :
    t.tbl = (genTables.foldl (fun u id => u.tblCopy id (s.rd GRF_GEN_CUR_GEN % 2) (1 - s.rd GRF_GEN_CUR_GEN % 2)) s).tbl ∧
      t.gr = { s.gr with log := [] } ∧ t.rd GRF_LOG_STS_STAGED = 0 ∧ t.rd GRF_GRAFT_STS_STATE = 0 ∧
      t.rd GRF_GRAFT_STS_BUSY = 0 ∧ t.trk.want = s.graftWant s.resyncSize ∧
      t = { s with regs := t.regs, tbl := t.tbl, gr := t.gr, trk := { s.trk with want := t.trk.want } } ∧
      regsKept [GRF_LOG_STS, GRF_GRAFT_STS] s t := by
  rw [State.resyncDone_copies hst] at ht
  have hcopy := s.tblCopies_only genTables (s.rd GRF_GEN_CUR_GEN % 2) (1 - s.rd GRF_GEN_CUR_GEN % 2)
  generalize genTables.foldl (fun u id => u.tblCopy id (s.rd GRF_GEN_CUR_GEN % 2) (1 - s.rd GRF_GEN_CUR_GEN % 2)) s = u
    at ht hcopy ⊢
  have hask : u.trunkAsk trkGraft 5 s.resyncSize =
      { s with tbl := u.tbl, trk := { s.trk with want := s.graftWant s.resyncSize } } := by
    generalize u.tbl = b at hcopy ⊢
    rw [hcopy]; rfl
  obtain ⟨hst', hbusy, hlog, honly, hkept⟩ := (u.trunkAsk trkGraft 5 s.resyncSize).putLog_setGraft_shows (st := 0) (by decide)
  rw [← ht] at hst' hbusy hlog honly hkept
  generalize u.trunkAsk trkGraft 5 s.resyncSize = v at hask honly hkept
  have hvr : v.regs = s.regs := (congrArg State.regs hask :)
  have hvg : v.gr = s.gr := (congrArg State.gr hask :)
  have htt : t.tbl = u.tbl := (congrArg State.tbl honly :).trans (congrArg State.tbl hask :)
  have htw : t.trk.want = s.graftWant s.resyncSize := (congrArg (·.trk.want) honly :).trans (congrArg (·.trk.want) hask :)
  have htg : t.gr = { s.gr with log := [] } := by rw [← hvg]; exact (congrArg State.gr honly :)
  refine ⟨htt, htg, hlog, hst', hbusy, htw, ?_, regsKept_of_regs hvr hkept⟩
  rw [htt, htg, htw]
  generalize t.regs = q at honly ⊢
  rw [honly, hask]

/-! ### The registers that the graft guards (R106, R122) -/

theorem State.logCfgWrite_idle {s : State} (h : s.graftSt = 0) (v : Nat) :
    (s.logCfgWrite v).rd GRF_LOG_CFG_BASE = v % 2 ^ 14 ∧ (s.logCfgWrite v).rd GRF_LOG_CFG_SIZE = v / 2 ^ 16 % 2 ^ 7 ∧
      onlyRegs [GRF_LOG_CFG] s (s.logCfgWrite v) := by
  have hfields : fieldsAt GRF_LOG_CFG = [⟨0, 14, .rw, 0⟩, ⟨16, 7, .rw, 0x28⟩] := by decide
  have hapart : (fieldsAt GRF_LOG_CFG).Pairwise RegField.apart := by
    rw [hfields]; simp [RegField.apart]
  have hw : s.logCfgWrite v = s.hostWrite GRF_LOG_CFG v := if_pos h
  obtain ⟨honly, hkept⟩ := s.hostWrite_only GRF_LOG_CFG v
  rw [hw]
  refine ⟨?_, ?_, honly, hkept⟩
  · refine (State.rd_hostWrite_rw s GRF_LOG_CFG_BASE v hapart (f := ⟨0, 14, .rw, 0⟩) ?_ rfl rfl rfl (by decide)).trans ?_
    · simp [GRF_LOG_CFG_BASE, hfields]
    · rw [getBits_eq]; simp [GRF_LOG_CFG_BASE]
  · refine (State.rd_hostWrite_rw s GRF_LOG_CFG_SIZE v hapart (f := ⟨16, 7, .rw, 0x28⟩) ?_ rfl rfl rfl (by decide)).trans ?_
    · simp [GRF_LOG_CFG_SIZE, hfields]
    · exact getBits_eq v 16 7

/-- A write refused: flagged, and nothing else. -/
theorem State.cfgRej_shows (s : State) : (s.wr GRF_GRAFT_STS_CFG_REJ_STK 1).rd GRF_GRAFT_STS_CFG_REJ_STK = 1 ∧
    onlyRegs [GRF_GRAFT_STS] s (s.wr GRF_GRAFT_STS_CFG_REJ_STK 1) :=
  ⟨State.rd_wr_same _ _ _ (by decide), onlyRegs_wr s _ (List.mem_singleton_self _)⟩

end Sys2Proof.Machine
end

section
/-!
SUPPORT. The course of a graft (O46).
-/
namespace Sys2Proof.Machine

theorem exec_graftApplyDone {s : State} (h : s.alive islMgmt = true) : exec .graftApplyDone s = .next s.graftApplyDone :=
  onIsl_up (f := (·.graftApplyDone)) h

theorem exec_catchupDone {s : State} (h : s.alive islMgmt = true) : exec .catchupDone s = .next s.catchupDone :=
  onIsl_up (f := (·.catchupDone)) h

theorem exec_genFlip {s : State} {b : Fin 32} (h : s.alive (islBough b.val) = true) : exec (.genFlip b) s = .next (s.genFlip b.val) :=
  onIsl_up (f := (·.genFlip b.val)) h

theorem exec_flipTimerExpire {s : State} (h : s.alive islMgmt = true) : exec .flipTimerExpire s = .next s.flipTimer :=
  onIsl_up (f := (·.flipTimer)) h

theorem exec_genRetire {s : State} (h : s.alive islMgmt = true) : exec .genRetire s = .next s.genRetire :=
  onIsl_up (f := (·.genRetire)) h

theorem exec_drainSlow {s : State} (h : s.alive islMgmt = true) : exec .drainSlow s = .next s.drainSlow :=
  onIsl_up (f := (·.drainSlow)) h

theorem exec_graftLogUe {s : State} (h : s.alive islMgmt = true) : exec .graftLogUe s = .next s.graftLogUe :=
  onIsl_up (f := (·.graftLogUe)) h

theorem exec_resyncDone {s : State} (h : s.alive islMgmt = true) : exec .resyncDone s = .next s.resyncDone :=
  onIsl_up (f := (·.resyncDone)) h

/-- A bough flips when its time has come; the last takes the graft into DRAIN. -/
theorem State.genFlip_due {s : State} {b : Nat} (hst : s.graftSt = 3) (hb : bit s.gr.flipped b = false)
    (hdue : s.rd64 GRF_FLIP_TS ≤ s.now (islBough b)) : s.genFlip b =
      if s.gr.flipped ||| 2 ^ b = 2 ^ 32 - 1 then
        ({ s with gr := { s.gr with flipped := s.gr.flipped ||| 2 ^ b } } : State).enterDrain
      else { s with gr := { s.gr with flipped := s.gr.flipped ||| 2 ^ b } } := by
  unfold State.genFlip
  rw [if_neg (by simp [hst, hb]), State.waitIsl_due _ _ _ hdue]

theorem State.flipTimer_due {s : State} (hst : s.graftSt = 3) (hdue : s.gr.timerEnd ≤ s.time.mono) :
    s.flipTimer = ({ s with gr := { s.gr with flipped := 2 ^ 32 - 1 } } : State).enterDrain := by
  unfold State.flipTimer
  rw [if_neg (not_not.2 hst), State.waitMono_due _ _ hdue]

/-! ### The obligation -/

/-- Settles O46, clause by clause from the lemmas above. That DRAIN_SLOW names the generation that drains, and that a command
whose graft fails ends with status 10, is the model's assumption 75. -/
theorem graftCourse : Obligations.GraftCourse := by
  unfold Obligations.GraftCourse
  refine ⟨fun s hd hp => State.logRead_clean hd hp, ?poisoned, ?applied, ?flip, ?timer, ?answered, ?drained, ?drain, ?failed,
    ?caughtUp, ?resynced, ?logCfg, ?rsCfg⟩
  case poisoned =>
    intro s hup _ hdue hbad
    refine ⟨fun hst => ?_, fun hst => ?_⟩
    · rw [exec_graftApplyDone hup, State.graftApplyDone_poisoned hst hdue hbad]
    · rw [exec_catchupDone hup, State.catchupDone_poisoned hst hdue hbad]
  case applied =>
    intro s hup hst hdue hok
    obtain ⟨htbl, hlog⟩ := s.logRead.2.logApply_shows ((s.logRead.2.rd GRF_GEN_CUR_GEN + 1) % 2)
    obtain ⟨hst', hbusy, hts, ht, hkept⟩ := hlog.flipArmed rfl
    obtain ⟨htt, htg, honly⟩ := hlog.withGr ht
    rw [exec_graftApplyDone hup, State.graftApplyDone_read hst hdue hok]
    exact ⟨_, rfl, hst', hbusy, hts, htt.trans htbl, htg, honly, hkept⟩
  case flip =>
    intro s b hup hst hb hdue
    rw [exec_genFlip hup, State.genFlip_due hst hb hdue]
  case timer =>
    intro s hup hst hdue
    rw [exec_flipTimerExpire hup, State.flipTimer_due hst hdue]
  case answered =>
    intro s c i hby
    have hans := State.enterDrain_awaited hby
    refine ⟨fun h0 => ?_, fun h0 hdma => ?_, fun h0 hdma => ?_⟩
    · exact hans.trans (if_pos h0)
    · exact hans.trans ((if_neg h0).trans (if_pos hdma))
    · exact hans.trans ((if_neg h0).trans (if_neg (ne_true_of_eq_false hdma)))
  case drained =>
    intro s hby
    obtain ⟨hgen, hlive, hst, hbusy, hcnt, hint, hsw, honly, hkept⟩ := State.inDrain_shows (State.enterDrain_unawaited hby)
      (Nat.mod_lt _ (by decide))
    have hgr : s.enterDrain.gr = s.drainGr := (congrArg State.gr honly :)
    refine ⟨hgen, hlive, hst, hbusy, hcnt, hint, hgr.trans ?_, hsw, ?_, hkept⟩
    · rw [← hby]; rfl
    · rw [hgr]; exact honly
  case drain =>
    intro s hup hst old held
    refine ⟨fun hheld => ?_, fun hfree => ?_, fun w hw hw0 hn hdue => ?_, fun hsil => ?_⟩
    · rw [exec_genRetire hup, State.genRetire_held hheld]
    · exact ⟨_, exec_genRetire hup, State.genRetire_shows hst hfree rfl⟩
    · subst hw
      rw [exec_drainSlow hup, State.drainSlow_warns hst hw0 hn hdue]
      rfl
    · rw [exec_drainSlow hup, State.drainSlow_silent hsil]
  case failed =>
    intro s hup
    refine ⟨fun h => ⟨_, exec_graftLogUe hup, State.graftLogUe_shows h rfl⟩, fun h2 h5 => ?_⟩
    rw [exec_graftLogUe hup, State.graftLogUe_idle h2 h5]
  case caughtUp =>
    intro s hup hst hdue hok
    obtain ⟨htbl, hlog⟩ := s.logRead.2.logApply_shows ((s.logRead.2.rd GRF_GEN_CUR_GEN + 1) % 2)
    have hgr : (s.logRead.2.logApply ((s.logRead.2.rd GRF_GEN_CUR_GEN + 1) % 2)).gr = s.logRead.2.gr :=
      (congrArg State.gr hlog.1 :)
    obtain ⟨hst', hbusy, hstaged, ht, hkept⟩ := (s.logRead.2.logApply
      ((s.logRead.2.rd GRF_GEN_CUR_GEN + 1) % 2)).putLog_setGraft_shows (st := 0) (by decide)
    rw [hgr] at ht
    obtain ⟨htt, htg, honly⟩ := hlog.withGr ht
    rw [exec_catchupDone hup, State.catchupDone_read hst hdue hok]
    exact ⟨_, rfl, htt.trans htbl, htg, hstaged, hst', hbusy, honly, hlog.2.trans hkept (by simp) (by simp)⟩
  case resynced =>
    intro s hup hst
    exact ⟨_, exec_resyncDone hup, State.resyncDone_shows hst rfl⟩
  case logCfg =>
    intro s v hup
    have hexec : exec (.grfLogCfgWrite v) s = .next (s.logCfgWrite v.toNat) := onBar0_up (f := (·.logCfgWrite v.toNat)) hup
    refine ⟨fun hst => ⟨_, hexec, State.logCfgWrite_idle hst v.toNat⟩, fun hst => ⟨_, hexec, ?_⟩⟩
    have hrej : s.logCfgWrite v.toNat = s.wr GRF_GRAFT_STS_CFG_REJ_STK 1 := if_neg hst
    rw [hrej]
    exact s.cfgRej_shows
  case rsCfg =>
    intro s v hup
    exact ⟨_, onBar0_up (f := (·.wr GRF_GRAFT_STS_CFG_REJ_STK 1)) hup, s.cfgRej_shows⟩

end Sys2Proof.Machine
end

section
/-!
SUPPORT. A command that executes next on its channel, and the knots: their leases, the registers that show them, what gives
and frees one (R120, R365 to R367, R376 to R378).
-/
namespace Sys2Proof.Machine

/-! ### A command that executes next -/

theorem State.cmdSettle_ready {s : State} {c idx op : Nat} {m : Cmd} (h : s.readyCmd c idx op m) (n : Nat) :
    s.cmdSettle c n = s := by
  obtain ⟨hnext, -, hop, htag, hallow⟩ := h
  have hfresh : ((s.chan c).lastV && m.tag == (s.chan c).lastTag) = false := by
    rcases htag with h | h <;> simp [h]
  cases n with
  | zero => rfl
  | succ n =>
    unfold State.cmdSettle
    dsimp only
    rw [hnext]
    dsimp only
    rw [hfresh, if_neg Bool.false_ne_true, hop, hallow, if_neg (by decide)]

/-- The row of a command that executes next runs the command. -/
theorem onCmd_ready {s : State} {c : BitVec 10} {i : BitVec 16} {op : Nat} {m : Cmd} {f : Cmd → State → State}
    (halive : s.alive islMgmt = true) (h : s.readyCmd c.toNat i.toNat op m) : onCmd c i op s f = .next (f m s) := by
  have hsettle := State.cmdSettle_ready h 256
  obtain ⟨hnext, hidx, hop, -⟩ := h
  refine (onIsl_up halive).trans (congrArg _ ?_)
  unfold State.cmdRun
  rw [hsettle]
  dsimp only
  rw [hnext]
  exact if_pos ⟨hidx, hop⟩

theorem State.cmdStarted_only (s : State) (c i : Nat) :
    s.cmdStarted c i = { s with svn := { s.svn with ch := (s.cmdStarted c i).svn.ch } } := (rfl)

theorem State.cmdStarted_ch_congr {s t : State} (h : t.svn.ch = s.svn.ch) (c i : Nat) :
    (t.cmdStarted c i).svn.ch = (s.cmdStarted c i).svn.ch := by
  unfold State.cmdStarted State.modCmd State.putChan State.chan; rw [h]

theorem State.cmdStarted_svn_congr {s t : State} (h : t.svn = s.svn) (c i : Nat) :
    (t.cmdStarted c i).svn = (s.cmdStarted c i).svn := by
  unfold State.cmdStarted State.modCmd State.putChan State.chan; rw [h]

/-! ### Who holds a knot -/

theorem State.holds_of_find {s : State} {c k : Nat} {x : Knot} (h : s.svn.knots.find? k = some x) (hc : x.ch = c) :
    s.holds c k = true := by
  unfold State.holds; rw [h]; simp [hc]

theorem State.ch_ne_of_holds {s : State} {c k : Nat} {x : Knot} (h : s.holds c k = false) (hx : s.svn.knots.find? k = some x) :
    x.ch ≠ c := fun hc => Bool.false_ne_true (h.symm.trans (State.holds_of_find hx hc))

/-- The state with other knots. -/
def State.withKnots (s : State) (a : Tab Knot) : State := { s with svn := { s.svn with knots := a } }

theorem State.withKnots_regs (s : State) (a : Tab Knot) : (s.withKnots a).regs = s.regs := (rfl)

theorem State.withKnots_svn (s : State) (a : Tab Knot) : (s.withKnots a).svn = { s.svn with knots := a } := (rfl)

theorem SVN_KNOT_OWN_ge (k : Nat) : 0x9000200 ≤ SVN_KNOT_OWN k := Nat.le_add_right _ _

/-! ### The leases shown (R378) -/

theorem onlyRegs_leaseShow (s : State) : onlyRegs (s.svn.knots.map (fun e => SVN_KNOT_OWN e.1)) s s.leaseShow :=
  onlyRegs_foldl _ s fun t e he => onlyRegs_wr t (f := SVN_KNOT_OWN_LEFT e.1) _ (List.mem_map_of_mem he)

/-- What remains of a lease stands in the upper half of its register. -/
theorem State.rd_leaseShow (s : State) {f : RFld} (hf : f.lsb + f.w ≤ 16) : s.leaseShow.rd f = s.rd f := by
  unfold State.leaseShow
  refine foldl_kept (·.rd f) _ (fun t e => ?_) _ _
  exact State.rd_wr_beside t _ (by simp [SVN_KNOT_OWN_LEFT]) (.inr hf)

/-- The end of a lease that starts at `t`. -/
def Knot.leasedAt (x : Knot) (t : Nat) : Knot := { x with until_ := t + x.lease * 8000000 }

theorem State.leaseStart_eq {s : State} {k : Nat} {x : Knot} (h : s.svn.knots.find? k = some x) :
    s.leaseStart k = (s.withKnots (s.svn.knots.insert k (x.leasedAt s.time.mono))).leaseShow := by
  unfold State.leaseStart; rw [h]; rfl

theorem State.leaseStart_shows {s : State} {k : Nat} {x : Knot} (h : s.svn.knots.find? k = some x) {t : State}
    (ht : t = s.leaseStart k) :
    (∀ f : RFld, f.lsb + f.w ≤ 16 → t.rd f = s.rd f) ∧
      t = { s with regs := t.regs, svn := { s.svn with knots := s.svn.knots.insert k (x.leasedAt s.time.mono) } } ∧
      regsKept (SVN_KNOT_OWN k :: s.svn.knots.map (fun e => SVN_KNOT_OWN e.1)) s t := by
  rw [State.leaseStart_eq h] at ht
  have hshow := onlyRegs_leaseShow (s.withKnots (s.svn.knots.insert k (x.leasedAt s.time.mono)))
  have honly := hshow.regs_only (State.leaseShow_msi _)
  rw [← ht] at hshow honly
  refine ⟨fun f hf => ?_, honly, fun a ha => ?_⟩
  · rw [ht, State.rd_leaseShow _ hf]; exact State.rd_congr (s.withKnots_regs _) f
  · refine (hshow.2 a fun hmem => ha ?_).trans (State.reg_congr (s.withKnots_regs _) a)
    obtain ⟨e, he, rfl⟩ := List.mem_map.1 hmem
    rcases Tab.mem_insert he with rfl | he
    · exact List.mem_cons_self
    · exact List.mem_cons_of_mem _ (List.mem_map_of_mem he)

/-! ### A knot given (R376) -/

/-- A knot shown as held by a channel. -/
def State.knotShown (s : State) (k c : Nat) : State :=
  ((s.wr SVN_KNOT_STS_HELD (s.rd SVN_KNOT_STS_HELD ||| 2 ^ k)).wr (SVN_KNOT_OWN_CH k) c).wr (SVN_KNOT_OWN_HELD k) 1

theorem State.knotShown_shows (s : State) {k c : Nat} (hk : k ≤ 15) (hc : c < 2 ^ 10) :
    bit ((s.knotShown k c).rd SVN_KNOT_STS_HELD) k = true ∧ (s.knotShown k c).rd (SVN_KNOT_OWN_CH k) = c ∧
      (s.knotShown k c).rd (SVN_KNOT_OWN_HELD k) = 1 ∧ onlyRegs [SVN_KNOT_STS, SVN_KNOT_OWN k] s (s.knotShown k c) := by
  have hapart : SVN_KNOT_OWN k ≠ SVN_KNOT_STS := Nat.ne_of_gt (Nat.lt_of_lt_of_le (by decide) (SVN_KNOT_OWN_ge k))
  unfold State.knotShown
  refine ⟨?_, ?_, State.rd_wr_same _ _ _ (by simp [SVN_KNOT_OWN_HELD]), ?_⟩
  · rw [State.rd_wr_addr (g := SVN_KNOT_STS_HELD) _ _ hapart, State.rd_wr_addr (g := SVN_KNOT_STS_HELD) _ _ hapart,
      State.rd_wr_same _ _ _ (by decide)]
    unfold bit
    rw [show SVN_KNOT_STS_HELD.w = 16 from rfl, Nat.testBit_mod_two_pow, Nat.testBit_or, Nat.testBit_two_pow_self]
    simp; omega
  · rw [State.rd_wr_beside (f := SVN_KNOT_OWN_HELD k) (g := SVN_KNOT_OWN_CH k) _ _ (by simp [SVN_KNOT_OWN_HELD])
      (by simp [SVN_KNOT_OWN_HELD, SVN_KNOT_OWN_CH]), State.rd_wr_same _ _ _ (by simp [SVN_KNOT_OWN_CH])]
    exact Nat.mod_eq_of_lt hc
  · exact ((onlyRegs_wr s (f := SVN_KNOT_STS_HELD) _ (by simp [SVN_KNOT_STS_HELD])).trans
      (onlyRegs_wr _ (f := SVN_KNOT_OWN_CH k) _ (by simp [SVN_KNOT_OWN_CH]))).trans
      (onlyRegs_wr _ (f := SVN_KNOT_OWN_HELD k) _ (by simp [SVN_KNOT_OWN_HELD]))

theorem State.knotShown_msi (s : State) (k c : Nat) : (s.knotShown k c).msi = s.msi := by
  simp only [State.knotShown, State.wr_msi]

/-- A knot in a channel's hands, its lease started. -/
def State.knotLeased (s : State) (c k mask lease : Nat) : State :=
  ((s.withKnots (s.svn.knots.insert k ⟨c, mask, lease, 0, []⟩)).knotShown k c).leaseStart k

theorem State.knotLeased_shows {s t : State} {c k mask lease : Nat} (hk : k ≤ 15) (hc : c < 2 ^ 10)
    (ht : t = s.knotLeased c k mask lease) :
    t.svn.knots.find? k = some ⟨c, mask, lease, s.time.mono + lease * 8000000, []⟩ ∧
      (∀ j, j ≠ k → t.svn.knots.find? j = s.svn.knots.find? j) ∧ bit (t.rd SVN_KNOT_STS_HELD) k = true ∧
      t.rd (SVN_KNOT_OWN_CH k) = c ∧ t.rd (SVN_KNOT_OWN_HELD k) = 1 ∧
      t = { s with regs := t.regs, svn := { s.svn with knots := t.svn.knots } } ∧
      regsKept ([SVN_KNOT_STS, SVN_KNOT_OWN k] ++ s.svn.knots.map (fun e => SVN_KNOT_OWN e.1)) s t := by
  unfold State.knotLeased at ht
  generalize hx : (⟨c, mask, lease, 0, []⟩ : Knot) = x at ht
  obtain ⟨hheld, hch, hown, hshown⟩ := (s.withKnots (s.svn.knots.insert k x)).knotShown_shows hk hc
  have hv := hshown.regs_only (State.knotShown_msi _ k c)
  have hregs := hshown.2
  generalize (s.withKnots (s.svn.knots.insert k x)).knotShown k c = v at ht hheld hch hown hv hregs
  have hsvn : v.svn = (s.withKnots (s.svn.knots.insert k x)).svn := (congrArg State.svn hv :)
  have htime : v.time = s.time := (congrArg State.time hv :)
  have hknots : v.svn.knots = s.svn.knots.insert k x := congrArg SvnSt.knots hsvn
  have hfind : v.svn.knots.find? k = some x := by rw [hknots, Tab.find_insert, if_pos rfl]
  obtain ⟨hbeside, honly, hkept⟩ := State.leaseStart_shows hfind ht
  have htk : t.svn.knots = v.svn.knots.insert k (x.leasedAt v.time.mono) := (congrArg (·.svn.knots) honly :)
  refine ⟨?_, fun j hj => ?_, ?_, ?_, ?_, ?_, fun a ha => ?_⟩
  · rw [htk, Tab.find_insert, if_pos rfl, htime, ← hx]; rfl
  · rw [htk, Tab.find_insert, if_neg (Ne.symm hj), hknots, Tab.find_insert, if_neg (Ne.symm hj)]
  · rw [hbeside _ (by decide)]; exact hheld
  · rw [hbeside _ (by simp [SVN_KNOT_OWN_CH])]; exact hch
  · rw [hbeside _ (by simp [SVN_KNOT_OWN_HELD])]; exact hown
  · rw [htk]
    generalize t.regs = r at honly ⊢
    rw [hsvn] at honly
    rw [honly, hv]; rfl
  · have hold : a ∉ SVN_KNOT_OWN k :: v.svn.knots.map (fun e => SVN_KNOT_OWN e.1) := fun hmem => ha <| by
      rcases List.mem_cons.1 hmem with rfl | hmem
      · simp
      · obtain ⟨e, he, rfl⟩ := List.mem_map.1 hmem
        rw [hknots] at he
        rcases Tab.mem_insert he with rfl | he
        · simp
        · exact List.mem_append_right _ (List.mem_map_of_mem he)
    exact (hkept a hold).trans ((hregs a fun h => ha (List.mem_append_left _ h)).trans (State.reg_congr (s.withKnots_regs _) a))

/-! ### A knot freed (R376, R378) -/

theorem bit_sub_two_pow_self {n k : Nat} (h : bit n k = true) : bit (n - 2 ^ k) k = false := by
  unfold bit at *
  rw [Nat.testBit_eq_decide_div_mod_eq] at *
  have hodd : n / 2 ^ k % 2 = 1 := by simpa using h
  have hsub : (n - 2 ^ k) / 2 ^ k = n / 2 ^ k - 1 := by
    simpa using Nat.sub_mul_div n (2 ^ k) 1
  rw [hsub]
  simp; omega

theorem State.knotFree_eq (s : State) (k : Nat) : s.knotFree k = ((s.withKnots (s.svn.knots.erase k)).wr SVN_KNOT_STS_HELD
    (if bit (s.rd SVN_KNOT_STS_HELD) k then s.rd SVN_KNOT_STS_HELD - 2 ^ k else s.rd SVN_KNOT_STS_HELD)).setReg
      (SVN_KNOT_OWN k) 0 := (rfl)

theorem State.knotFree_shows {s t : State} {k : Nat} (ht : t = s.knotFree k) :
    bit (t.rd SVN_KNOT_STS_HELD) k = false ∧ t.reg (SVN_KNOT_OWN k) = 0 ∧
      t = { s with regs := t.regs, svn := { s.svn with knots := s.svn.knots.erase k } } ∧
      regsKept [SVN_KNOT_STS, SVN_KNOT_OWN k] s t := by
  have hapart : SVN_KNOT_OWN k ≠ SVN_KNOT_STS := Nat.ne_of_gt (Nat.lt_of_lt_of_le (by decide) (SVN_KNOT_OWN_ge k))
  subst ht
  refine ⟨?_, ?_, rfl, fun a ha => ?_⟩
  · rw [State.knotFree_eq, State.rd_of_reg (State.reg_setReg_other _ 0 hapart), State.rd_wr_same _ _ _ (by decide)]
    unfold bit
    rw [Nat.testBit_mod_two_pow]
    split
    · rename_i h
      exact Bool.and_eq_false_imp.2 fun _ => bit_sub_two_pow_self h
    · rename_i h
      exact Bool.and_eq_false_imp.2 fun _ => Bool.eq_false_iff.2 h
  · rw [State.knotFree_eq]; exact State.reg_setReg_same _ _ _
  · rw [List.mem_cons, List.mem_singleton, not_or] at ha
    rw [State.knotFree_eq, State.reg_setReg_other _ 0 (Ne.symm ha.2), State.reg_wr_other (f := SVN_KNOT_STS_HELD) _ _ (Ne.symm ha.1)]
    exact State.reg_congr (s.withKnots_regs _) a

end Sys2Proof.Machine
end

section
/-!
SUPPORT. The commands on knots, GRAFT and PATCH case by case, and the end of a lease (R120, R247, R370, R376 to R378).
-/
namespace Sys2Proof.Machine

/-! ### KNOT_ACQ -/

theorem State.acqRefused_range (s : State) {c k mask : Nat} (hk : 15 < k) : s.acqRefused c k mask = some 2 := by
  unfold State.acqRefused
  exact if_pos hk

theorem State.acqRefused_taken (s : State) {c k mask : Nat} (hk : k ≤ 15)
    (h : (s.svn.knots.find? k).isSome = true ∨ (s.knotOf c).isSome = true) : s.acqRefused c k mask = some 5 := by
  unfold State.acqRefused
  rw [if_neg (by omega)]
  exact if_pos (by simpa using h)

/-- The graft knot, when nobody holds it nor the channel another, waits for no profile switch and no graft under way. -/
theorem State.acqRefused_graft {s : State} {c mask : Nat} (hfree : s.svn.knots.find? 0 = none) (hnone : s.knotOf c = none) :
    s.acqRefused c 0 mask = if s.sw.isSome then some 5 else if 2 ≤ s.graftSt then some 7 else none := by
  unfold State.acqRefused
  rw [if_neg (by decide), hfree, hnone, if_neg (by decide), if_pos rfl]

/-- Any other knot, when nobody holds it nor the channel another, is refused for its mask alone. -/
theorem State.acqRefused_mask {s : State} {c k mask : Nat} (hk : 1 ≤ k) (hk' : k ≤ 15) (hfree : s.svn.knots.find? k = none)
    (hnone : s.knotOf c = none) : s.acqRefused c k mask =
      if s.svn.knots.any (fun e => e.1 != 0 && (e.2.mask &&& mask) != 0) then some 5 else none := by
  unfold State.acqRefused
  rw [if_neg (by omega), hfree, hnone, if_neg (by decide), if_neg (by omega)]

theorem maskOverlap_true {a : Tab Knot} {mask : Nat} (h : ∃ e ∈ a, e.1 ≠ 0 ∧ (e.2.mask &&& mask) ≠ 0) :
    a.any (fun e => e.1 != 0 && (e.2.mask &&& mask) != 0) = true := by
  obtain ⟨e, he, h0, hm⟩ := h
  exact List.any_eq_true.2 ⟨e, he, by simp [h0, hm]⟩

theorem maskOverlap_false {a : Tab Knot} {mask : Nat} (h : ∀ e ∈ a, e.1 = 0 ∨ (e.2.mask &&& mask) = 0) :
    a.any (fun e => e.1 != 0 && (e.2.mask &&& mask) != 0) = false := by
  refine List.any_eq_false.2 fun e he => ?_
  rcases h e he with h | h <;> simp [h]

theorem State.acqRefused_none {s : State} {c k mask : Nat} (hfree : s.svn.knots.find? k = none) (hnone : s.knotOf c = none)
    (h : (k = 0 ∧ s.sw = none ∧ s.graftSt < 2) ∨
      (1 ≤ k ∧ k ≤ 15 ∧ ∀ e ∈ s.svn.knots, e.1 = 0 ∨ (e.2.mask &&& mask) = 0)) : s.acqRefused c k mask = none := by
  rcases h with ⟨rfl, hsw, hst⟩ | ⟨hk, hk', hmask⟩
  · rw [State.acqRefused_graft hfree hnone, hsw, if_neg (by decide), if_neg (by omega)]
  · rw [State.acqRefused_mask hk hk' hfree hnone, maskOverlap_false hmask, if_neg (by decide)]

/-- The tables that a KNOT_ACQ asks for, and its lease in ms. -/
def Cmd.knotMask (m : Cmd) : Nat := if m.table = 0 then 0 else getBits m.param 16 6
def State.knotLease (s : State) (m : Cmd) : Nat :=
  if m.param % 2 ^ 16 = 0 then max 1 (s.rd SVN_KNOT_CFG_LEASE) else m.param % 2 ^ 16

theorem exec_knotAcq_refused {s : State} {c : BitVec 10} {i : BitVec 16} {m : Cmd} {st : Nat} (halive : s.alive islMgmt = true)
    (h : s.readyCmd c.toNat i.toNat 0x10 m) (hst : s.acqRefused c.toNat m.table m.knotMask = some st) :
    exec (.knotAcq c i) s = .next (s.cmdEnd c.toNat i.toNat st 0) := by
  have hrun : exec (.knotAcq c i) s = .next (s.knotAcq c.toNat m) := onCmd_ready (f := fun m s => s.knotAcq c.toNat m) halive h
  obtain ⟨-, hidx, -⟩ := h
  rw [hrun, ← hidx]
  unfold State.knotAcq
  unfold Cmd.knotMask at hst
  dsimp only
  rw [hst]; rfl

theorem exec_knotAcq_given {s : State} {c : BitVec 10} {i : BitVec 16} {m : Cmd} (halive : s.alive islMgmt = true)
    (h : s.readyCmd c.toNat i.toNat 0x10 m) (hst : s.acqRefused c.toNat m.table m.knotMask = none) :
    exec (.knotAcq c i) s =
      .next ((s.knotGive c.toNat m.table m.knotMask (s.knotLease m)).cmdEnd c.toNat i.toNat 0 m.table) := by
  have hrun : exec (.knotAcq c i) s = .next (s.knotAcq c.toNat m) := onCmd_ready (f := fun m s => s.knotAcq c.toNat m) halive h
  obtain ⟨-, hidx, -⟩ := h
  rw [hrun, ← hidx]
  unfold State.knotAcq
  unfold Cmd.knotMask at hst ⊢
  dsimp only
  rw [hst]; rfl

theorem State.knotGive_eq (s : State) (c k mask lease : Nat) : s.knotGive c k mask lease =
    if k = 0 then ((s.knotLeased c k mask lease).putLog []).setGraft 1 else s.knotLeased c k mask lease := (rfl)

/-- The graft after a knot is given: the graft knot empties the log and starts STAGING, another leaves it. -/
theorem State.knotGive_graft {s w g : State} {k : Nat} (hw : w = { s with regs := w.regs, svn := { s.svn with knots := w.svn.knots } })
    (hlow : ∀ f : RFld, f.addr = GRF_GRAFT_STS → w.rd f = s.rd f)
    (hg : g = if k = 0 then (w.putLog []).setGraft 1 else w) :
    g.svn = w.svn ∧ (k = 0 → g.gr = { s.gr with log := [] } ∧ g.graftSt = 1 ∧ g.rd GRF_LOG_STS_STAGED = 0) ∧
      (k ≠ 0 → g.gr = s.gr ∧ g.graftSt = s.graftSt) ∧
      g = { s with regs := g.regs, gr := g.gr, svn := { s.svn with knots := g.svn.knots } } ∧
      regsKept [GRF_LOG_STS, GRF_GRAFT_STS] w g := by
  have hgr : w.gr = s.gr := (congrArg State.gr hw :)
  by_cases hk : k = 0
  · rw [if_pos hk] at hg
    obtain ⟨hst, -, hstaged, honly, hkept⟩ := w.putLog_setGraft_shows (st := 1) (by decide)
    rw [← hg] at hst hstaged honly hkept
    have hsvn : g.svn = w.svn := (congrArg State.svn honly :)
    have hgg : g.gr = { s.gr with log := [] } := by rw [← hgr]; exact (congrArg State.gr honly :)
    refine ⟨hsvn, fun _ => ⟨hgg, hst, hstaged⟩, fun h => absurd hk h, ?_, hkept⟩
    rw [hgr] at honly
    rw [hsvn, hgg]
    generalize g.regs = r at honly ⊢
    generalize w.svn.knots = a at hw ⊢
    rw [honly, hw]
  · rw [if_neg hk] at hg
    subst hg
    refine ⟨rfl, fun h => absurd h hk, fun _ => ⟨hgr, hlow _ rfl⟩, ?_, fun _ _ => rfl⟩
    rw [hgr]
    exact hw

/-- A knot given by a KNOT_ACQ that ends. -/
theorem State.knotGiven_shows {s t : State} {c i k mask lease : Nat} (hk : k ≤ 15) (hc : c < 2 ^ 10)
    (ht : t = (s.knotGive c k mask lease).cmdEnd c i 0 k) :
    t.svn.knots.find? k = some ⟨c, mask, lease, s.time.mono + lease * 8000000, []⟩ ∧
      (∀ j, j ≠ k → t.svn.knots.find? j = s.svn.knots.find? j) ∧ bit (t.rd SVN_KNOT_STS_HELD) k = true ∧
      t.rd (SVN_KNOT_OWN_CH k) = c ∧ t.rd (SVN_KNOT_OWN_HELD k) = 1 ∧ t.svn.ch = (s.cmdEnd c i 0 k).svn.ch ∧
      (k = 0 → t.gr = { s.gr with log := [] } ∧ t.graftSt = 1 ∧ t.rd GRF_LOG_STS_STAGED = 0) ∧
      (k ≠ 0 → t.gr = s.gr ∧ t.graftSt = s.graftSt) ∧
      t = { s with regs := t.regs, gr := t.gr, svn := { s.svn with knots := t.svn.knots, ch := t.svn.ch } } ∧
      regsKept ([SVN_KNOT_STS, GRF_GRAFT_STS, GRF_LOG_STS, SVN_KNOT_OWN k] ++ s.svn.knots.map (fun e => SVN_KNOT_OWN e.1)) s t := by
  obtain ⟨hfind, hother, hheld, hch, hown, hw, hwk⟩ := State.knotLeased_shows (s := s) (mask := mask) (lease := lease) hk hc rfl
  have hg := s.knotGive_eq c k mask lease
  generalize s.knotLeased c k mask lease = w at hfind hother hheld hch hown hw hwk hg
  have hbelow {a : Nat} (ha : a < 0x9000020) :
      a ∉ [SVN_KNOT_STS, SVN_KNOT_OWN k] ++ s.svn.knots.map (fun e => SVN_KNOT_OWN e.1) := fun hmem => by
    simp only [List.cons_append, List.nil_append, List.mem_cons, List.mem_map] at hmem
    rcases hmem with rfl | rfl | ⟨e, -, rfl⟩
    · exact absurd ha (by decide)
    · exact absurd (SVN_KNOT_OWN_ge k) (by omega)
    · exact absurd (SVN_KNOT_OWN_ge e.1) (by omega)
  obtain ⟨hsvn, hgraft, hbeside, honly, hgk⟩ := State.knotGive_graft hw
    (fun f hf => hwk.rd (by rw [hf]; exact hbelow (by decide))) hg
  generalize s.knotGive c k mask lease = g at ht hsvn hgraft hbeside honly hgk
  have hgs : g.svn.ch = s.svn.ch := (congrArg (·.svn.ch) honly :)
  have hend := g.cmdEnd_only c i 0 k
  have hchs := State.cmdEnd_ch_congr hgs c i 0 k
  rw [← ht] at hend hchs
  have hregs : t.regs = g.regs := (congrArg State.regs hend :)
  have hgr : t.gr = g.gr := (congrArg State.gr hend :)
  have hknots : t.svn.knots = g.svn.knots := (congrArg (·.svn.knots) hend :)
  have howned (f : RFld) (hf : f.addr = SVN_KNOT_OWN k) : t.rd f = w.rd f := by
    refine (State.rd_congr hregs f).trans (hgk.rd ?_)
    have hge := SVN_KNOT_OWN_ge k
    simp only [hf, List.mem_cons, List.not_mem_nil, or_false, GRF_LOG_STS, GRF_GRAFT_STS]
    omega
  refine ⟨?_, ?_, ?_, (howned _ rfl).trans hch, (howned _ rfl).trans hown, hchs, fun h0 => ?_, fun h0 => ?_, ?_, ?_⟩
  · rw [hknots, hsvn]; exact hfind
  · rw [hknots, hsvn]; exact hother
  · rw [State.rd_congr hregs, hgk.rd (by decide)]; exact hheld
  · obtain ⟨hx, hst, hstaged⟩ := hgraft h0
    exact ⟨hgr.trans hx, (State.rd_congr hregs _).trans hst, (State.rd_congr hregs _).trans hstaged⟩
  · obtain ⟨hx, hst⟩ := hbeside h0
    exact ⟨hgr.trans hx, (State.rd_congr hregs _).trans hst⟩
  · rw [hregs, hgr, hknots]
    generalize t.svn.ch = x at hend ⊢
    generalize g.regs = r at honly ⊢
    generalize g.gr = y at honly ⊢
    generalize g.svn.knots = a at honly ⊢
    rw [hend, honly]
  · refine (hwk.trans hgk (n := [SVN_KNOT_STS, GRF_GRAFT_STS, GRF_LOG_STS, SVN_KNOT_OWN k] ++
      s.svn.knots.map (fun e => SVN_KNOT_OWN e.1)) ?_ (by simp)).trans (m := []) (fun a _ => State.reg_congr hregs a) (by simp) (by simp)
    intro a ha
    simp only [List.cons_append, List.nil_append, List.mem_cons] at ha ⊢
    tauto

end Sys2Proof.Machine
end

section
/-!
SUPPORT. KNOT_REL, KNOT_RENEW, GRAFT and PATCH, and the end of a lease (R120, R247, R370, R377, R378).
-/
namespace Sys2Proof.Machine

/-! ### KNOT_REL and KNOT_RENEW -/

theorem exec_knotRel {s t : State} {c : BitVec 10} {i : BitVec 16} {m : Cmd} (halive : s.alive islMgmt = true)
    (h : s.readyCmd c.toNat i.toNat 0x11 m) (ht : s.knotRel c.toNat m = t) : exec (.knotRel c i) s = .next t :=
  (onCmd_ready (f := fun m s => s.knotRel c.toNat m) halive h).trans (congrArg _ ht)

theorem exec_knotRenew {s t : State} {c : BitVec 10} {i : BitVec 16} {m : Cmd} (halive : s.alive islMgmt = true)
    (h : s.readyCmd c.toNat i.toNat 0x12 m) (ht : s.knotRenew c.toNat m = t) : exec (.knotRenew c i) s = .next t :=
  (onCmd_ready (f := fun m s => s.knotRenew c.toNat m) halive h).trans (congrArg _ ht)

theorem exec_graft {s t : State} {c : BitVec 10} {i : BitVec 16} {m : Cmd} (halive : s.alive islMgmt = true)
    (h : s.readyCmd c.toNat i.toNat 0x13 m) (ht : s.graftCmd c.toNat m = t) : exec (.graft c i) s = .next t :=
  (onCmd_ready (f := fun m s => s.graftCmd c.toNat m) halive h).trans (congrArg _ ht)

theorem exec_patch {s t : State} {c : BitVec 10} {i : BitVec 16} {m : Cmd} (halive : s.alive islMgmt = true)
    (h : s.readyCmd c.toNat i.toNat 0x14 m) (ht : s.patchCmd c.toNat m = t) : exec (.patch c i) s = .next t :=
  (onCmd_ready (f := fun m s => s.patchCmd c.toNat m) halive h).trans (congrArg _ ht)

theorem State.knotRel_range (s : State) (c : Nat) {m : Cmd} (hk : 15 < m.table) : s.knotRel c m = s.cmdEnd c m.idx 2 0 := by
  unfold State.knotRel
  exact if_pos hk

theorem State.knotRel_notHeld {s : State} {c : Nat} {m : Cmd} (hk : m.table ≤ 15) (h : s.holds c m.table = false) :
    s.knotRel c m = s.cmdEnd c m.idx 6 0 := by
  unfold State.knotRel
  dsimp only
  rw [if_neg (by omega), h]
  rfl

theorem State.knotRel_discards {s : State} {c : Nat} {m : Cmd} (hk : m.table ≤ 15) (h : s.holds c m.table = true)
    (hp : bit m.param 0 = false) : s.knotRel c m = (s.knotDrop m.table).cmdEnd c m.idx 0 0 := by
  unfold State.knotRel
  dsimp only
  rw [if_neg (by omega), h, if_neg (by decide), hp]
  rfl

theorem State.knotDrop_eq (s : State) (k : Nat) :
    s.knotDrop k = if k = 0 then ((s.knotFree 0).putLog []).setGraft 0 else s.knotFree k := by
  unfold State.knotDrop
  by_cases hk : k = 0
  · rw [if_pos hk, if_pos hk, hk]
  · rw [if_neg hk, if_neg hk]

/-- What APPLY does with a knot that the channel holds: nothing while a profile switches; GRAFT for the graft knot; the
staged writes in order for another. -/
def State.knotApply (s : State) (c : Nat) (m : Cmd) : State :=
  if s.sw.isSome then s
  else if m.table = 0 then s.graftCmd c m
  else
    match s.knotRun 0 0 (((s.svn.knots.find? m.table).map (·.staged)).getD []) with
    | none => s
    | some (st, n, t) => (t.knotFree m.table).endOf c m st n

theorem State.knotRel_applies {s : State} {c : Nat} {m : Cmd} (hk : m.table ≤ 15) (h : s.holds c m.table = true)
    (hp : bit m.param 0 = true) : s.knotRel c m = s.knotApply c m := by
  unfold State.knotRel
  dsimp only
  rw [if_neg (by omega), h, if_neg (by decide), hp, if_neg (by decide)]
  rfl

theorem State.knotApply_switching {s : State} {c : Nat} {m : Cmd} (h : s.sw.isSome = true) : s.knotApply c m = s := by
  unfold State.knotApply
  exact if_pos h

theorem State.knotApply_graft {s : State} {c : Nat} {m : Cmd} (hsw : s.sw = none) (hk : m.table = 0) :
    s.knotApply c m = s.graftCmd c m := by
  unfold State.knotApply
  rw [hsw, if_neg (by decide), if_pos hk]

theorem State.knotApply_waits {s : State} {c : Nat} {m : Cmd} {x : Knot} (hsw : s.sw = none) (hk : m.table ≠ 0)
    (hx : s.svn.knots.find? m.table = some x) (h : s.knotRun 0 0 x.staged = none) : s.knotApply c m = s := by
  unfold State.knotApply
  rw [hsw, if_neg (by decide), if_neg hk, hx, Option.map_some, Option.getD_some, h]

theorem State.knotApply_runs {s t : State} {c st n : Nat} {m : Cmd} {x : Knot} (hsw : s.sw = none) (hk : m.table ≠ 0)
    (hx : s.svn.knots.find? m.table = some x) (h : s.knotRun 0 0 x.staged = some (st, n, t)) :
    s.knotApply c m = (t.knotFree m.table).cmdEnd c m.idx st n := by
  unfold State.knotApply
  rw [hsw, if_neg (by decide), if_neg hk, hx, Option.map_some, Option.getD_some, h]
  rfl

theorem State.knotRenew_range (s : State) (c : Nat) {m : Cmd} (hk : 15 < m.table) :
    s.knotRenew c m = s.cmdEnd c m.idx 2 0 := by
  unfold State.knotRenew
  exact if_pos hk

theorem State.knotRenew_notHeld {s : State} {c : Nat} {m : Cmd} (h : s.holds c m.table = false) (hk : m.table ≤ 15) :
    s.knotRenew c m = s.cmdEnd c m.idx 6 0 := by
  unfold State.knotRenew
  rw [if_neg (by omega)]
  cases hx : s.svn.knots.find? m.table with
  | none => rfl
  | some x =>
    dsimp only
    rw [if_neg (State.ch_ne_of_holds h hx)]; rfl

theorem State.knotRenew_held {s : State} {c : Nat} {m : Cmd} {x : Knot} (hk : m.table ≤ 15)
    (hx : s.svn.knots.find? m.table = some x) (hc : x.ch = c) :
    s.knotRenew c m = (s.leaseStart m.table).cmdEnd c m.idx 0 x.lease := by
  unfold State.knotRenew
  rw [if_neg (by omega), hx]
  dsimp only
  rw [if_pos hc]; rfl

/-! ### GRAFT (R120) -/

theorem State.graftCmd_notHeld {s : State} {c : Nat} {m : Cmd} (h : s.holds c 0 = false) :
    s.graftCmd c m = s.cmdEnd c m.idx 6 0 := by
  unfold State.graftCmd
  rw [h]; rfl

theorem State.graftCmd_held {s : State} {c : Nat} {m : Cmd} (h : s.holds c 0 = true) :
    s.graftCmd c m = ((s.knotFree 0).graftStart (some (c, m.idx)) m.host).cmdStarted c m.idx := by
  unfold State.graftCmd
  rw [h]; rfl

theorem State.graftStart_eq (s : State) (by_ : Option (Nat × Nat)) (addr : Nat) : s.graftStart by_ addr =
    ((s.withGr { s.gr with by_ := by_, tflipAddr := addr }).setGraft 2).graftPhase := (rfl)

/-- An apply started: its phase runs over the log and asks for its transfers. -/
theorem State.graftStart_shows {s t : State} {by_ : Option (Nat × Nat)} {addr : Nat} (ht : t = s.graftStart by_ addr) :
    t.rd GRF_GRAFT_STS_STATE = 2 ∧ t.rd GRF_GRAFT_STS_BUSY = 1 ∧
      t.gr = { s.gr with by_ := by_, tflipAddr := addr, phaseEnd := s.time.mono + 400 * s.gr.log.length } ∧
      t.trk.want = s.graftWant s.gr.log.length ∧
      t = { s with regs := t.regs, gr := t.gr, trk := { s.trk with want := t.trk.want } } ∧ regsKept [GRF_GRAFT_STS] s t := by
  rw [State.graftStart_eq] at ht
  obtain ⟨hst, hbusy, honly, hset, -⟩ := State.setGraft_withGr_shows (s := s) (v := s) (l := []) rfl (fun _ _ => rfl)
    { s.gr with by_ := by_, tflipAddr := addr } (st := 2) (by decide)
  generalize (s.withGr { s.gr with by_ := by_, tflipAddr := addr }).setGraft 2 = v at ht hst hbusy honly hset
  rw [State.graftPhase_eq] at ht
  have hregs : t.regs = v.regs := (congrArg State.regs ht :)
  have hvg : v.gr = { s.gr with by_ := by_, tflipAddr := addr } := (congrArg State.gr honly :)
  have htime : v.time = s.time := (congrArg State.time honly :)
  have htrk : v.trk = s.trk := (congrArg State.trk honly :)
  have htg : t.gr = { s.gr with by_ := by_, tflipAddr := addr, phaseEnd := s.time.mono + 400 * s.gr.log.length } := by
    rw [← htime]
    have hphase : t.gr = { v.gr with phaseEnd := v.time.mono + 400 * v.gr.log.length } := (congrArg State.gr ht :)
    rw [hphase, hvg]
  have htw : t.trk.want = s.graftWant s.gr.log.length := by
    have hwant : t.trk.want = v.graftWant v.gr.log.length := (congrArg (·.trk.want) ht :)
    rw [hwant, hvg]
    unfold State.graftWant; rw [htrk, htime]
  refine ⟨(State.rd_congr hregs _).trans hst, (State.rd_congr hregs _).trans hbusy, htg, htw, ?_,
    fun a ha => (State.reg_congr hregs a).trans (hset a ha)⟩
  have hframe : t = { v with regs := t.regs, gr := t.gr, trk := { v.trk with want := t.trk.want } } := by rw [ht]
  generalize t.regs = r at hframe ⊢
  generalize t.gr = g at hframe ⊢
  generalize t.trk.want = w at hframe ⊢
  generalize v.regs = q at honly
  rw [hframe, honly]

/-- The batch committed: the graft knot is free, and the command ends later. -/
theorem State.graftCommitted_shows {s t : State} {c i addr : Nat}
    (ht : t = ((s.knotFree 0).graftStart (some (c, i)) addr).cmdStarted c i) :
    t.svn.knots.find? 0 = none ∧ t.rd GRF_GRAFT_STS_STATE = 2 ∧ t.rd GRF_GRAFT_STS_BUSY = 1 ∧
      t.gr = { s.gr with by_ := some (c, i), tflipAddr := addr, phaseEnd := s.time.mono + 400 * s.gr.log.length } ∧
      t.trk.want = s.graftWant s.gr.log.length ∧ t.svn.ch = (s.cmdStarted c i).svn.ch ∧
      t = { s with regs := t.regs, gr := t.gr, svn := { s.svn with knots := s.svn.knots.erase 0, ch := t.svn.ch },
                   trk := { s.trk with want := t.trk.want } } ∧
      regsKept [SVN_KNOT_STS, SVN_KNOT_OWN 0, GRF_GRAFT_STS] s t := by
  obtain ⟨-, -, hfree, hfk⟩ := State.knotFree_shows (s := s) (k := 0) rfl
  generalize s.knotFree 0 = v at ht hfree hfk
  have hvg : v.gr = s.gr := (congrArg State.gr hfree :)
  have htime : v.time = s.time := (congrArg State.time hfree :)
  have htrk : v.trk = s.trk := (congrArg State.trk hfree :)
  obtain ⟨hst, hbusy, hgr, hwant, hstart, hsk⟩ := State.graftStart_shows (s := v) (by_ := some (c, i)) (addr := addr) rfl
  generalize v.graftStart (some (c, i)) addr = u at ht hst hbusy hgr hwant hstart hsk
  have huch : u.svn.ch = s.svn.ch := (congrArg (·.svn.ch) hstart :).trans (congrArg (·.svn.ch) hfree :)
  have hend := u.cmdStarted_only c i
  have hchs := State.cmdStarted_ch_congr huch c i
  rw [← ht] at hend hchs
  have hregs : t.regs = u.regs := (congrArg State.regs hend :)
  have htg : t.gr = u.gr := (congrArg State.gr hend :)
  have htw : t.trk.want = u.trk.want := (congrArg (·.trk.want) hend :)
  have hknots : t.svn.knots = s.svn.knots.erase 0 :=
    (congrArg (·.svn.knots) hend :).trans ((congrArg (·.svn.knots) hstart :).trans (congrArg (·.svn.knots) hfree :))
  refine ⟨?_, (State.rd_congr hregs _).trans hst, (State.rd_congr hregs _).trans hbusy, ?_, ?_, hchs, ?_, ?_⟩
  · rw [hknots, Tab.find_erase, if_pos rfl]
  · rw [htg, hgr, hvg, htime]
  · rw [htw, hwant, hvg]
    unfold State.graftWant; rw [htrk, htime]
  · rw [hregs, htg, htw]
    generalize t.svn.ch = x at hend ⊢
    generalize u.regs = r at hstart ⊢
    generalize u.gr = g at hstart ⊢
    generalize u.trk.want = w at hstart ⊢
    generalize v.regs = q at hfree
    rw [hend, hstart, hfree]
  · exact (hfk.trans hsk (n := [SVN_KNOT_STS, SVN_KNOT_OWN 0, GRF_GRAFT_STS]) (by simp) (by simp)).trans (m := [])
      (fun a _ => State.reg_congr hregs a) (by simp) (by simp)

/-! ### PATCH (R247) -/

theorem State.patchCmd_refused {s : State} {c : Nat} {m : Cmd} (h : s.rd TWG_PATCH_STS_STATE ≠ 0 ∨ s.sw.isSome = true) :
    s.patchCmd c m = (s.wr TWG_PATCH_STS_REJ_STK 1).cmdEnd c m.idx 9 0 := by
  unfold State.patchCmd State.patchBusy
  exact if_pos (by simpa using h)

theorem State.patchCmd_accepted {s : State} {c : Nat} {m : Cmd} (h : s.rd TWG_PATCH_STS_STATE = 0) (hsw : s.sw = none) :
    s.patchCmd c m = (s.patchStart (m.param % 2 ^ 32) (some (c, m.idx))).cmdStarted c m.idx := by
  unfold State.patchCmd State.patchBusy
  exact if_neg (by simp [h, hsw])

/-- The patch waits for its flip, and its command with it. -/
theorem State.patchStarted_shows {s t : State} {ver c i : Nat} {by_ : Option (Nat × Nat)}
    (ht : t = (s.patchStart ver by_).cmdStarted c i) :
    t.rd TWG_PATCH_STS_STATE = 1 ∧
      t.twig = { s.twig with patchT := s.now islMgmt + max 1000 (s.rd TWG_PATCH_CFG_FLIP_LEAD), patchVer := ver, by_ := by_ } ∧
      t.svn = (s.cmdStarted c i).svn ∧ t = { s with regs := t.regs, twig := t.twig, svn := t.svn } ∧
      regsKept [TWG_PATCH_STS] s t := by
  unfold State.patchStart at ht
  dsimp only at ht
  generalize hw : ({ s.twig with patchT := s.now islMgmt + max 1000 (s.rd TWG_PATCH_CFG_FLIP_LEAD), patchVer := ver, by_ := by_ } :
    TwigSt) = w at ht
  have hstate : (State.setPatch { s with twig := w } 1).rd TWG_PATCH_STS_STATE = 1 := by
    unfold State.setPatch
    rw [State.rd_wr_beside _ _ (by decide) (by decide), State.rd_wr_same _ _ _ (by decide)]; rfl
  have hset : onlyRegs [TWG_PATCH_STS] { s with twig := w } (State.setPatch { s with twig := w } 1) :=
    (onlyRegs_wr _ (f := TWG_PATCH_STS_STATE) _ (List.mem_singleton_self _)).trans
      (onlyRegs_wr _ (f := TWG_PATCH_STS_BUSY) _ (List.mem_singleton_self _))
  have honly := hset.regs_only (by unfold State.setPatch; simp only [State.wr_msi])
  have hkept := hset.2
  generalize State.setPatch { s with twig := w } 1 = u at ht hstate honly hkept
  have husvn : u.svn = s.svn := (congrArg State.svn honly :)
  have hend := u.cmdStarted_only c i
  have hsvn := State.cmdStarted_svn_congr husvn c i
  rw [← ht] at hend hsvn
  have hregs : t.regs = u.regs := (congrArg State.regs hend :)
  have htwig : t.twig = w := (congrArg State.twig hend :).trans (congrArg State.twig honly :)
  refine ⟨(State.rd_congr hregs _).trans hstate, htwig, hsvn, ?_, fun a ha => (State.reg_congr hregs a).trans (hkept a ha)⟩
  have hts : t.svn = { u.svn with ch := t.svn.ch } := (congrArg State.svn hend :)
  rw [hregs, htwig, hts]
  generalize t.svn.ch = x at hend ⊢
  generalize u.regs = r at honly ⊢
  rw [husvn] at hend ⊢
  rw [hend, honly]

/-! ### The end of a lease (R378) -/

theorem exec_knotLeaseExpire {s : State} {k : Fin 16} (halive : s.alive islMgmt = true) :
    exec (.knotLeaseExpire k) s = .next (s.leaseExpire k.val) := onIsl_up (f := (·.leaseExpire k.val)) halive

theorem State.leaseExpire_none {s : State} {k : Nat} (h : s.svn.knots.find? k = none) : s.leaseExpire k = s := by
  unfold State.leaseExpire; rw [h]

theorem State.leaseExpire_due {s : State} {k : Nat} {x : Knot} (h : s.svn.knots.find? k = some x)
    (hdue : x.until_ ≤ s.time.mono) : s.leaseExpire k = s.knotAbandon k 1 := by
  unfold State.leaseExpire
  rw [h]
  dsimp only
  rw [State.waitMono_due _ _ hdue]

/-- The graft after a knot is abandoned: the graft knot's STAGING ends with the log discarded. -/
def State.stagingLost (s : State) (k : Nat) : State :=
  if k = 0 && s.rd GRF_GRAFT_STS_STATE = 1 then
    ((s.withGr { s.gr with log := [] }).wr GRF_GRAFT_STS_STATE 0).wr GRF_LOG_STS_STAGED 0
  else s

/-- An abandonment counted, raised and journaled. -/
def State.abandonReported (s : State) (k : Nat) (body : List Byte) : State :=
  ((s.cnt KNOT_ABANDON_CNT).raise SVN_INT_KNOT_ABANDON).journal islMgmt 0x0B01 k body

theorem State.knotAbandon_held {s : State} {k cause : Nat} {x : Knot} (h : s.svn.knots.find? k = some x) :
    s.knotAbandon k cause = ((s.knotFree k).stagingLost k).abandonReported k (natLe 2 x.ch ++ natLe 1 cause) := by
  unfold State.knotAbandon
  rw [h]
  rfl

theorem State.stagingLost_shows {s t : State} {k : Nat} (ht : t = s.stagingLost k) :
    (k = 0 → s.graftSt = 1 → t.graftSt = 0 ∧ t.gr = { s.gr with log := [] } ∧ t.rd GRF_LOG_STS_STAGED = 0) ∧
      (k ≠ 0 ∨ s.graftSt ≠ 1 → t.graftSt = s.graftSt ∧ t.gr = s.gr) ∧ t = { s with regs := t.regs, gr := t.gr } ∧
      regsKept [GRF_GRAFT_STS, GRF_LOG_STS] s t := by
  unfold State.stagingLost at ht
  by_cases h : k = 0 ∧ s.graftSt = 1
  · rw [if_pos (by simpa [State.graftSt] using h)] at ht
    have hst : t.graftSt = 0 := by
      rw [ht]
      unfold State.graftSt
      rw [State.rd_wr_addr _ _ (by decide), State.rd_wr_same _ _ _ (by decide)]; rfl
    have hstaged : t.rd GRF_LOG_STS_STAGED = 0 := by rw [ht]; exact State.rd_wr_same _ _ _ (by decide)
    have honly : onlyRegs [GRF_GRAFT_STS, GRF_LOG_STS] (s.withGr { s.gr with log := [] }) t := by
      rw [ht]
      exact (onlyRegs_wr _ (f := GRF_GRAFT_STS_STATE) _ (List.mem_cons_self)).trans
        (onlyRegs_wr _ (f := GRF_LOG_STS_STAGED) _ (List.mem_cons_of_mem _ List.mem_cons_self))
    have hframe := honly.regs_only (by rw [ht]; simp only [State.wr_msi])
    have hgr : t.gr = { s.gr with log := [] } := (congrArg State.gr hframe :)
    refine ⟨fun _ _ => ⟨hst, hgr, hstaged⟩, fun hn => ?_, ?_, honly.2⟩
    · rcases hn with hn | hn
      · exact absurd h.1 hn
      · exact absurd h.2 hn
    · rw [hgr]; exact hframe
  · rw [if_neg (by simpa [State.graftSt] using h)] at ht
    subst ht
    exact ⟨fun hk hst => absurd ⟨hk, hst⟩ h, fun _ => ⟨rfl, rfl⟩, rfl, fun _ _ => rfl⟩

theorem State.abandonReported_shows (s : State) (k : Nat) (body : List Byte) :
    counted KNOT_ABANDON_CNT 1 s (s.abandonReported k body) ∧ (s.abandonReported k body).rd SVN_INT_KNOT_ABANDON = 1 ∧
      onlyRegsJrn [KNOT_ABANDON_CNT, KNOT_ABANDON_CNT + 4, SVN_INT] s (s.abandonReported k body) := by
  have hcnt : onlyRegs [KNOT_ABANDON_CNT, KNOT_ABANDON_CNT + 4] s (s.cnt KNOT_ABANDON_CNT) := onlyRegs_cnt _ 1 (by simp) (by simp)
  obtain ⟨hint, hjrn⟩ : (s.abandonReported k body).rd SVN_INT_KNOT_ABANDON = 1 ∧
      onlyRegsJrn [SVN_INT] (s.cnt KNOT_ABANDON_CNT) (s.abandonReported k body) :=
    State.raise_journal_shows _ _ _ _ _ (by decide) rfl (by decide)
  exact ⟨hjrn.2.counted (counted_cnt _ _ 1) (by decide) (by decide), hint, (hcnt.mono (by simp)).jrn.trans (hjrn.mono (by simp))⟩

theorem SVN_KNOT_OWN_apart : ∀ k : Fin 16, SVN_KNOT_OWN k.val ∉
    jrnRegs ++ [KNOT_ABANDON_CNT, KNOT_ABANDON_CNT + 4, SVN_INT, GRF_GRAFT_STS, GRF_LOG_STS, SVN_KNOT_STS] := by decide

theorem KNOT_ABANDON_CNT_apart : ∀ k : Fin 16,
    KNOT_ABANDON_CNT ∉ [SVN_KNOT_STS, SVN_KNOT_OWN k.val, GRF_GRAFT_STS, GRF_LOG_STS] ∧
      KNOT_ABANDON_CNT + 4 ∉ [SVN_KNOT_STS, SVN_KNOT_OWN k.val, GRF_GRAFT_STS, GRF_LOG_STS] := by decide

theorem counted_of_regsKept {l : List Nat} {a n : Nat} {s t u : State} (h : regsKept l s t) (hc : counted a n t u)
    (hlo : a ∉ l) (hhi : a + 4 ∉ l) : counted a n s u := by
  unfold counted at hc ⊢; rw [hc, State.cntAt_congr (h _ hlo) (h _ hhi)]

/-- A knot abandoned: freed, its staged writes lost, counted, flagged and journaled. -/
theorem State.knotAbandon_shows {s t : State} {k : Fin 16} {cause : Nat} {x : Knot} (h : s.svn.knots.find? k.val = some x)
    (ht : t = s.knotAbandon k.val cause) :
    t.svn = { s.svn with knots := s.svn.knots.erase k.val } ∧ t.svn.knots.find? k.val = none ∧ counted KNOT_ABANDON_CNT 1 s t ∧
      t.rd SVN_INT_KNOT_ABANDON = 1 ∧ bit (t.rd SVN_KNOT_STS_HELD) k.val = false ∧ t.reg (SVN_KNOT_OWN k.val) = 0 ∧
      (k.val = 0 → s.graftSt = 1 → t.graftSt = 0 ∧ t.gr = { s.gr with log := [] } ∧ t.rd GRF_LOG_STS_STAGED = 0) ∧
      (k.val ≠ 0 ∨ s.graftSt ≠ 1 → t.graftSt = s.graftSt ∧ t.gr = s.gr) ∧
      t = { s with regs := t.regs, msi := t.msi, jrn := t.jrn, gr := t.gr, svn := t.svn } ∧
      regsKept (jrnRegs ++ [KNOT_ABANDON_CNT, KNOT_ABANDON_CNT + 4, SVN_INT, SVN_KNOT_STS, SVN_KNOT_OWN k.val, GRF_GRAFT_STS,
        GRF_LOG_STS]) s t := by
  have hown := SVN_KNOT_OWN_apart k
  simp only [List.mem_append, List.mem_cons, List.not_mem_nil, or_false, not_or] at hown
  obtain ⟨hj, hc0, hc4, hi, hg, hl, hs⟩ := hown
  rw [State.knotAbandon_held h] at ht
  obtain ⟨hheld, hzero, hfree, hfk⟩ := State.knotFree_shows (s := s) (k := k.val) rfl
  generalize s.knotFree k.val = u at ht hheld hzero hfree hfk
  obtain ⟨hlost, hleft, hstage, hvk⟩ := State.stagingLost_shows (s := u) (k := k.val) rfl
  generalize u.stagingLost k.val = v at ht hlost hleft hstage hvk
  obtain ⟨hcnt, hint, hrep, hrk⟩ := v.abandonReported_shows k.val (natLe 2 x.ch ++ natLe 1 cause)
  rw [← ht] at hcnt hint hrep hrk
  have hug : u.gr = s.gr := (congrArg State.gr hfree :)
  have hust : u.graftSt = s.graftSt := hfk.rd (by simp [GRF_GRAFT_STS_STATE, GRF_GRAFT_STS, SVN_KNOT_STS, SVN_KNOT_OWN]; omega)
  have htg : t.gr = v.gr := (congrArg State.gr hrep :)
  have htst : t.graftSt = v.graftSt := hrk.rd (by decide)
  have htsvn : t.svn = { s.svn with knots := s.svn.knots.erase k.val } :=
    (congrArg State.svn hrep :).trans ((congrArg State.svn hstage :).trans (congrArg State.svn hfree :))
  rw [hust, hug] at hlost hleft
  have hsv : regsKept [SVN_KNOT_STS, SVN_KNOT_OWN k.val, GRF_GRAFT_STS, GRF_LOG_STS] s v := hfk.trans hvk (by simp) (by simp)
  refine ⟨htsvn, ?_, ?_, hint, ?_, ?_, fun hk hst => ?_, fun hn => ?_, ?_, hsv.trans hrk (by simp) (by simp)⟩
  · rw [htsvn]; dsimp only; rw [Tab.find_erase, if_pos rfl]
  · obtain ⟨hlo, hhi⟩ := KNOT_ABANDON_CNT_apart k
    exact counted_of_regsKept hsv hcnt hlo hhi
  · rw [hrk.rd (by decide), hvk.rd (by decide)]; exact hheld
  · rw [hrk _ (by simp [*]), hvk _ (by simp [*])]; exact hzero
  · obtain ⟨h0, hgr, hstaged⟩ := hlost hk hst
    exact ⟨htst.trans h0, htg.trans hgr, (hrk.rd (by decide)).trans hstaged⟩
  · obtain ⟨h0, hgr⟩ := hleft hn
    exact ⟨htst.trans h0, htg.trans hgr⟩
  · rw [htg, htsvn]
    generalize t.regs = r at hrep ⊢
    generalize t.msi = m at hrep ⊢
    generalize t.jrn = j at hrep ⊢
    generalize v.regs = q at hstage
    generalize v.gr = g at hstage ⊢
    generalize u.regs = p at hfree
    rw [hrep, hstage, hfree]

end Sys2Proof.Machine
end

section
/-!
SUPPORT. Knots, grafts and patches (O55).
-/
namespace Sys2Proof.Machine

/-- Settles O55, clause by clause from the lemmas above. BAD_TABLE for a knot above 15 and the RESULT of an apply are the
model's assumption 43; that a knot or a channel taken goes before a busy graft is its assumption 101. -/
theorem knotsGraftsAndPatches : Obligations.KnotsGraftsAndPatches := by
  unfold Obligations.KnotsGraftsAndPatches
  refine ⟨fun s c i m halive => ⟨fun h => ?acquire, fun h => ?release, fun h => ?renew, fun h => ?graft, fun h => ?patch⟩,
    fun s k halive => ⟨fun hx => ?free, fun x hx hdue => ?expire⟩⟩
  case acquire =>
    refine ⟨fun hk => ?_, fun hk htaken => ?_, fun hfree hnone => ⟨fun hk hsw => ?_, fun hk hsw hst => ?_,
      fun hk hk' hover => ?_, fun hgive => ?_⟩⟩
    · exact exec_knotAcq_refused halive h (s.acqRefused_range hk)
    · exact exec_knotAcq_refused halive h (s.acqRefused_taken hk htaken)
    · refine exec_knotAcq_refused halive h ?_
      rw [hk] at hfree ⊢
      rw [State.acqRefused_graft hfree hnone, if_pos hsw]
    · refine exec_knotAcq_refused halive h ?_
      rw [hk] at hfree ⊢
      rw [State.acqRefused_graft hfree hnone, hsw, if_neg (by decide), if_pos hst]
    · refine exec_knotAcq_refused halive h ?_
      rw [State.acqRefused_mask hk hk' hfree hnone]
      exact if_pos (maskOverlap_true hover)
    · have hk : m.table ≤ 15 := by rcases hgive with ⟨h0, -⟩ | ⟨-, h15, -⟩ <;> omega
      exact ⟨_, exec_knotAcq_given halive h (State.acqRefused_none hfree hnone hgive), State.knotGiven_shows hk c.isLt rfl⟩
  case release =>
    have hrun {t : State} (ht : s.knotRel c.toNat m = t) := exec_knotRel halive h ht
    obtain ⟨-, hidx, -⟩ := h
    rw [← hidx]
    refine ⟨fun hk => hrun (s.knotRel_range _ hk), fun hk hno => hrun (State.knotRel_notHeld hk hno), fun hk hheld =>
      ⟨fun hp => hrun ?_, fun hp hsw => hrun ?_, fun hp hsw h0 => hrun ?_, fun x hp hsw h0 hx =>
        ⟨fun hnone => hrun ?_, fun st n t hsome => hrun ?_⟩⟩⟩
    · rw [State.knotRel_discards hk hheld hp, State.knotDrop_eq]
    · rw [State.knotRel_applies hk hheld hp, State.knotApply_switching hsw]
    · rw [State.knotRel_applies hk hheld hp, State.knotApply_graft hsw h0, State.graftCmd_held (h0 ▸ hheld)]
    · rw [State.knotRel_applies hk hheld hp, State.knotApply_waits hsw h0 hx hnone]
    · rw [State.knotRel_applies hk hheld hp, State.knotApply_runs hsw h0 hx hsome]
  case renew =>
    have hrun {t : State} (ht : s.knotRenew c.toNat m = t) := exec_knotRenew halive h ht
    obtain ⟨-, hidx, -⟩ := h
    rw [← hidx]
    refine ⟨fun hk => hrun (s.knotRenew_range _ hk), fun hk hno => hrun (State.knotRenew_notHeld hno hk),
      fun x hk hx hc => hrun ?_⟩
    rw [State.knotRenew_held hk hx hc, State.leaseStart_eq hx, State.withKnots, Knot.leasedAt]
  case graft =>
    have hrun {t : State} (ht : s.graftCmd c.toNat m = t) := exec_graft halive h ht
    obtain ⟨-, hidx, -⟩ := h
    rw [← hidx]
    exact ⟨fun hno => hrun (State.graftCmd_notHeld hno),
      fun hheld => ⟨_, hrun (State.graftCmd_held hheld), State.graftCommitted_shows rfl⟩⟩
  case patch =>
    have hrun {t : State} (ht : s.patchCmd c.toNat m = t) := exec_patch halive h ht
    obtain ⟨-, hidx, -⟩ := h
    rw [← hidx]
    exact ⟨fun hrej => hrun (State.patchCmd_refused hrej),
      fun hst hsw => ⟨_, hrun (State.patchCmd_accepted hst hsw), State.patchStarted_shows rfl⟩⟩
  case free => rw [exec_knotLeaseExpire halive, State.leaseExpire_none hx]
  case expire =>
    exact ⟨_, exec_knotLeaseExpire halive, State.knotAbandon_shows hx (State.leaseExpire_due hx hdue)⟩

end Sys2Proof.Machine
end

section
/-!
REFUTATION of O45. R22 compares SEQ as a 32-bit modular difference, so two requests of one port and one arrival time whose
SEQ lie exactly 2^31 apart rank before each other: "ranks before every other" does not name one request then. The merge
buffer releases the later of the two in it, while the statement's premise also fits the earlier one.
-/
namespace Sys2Proof.Machine

/-- A request for a station on port 3, in the merge buffer, with a given SEQ. -/
def mergedLearn (seq : Nat) : LearnReq :=
  { vid := 7, mac := 0x020000000001, port := 3, ts := 0, seq := seq, refresh := false, merged := true }

/-- SEQ values half the 32-bit range apart are each before the other. -/
theorem mergedLearn_before_both_ways : (mergedLearn 0).before (mergedLearn (2 ^ 31)) = true ∧
    (mergedLearn (2 ^ 31)).before (mergedLearn 0) = true := by decide

/-- A device with both requests in its merge buffer, past their settle time, and the station already on port 3: either
release leaves the table as it is. -/
def bothWaysState : State :=
  { State.reset with
    tbl := [(tblKey 0x30 0 0, learnedEntry 7 0x020000000001 3)]
    time := { State.reset.time with isl := [(islMgmt, { base := 10 ^ 10 * 2 ^ 48, rate := 2 ^ 48 })] }
    brg := { learn := [mergedLearn 0, mergedLearn (2 ^ 31)] } }

theorem bothWaysState_alive : bothWaysState.alive islMgmt = true := by decide +kernel

theorem bothWaysState_settled : (mergedLearn 0).ts + max 1 (bothWaysState.rd BRG_LEARN_CFG_SETTLE) * 1000 ≤
    bothWaysState.now islMgmt := by decide +kernel

theorem bothWaysState_first : ∀ r ∈ bothWaysState.brg.learn, r.merged = true → r ≠ mergedLearn 0 →
    (mergedLearn 0).before r = true := by decide +kernel

theorem bothWaysState_find : bothWaysState.brgFind 7 0x020000000001 = some (0, learnedEntry 7 0x020000000001 3) := by
  decide +kernel

/-- The entry found is on the requests' port, a unicast one, and young. -/
theorem learnedEntry_here : (fget (learnedEntry 7 0x020000000001 3) BR_EGR == 3 &&
      !fon (learnedEntry 7 0x020000000001 3) BR_MCAST) = true ∧ fon (learnedEntry 7 0x020000000001 3) BR_AGE = false := by
  decide

/-- The release takes the later of the two. -/
theorem bothWaysState_released : bothWaysState.learnRelease.brg.learn = [mergedLearn 0] := by decide +kernel

/-- Refutes O45: of two merged requests with SEQ 2^31 apart the statement releases the earlier one, the device the later. -/
theorem not_learningAndPruning : ¬ Obligations.LearningAndPruning := by
  unfold Obligations.LearningAndPruning
  intro ⟨_, hrelease, _⟩
  obtain ⟨_, _, _, hknown⟩ := hrelease bothWaysState (mergedLearn 0) bothWaysState_alive List.mem_cons_self rfl
    bothWaysState_first bothWaysState_settled
  obtain ⟨_, hyoung, _⟩ := hknown 0 _ bothWaysState_find
  have hclaimed := hyoung learnedEntry_here.1 learnedEntry_here.2
  have hreal : exec .learnRelease bothWaysState = .next bothWaysState.learnRelease := onIsl_up bothWaysState_alive
  have heq := hreal.symm.trans hclaimed
  injection heq with heq
  have hlearn : [mergedLearn 0] = bothWaysState.brg.learn.erase (mergedLearn 0) :=
    bothWaysState_released.symm.trans (congrArg (fun t : State => t.brg.learn) heq)
  exact absurd hlearn (by decide)

end Sys2Proof.Machine
end

section
/-!
SUPPORT. What codes, injections and Root store writes leave of the tables and the flow records (R341 to R348): for the pair
command that a poisoned way refuses.
-/
namespace Sys2Proof.Machine

/-- The tables and the Canopy with its Grove. -/
def State.tblAndGv (s : State) : Tab Nat × GroveSt := (s.tbl, s.gv)

@[simp] theorem State.tblAndGv_wr (s : State) (f : RFld) (v : Nat) : (s.wr f v).tblAndGv = s.tblAndGv := (rfl)
@[simp] theorem State.tblAndGv_cnt (s : State) (a n : Nat) : (s.cnt a n).tblAndGv = s.tblAndGv := (rfl)

@[simp] theorem State.tblAndGv_raiseN (s : State) (f : RFld) (v : Nat) : (s.raiseN f v).tblAndGv = s.tblAndGv := by
  rw [State.raiseN_only]; rfl

@[simp] theorem State.tblAndGv_raise (s : State) (f : RFld) : (s.raise f).tblAndGv = s.tblAndGv := s.tblAndGv_raiseN f 1

@[simp] theorem State.tblAndGv_journal (s : State) (i ty u : Nat) (l : List Byte) :
    (s.journal i ty u l).tblAndGv = s.tblAndGv := by
  unfold State.journal; rw [State.journalRec_only]; rfl

@[simp] theorem State.tblAndGv_eccLog (s : State) (a b c d e f : Nat) : (s.eccLog a b c d e f).tblAndGv = s.tblAndGv := by
  unfold State.eccLog; split <;> rfl

@[simp] theorem State.tblAndGv_pageFail (s : State) (a b c d e : Nat) : (s.pageFail a b c d e).tblAndGv = s.tblAndGv := by
  unfold State.pageFail; simp

@[simp] theorem State.tblAndGv_ceCount (s : State) (a b : Nat) : (s.ceCount a b).tblAndGv = s.tblAndGv := by
  have hleak : (s.leakDue a).tblAndGv = s.tblAndGv := by
    unfold State.leakDue; dsimp only; split <;> rfl
  unfold State.ceCount
  dsimp only
  split <;> simp [hleak]

@[simp] theorem State.tblAndGv_injSpent (s : State) : s.injSpent.tblAndGv = s.tblAndGv := by
  unfold State.injSpent; dsimp only; split <;> simp

/-! ### Contents that an error changes: the Root store's alone, for a source other than the Canopy -/

theorem State.tblAndGv_xorWord (s : State) {src : Nat} (w d : Nat) (h : src ≠ 0) :
    (s.xorWord src w d).tblAndGv = s.tblAndGv := by
  unfold State.xorWord; dsimp only; rw [if_neg h]; rfl

theorem State.tblAndGv_symFix (s : State) {src : Nat} (page : Nat) (h : src ≠ 0) :
    (s.symFix src page).tblAndGv = s.tblAndGv := by
  unfold State.symFix
  split
  · rfl
  · refine foldl_kept State.tblAndGv _ (fun t w => ?_) _ _
    exact (t.tblAndGv_xorWord w _ h :)

theorem State.tblAndGv_fixRsWord (s : State) {src : Nat} (w : Nat) (h : src ≠ 0) :
    (s.fixRsWord src w).tblAndGv = s.tblAndGv := by
  unfold State.fixRsWord
  dsimp only
  split
  · exact (s.tblAndGv_symFix _ h :)
  · refine (foldl_kept State.tblAndGv _ ?_ _ _).trans ?_
    · exact fun _ _ => rfl
    · exact (s.tblAndGv_pageFail _ _ _ _ _ :)

theorem State.tblAndGv_readWord (s : State) {k : Nat} (h : k / 2 ^ 40 ≠ 0) : (s.readWord k).tblAndGv = s.tblAndGv := by
  unfold State.readWord
  dsimp only
  split
  · simp
  · split
    · simp
    · rw [State.tblAndGv_fixRsWord _ _ h, State.tblAndGv_cnt]
    · rfl

theorem State.tblAndGv_flipWord (s : State) {src : Nat} (w pat : Nat) (h : src ≠ 0) :
    (s.flipWord src w pat).tblAndGv = s.tblAndGv := by
  unfold State.flipWord
  dsimp only
  exact ite_kept State.tblAndGv _ _ _ _ rfl (State.tblAndGv_xorWord _ _ _ h :)

theorem State.tblAndGv_wordWritten (s : State) {src : Nat} (w : Nat) (h : src ≠ 0) :
    (s.wordWritten src w).tblAndGv = s.tblAndGv := by
  unfold State.wordWritten
  dsimp only
  split
  · rw [State.tblAndGv_injSpent, State.tblAndGv_flipWord _ _ _ h]; rfl
  · rfl

theorem State.tblAndGv_pageWritten (s : State) (src page : Nat) : (s.pageWritten src page).tblAndGv = s.tblAndGv := by
  unfold State.pageWritten
  split
  · rw [State.tblAndGv_injSpent]; rfl
  · rfl

/-! ### Writes of the Root store -/

/-- A word of the Root store is one of the sources 1 and 2. -/
theorem State.src_ne_zero_of_mem_rsKeys {s : State} {a n k : Nat} (h : k ∈ s.rsKeys a n) : k / 2 ^ 40 ≠ 0 := by
  unfold State.rsKeys at h
  obtain ⟨i, -, rfl⟩ := List.mem_map.1 h
  unfold State.rsWord eccKey
  omega

theorem src_ne_zero_of_mem_partKeys {s : State} {a n k : Nat} (h : k ∈ partKeys s a n) : k / 2 ^ 40 ≠ 0 := by
  simp only [partKeys, List.mem_eraseDups, List.mem_append, List.mem_ite_nil_left] at h
  rcases h with ⟨-, h⟩ | ⟨-, h⟩ <;> exact State.src_ne_zero_of_mem_rsKeys h

theorem State.tblAndGv_rsUnit (s : State) (a : Nat) (bs : List Byte) : (s.rsUnit a bs).tblAndGv = s.tblAndGv := by
  have hread : ((partKeys s a bs.length).foldl State.readWord s).tblAndGv = s.tblAndGv :=
    List.foldlRecOn (motive := fun t : State => t.tblAndGv = s.tblAndGv) _ _ rfl
      fun t ht k hk => (t.tblAndGv_readWord (src_ne_zero_of_mem_partKeys hk)).trans ht
  have hwritten (t u : State) : ((u.rsKeys a bs.length).foldl (fun s k => s.wordWritten (k / 2 ^ 40) (k % 2 ^ 40)) t).tblAndGv =
      t.tblAndGv :=
    List.foldlRecOn (motive := fun v : State => v.tblAndGv = t.tblAndGv) _ _ rfl
      fun v hv k hk => (v.tblAndGv_wordWritten _ (State.src_ne_zero_of_mem_rsKeys hk)).trans hv
  unfold State.rsUnit
  dsimp only
  split
  · simp [hread]
  · rw [State.tblAndGv_pageWritten, hwritten]; exact hread

theorem State.tblAndGv_rsUnits (s : State) (n a : Nat) (bs : List Byte) : (s.rsUnits n a bs).tblAndGv = s.tblAndGv := by
  induction n generalizing s a bs with
  | zero => rfl
  | succ n ih =>
    unfold State.rsUnits
    split
    · rfl
    · exact (ih _ _ _).trans (s.tblAndGv_rsUnit _ _)

/-- A write of the Root store, refused in part or not, leaves the tables and the Canopy alone. -/
theorem State.tblAndGv_rsWrite (s : State) (a : Nat) (bs : List Byte) : (s.rsWrite a bs).tblAndGv = s.tblAndGv := by
  unfold State.rsWrite
  split
  · rfl
  · exact s.tblAndGv_rsUnits _ _ _

end Sys2Proof.Machine
end

section
/-!
SUPPORT. The table commands (R369 to R371, R443): what refuses one, what an entry of a plain table reads and writes, and what
the commands of one entry do with a write's outcome.
-/
namespace Sys2Proof.Machine

/-! ### Data from host memory (R382) -/

theorem State.withData_noDma {s : State} (h : s.dmaOk = false) (c i : Nat) (d : Option (List Byte)) (f : List Byte → State) :
    s.withData c i d f = (s.cmdEnd c i 15 0).chHalt c 4 := by
  unfold State.withData; rw [h]; rfl

theorem State.withData_failed {s : State} (h : s.dmaOk = true) (c i : Nat) (f : List Byte → State) :
    s.withData c i none f = (s.cmdEnd c i 15 0).chHalt c 1 := by
  unfold State.withData; rw [h]; rfl

theorem State.withData_read {s : State} (h : s.dmaOk = true) (c i : Nat) (b : List Byte) (f : List Byte → State) :
    s.withData c i (some b) f = f b := by
  unfold State.withData; rw [h]; rfl

/-- What a row does whose operation needs host-memory data. -/
theorem exec_withData {s : State} {j : Instr} {c i : Nat} {d : Option (List Byte)} {f : List Byte → State}
    (h : exec j s = .next (s.withData c i d f)) :
    (s.dmaOk = false → exec j s = .next ((s.cmdEnd c i 15 0).chHalt c 4)) ∧
    (s.dmaOk = true → d = none → exec j s = .next ((s.cmdEnd c i 15 0).chHalt c 1)) ∧
    (∀ b, s.dmaOk = true → d = some b → exec j s = .next (f b)) := by
  refine ⟨fun hdma => ?_, fun hdma hd => ?_, fun b hdma hd => ?_⟩
  · rw [h, State.withData_noDma hdma]
  · rw [h, hd, State.withData_failed hdma]
  · rw [h, hd, State.withData_read hdma]

theorem State.withDma_noDma {s : State} (h : s.dmaOk = false) (c i : Nat) (t : State) :
    s.withDma c i t = (s.cmdEnd c i 15 0).chHalt c 4 := by
  unfold State.withDma; rw [h]; rfl

theorem State.withDma_dma {s : State} (h : s.dmaOk = true) (c i : Nat) (t : State) : s.withDma c i t = t := by
  unfold State.withDma; rw [h]; rfl

/-! ### Refusals of a whole TBL_WRITE or TBL_READ (R371) -/

/-- What refuses a read refuses a write. -/
theorem State.tblRefused_write {s : State} {c : Nat} {m : Cmd} {st : Nat} (h : s.tblRefused c m false = some st) :
    s.tblRefused c m true = some st := by
  unfold State.tblRefused at h ⊢
  by_cases hcount : tblCount (s.rd GRF_RS_CFG_WIDTH) m.table = 0
  · rwa [if_pos hcount] at h ⊢
  rw [if_neg hcount] at h ⊢
  by_cases hoff : s.flowsOff m.table = true
  · rwa [if_pos hoff] at h ⊢
  rw [if_neg hoff] at h ⊢
  by_cases hn : m.count = 0 ∨ 4096 < m.count
  · rwa [if_pos hn] at h ⊢
  · rw [if_neg hn, if_neg Bool.false_ne_true] at h
    exact absurd h (Option.some_ne_none st).symm

/-- A write that no other cause refuses is refused by the knots alone. -/
theorem State.tblRefused_gate {s : State} {c : Nat} {m : Cmd} (h : s.tblRefused c m false = none) :
    s.tblRefused c m true = s.writeGate c m.table := by
  unfold State.tblRefused at h ⊢
  rw [if_neg Bool.false_ne_true] at h
  rw [if_pos rfl]
  split_ifs at h ⊢
  rfl

/-! ### Plain tables: entries written and read as they are (R345, R369, R483) -/

/-- The tables whose entries a TBL_WRITE sets with nothing else to decide. -/
def plainTables : List Nat := [0x32, 0x42, 0x43, 0x44, 0x45, 0x46, 0x60]

/-- The tables whose one copy a TBL_READ returns. -/
def oneCopyTables : List Nat := [0x30, 0x31, 0x32, 0x42, 0x43, 0x44, 0x45, 0x46, 0x60, 0x70]

/-- Such a table has one size whatever WIDTH is, is bound to no generation, keeps no staging copy and holds no flows. -/
theorem oneCopyTables_facts : ∀ id ∈ oneCopyTables, (∀ w, tblCount w id = tblCount 0 id) ∧ (∀ w, tblBytes w id = tblBytes 0 id) ∧
    tblGen id = false ∧ id ≠ 0x40 ∧ id ≠ 0x51 ∧ id ≠ 0x71 := by
  intro id h
  simp only [oneCopyTables, List.mem_cons, List.not_mem_nil, or_false] at h
  rcases h with rfl | rfl | rfl | rfl | rfl | rfl | rfl | rfl | rfl | rfl <;>
    exact ⟨fun _ => rfl, fun _ => rfl, rfl, by decide, by decide, by decide⟩

theorem plainTables_subset : plainTables ⊆ oneCopyTables := by decide

theorem State.tblPut_plain {id : Nat} (h : id ∈ plainTables) (s : State) (i e : Nat) : s.tblPut id i e =
    some (0, (s.entWrite id 0 i (e &&& tblWritable 0 id)).trunkAsk trkHost (entryPhases (tblBytes 0 id))) := by
  simp only [plainTables, List.mem_cons, List.not_mem_nil, or_false] at h
  rcases h with rfl | rfl | rfl | rfl | rfl | rfl | rfl <;> rfl

/-- Without errors, repairs and an armed injection a write of an entry changes the entry alone. -/
theorem State.entWrite_clean {s : State} (hd : s.ecc.diff = []) (hr : s.ecc.repairDue = []) (ha : s.on ECC_INJ_CFG_ARM = false)
    (id copy i v : Nat) : s.entWrite id copy i v = s.setEnt id copy i v := by
  have hd' : (s.setEnt id copy i v).ecc.diff = [] := hd
  have hr' : (s.setEnt id copy i v).ecc.repairDue = [] := hr
  have ha' : (s.setEnt id copy i v).on ECC_INJ_CFG_ARM = false := ha
  unfold State.entWrite State.entWritten
  rw [hd', hr', ha']; rfl

theorem State.repairing_clean {s : State} (hr : s.ecc.repairDue = []) (k : Nat) : s.repairing k = false := by
  unfold State.repairing; rw [hr]; rfl

theorem State.ent_setEnt_same {s : State} (hr : s.ecc.repairDue = []) (id copy i v : Nat) :
    (s.setEnt id copy i v).ent id copy i = v := by
  have hr' : (s.setEnt id copy i v).ecc.repairDue = [] := hr
  unfold State.ent
  rw [State.repairing_clean hr', if_neg Bool.false_ne_true]
  exact Tab.get_set_same _ _ _ _

theorem State.entRead_clean {s : State} (hd : s.ecc.diff = []) (hr : s.ecc.repairDue = []) (id copy i : Nat) :
    s.entRead id copy i = (some (s.ent id copy i), s) := by
  unfold State.entRead
  simp only [hd, List.isEmpty_nil, if_true, State.repairing_clean hr, Bool.false_eq_true, if_false]

theorem State.readCopy_oneCopy {id : Nat} (h : id ∈ oneCopyTables) (s : State) (i : Nat) : s.readCopy id i = 0 := by
  obtain ⟨-, -, hgen, -, h51, h71⟩ := oneCopyTables_facts id h
  unfold State.readCopy
  rw [hgen, if_neg Bool.false_ne_true, if_neg h51, if_neg h71]

/-- An entry of such a table reads as it stands, a HOST transfer. -/
theorem State.entryGet_oneCopy {s : State} {id i : Nat} (h : id ∈ oneCopyTables) (hi : i < tblCount 0 id) (hd : s.ecc.diff = [])
    (hr : s.ecc.repairDue = []) : s.entryGet id i =
      (.bytes (natLe (tblBytes 0 id) (s.ent id 0 i)), s.trunkAsk trkHost (entryPhases (tblBytes 0 id))) := by
  obtain ⟨hcount, hbytes, -, h40, -⟩ := oneCopyTables_facts id h
  unfold State.entryGet
  dsimp only
  rw [hcount, hbytes, if_neg (Nat.not_le.2 hi), if_neg h40, State.readCopy_oneCopy h, State.entRead_clean hd hr]

/-! ### One entry of a TBL_WRITE or a TBL_READ -/

/-- A write of a table that no generation binds and no knot covers is performed (R376). -/
theorem State.writeOne_free {s : State} {w : KnotWrite} (hgen : tblGen w.table = false) (hknot : s.knotOver w.table = none) :
    s.writeOne w = s.perform w := by
  unfold State.writeOne; rw [hgen, hknot]; rfl

theorem State.writeRun_one {s t : State} {id i e k : Nat} (hi : i < tblCount (s.rd GRF_RS_CFG_WIDTH) id)
    (h : s.writeOne ⟨0x01, id, i, e⟩ = some (0, k, t)) : s.writeRun id i 0 [e] = some (0, 1, t) := by
  unfold State.writeRun
  rw [if_neg (Nat.not_le.2 hi), h]; rfl

theorem State.writeRun_plain {s : State} {id i : Nat} (h : id ∈ plainTables) (hi : i < tblCount 0 id)
    (hknot : s.knotOver id = none) (hd : s.ecc.diff = []) (hr : s.ecc.repairDue = []) (ha : s.on ECC_INJ_CFG_ARM = false)
    (e : Nat) : s.writeRun id i 0 [e] =
      some (0, 1, (s.setEnt id 0 i (e &&& tblWritable 0 id)).trunkAsk trkHost (entryPhases (tblBytes 0 id))) := by
  obtain ⟨hcount, -, hgen, -⟩ := oneCopyTables_facts id (plainTables_subset h)
  have hwrite : s.writeOne ⟨0x01, id, i, e⟩ =
      some (0, 1, (s.setEnt id 0 i (e &&& tblWritable 0 id)).trunkAsk trkHost (entryPhases (tblBytes 0 id))) := by
    rw [State.writeOne_free hgen hknot, ← State.entWrite_clean hd hr ha]
    exact congrArg (Option.map _) (State.tblPut_plain h s i e)
  exact State.writeRun_one (by rw [hcount]; exact hi) hwrite

theorem State.readRun_oneCopy {s : State} {id i : Nat} (h : id ∈ oneCopyTables) (hi : i < tblCount 0 id) (hd : s.ecc.diff = [])
    (hr : s.ecc.repairDue = []) (sz a : Nat) : (s.readRun id sz a i 0 1).1 = some (0, 1,
      (s.trunkAsk trkHost (entryPhases (tblBytes 0 id))).hostPut a (natLe (tblBytes 0 id) (s.ent id 0 i))) := by
  unfold State.readRun
  rw [State.entryGet_oneCopy h hi hd hr]; rfl

/-! ### TBL_WRITE and TBL_READ (R370, R371) -/

theorem exec_tblWrite {s : State} {c : BitVec 10} {i : BitVec 16} {m : Cmd} (halive : s.alive islMgmt = true)
    (h : s.readyCmd c.toNat i.toNat 0x01 m) (d : Option (List Byte)) :
    exec (.tblWrite c i d) s = .next (s.tblWrite c.toNat m d) :=
  onCmd_ready (f := fun m s => s.tblWrite c.toNat m d) halive h

theorem exec_tblRead {s : State} {c : BitVec 10} {i : BitVec 16} {m : Cmd} (halive : s.alive islMgmt = true)
    (h : s.readyCmd c.toNat i.toNat 0x02 m) : exec (.tblRead c i) s = .next (s.tblRead c.toNat m) :=
  onCmd_ready (f := fun m s => s.tblRead c.toNat m) halive h

theorem State.tblWrite_waits {s : State} (h : s.sw.isSome = true) (c : Nat) (m : Cmd) (d : Option (List Byte)) :
    s.tblWrite c m d = s := if_pos h

theorem State.tblWrite_refused {s : State} {c : Nat} {m : Cmd} {st : Nat} (hsw : s.sw = none)
    (h : s.tblRefused c m true = some st) (d : Option (List Byte)) : s.tblWrite c m d = s.cmdEnd c m.idx st 0 := by
  unfold State.tblWrite; rw [hsw, h]; rfl

/-- The entries that a TBL_WRITE's data hold. -/
def State.writtenEntries (s : State) (m : Cmd) (b : List Byte) : List Nat :=
  entriesOf (tblBytes (s.rd GRF_RS_CFG_WIDTH) m.table) m.count b

theorem State.tblWrite_data {s : State} {c : Nat} {m : Cmd} (hsw : s.sw = none) (h : s.tblRefused c m true = none)
    (d : Option (List Byte)) : s.tblWrite c m d = s.withData c m.idx d (fun b =>
      match s.writeRun m.table m.index 0 (s.writtenEntries m b) with
      | some (st, n, t) => t.cmdEnd c m.idx st n
      | none => s) := by
  unfold State.tblWrite; rw [hsw, h]; rfl

/-- One entry of a plain table written: its reserved bits are 0, and no other entry changes. -/
theorem State.plainWritten_shows {s t : State} {id i v n : Nat} (c idx : Nat) (hr : s.ecc.repairDue = [])
    (ht : t = ((s.setEnt id 0 i v).trunkAsk trkHost n).cmdEnd c idx 0 1) :
    t.ent id 0 i = v ∧ (∀ k, k ≠ tblKey id 0 i → t.tbl.find? k = s.tbl.find? k) ∧ t.svn = (s.cmdEnd c idx 0 1).svn ∧
      t.trk.want = s.trk.want ++ [⟨trkHost, n, s.time.mono⟩] ∧
      t = { s with tbl := t.tbl, svn := t.svn, trk := { s.trk with want := t.trk.want } } := by
  subst ht
  refine ⟨State.ent_setEnt_same hr id 0 i v, fun k hk => ?_, rfl, rfl, rfl⟩
  exact (Tab.find_set _ _ _ _ _).trans (if_neg (Ne.symm hk))

theorem State.tblRead_refused {s : State} {c : Nat} {m : Cmd} {st : Nat} (h : s.tblRefused c m false = some st) :
    s.tblRead c m = s.cmdEnd c m.idx st 0 := by
  unfold State.tblRead; rw [h]; rfl

/-- The entries that a TBL_READ finds. -/
def State.readEntries (s : State) (m : Cmd) : Option (Nat × Nat × State) × State :=
  s.readRun m.table (tblBytes (s.rd GRF_RS_CFG_WIDTH) m.table) m.host m.index 0 m.count

theorem State.tblRead_data {s : State} {c : Nat} {m : Cmd} (h : s.tblRefused c m false = none) :
    s.tblRead c m = s.withDma c m.idx (match s.readEntries m with
      | (some (st, n, t), _) => if st = 10 then (t.cmdEnd c m.idx 10 n).chHalt c 2 else t.cmdEnd c m.idx st n
      | (none, t) => t) := by
  unfold State.tblRead; rw [h]; rfl

theorem State.tblRead_done {s t : State} {c st n : Nat} {m : Cmd} (h : s.tblRefused c m false = none) (hdma : s.dmaOk = true)
    (hrun : (s.readEntries m).1 = some (st, n, t)) : s.tblRead c m =
      if st = 10 then (t.cmdEnd c m.idx 10 n).chHalt c 2 else t.cmdEnd c m.idx st n := by
  rw [State.tblRead_data h, State.withDma_dma hdma]
  generalize s.readEntries m = r at hrun
  obtain ⟨r, u⟩ := r
  subst hrun
  rfl

theorem State.tblRead_waits {s u : State} {c : Nat} {m : Cmd} (h : s.tblRefused c m false = none) (hdma : s.dmaOk = true)
    (hrun : s.readEntries m = (none, u)) : s.tblRead c m = u := by
  rw [State.tblRead_data h, State.withDma_dma hdma, hrun]

/-! ### Commands of one entry (R369 to R371) -/

/-- What a row does whose operation is one write: refused by the knots, waiting, or ended as the write ends. -/
theorem exec_oneWrite {s : State} {j : Instr} {c : Nat} {m : Cmd} {w : KnotWrite} (h : exec j s = .next (s.oneWrite c m w)) :
    (∀ st, s.writeGate c w.table = some st → exec j s = .next (s.cmdEnd c m.idx st 0)) ∧
    (s.writeGate c w.table = none → (s.writeOne w = none → exec j s = .next s) ∧
      ∀ st k t, s.writeOne w = some (st, k, t) → exec j s = .next (t.cmdEnd c m.idx st k)) := by
  unfold State.oneWrite at h
  refine ⟨fun st hgate => ?_, fun hgate => ⟨fun hw => ?_, fun st k t hw => ?_⟩⟩
  · rw [h, hgate]; rfl
  · rw [h, hgate, hw]
  · rw [h, hgate, hw]; rfl

/-! ### KEY_WRITE, KEY_DELETE and KEY_FIND -/

theorem State.keyCmd_badTable {s : State} {m : Cmd} (h30 : m.table ≠ 0x30) (h41 : m.table ≠ 0x41) (c : Nat)
    (d : Option (List Byte)) (f : List Byte → State) : s.keyCmd c m d f = s.cmdEnd c m.idx 2 0 := if_pos ⟨h30, h41⟩

theorem State.keyCmd_table {s : State} {m : Cmd} (h : m.table = 0x30 ∨ m.table = 0x41) (c : Nat) (d : Option (List Byte))
    (f : List Byte → State) : s.keyCmd c m d f = if s.flowsOff m.table then s.cmdEnd c m.idx 19 0
      else s.withData c m.idx d (fun b => f (slice0 b 0 (tblBytes 0 m.table))) :=
  if_neg fun hn => h.elim hn.1 hn.2

theorem State.keyCmd_off {s : State} {m : Cmd} (h : m.table = 0x30 ∨ m.table = 0x41) (hoff : s.flowsOff m.table = true) (c : Nat)
    (d : Option (List Byte)) (f : List Byte → State) : s.keyCmd c m d f = s.cmdEnd c m.idx 19 0 :=
  (State.keyCmd_table h c d f).trans (if_pos hoff)

theorem State.keyCmd_data {s : State} {m : Cmd} (h : m.table = 0x30 ∨ m.table = 0x41) (hoff : s.flowsOff m.table = false)
    (c : Nat) (d : Option (List Byte)) (f : List Byte → State) : s.keyCmd c m d f =
      s.withData c m.idx d (fun b => f (slice0 b 0 (tblBytes 0 m.table))) := by
  rw [State.keyCmd_table h, hoff]; rfl

/-- KEY_WRITE and KEY_DELETE beside profile switches. -/
def State.keyedWrite (s : State) (c op : Nat) (m : Cmd) (d : Option (List Byte)) : State :=
  s.keyCmd c m d (fun e => s.oneWrite c m ⟨op, m.table, 0, leNat e⟩)

section
variable {s : State} {c : BitVec 10} {i : BitVec 16} {d : Option (List Byte)} {m : Cmd} {op : Nat} {j : Instr}
  (halive : s.alive islMgmt = true) (hj : (op, j) ∈ [(0x03, Instr.keyWrite c i d), (0x04, .keyDelete c i d)])
  (h : s.readyCmd c.toNat i.toNat op m)
include halive hj h

theorem exec_keyed : exec j s = .next (if s.sw.isSome then s else s.keyedWrite c.toNat op m d) := by
  simp only [List.mem_cons, List.not_mem_nil, or_false, Prod.mk.injEq] at hj
  have hrow : exec j s = onCmd c i op s (fun m s => if s.sw.isSome then s else s.keyedWrite c.toNat op m d) := by
    rcases hj with ⟨rfl, rfl⟩ | ⟨rfl, rfl⟩ <;> rfl
  exact hrow.trans (onCmd_ready halive h)

theorem exec_keyed_switching (hsw : s.sw.isSome = true) : exec j s = .next s :=
  (exec_keyed halive hj h).trans (congrArg _ (if_pos hsw))

theorem exec_keyed_free (hsw : s.sw = none) : exec j s = .next (s.keyedWrite c.toNat op m d) := by
  rw [exec_keyed halive hj h, hsw]; rfl

end

theorem exec_keyFind {s : State} {c : BitVec 10} {i : BitVec 16} {m : Cmd} (halive : s.alive islMgmt = true)
    (h : s.readyCmd c.toNat i.toNat 0x06 m) (d : Option (List Byte)) :
    exec (.keyFind c i d) s = .next (s.keyCmd c.toNat m d (fun e => s.keyFind c.toNat m e)) :=
  onCmd_ready (f := fun m s => s.keyCmd c.toNat m d (fun e => s.keyFind c.toNat m e)) halive h

theorem State.flowsOff_brg (s : State) : s.flowsOff 0x30 = false := rfl

theorem State.keyFind_brgMiss {s : State} {c : Nat} {m : Cmd} {e : List Byte} (htab : m.table = 0x30)
    (h : s.brgFind (fget (leNat e) BR_VID) (brMac (leNat e)) = none) : s.keyFind c m e = s.cmdEnd c m.idx 12 0 := by
  unfold State.keyFind; rw [if_pos htab, h]; rfl

/-- A bridging entry found by its key is written back to the host as it stands. -/
theorem State.keyFind_brgHit {s : State} {c k v : Nat} {m : Cmd} {e : List Byte} (htab : m.table = 0x30)
    (hd : s.ecc.diff = []) (hr : s.ecc.repairDue = [])
    (h : s.brgFind (fget (leNat e) BR_VID) (brMac (leNat e)) = some (k, v)) (hk : k < 32768) : s.keyFind c m e =
      ((s.trunkAsk trkHost 4).hostPut m.host (natLe 16 (s.ent 0x30 0 k))).cmdEnd c m.idx 0 k := by
  have hget := State.entryGet_oneCopy (id := 0x30) (i := k) (by decide) hk hd hr
  unfold State.keyFind
  rw [if_pos htab, h]
  dsimp only
  rw [hget]; rfl

/-! ### IDX_DELETE, BRG_FLUSH and FLOW_PAIR -/

/-- The three commands beside profile switches: the tables they are allowed on, the flows' READY, the index, the write. -/
def State.indexed (s : State) (c : Nat) (m : Cmd) (w : KnotWrite) (tab : List Nat) (lim : Nat) : State :=
  if m.table ∉ tab then s.cmdEnd c m.idx 2 0
  else if s.flowsOff m.table then s.cmdEnd c m.idx 19 0
  else if w.op ≠ 0x07 ∧ lim ≤ m.index then s.cmdEnd c m.idx 3 0
  else s.oneWrite c m w

/-- The rows, with each its opcode, write, tables and first index that is out of range. -/
def indexedRows (c : BitVec 10) (i : BitVec 16) (m : Cmd) : List (Nat × Instr × KnotWrite × List Nat × Nat) :=
  [(0x05, .idxDelete c i, ⟨0x05, m.table, m.index, 0⟩, [0x30, 0x40], tblCount 0 m.table),
    (0x07, .brgFlush c i, ⟨0x07, 0x30, 0, m.param⟩, [0x30], 2 ^ 32), (0x08, .flowPair c i, ⟨0x08, 0x40, m.index, m.param⟩, [0x40], 2 ^ 26)]

theorem State.idxCmd_indexed (s : State) (c : Nat) (m : Cmd) : s.idxCmd c m =
    s.indexed c m ⟨0x05, m.table, m.index, 0⟩ [0x30, 0x40] (tblCount 0 m.table) := by
  unfold State.idxCmd State.indexed
  simp [State.endOf]

theorem State.flushOp_indexed (s : State) (c : Nat) (m : Cmd) : s.flushOp c m =
    s.indexed c m ⟨0x07, 0x30, 0, m.param⟩ [0x30] (2 ^ 32) := by
  unfold State.flushOp State.indexed
  by_cases h : m.table = 0x30
  · simp [h, State.flowsOff_brg]
  · simp [h, State.endOf]

theorem State.pairOp_indexed (s : State) (c : Nat) (m : Cmd) : s.pairOp c m =
    s.indexed c m ⟨0x08, 0x40, m.index, m.param⟩ [0x40] (2 ^ 26) := by
  unfold State.pairOp State.indexed
  by_cases h : m.table = 0x40 <;> simp [h, State.endOf]

section
variable {s : State} {c : BitVec 10} {i : BitVec 16} {m : Cmd} {op lim : Nat} {j : Instr} {w : KnotWrite} {tab : List Nat}
  (halive : s.alive islMgmt = true) (hj : (op, j, w, tab, lim) ∈ indexedRows c i m) (h : s.readyCmd c.toNat i.toNat op m)
include halive hj h

theorem exec_indexed : exec j s = .next (if s.sw.isSome then s else s.indexed c.toNat m w tab lim) := by
  simp only [indexedRows, List.mem_cons, List.not_mem_nil, or_false, Prod.mk.injEq] at hj
  rcases hj with ⟨rfl, rfl, rfl, rfl, rfl⟩ | ⟨rfl, rfl, rfl, rfl, rfl⟩ | ⟨rfl, rfl, rfl, rfl, rfl⟩
  · rw [← State.idxCmd_indexed]
    exact onCmd_ready (f := fun m s => if s.sw.isSome then s else s.idxCmd c.toNat m) halive h
  · rw [← State.flushOp_indexed]
    exact onCmd_ready (f := fun m s => if s.sw.isSome then s else s.flushOp c.toNat m) halive h
  · rw [← State.pairOp_indexed]
    exact onCmd_ready (f := fun m s => if s.sw.isSome then s else s.pairOp c.toNat m) halive h

theorem exec_indexed_switching (hsw : s.sw.isSome = true) : exec j s = .next s :=
  (exec_indexed halive hj h).trans (congrArg _ (if_pos hsw))

theorem exec_indexed_free (hsw : s.sw = none) : exec j s = .next (s.indexed c.toNat m w tab lim) := by
  rw [exec_indexed halive hj h, hsw]; rfl

end

/-- Each row's write carries its opcode, and on a table it is allowed on it writes that table. -/
theorem indexedRows_write {c : BitVec 10} {i : BitVec 16} {m : Cmd} {op lim : Nat} {j : Instr} {w : KnotWrite} {tab : List Nat}
    (hj : (op, j, w, tab, lim) ∈ indexedRows c i m) (htab : m.table ∈ tab) : w.op = op ∧ w.table = m.table := by
  simp only [indexedRows, List.mem_cons, List.not_mem_nil, or_false, Prod.mk.injEq] at hj
  rcases hj with ⟨rfl, -, rfl, rfl, -⟩ | ⟨rfl, -, rfl, rfl, -⟩ | ⟨rfl, -, rfl, rfl, -⟩
  · exact ⟨rfl, rfl⟩
  · exact ⟨rfl, (List.mem_singleton.1 htab).symm⟩
  · exact ⟨rfl, (List.mem_singleton.1 htab).symm⟩

theorem State.indexed_badTable {s : State} {c lim : Nat} {m : Cmd} {w : KnotWrite} {tab : List Nat} (h : m.table ∉ tab) :
    s.indexed c m w tab lim = s.cmdEnd c m.idx 2 0 := if_pos h

theorem State.indexed_off {s : State} {c lim : Nat} {m : Cmd} {w : KnotWrite} {tab : List Nat} (h : m.table ∈ tab)
    (hoff : s.flowsOff m.table = true) : s.indexed c m w tab lim = s.cmdEnd c m.idx 19 0 :=
  (if_neg (not_not_intro h)).trans (if_pos hoff)

theorem State.indexed_range {s : State} {c lim : Nat} {m : Cmd} {w : KnotWrite} {tab : List Nat} (h : m.table ∈ tab)
    (hoff : s.flowsOff m.table = false) (hop : w.op ≠ 0x07) (hlim : lim ≤ m.index) :
    s.indexed c m w tab lim = s.cmdEnd c m.idx 3 0 := by
  unfold State.indexed
  rw [if_neg (not_not_intro h), hoff, if_neg Bool.false_ne_true, if_pos ⟨hop, hlim⟩]

theorem State.indexed_write {s : State} {c lim : Nat} {m : Cmd} {w : KnotWrite} {tab : List Nat} (h : m.table ∈ tab)
    (hoff : s.flowsOff m.table = false) (hin : w.op = 0x07 ∨ m.index < lim) :
    s.indexed c m w tab lim = s.oneWrite c m w := by
  unfold State.indexed
  rw [if_neg (not_not_intro h), hoff, if_neg Bool.false_ne_true,
    if_neg fun hn => hin.elim hn.1 (Nat.not_lt.2 hn.2)]

/-! ### What one entry's write does: bridging entries (R148, R187) -/

theorem State.perform_idxDelete_valid {s : State} {k : Nat} (h : fon (s.ent 0x30 0 k) BR_V = true) :
    s.perform ⟨0x05, 0x30, k, 0⟩ = some (0, k, (s.brgRemove k).trunkAsk trkLearn 4) := by
  have hdel : s.brgIdxDelete k = (0, (s.brgRemove k).trunkAsk trkLearn 4) := if_pos h
  change s.idxDelete 0x30 k = _
  unfold State.idxDelete
  rw [if_pos rfl, hdel]; rfl

theorem State.perform_idxDelete_invalid {s : State} {k : Nat} (h : fon (s.ent 0x30 0 k) BR_V = false) :
    s.perform ⟨0x05, 0x30, k, 0⟩ = some (12, 0, s) := by
  have hdel : s.brgIdxDelete k = (12, s) := if_neg (by rw [h]; exact Bool.false_ne_true)
  change s.idxDelete 0x30 k = _
  unfold State.idxDelete
  rw [if_pos rfl, hdel]; rfl

theorem State.perform_keyDelete_miss {s : State} {e : Nat} (h : s.brgFind (fget e BR_VID) (brMac e) = none) :
    s.perform ⟨0x04, 0x30, 0, e⟩ = some (12, 0, s) := by
  change s.keyDelete 0x30 e = _
  unfold State.keyDelete
  rw [if_pos rfl, h]

/-! ### Pairs (R179) -/

theorem State.perform_flowPair (s : State) (a p : Nat) : s.perform ⟨0x08, 0x40, a, p⟩ = s.flowPair a p := (rfl)

section
variable {s : State} {a b p : Nat} (hp : bit p 32 = false) (hb : p % 2 ^ 26 = b)
include hp hb

theorem State.flowPair_pairs : s.flowPair a p =
    if a = b then some (3, 0, s)
    else if !s.isFlow a || !s.isFlow b then some (12, 0, s)
    else if (s.pairOf a).any (· != b) || (s.pairOf b).any (· != a) then some (17, 0, s)
    else if s.flowFree a && s.flowFree b then s.pairPut a b (some b) (some a) else none := by
  unfold State.flowPair; rw [hp, hb]; rfl

theorem State.flowPair_itself (hab : a = b) : s.flowPair a p = some (3, 0, s) := by
  rw [State.flowPair_pairs hp hb, if_pos hab]

theorem State.flowPair_noFlow (hab : a ≠ b) (h : s.isFlow a = false ∨ s.isFlow b = false) :
    s.flowPair a p = some (12, 0, s) := by
  have hno : (!s.isFlow a || !s.isFlow b) = true := by rcases h with h | h <;> simp [h]
  rw [State.flowPair_pairs hp hb, if_neg hab, if_pos hno]

variable (hab : a ≠ b) (hfa : s.isFlow a = true) (hfb : s.isFlow b = true)
include hab hfa hfb

theorem State.flowPair_flows : s.flowPair a p =
    if (s.pairOf a).any (· != b) || (s.pairOf b).any (· != a) then some (17, 0, s)
    else if s.flowFree a && s.flowFree b then s.pairPut a b (some b) (some a) else none := by
  rw [State.flowPair_pairs hp hb, if_neg hab, hfa, hfb]; rfl

theorem State.flowPair_taken (h : (∃ q, s.pairOf a = some q ∧ q ≠ b) ∨ ∃ q, s.pairOf b = some q ∧ q ≠ a) :
    s.flowPair a p = some (17, 0, s) := by
  have htaken : ((s.pairOf a).any (· != b) || (s.pairOf b).any (· != a)) = true := by
    rcases h with ⟨q, hq, hne⟩ | ⟨q, hq, hne⟩ <;> simp [hq, hne]
  rw [State.flowPair_flows hp hb hab hfa hfb, if_pos htaken]

theorem State.flowPair_free (hpa : ∀ q, s.pairOf a = some q → q = b) (hpb : ∀ q, s.pairOf b = some q → q = a)
    (ha : s.flowFree a = true) (hb' : s.flowFree b = true) : s.flowPair a p = s.pairPut a b (some b) (some a) := by
  have hfree : ((s.pairOf a).any (· != b) || (s.pairOf b).any (· != a)) = false := by
    simpa [Option.any_eq_false] using ⟨hpa, hpb⟩
  rw [State.flowPair_flows hp hb hab hfa hfb, hfree, ha, hb']; rfl

end

theorem State.flowPair_unpairs {s : State} {a p : Nat} (hp : bit p 32 = true) : s.flowPair a p =
    match s.pairOf a with
    | none => if s.isFlow a then some (0, 0, s) else some (12, 0, s)
    | some q =>
      if !s.isFlow a then some (12, 0, s)
      else if s.flowFree a && s.flowFree q then s.pairPut a q none none else none := by
  unfold State.flowPair; rw [hp]; rfl

theorem State.flowPair_unpairNoFlow {s : State} {a p : Nat} (hp : bit p 32 = true) (h : s.isFlow a = false) :
    s.flowPair a p = some (12, 0, s) := by
  rw [State.flowPair_unpairs hp, h]
  cases s.pairOf a <;> rfl

theorem State.flowPair_unpairFree {s : State} {a p q : Nat} (hp : bit p 32 = true) (h : s.isFlow a = true)
    (hq : s.pairOf a = some q) (ha : s.flowFree a = true) (hfq : s.flowFree q = true) :
    s.flowPair a p = s.pairPut a q none none := by
  rw [State.flowPair_unpairs hp, h, hq]
  dsimp only
  rw [ha, hfq]; rfl

theorem State.pairPut_written {s : State} {x y : Nat} (hx : (s.trunkAsk trkHost 5).pairRefused x = false)
    (hy : (s.trunkAsk trkHost 5).pairRefused y = false) (px py : Option Nat) : s.pairPut x y px py =
      some (0, 0, ((s.trunkAsk trkHost 5).setPair clsHost x px).setPair clsHost y py) := by
  unfold State.pairPut
  dsimp only
  rw [hx, hy]; rfl

/-- A way that refuses its write leaves both pairs as they are. -/
theorem State.pairPut_refused {s : State} {x y : Nat} (h : (s.trunkAsk trkHost 5).pairRefused x = true ∨
    (s.trunkAsk trkHost 5).pairRefused y = true) (px py : Option Nat) :
    ∃ t, s.pairPut x y px py = some (10, 0, t) ∧ t.gv = s.gv ∧ t.tbl = s.tbl := by
  have hkept (a : Nat) (bs : List Byte) : ((s.trunkAsk trkHost 5).rsWrite a bs).tblAndGv = s.tblAndGv :=
    (s.trunkAsk trkHost 5).tblAndGv_rsWrite a bs
  unfold State.pairPut
  dsimp only
  by_cases hx : (s.trunkAsk trkHost 5).pairRefused x = true
  · rw [if_pos hx]
    exact ⟨_, rfl, congrArg Prod.snd (hkept _ _), congrArg Prod.fst (hkept _ _)⟩
  · rw [if_neg hx, if_pos (h.resolve_left hx)]
    exact ⟨_, rfl, congrArg Prod.snd (hkept _ _), congrArg Prod.fst (hkept _ _)⟩

/-- A FLOW_PAIR that writes both ways ends as these take the write. -/
theorem State.perform_pairPut {s : State} {a p x y : Nat} {px py : Option Nat} (h : s.flowPair a p = s.pairPut x y px py) :
    ((s.trunkAsk trkHost 5).pairRefused x = false → (s.trunkAsk trkHost 5).pairRefused y = false →
      s.perform ⟨0x08, 0x40, a, p⟩ = some (0, 0, ((s.trunkAsk trkHost 5).setPair clsHost x px).setPair clsHost y py)) ∧
    ((s.trunkAsk trkHost 5).pairRefused x = true ∨ (s.trunkAsk trkHost 5).pairRefused y = true →
      ∃ t, s.perform ⟨0x08, 0x40, a, p⟩ = some (10, 0, t) ∧ t.gv = s.gv ∧ t.tbl = s.tbl) := by
  rw [State.perform_flowPair, h]
  exact ⟨fun hx hy => State.pairPut_written hx hy px py, fun hr => State.pairPut_refused hr px py⟩

end Sys2Proof.Machine
end

section
/-!
The table commands (O54), row by row, and what a write of one entry does to bridging entries and pairs.
-/
namespace Sys2Proof.Machine

/-- Settles O54: each command row runs its operation, and the lemmas above name how each branch of it ends; the single writes
and the pairs follow from what the operations do. -/
theorem tableCommands : Obligations.TableCommands := by
  unfold Obligations.TableCommands
  refine ⟨fun s c i d m halive => ⟨fun h => ?write, fun h => ?read, fun op j hj h => ?key, fun op j w tab lim hj h => ?index,
    fun h => ?find⟩, fun s w hgen hknot => State.writeOne_free hgen hknot, fun s k => ⟨State.perform_idxDelete_valid,
    State.perform_idxDelete_invalid⟩, fun s e he => State.perform_keyDelete_miss he, fun s p => rfl, fun s a p => ?pair⟩
  case write =>
    have hrow := exec_tblWrite halive h d
    obtain ⟨-, hidx, -⟩ := h
    rw [← hidx]
    refine ⟨fun hsw => hrow.trans (congrArg _ (State.tblWrite_waits hsw _ m d)),
      fun st hsw hst => hrow.trans (congrArg _ (State.tblWrite_refused hsw (State.tblRefused_write hst) d)),
      fun st hsw hwhole hst => hrow.trans (congrArg _ (State.tblWrite_refused hsw ((State.tblRefused_gate hwhole).trans hst) d)),
      fun hsw hwhole hgate => ?_⟩
    have hmay : s.tblRefused c.toNat m true = none := (State.tblRefused_gate hwhole).trans hgate
    obtain ⟨hstopped, hfailed, hdata⟩ := exec_withData (hrow.trans (congrArg _ (State.tblWrite_data hsw hmay d)))
    refine ⟨hstopped, hfailed, fun b hdma hd => ?_⟩
    have hrun := hdata b hdma hd
    have hdone {st k : Nat} {t : State} (hr : s.writeRun m.table m.index 0 (s.writtenEntries m b) = some (st, k, t)) :
        exec (.tblWrite c i d) s = .next (t.cmdEnd c.toNat m.idx st k) := by rw [hrun, hr]
    refine ⟨fun hr => ?waits, fun st k t hr => hdone hr, fun htab hone hi hknot hdiff hrep harm => ?plain⟩
    case waits =>
      have hr' : s.writeRun m.table m.index 0 (s.writtenEntries m b) = none := hr
      rw [hrun, hr']
    case plain =>
      have hbytes := (oneCopyTables_facts m.table (plainTables_subset htab)).2.1 (s.rd GRF_RS_CFG_WIDTH)
      have hentries : s.writtenEntries m b = [leAt b 0 (tblBytes 0 m.table)] := by
        unfold State.writtenEntries; rw [hbytes, hone]; rfl
      refine ⟨_, hdone (by rw [hentries]; exact State.writeRun_plain htab hi hknot hdiff hrep harm _), ?_⟩
      dsimp only
      rw [hbytes]
      exact State.plainWritten_shows c.toNat m.idx hrep rfl
  case read =>
    have hrow := exec_tblRead halive h
    obtain ⟨-, hidx, -⟩ := h
    rw [← hidx]
    refine ⟨fun st hst => hrow.trans (congrArg _ (State.tblRead_refused hst)),
      fun hwhole hdma => hrow.trans (congrArg _ ((State.tblRead_data hwhole).trans (State.withDma_noDma hdma _ _ _))),
      fun hwhole hdma => ⟨fun st k t u hr => hrow.trans (congrArg _ (State.tblRead_done hwhole hdma (congrArg Prod.fst hr))),
        fun u hr => hrow.trans (congrArg _ (State.tblRead_waits hwhole hdma hr)), fun htab hone hi hdiff hrep => ?_⟩⟩
    have hbytes := (oneCopyTables_facts m.table htab).2.1 (s.rd GRF_RS_CFG_WIDTH)
    have hentries : (s.readEntries m).1 = some (0, 1, (s.trunkAsk trkHost (entryPhases (tblBytes 0 m.table))).hostPut m.host
        (natLe (tblBytes 0 m.table) (s.ent m.table 0 m.index))) := by
      unfold State.readEntries; rw [hone]; exact State.readRun_oneCopy htab hi hdiff hrep _ _
    rw [hbytes]
    exact hrow.trans (congrArg _ (State.tblRead_done hwhole hdma hentries))
  case key =>
    have hwait := exec_keyed_switching halive hj h
    have hrow := exec_keyed_free halive hj h
    obtain ⟨-, hidx, -⟩ := h
    rw [← hidx]
    refine ⟨hwait, fun hsw h30 h41 => (hrow hsw).trans (congrArg _ (State.keyCmd_badTable h30 h41 _ _ _)), fun hsw htab =>
      ⟨fun hoff => (hrow hsw).trans (congrArg _ (State.keyCmd_off htab hoff _ _ _)), ?_⟩⟩
    have hread (hoff : s.flowsOff m.table = false) :=
      exec_withData ((hrow hsw).trans (congrArg _ (State.keyCmd_data htab hoff _ _ _)))
    exact ⟨fun hoff => (hread hoff).1, fun hoff => (hread hoff).2.1,
      fun b hoff hdma hd => exec_oneWrite ((hread hoff).2.2 b hdma hd)⟩
  case index =>
    have hwait := exec_indexed_switching halive hj h
    have hrow := exec_indexed_free halive hj h
    have hwrite := indexedRows_write hj
    obtain ⟨-, hidx, -⟩ := h
    rw [← hidx]
    refine ⟨hwait, fun hsw htab => (hrow hsw).trans (congrArg _ (State.indexed_badTable htab)),
      fun hsw htab hoff => (hrow hsw).trans (congrArg _ (State.indexed_off htab hoff)), fun hsw htab hoff hop hlim =>
        (hrow hsw).trans (congrArg _ (State.indexed_range htab hoff ((hwrite htab).1 ▸ hop) hlim)), fun hsw htab hoff hin => ?_⟩
    obtain ⟨hop, htable⟩ := hwrite htab
    rw [← htable]
    exact exec_oneWrite ((hrow hsw).trans (congrArg _ (State.indexed_write htab hoff (hop.symm ▸ hin))))
  case find =>
    have hrow := exec_keyFind halive h d
    obtain ⟨-, hidx, -⟩ := h
    rw [← hidx]
    have hentry {b : List Byte} (htab : m.table = 0x30 ∨ m.table = 0x41) (hoff : s.flowsOff m.table = false)
        (hdma : s.dmaOk = true) (hd : d = some b) :
        exec (.keyFind c i d) s = .next (s.keyFind c.toNat m (slice0 b 0 (tblBytes 0 m.table))) :=
      (exec_withData (hrow.trans (congrArg _ (State.keyCmd_data htab hoff _ _ _)))).2.2 b hdma hd
    refine ⟨fun h30 h41 => hrow.trans (congrArg _ (State.keyCmd_badTable h30 h41 _ _ _)),
      fun htab hoff => hrow.trans (congrArg _ (State.keyCmd_off htab hoff _ _ _)),
      fun b htab hoff hdma hd => hentry htab hoff hdma hd, fun b htab hdma hd hdiff hrep => ?_⟩
    have hbrg := hentry (.inl htab) (htab ▸ s.flowsOff_brg) hdma hd
    rw [htab] at hbrg
    exact ⟨fun hmiss => hbrg.trans (congrArg _ (State.keyFind_brgMiss htab hmiss)),
      fun k e hhit hk => hbrg.trans (congrArg _ (State.keyFind_brgHit htab hdiff hrep hhit hk))⟩
  case pair =>
    have hperf := s.perform_flowPair a p
    exact ⟨fun hp hab => hperf.trans (State.flowPair_itself hp rfl hab),
      fun hp hab hno => hperf.trans (State.flowPair_noFlow hp rfl hab hno),
      fun hp hab ha hb htaken => hperf.trans (State.flowPair_taken hp rfl hab ha hb htaken),
      fun hp hab ha hb hpa hpb hfa hfb => State.perform_pairPut (State.flowPair_free hp rfl hab ha hb hpa hpb hfa hfb),
      fun hp ha => hperf.trans (State.flowPair_unpairNoFlow hp ha),
      fun q hp ha hq hfa hfq => State.perform_pairPut (State.flowPair_unpairFree hp ha hq hfa hfq)⟩

end Sys2Proof.Machine
end

section
/-!
SUPPORT. Enabling and flushing the Grove (O43): what a write of GRV_CFG does before the initialisation starts, how the
initialisation starts over a zeroed or a kept directory, and when a flush and a sweep step wait (R181, R184 to R186).
-/
namespace Sys2Proof.Machine

/-! ### Changes of Grove's own state and of listed registers -/

/-- Beside Grove's own state, only the setup registers listed may differ. -/
def onlyGrove (l : List Nat) (s t : State) : Prop := t = { s with gv := t.gv, regs := t.regs } ∧ regsKept l s t

theorem onlyGrove.trans {l : List Nat} {s t u : State} (hst : onlyGrove l s t) (htu : onlyGrove l t u) : onlyGrove l s u := by
  obtain ⟨ht, hrt⟩ := hst
  obtain ⟨hu, hru⟩ := htu
  refine ⟨?_, fun a ha => (hru a ha).trans (hrt a ha)⟩
  generalize u.gv = g at hu ⊢
  generalize u.regs = r at hu ⊢
  rw [hu, ht]

theorem onlyGrove_gv (l : List Nat) (s : State) (g : GroveSt) : onlyGrove l s { s with gv := g } := ⟨rfl, fun _ _ => rfl⟩

theorem onlyGrove_refl (l : List Nat) (s : State) : onlyGrove l s s := onlyGrove_gv l s s.gv

theorem onlyGrove_wr {l : List Nat} (s : State) {f : RFld} (v : Nat) (h : f.addr ∈ l) : onlyGrove l s (s.wr f v) :=
  ⟨rfl, (onlyRegs_wr s v h).2⟩

theorem onlyGrove.time {l : List Nat} {s t : State} (h : onlyGrove l s t) : t.time = s.time := (congrArg State.time h.1 :)

theorem State.on_wr_addr (s : State) {f g : RFld} (v : Nat) (h : f.addr ≠ g.addr) : (s.wr f v).on g = s.on g :=
  State.on_of_reg (State.reg_wr_other s v h)

/-! ### A write of GRV_CFG (R184, R186) -/

theorem exec_groveEnable {s : State} (k f : Bool) (h : s.reaches GRV_CFG = true) :
    exec (.groveEnable k f) s = .next (s.grvCfgWrite (1 + 2 * b2n k + 4 * b2n f)) := onBar0_up h

theorem exec_groveFlush {s : State} (v : Word) (h : s.reaches GRV_CFG = true) :
    exec (.groveFlush v) s = .next (s.grvCfgWrite (v.toNat ||| 4)) := onBar0_up h

/-- The bits EN, KEEP and FLUSH of the value that GROVE_ENABLE writes. -/
theorem enableValue_bits (k f : Bool) : bit (1 + 2 * b2n k + 4 * b2n f) 0 = true ∧ bit (1 + 2 * b2n k + 4 * b2n f) 1 = k ∧
    bit (1 + 2 * b2n k + 4 * b2n f) 2 = f ∧ getBits (1 + 2 * b2n k + 4 * b2n f) 1 1 = b2n k := by
  cases k <;> cases f <;> decide

/-- The bits EN and FLUSH of the value that GROVE_FLUSH writes. -/
theorem flushValue_bits (v : Nat) : bit (v ||| 4) 0 = (v % 2 == 1) ∧ bit (v ||| 4) 2 = true := by
  unfold bit
  rw [Nat.testBit_or, Nat.testBit_or]
  exact ⟨by rw [Nat.testBit_zero]; simp [Bool.beq_eq_decide_eq], by rw [show Nat.testBit 4 2 = true from rfl, Bool.or_true]⟩

/-- The part of a write of GRV_CFG before EN: a flush that it asks for, and KEEP. -/
def State.cfgShown (s : State) (keep : Nat) (f : Bool) : State := (if f then s.groveFlush else s).wr GRV_CFG_KEEP keep

theorem onlyGrove_groveFlush (s : State) : onlyGrove [GRV_CFG, GRV_STS] s s.groveFlush :=
  (onlyGrove_gv _ _ _).trans (onlyGrove_wr _ (f := GRV_STS_FLUSH_BUSY) 1 (by decide))

theorem State.groveFlush_on_en (s : State) : s.groveFlush.on GRV_CFG_EN = s.on GRV_CFG_EN :=
  State.on_wr_addr _ (f := GRV_STS_FLUSH_BUSY) 1 (by decide)

theorem onlyGrove_cfgShown (s : State) (n : Nat) (f : Bool) : onlyGrove [GRV_CFG, GRV_STS] s (s.cfgShown n f) := by
  refine onlyGrove.trans ?_ (onlyGrove_wr _ (f := GRV_CFG_KEEP) _ (by decide))
  cases f
  · exact onlyGrove_refl _ s
  · exact onlyGrove_groveFlush s

theorem State.cfgShown_flushBusy (s : State) (n : Nat) (f : Bool) :
    (s.cfgShown n f).on GRV_STS_FLUSH_BUSY = (f || s.on GRV_STS_FLUSH_BUSY) := by
  refine (State.on_wr_addr _ (f := GRV_CFG_KEEP) _ (by decide)).trans ?_
  cases f
  · rfl
  · exact State.on_wr_one _ (by decide) rfl

/-- The bits of GRV_STS above FLUSH_BUSY stay. -/
theorem State.cfgShown_other (s : State) (n : Nat) (f : Bool) {g : RFld} (ha : g.addr = GRV_STS) (hg : 3 ≤ g.lsb) :
    (s.cfgShown n f).on g = s.on g := by
  refine (State.on_wr_addr _ (f := GRV_CFG_KEEP) _ (by rw [ha]; decide)).trans ?_
  cases f
  · rfl
  · exact State.on_wr_beside _ (f := GRV_STS_FLUSH_BUSY) 1 (by decide) (.inl hg)

theorem State.cfgShown_flushLeft (s : State) (n : Nat) : (s.cfgShown n true).gv.flushLeft = s.gv.flushLeft ++
    ((s.gv.lines.filter (fun e => e.2.v && e.2.dirty)).map (·.1)).filter (fun l => !s.gv.flushLeft.contains l) := rfl

theorem State.grvCfgWrite_enables {s : State} (k f : Bool) (h : s.on GRV_CFG_EN = false) :
    s.grvCfgWrite (1 + 2 * b2n k + 4 * b2n f) = (s.cfgShown (b2n k) f).groveEnable k := by
  obtain ⟨hen, hk, hf, hkeep⟩ := enableValue_bits k f
  have hwas : (if f then s.groveFlush else s).on GRV_CFG_EN = false := by
    cases f
    · exact h
    · exact (State.groveFlush_on_en s).trans h
  unfold State.grvCfgWrite State.cfgShown
  simp only [hen, hk, hf, hkeep, hwas]; rfl

theorem State.grvCfgWrite_enabled {s : State} (k : Bool) (h : s.on GRV_CFG_EN = true) :
    s.grvCfgWrite (1 + 2 * b2n k + 4 * b2n false) = s.wr GRV_CFG_KEEP (b2n k) := by
  obtain ⟨hen, -, hf, hkeep⟩ := enableValue_bits k false
  unfold State.grvCfgWrite
  simp only [hen, hf, hkeep, h, if_true, Bool.false_eq_true, if_false]

theorem State.grvCfgWrite_flush {s : State} {v : Nat} (h : s.on GRV_CFG_EN = true ∨ v % 2 = 0) :
    s.grvCfgWrite (v ||| 4) = 
      if s.on GRV_CFG_EN && v % 2 == 0 then (s.cfgShown (getBits (v ||| 4) 1 1) true).wr GRV_STS_CFG_REJ_STK 1
      else s.cfgShown (getBits (v ||| 4) 1 1) true := by
  obtain ⟨hen, hf⟩ := flushValue_bits v
  unfold State.grvCfgWrite State.cfgShown
  simp only [hen, hf, if_true, State.groveFlush_on_en]
  rcases Nat.mod_two_eq_zero_or_one v with hv | hv
  · simp [hv]
  · simp [hv, h.resolve_right (by omega)]

/-! ### Enabling (R184, R185) -/

/-- What a write of EN = 1 does before the initialisation starts. -/
def State.groveLatched (s : State) (keep : Bool) : State :=
  (({ s with
      gv.lines := [], gv.wbuf := [], gv.delWait := [], gv.seedA := s.reg GRV_HASH_SEED_A, gv.seedB := s.reg GRV_HASH_SEED_B
      gv.keep := keep, gv.tokUsed := [], gv.tokAt := [(0, s.time.mono / 8), (1, s.time.mono / 8)] } : State).wr
        GRV_CFG_EN 1).wr GRV_STS_INIT_BUSY 1

theorem State.groveEnable_eq (s : State) (keep : Bool) : s.groveEnable keep =
    if (s.groveLatched keep).rtsReady then (s.groveLatched keep).groveStart
    else { s.groveLatched keep with gv.heldEn := true } := by
  unfold State.groveEnable State.groveLatched; rfl

theorem onlyGrove_groveLatched (s : State) (keep : Bool) : onlyGrove [GRV_CFG, GRV_STS] s (s.groveLatched keep) :=
  (onlyGrove_gv _ s _).trans
    ((onlyGrove_wr _ (f := GRV_CFG_EN) 1 (by decide)).trans (onlyGrove_wr _ (f := GRV_STS_INIT_BUSY) 1 (by decide)))

theorem State.groveLatched_busy (s : State) (keep : Bool) :
    (s.groveLatched keep).on GRV_CFG_EN = true ∧ (s.groveLatched keep).on GRV_STS_INIT_BUSY = true :=
  ⟨(State.on_wr_addr _ (f := GRV_STS_INIT_BUSY) 1 (by decide)).trans (State.on_wr_one _ (by decide) rfl),
    State.on_wr_one _ (by decide) rfl⟩

theorem State.groveLatched_beside (s : State) (keep : Bool) {g : RFld} (ha : g.addr = GRV_STS) (h : 2 ≤ g.lsb) :
    (s.groveLatched keep).on g = s.on g :=
  (State.on_wr_beside _ (f := GRV_STS_INIT_BUSY) 1 (by decide) (.inl h)).trans
    (State.on_wr_addr _ (f := GRV_CFG_EN) 1 (by rw [ha]; decide))

theorem State.rtsReady_of_onlyGrove {s t : State} (h : onlyGrove [GRV_CFG, GRV_STS] s t) : t.rtsReady = s.rtsReady :=
  congrArg (· == 3) (regsKept.rd (f := RTS_STS_READY) h.2 (by decide))

/-- An initialisation that keeps the directory leaves it as it is. -/
theorem State.groveStart_keeps {s : State} (hk : s.gv.keep = true) (hok : s.on GRV_STS_KEEP_OK = true) :
    s.groveStart = { s with gv.heldEn := false, gv.initEnd := some (s.time.mono + 800000) } := by
  unfold State.groveStart
  simp [hk, hok]

/-- An initialisation without KEEP zeroes the directory. -/
theorem State.groveStart_zeroes {s : State} (hk : s.gv.keep = false) :
    s.groveStart.gv = { s.gv with heldEn := false, initEnd := some (s.time.mono + 200000000), quarantine := [] } ∧
    s.groveStart.rd GRV_DIR_STS_FLOWS = 0 ∧
    s.groveStart.rs = s.rs.filter (fun e => e.1 < 0x400000000 || 0x500000000 ≤ e.1) ∧
    s.groveStart = { s with gv := s.groveStart.gv, regs := s.groveStart.regs, rs := s.groveStart.rs, ecc := s.groveStart.ecc } ∧
    regsKept [GRV_DIR_STS] s s.groveStart := by
  unfold State.groveStart
  simp only [hk, Bool.false_and, Bool.false_eq_true, if_false]
  exact ⟨rfl, State.rd_wr_same _ _ _ (by decide), rfl, rfl,
    fun a ha => State.reg_wr_other _ _ fun e => ha (List.mem_singleton.2 e.symm)⟩

/-- An accepted write of EN = 1, up to the start of the initialisation. -/
def State.groveStarting (s : State) (k f : Bool) : State := (s.cfgShown (b2n k) f).groveLatched k

/-- What stands when the initialisation starts: the status shown, the lines and tokens cleared, the seeds latched. -/
structure GroveStarts (s t : State) (k f : Bool) : Prop where
  only : onlyGrove [GRV_CFG, GRV_STS] s t
  enabled : t.on GRV_CFG_EN = true
  initBusy : t.on GRV_STS_INIT_BUSY = true
  flushBusy : t.on GRV_STS_FLUSH_BUSY = (f || s.on GRV_STS_FLUSH_BUSY)
  keepOk : t.on GRV_STS_KEEP_OK = s.on GRV_STS_KEEP_OK
  keep : t.gv.keep = k
  lines : t.gv.lines = []
  tokens : t.gv.tokUsed = []
  seedA : t.gv.seedA = s.reg GRV_HASH_SEED_A
  seedB : t.gv.seedB = s.reg GRV_HASH_SEED_B

theorem State.groveStarting_starts (s : State) (k f : Bool) : GroveStarts s (s.groveStarting k f) k f where
  only := (onlyGrove_cfgShown s _ f).trans (onlyGrove_groveLatched _ k)
  enabled := (State.groveLatched_busy _ k).1
  initBusy := (State.groveLatched_busy _ k).2
  flushBusy := (State.groveLatched_beside _ k rfl (by decide)).trans (s.cfgShown_flushBusy _ f)
  keepOk := (State.groveLatched_beside _ k rfl (by decide)).trans (s.cfgShown_other _ f rfl (by decide))
  keep := rfl
  lines := rfl
  tokens := rfl
  seedA := (onlyGrove_cfgShown s _ f).2 _ (by decide)
  seedB := (onlyGrove_cfgShown s _ f).2 _ (by decide)

theorem exec_groveEnable_off {s : State} (k f : Bool) (h : s.reaches GRV_CFG = true) (hen : s.on GRV_CFG_EN = false) :
    exec (.groveEnable k f) s = .next (if s.rtsReady then (s.groveStarting k f).groveStart
      else { s.groveStarting k f with gv.heldEn := true }) := by
  have hready : ((s.cfgShown (b2n k) f).groveLatched k).rtsReady = s.rtsReady :=
    State.rtsReady_of_onlyGrove (s.groveStarting_starts k f).only
  rw [exec_groveEnable k f h, State.grvCfgWrite_enables k f hen, State.groveEnable_eq, hready]; rfl

theorem exec_groveEnable_starts {s : State} (k f : Bool) (h : s.reaches GRV_CFG = true) (hen : s.on GRV_CFG_EN = false)
    (hrts : s.rtsReady = true) : exec (.groveEnable k f) s = .next (s.groveStarting k f).groveStart := by
  rw [exec_groveEnable_off k f h hen, if_pos hrts]

/-! ### The end of the initialisation, of a flush, and a step of the sweep (R181, R184, R186) -/

/-- What the end of the initialisation shows. -/
def State.groveReadyShown (s : State) : State := ((s.wr GRV_STS_READY 1).wr GRV_STS_INIT_BUSY 0).raise GRV_INT_READY

theorem State.groveReadyShown_shows (s : State) : s.groveReadyShown.on GRV_STS_READY = true ∧
    s.groveReadyShown.on GRV_STS_INIT_BUSY = false ∧ s.groveReadyShown.rd GRV_INT_READY = 1 ∧
    onlyRegs [GRV_STS, GRV_INT] s s.groveReadyShown := by
  refine ⟨?_, ?_, State.rd_raise _ _ (by decide) rfl,
    (onlyRegs_wr s 1 (by decide)).trans ((onlyRegs_wr _ 0 (by decide)).trans (onlyRegs_raise _ (by decide)))⟩
  · refine (State.on_raise_other _ (f := GRV_INT_READY) (by decide)).trans ?_
    exact (State.on_wr_beside _ (f := GRV_STS_INIT_BUSY) 0 (by decide) (by decide)).trans (State.on_wr_one s (by decide) rfl)
  · exact (State.on_raise_other _ (f := GRV_INT_READY) (by decide)).trans (State.on_wr_zero _ (by decide))

theorem State.groveReady_due {s : State} {e : Nat} (he : s.gv.initEnd = some e) (hdue : e ≤ s.time.mono) : s.groveReady =
    ({ s with gv.initEnd := none, gv.everReady := true } : State).groveReadyShown := by
  unfold State.groveReady
  rw [he]
  dsimp only
  rw [State.waitMono_due s e hdue]; rfl

theorem State.groveReady_shows {s : State} {e : Nat} (he : s.gv.initEnd = some e) (hdue : e ≤ s.time.mono) :
    s.groveReady.on GRV_STS_READY = true ∧ s.groveReady.on GRV_STS_INIT_BUSY = false ∧ s.groveReady.rd GRV_INT_READY = 1 ∧
    s.groveReady.gv = { s.gv with initEnd := none, everReady := true } ∧
    s.groveReady = { s with gv := s.groveReady.gv, regs := s.groveReady.regs, msi := s.groveReady.msi } ∧
    regsKept [GRV_STS, GRV_INT] s s.groveReady := by
  obtain ⟨hready, hbusy, hint, hframe, hkept⟩ :=
    ({ s with gv := { s.gv with initEnd := none, everReady := true } } : State).groveReadyShown_shows
  rw [← State.groveReady_due he hdue] at hready hbusy hint hframe hkept
  generalize s.groveReady = r at hready hbusy hint hframe hkept
  have hgv : r.gv = { s.gv with initEnd := none, everReady := true } := (congrArg State.gv hframe :)
  refine ⟨hready, hbusy, hint, hgv, ?_, hkept⟩
  rw [hgv]; exact hframe

/-- A dirty line of a flush whose controller has no room for its write. -/
def State.flushWaits (s : State) (l : Nat) : Bool :=
  (s.line l).v && (s.line l).dirty && !s.rtsHas clsMaint (slotAddr (s.line l).idx + 64)

theorem State.flushDone_waits {s : State} {l : Nat} (hbusy : s.on GRV_STS_FLUSH_BUSY = true)
    (h : s.gv.flushLeft.find? s.flushWaits = some l) : s.flushDone = s.rtsHeldBack (slotAddr (s.line l).idx + 64) := by
  unfold State.flushWaits at h
  unfold State.flushDone
  rw [hbusy, if_neg (by decide), h]

theorem State.flushDone_writes {s : State} (hbusy : s.on GRV_STS_FLUSH_BUSY = true)
    (h : s.gv.flushLeft.find? s.flushWaits = none) : s.flushDone =
      ((({ s.gv.flushLeft.foldl State.flushLine s with
            gv := { (s.gv.flushLeft.foldl State.flushLine s).gv with flushLeft := [] } } : State).wr
        GRV_STS_FLUSH_BUSY 0).raise GRV_INT_FLUSH_DONE) := by
  unfold State.flushWaits at h
  unfold State.flushDone
  rw [hbusy, if_neg (by decide), h]

theorem exec_flowSweepStep {s : State} {c : Fin 2} (h : s.alive (islRts c.val) = true) :
    exec (.flowSweepStep c) s = .next (s.sweepStep c.val) := onIsl_up (f := (·.sweepStep c.val)) h

theorem State.sweepStep_off {s : State} (c : Nat) (h : s.rd GRV_PRUNE_CFG_PERIOD = 0 ∨ s.on GRV_STS_READY = false) :
    s.sweepStep c = s := by
  unfold State.sweepStep
  rcases h with h | h <;> simp [h]

/-- The state in which an engine has taken its turn on a bucket. -/
def State.sweepMoved (s : State) (c b : Nat) : State :=
  { s with gv := { s.gv with
      sweepAt := s.gv.sweepAt.set 0 c ((b + 1) % 2 ^ 24)
      sweepTm := s.gv.sweepTm.set 0 c (s.time.mono + s.rd GRV_PRUNE_CFG_PERIOD * 8000000000 / 2 ^ 23) } }

theorem State.sweepStep_due {s : State} {c : Nat} (hper : s.rd GRV_PRUNE_CFG_PERIOD ≠ 0) (hready : s.on GRV_STS_READY = true)
    (hdue : s.gv.sweepTm.get 0 c ≤ s.time.mono) : s.sweepStep c =
    (let b := s.ownedFrom c 16 (s.gv.sweepAt.get 0 c)
      if !s.rtsHas clsMaint (wayAddr (4 * b)) then s.rtsHeldBack (wayAddr (4 * b))
      else ((List.range 4).foldl (fun s w => (s.sweepRead c (4 * b + w)).sweepFlow c (4 * b + w))
        ((s.sweepMoved c b).bucketScan clsMaint b)).joinMisses) := by
  unfold State.sweepStep
  dsimp only
  rw [State.waitMono_due s _ hdue, if_neg (by simp [hper, hready])]; rfl

end Sys2Proof.Machine
end

section
/-!
Enabling, flushing and sweeping Grove (O43).
-/
namespace Sys2Proof.Machine

/-- Settles O43: a write of GRV_CFG is the flush and KEEP, then EN's latching and the start of the initialisation; each
branch of its end, of the flush and of the sweep step follows from the lemma that names it. That FLUSH_DONE and the sweep
wait for the controller's room is assumption 58. -/
theorem groveEnableFlushAndSweep : Obligations.GroveEnableFlushAndSweep := by
  unfold Obligations.GroveEnableFlushAndSweep
  refine ⟨fun s f h hen hrts => ?zeroes, fun s f h hen hrts hok => ?keeps, fun s k h hen => ?enabled,
    fun s k f h hen hrts => ?waits, fun s v h hev => ?flush, fun s e halive he hdue => ?ready,
    fun s halive hbusy => ⟨fun l h => ?held, fun h => ?written⟩, fun s c halive hoff => ?off,
    fun s c halive hper hready hdue => ⟨fun hroom => ?noRoom, fun hroom => ?visit⟩⟩
  case zeroes =>
    have hst := s.groveStarting_starts false f
    obtain ⟨hgv, hflows, hrs, hframe, hkept⟩ := State.groveStart_zeroes hst.keep
    have hsts {g : RFld} (hg : g.addr ≠ GRV_DIR_STS) :
        (s.groveStarting false f).groveStart.on g = (s.groveStarting false f).on g :=
      State.on_of_reg (hkept _ (by simpa using hg))
    refine ⟨_, exec_groveEnable_starts false f h hen hrts, (hsts (by decide)).trans hst.flushBusy,
      (hsts (by decide)).trans hst.enabled, (hsts (by decide)).trans hst.initBusy, ?_, ?_, ?_, ?_, ?_, hflows, ?_, ?_,
      hst.only.2.trans hkept (by decide) (by decide)⟩
    · rw [hgv]; exact hst.lines
    · rw [hgv]; exact hst.seedA
    · rw [hgv]; exact hst.seedB
    · rw [hgv]; exact hst.tokens
    · rw [hgv, hst.only.time]
    · exact hrs.trans (congrArg (List.filter _) (congrArg State.rs hst.only.1 :))
    · refine hframe.trans ?_
      generalize (s.groveStarting false f).groveStart = t
      rw [hst.only.1]
  case keeps =>
    have hst := s.groveStarting_starts true f
    have hexec := exec_groveEnable_starts true f h hen hrts
    generalize s.groveStarting true f = g at hst hexec
    rw [State.groveStart_keeps hst.keep (hst.keepOk.trans hok)] at hexec
    exact ⟨_, hexec, hst.enabled, hst.initBusy, hst.lines, hst.seedA, hst.seedB,
      congrArg (fun x : TimeSt => some (x.mono + 800000)) hst.only.time, hst.only.trans (onlyGrove_gv _ _ _)⟩
  case enabled => exact (exec_groveEnable k false h).trans (congrArg _ (State.grvCfgWrite_enabled k hen))
  case waits =>
    have hst := s.groveStarting_starts k f
    have hexec := exec_groveEnable_off k f h hen
    generalize s.groveStarting k f = g at hst hexec
    rw [if_neg (by simp [hrts])] at hexec
    exact ⟨_, hexec, hst.enabled, hst.initBusy, rfl, hst.lines, hst.seedA, hst.only.trans (onlyGrove_gv _ _ _)⟩
  case flush =>
    have hexec := (exec_groveFlush v h).trans (congrArg _ (State.grvCfgWrite_flush hev))
    have honly := onlyGrove_cfgShown s (getBits (v.toNat ||| 4) 1 1) true
    have hbusy := s.cfgShown_flushBusy (getBits (v.toNat ||| 4) 1 1) true
    have hrej := s.cfgShown_other (getBits (v.toNat ||| 4) 1 1) true (g := GRV_STS_CFG_REJ_STK) (by decide) (by decide)
    have hleft := s.cfgShown_flushLeft (getBits (v.toNat ||| 4) 1 1)
    generalize s.cfgShown (getBits (v.toNat ||| 4) 1 1) true = u at hexec honly hbusy hrej hleft
    cases hc : (s.on GRV_CFG_EN && v.toNat % 2 == 0) with
    | false =>
      rw [if_neg (by simp [hc])] at hexec
      exact ⟨u, hexec, hbusy, hrej.trans (Bool.or_false _).symm, hleft, honly⟩
    | true =>
      rw [if_pos hc] at hexec
      exact ⟨_, hexec, (State.on_wr_beside _ (f := GRV_STS_CFG_REJ_STK) 1 (by decide) (by decide)).trans hbusy,
        (State.on_wr_one _ (by decide) rfl).trans (Bool.or_true _).symm, hleft, honly.trans (onlyGrove_wr _ _ (by decide))⟩
  case ready => exact ⟨_, onIsl_up (f := State.groveReady) halive, State.groveReady_shows he hdue⟩
  case held => exact (onIsl_up halive).trans (congrArg _ (State.flushDone_waits hbusy h))
  case written => exact (onIsl_up halive).trans (congrArg _ (State.flushDone_writes hbusy h))
  case off => exact (exec_flowSweepStep halive).trans (congrArg _ (State.sweepStep_off c.val hoff))
  case noRoom =>
    exact (exec_flowSweepStep halive).trans (congrArg _ ((State.sweepStep_due hper hready hdue).trans (if_pos (by simp [hroom]))))
  case visit =>
    exact (exec_flowSweepStep halive).trans (congrArg _ ((State.sweepStep_due hper hready hdue).trans (if_neg (by simp [hroom]))))

end Sys2Proof.Machine
end

section
/-!
SUPPORT. The directory engines' accesses (O41): what an access may change (R253, R264), a FIND's own view of the directory
beside it, and the tokens of the miss budget (R174).
-/
namespace Sys2Proof.Machine

/-! ### Accesses of the device's own engines (R253, R264) -/

/-- Beside the controllers, the events counted and the registers from the controllers' block up, nothing may differ. -/
def onlyAccess (s t : State) : Prop :=
  t = { s with regs := t.regs, obs := t.obs, rts0 := t.rts0, rts1 := t.rts1 } ∧ ∀ a, a < 0x5000000 → t.reg a = s.reg a

theorem onlyAccess_refl (s : State) : onlyAccess s s := ⟨rfl, fun _ _ => rfl⟩

theorem onlyAccess.trans {s t u : State} (hst : onlyAccess s t) (htu : onlyAccess t u) : onlyAccess s u := by
  obtain ⟨ht, hrt⟩ := hst
  obtain ⟨hu, hru⟩ := htu
  refine ⟨?_, fun a ha => (hru a ha).trans (hrt a ha)⟩
  generalize u.regs = r at hu ⊢
  generalize u.obs = o at hu ⊢
  generalize u.rts0 = x at hu ⊢
  generalize u.rts1 = y at hu ⊢
  rw [hu, ht]

theorem onlyAccess.gv {s t : State} (h : onlyAccess s t) : t.gv = s.gv := (congrArg State.gv h.1 :)

theorem onlyAccess_ite {c : Prop} [Decidable c] {s t u : State} (ht : onlyAccess s t) (hu : onlyAccess s u) :
    onlyAccess s (if c then t else u) := by split <;> assumption

theorem onlyAccess_cnt (s : State) {a : Nat} (n : Nat) (h : 0x5000000 ≤ a) : onlyAccess s (s.cnt a n) :=
  ⟨rfl, fun _ hb => State.reg_cnt_other s n (by omega) (by omega)⟩

theorem onlyAccess_wr (s : State) {f : RFld} (v : Nat) (h : 0x5000000 ≤ f.addr) : onlyAccess s (s.wr f v) :=
  ⟨rfl, fun _ hb => State.reg_wr_other s v (by omega)⟩

theorem onlyAccess_pmuEv (s : State) (c u n : Nat) : onlyAccess s (s.pmuEv c u n) := ⟨rfl, fun _ _ => rfl⟩

theorem onlyAccess_putRts (s : State) (c : Nat) (x : RtsSt) : onlyAccess s (s.putRts c x) := by
  unfold State.putRts; exact onlyAccess_ite ⟨rfl, fun _ _ => rfl⟩ ⟨rfl, fun _ _ => rfl⟩

/-- The counters of a controller stand in its block. -/
theorem rtsCounters_high (c k : Nat) : 0x5000000 ≤ RTS_ROW_HIT_CNT c ∧ 0x5000000 ≤ RTS_ROW_MISS_CNT c ∧
    0x5000000 ≤ RTS_RD_BYTES_CNT c ∧ 0x5000000 ≤ RTS_WR_BYTES_CNT c ∧ 0x5000000 ≤ RTS_CLS_BYTES_CNT c k ∧
    0x5000000 ≤ RTS_OB_BYTES_CNT c ∧ 0x5000000 ≤ RTS_RAW_FWD_CNT c ∧ 0x5000000 ≤ RTS_XSTK_CNT c ∧
    0x5000000 ≤ (RTS_REQ_STS_HWM c).addr := by
  unfold RTS_ROW_HIT_CNT RTS_ROW_MISS_CNT RTS_RD_BYTES_CNT RTS_WR_BYTES_CNT RTS_CLS_BYTES_CNT RTS_OB_BYTES_CNT RTS_RAW_FWD_CNT
    RTS_XSTK_CNT RTS_REQ_STS_HWM RTS_REQ_STS
  dsimp only
  omega

theorem onlyAccess_rtsMove (s : State) (c : Nat) (r : RtsReq) : onlyAccess s (s.rtsMove c r) := by
  obtain ⟨hhit, hmiss, hrd, hwr, hcls, hob, -⟩ := rtsCounters_high c r.cls
  unfold State.rtsMove
  dsimp only
  exact (onlyAccess_putRts s c _).trans <|
    (onlyAccess_ite (onlyAccess_cnt _ 1 hhit) ((onlyAccess_cnt _ 1 hmiss).trans (onlyAccess_pmuEv _ _ _ _))).trans <|
    (onlyAccess_ite (onlyAccess_cnt _ _ hrd) (onlyAccess_refl _)).trans <|
    (onlyAccess_ite (onlyAccess_cnt _ _ hwr) (onlyAccess_refl _)).trans <|
    (onlyAccess_cnt _ _ hcls).trans (onlyAccess_ite (onlyAccess_cnt _ _ hob) (onlyAccess_refl _))

theorem onlyAccess_rtsTake (s : State) (r : RtsReq) : onlyAccess s (s.rtsTake r) := by
  obtain ⟨-, -, -, -, -, -, hraw, -, hhwm⟩ := rtsCounters_high (s.stkOf r.addr) 0
  unfold State.rtsTake
  dsimp only
  exact (onlyAccess_ite (onlyAccess_cnt _ 1 hraw) (onlyAccess_refl _)).trans <|
    (onlyAccess_pmuEv _ _ _ _).trans <| (onlyAccess_wr _ _ hhwm).trans <|
    (onlyAccess_ite (onlyAccess_pmuEv _ _ _ _) (onlyAccess_refl _)).trans (onlyAccess_rtsMove _ _ _)

theorem onlyAccess_rtsUse (s : State) (cls a n : Nat) (w : Bool) : onlyAccess s (s.rtsUse cls a n w) := by
  unfold State.rtsUse
  generalize rtsParts a n = l
  induction l generalizing s with
  | nil => exact onlyAccess_refl s
  | cons p l ih => exact (onlyAccess_rtsTake s _).trans (ih _)

theorem onlyAccess_rtsUseFrom (s : State) (e cls a n : Nat) (w : Bool) : onlyAccess s (s.rtsUseFrom e cls a n w) := by
  obtain ⟨-, -, -, -, -, -, -, hx, -⟩ := rtsCounters_high (s.stkOf a) 0
  unfold State.rtsUseFrom
  exact (onlyAccess_ite (onlyAccess_refl s) (onlyAccess_cnt s 1 hx)).trans (onlyAccess_rtsUse _ _ _ _ _)

theorem onlyAccess_toOwner (s : State) (c b : Nat) : onlyAccess s (s.toOwner c b) := by
  obtain ⟨-, -, -, -, -, -, -, hx, -⟩ := rtsCounters_high (s.bucketStack b) 0
  unfold State.toOwner
  exact onlyAccess_ite (onlyAccess_refl s) (onlyAccess_cnt s 1 hx)

/-! ### A directory without errors (R162, R176) -/

/-- No word has an error or a mark. -/
def State.clean (s : State) : Prop := s.ecc.diff = [] ∧ s.ecc.poison = []

theorem State.clean_congr {s t : State} (h : t.ecc = s.ecc) (hs : s.clean) : t.clean := by
  unfold State.clean; rw [h]; exact hs

theorem State.bucketScan_clean {s : State} (h : s.clean) (cls b : Nat) :
    s.bucketScan cls b = s.rtsUse cls (wayAddr (4 * b)) 256 false := by
  obtain ⟨hd, hp⟩ := h
  unfold State.bucketScan
  dsimp only
  rw [State.rtsUse_ecc, hd, hp]; rfl

/-- An engine sees the same buckets: their bytes, the ways quarantined and the ways held. -/
def sameDir (s t : State) : Prop :=
  t.rs = s.rs ∧ t.gv.quarantine = s.gv.quarantine ∧ ∀ i, t.heldWays.contains i = s.heldWays.contains i

theorem sameDir.trans {s t u : State} (hst : sameDir s t) (htu : sameDir t u) : sameDir s u := by
  obtain ⟨hrs, hq, hh⟩ := hst
  obtain ⟨hrs', hq', hh'⟩ := htu
  exact ⟨hrs'.trans hrs, hq'.trans hq, fun i => (hh' i).trans (hh i)⟩

theorem onlyAccess.sameDir {s t : State} (h : onlyAccess s t) : sameDir s t := by
  rw [h.1]; exact ⟨rfl, rfl, fun _ => rfl⟩

theorem State.way_congr {s t : State} (h : t.rs = s.rs) (i : Nat) : t.way i = s.way i := by
  unfold State.way State.rsRead; rw [h]

theorem State.matchWay_congr {s t : State} (h : sameDir s t) (b : Nat) (key : List Byte) (prof : Nat) (alt : Bool) :
    t.matchWay b key prof alt = s.matchWay b key prof alt := by
  obtain ⟨hrs, hq, -⟩ := h
  unfold State.matchWay
  simp only [State.way_congr hrs, hq]

theorem State.ovf_congr {s t : State} (h : sameDir s t) (b : Nat) : t.ovf b = s.ovf b := by
  obtain ⟨hrs, hq, -⟩ := h
  unfold State.ovf
  rw [hq, State.way_congr hrs]

theorem State.freeWay_congr {s t : State} (h : sameDir s t) (b : Nat) : t.freeWay b = s.freeWay b := by
  obtain ⟨hrs, hq, hh⟩ := h
  unfold State.freeWay State.wayUsed
  simp only [State.way_congr hrs, hq, hh]

/-! ### Pending entries (R168) -/

/-- A listed entry stays listed, but for the one that stood at the key written. -/
theorem Tab.mem_insert_of_mem {α : Type} {t : Tab α} {x : Nat × α} (h : x ∈ t) (k : Nat) (v : α) :
    x ∈ t.insert k v ∨ t.find? k = some x.2 := by
  induction t with
  | nil => cases h
  | cons e r ih =>
    obtain ⟨j, u⟩ := e
    unfold Tab.insert Tab.find?
    by_cases hj : j = k
    · rw [if_pos hj, if_pos hj]
      rcases List.mem_cons.1 h with rfl | h
      · exact .inr rfl
      · exact .inl (List.mem_cons_of_mem _ h)
    · rw [if_neg hj, if_neg hj]
      split
      · exact .inl (List.mem_cons_of_mem _ h)
      · rcases List.mem_cons.1 h with rfl | h
        · exact .inl List.mem_cons_self
        · exact (ih h).imp_left (List.mem_cons_of_mem _)

theorem State.mem_heldWays {s : State} {i : Nat} : i ∈ s.heldWays ↔ ∃ x ∈ s.gv.pends, x.2.heldWay = some i := by
  unfold State.heldWays; rw [List.mem_filterMap]

/-- An entry rewritten with the way it holds leaves the ways held as they are. -/
theorem sameDir_putPend {s : State} {k : Nat} {e x : PendEnt} (h : s.gv.pends.find? k = some e) (hw : x.heldWay = e.heldWay) :
    sameDir s (s.putPend k x) := by
  refine ⟨rfl, rfl, fun i => ?_⟩
  have hput : (s.putPend k x).gv.pends.find? k = some x := (Tab.find_insert _ _ _ _).trans (if_pos rfl)
  rw [Bool.eq_iff_iff, List.contains_iff_mem, List.contains_iff_mem, State.mem_heldWays, State.mem_heldWays]
  constructor
  · rintro ⟨y, hy, hi⟩
    rcases Tab.mem_insert hy with rfl | hy
    · exact ⟨_, Tab.mem_of_find h, hw.symm.trans hi⟩
    · exact ⟨y, hy, hi⟩
  · rintro ⟨y, hy, hi⟩
    rcases Tab.mem_insert_of_mem hy k x with hy | hy
    · exact ⟨y, hy, hi⟩
    · obtain rfl : e = y.2 := Option.some.inj (h.symm.trans hy)
      exact ⟨_, Tab.mem_of_find hput, hw.trans hi⟩

/-- `t` is reached from `s` within a step of the FIND `k`, whose entry is `x` by now. -/
structure FindAt (s t : State) (k : Nat) (x : PendEnt) : Prop where
  entry : t.gv.pends.find? k = some x
  others : ∀ j, j ≠ k → t.gv.pends.find? j = s.gv.pends.find? j
  frame : t = { s with gv := t.gv, regs := t.regs, msi := t.msi, obs := t.obs, rts0 := t.rts0, rts1 := t.rts1 }
  lines : t.gv.lines = s.gv.lines
  wbq : t.gv.wbq = s.gv.wbq

theorem FindAt.start {s : State} {k : Nat} {e : PendEnt} (h : s.gv.pends.find? k = some e) : FindAt s s k e :=
  ⟨h, fun _ _ => rfl, rfl, rfl, rfl⟩

section
variable {s t : State} {k : Nat} {x : PendEnt} (h : FindAt s t k x)
include h

theorem FindAt.clean (hs : s.clean) : t.clean := State.clean_congr (congrArg State.ecc h.frame :) hs

theorem FindAt.access {u : State} (hu : onlyAccess t u) : FindAt s u k x := by
  obtain ⟨hentry, hothers, hframe, hlines, hwbq⟩ := h
  have hgv : u.gv = t.gv := hu.gv
  refine ⟨by rw [hgv]; exact hentry, by rw [hgv]; exact hothers, ?_, by rw [hgv]; exact hlines, by rw [hgv]; exact hwbq⟩
  obtain ⟨hu, -⟩ := hu
  rw [hu, hframe]

theorem FindAt.grove {g : GroveSt} (hp : g.pends = t.gv.pends) (hl : g.lines = t.gv.lines) (hw : g.wbq = t.gv.wbq) :
    FindAt s { t with gv := g } k x := by
  obtain ⟨hentry, hothers, hframe, hlines, hwbq⟩ := h
  refine ⟨by rw [hp]; exact hentry, by rw [hp]; exact hothers, ?_, hl.trans hlines, hw.trans hwbq⟩
  rw [hframe]

theorem FindAt.cnt (a n : Nat) : FindAt s (t.cnt a n) k x := by
  obtain ⟨hentry, hothers, hframe, hlines, hwbq⟩ := h
  exact ⟨hentry, hothers, (congrArg (fun v : State => { v with regs := (t.cnt a n).regs }) hframe :), hlines, hwbq⟩

theorem FindAt.putPend (y : PendEnt) : FindAt s (t.putPend k y) k y := by
  obtain ⟨-, hothers, hframe, hlines, hwbq⟩ := h
  refine ⟨(Tab.find_insert _ _ _ _).trans (if_pos rfl), fun j hj => ?_, ?_, hlines, hwbq⟩
  · exact ((Tab.find_insert _ _ _ _).trans (if_neg (Ne.symm hj))).trans (hothers j hj)
  · exact (congrArg (fun v : State => { v with gv := (t.putPend k y).gv }) hframe :)

theorem FindAt.takeToken (c : Nat) : FindAt s (t.takeToken c).2 k x := by
  unfold State.takeToken
  dsimp only
  split
  · exact h.grove rfl rfl rfl
  · exact h

theorem FindAt.setFind (f : FindSt) : FindAt s (t.setFind k f) k { x with
    fs := f, heldWay := match f with | .alt => x.heldWay | .prim none => x.heldWay | _ => none } := by
  unfold State.setFind
  rw [h.entry]
  exact h.putPend _

/-- Out of budget, and counted once (R174). -/
theorem FindAt.findOb (hb : x.inBudget = false) : FindAt s (t.findOb k) k { x with counted := true } := by
  unfold State.findOb
  rw [h.entry]
  dsimp only
  split
  next hc =>
    rw [← hc]; exact h
  next =>
    rw [← hb]; exact (h.putPend _).cnt _ _

/-- A flow found, its hot block unharmed (R176). -/
theorem FindAt.findHit (hs : s.clean) (i : Nat) : FindAt s (t.findHit k i) k { x with fs := .line i false, heldWay := none } := by
  unfold State.findHit
  dsimp only
  have hread := h.access (onlyAccess_rtsUseFrom t (t.bucketStack (i / 4))
    ((t.gv.pends.find? k).elim clsOb (fun e => if e.inBudget then clsMiss else clsOb)) (slotAddr i + 64) 64 false)
  obtain ⟨hd, hp⟩ := hread.clean hs
  obtain ⟨hscan, hok⟩ := State.rsScan_clean hd hp (slotAddr i + 64) 64
  rw [hscan, hok]
  exact hread.setFind (.line i false)

end

/-! ### Tokens (R174) -/

theorem State.takeToken_has {s : State} {c : Nat} (h : s.gv.tokUsed.get 0 c + 1000 ≤ s.missBurst * 1000) :
    s.takeToken c = (true, { s with gv.tokUsed := s.gv.tokUsed.set 0 c (s.gv.tokUsed.get 0 c + 1000) }) := by
  unfold State.takeToken; exact if_pos h

theorem State.takeToken_lacks {s : State} {c : Nat} (h : ¬ s.gv.tokUsed.get 0 c + 1000 ≤ s.missBurst * 1000) :
    s.takeToken c = (false, s) := by
  unfold State.takeToken; exact if_neg h

theorem State.missBurst_congr {s t : State} (h : t.reg GRV_MISS_CFG = s.reg GRV_MISS_CFG) : t.missBurst = s.missBurst :=
  congrArg (max 1) (State.rd_of_reg (f := GRV_MISS_CFG_BURST) h)

/-- The class of an engine's first read of a FIND is that of its budget. -/
theorem State.findCls_takeToken (s : State) (c : Nat) : findCls (s.takeToken c).1 =
    if s.gv.tokUsed.get 0 c + 1000 ≤ s.missBurst * 1000 then clsMiss else clsOb := by
  unfold State.takeToken
  dsimp only
  split <;> rfl

theorem State.secondToken_has {s : State} {c : Nat} (k : Nat) (h : s.gv.tokUsed.get 0 c + 1000 ≤ s.missBurst * 1000) :
    s.secondToken k c = (true, (s.takeToken c).2) := by
  unfold State.secondToken
  rw [State.takeToken_has h]; rfl

end Sys2Proof.Machine
end

section
/-!
SUPPORT. The steps of a FIND over a directory without errors (O41): its place in the engines' order, one equation for each
of its steps, a flow created without a binding, and the installation of its line (R168 to R171, R257).
-/
namespace Sys2Proof.Machine

theorem exec_find {s : State} {g : Fin 16} (n : Fin 512) (h : s.alive (islGroup g.val) = true) :
    exec (.find g n) s = .next (s.find (pendKey g.val n.val)) :=
  onIsl_up (f := (·.find (pendKey g.val n.val))) h

theorem exec_dirAltStep {s : State} {g : Fin 16} (n : Fin 512) (h : s.alive (islGroup g.val) = true) :
    exec (.dirAltStep g n) s = .next (s.findAlt (pendKey g.val n.val)) :=
  onIsl_up (f := (·.findAlt (pendKey g.val n.val))) h

theorem exec_dirPrimaryStep {s : State} {g : Fin 16} (n : Fin 512) (h : s.alive (islGroup g.val) = true) :
    exec (.dirPrimaryStep g n) s = .next (s.findPrim (pendKey g.val n.val)) :=
  onIsl_up (f := (·.findPrim (pendKey g.val n.val))) h

theorem exec_findReply {s : State} {g : Fin 16} (n : Fin 512) (h : s.alive (islGroup g.val) = true) :
    exec (.findReply g n) s = .next (s.findReply (pendKey g.val n.val)) :=
  onIsl_up (f := (·.findReply (pendKey g.val n.val))) h

theorem exec_lineInstall {s : State} {g : Fin 16} (n : Fin 512) (h : s.alive (islGroup g.val) = true) :
    exec (.lineInstall g n) s = .next (s.install (pendKey g.val n.val)) :=
  onIsl_up (f := (·.install (pendKey g.val n.val))) h

/-! ### A flow created without a binding (R161, R169) -/

/-- The state in which an entry's flow stands at `i`, without a binding; in the alternate bucket, an OVF increase is left. -/
def State.created (u : State) (k : Nat) (x : PendEnt) (i : Nat) (alt : Bool) : State :=
  (((u.writeRecord clsMiss i x.key x.prof (fpOf x.hA x.hB) alt (x.cr.cold + ({} : Binding).cold)).putPend k
    { x with hot := hotBytes (x.cr.hotWith {}), isNew := true, heldWay := none }).bindCount {}).setFind k
      (if alt then .ovf [x.hB % 2 ^ 24] i else .line i true)

theorem State.bindingOf_none (s : State) (c : Nat) {cr : CreateReq} (hA : Nat) (h1 : cr.bind ≠ 1) (h2 : cr.bind ≠ 2) :
    s.bindingOf c cr hA = (some {}, s) := by
  unfold State.bindingOf; split
  · contradiction
  · contradiction
  · rfl

theorem State.findCreate_unbound {u : State} {k : Nat} {x : PendEnt} (h : u.gv.pends.find? k = some x) (c i : Nat) (alt : Bool)
    (h1 : x.cr.bind ≠ 1) (h2 : x.cr.bind ≠ 2) : u.findCreate k c i alt = u.created k x i alt := by
  unfold State.findCreate State.createAt
  rw [h]
  dsimp only
  rw [State.bindingOf_none u c x.hA h1 h2]
  cases alt <;> rfl

/-- Without a binding there is no reverse key to wait for. -/
theorem State.revWaits_unbound (s : State) {x : PendEnt} (h1 : x.cr.bind ≠ 1) (h2 : x.cr.bind ≠ 2) :
    s.revWaits x = false := by
  unfold State.revWaits; split
  · contradiction
  · contradiction
  · rfl

/-! ### FIND on its primary bucket (R169, R174) -/

/-- A FIND's entry once an engine has taken it in its order, with or without a token. -/
def PendEnt.takenAt (e : PendEnt) (t : Nat) (tok : Bool) : PendEnt := { e with inBudget := tok, taken := t }

/-- The state in which an engine has read a FIND's primary bucket, with a token when there was one. -/
def State.findScanned (s : State) (b : Nat) : State :=
  (s.takeToken (s.bucketStack b)).2.rtsUse (findCls (s.takeToken (s.bucketStack b)).1) (wayAddr (4 * b)) 256 false

/-- The FIND `k` takes the next place in the order, its entry `x`. -/
def State.takePlace (u : State) (k : Nat) (x : PendEnt) : State := { u.putPend k x with gv.nextTake := u.gv.nextTake + 1 }

theorem State.takePlace_tokUsed (u : State) (k : Nat) (x : PendEnt) : (u.takePlace k x).gv.tokUsed = u.gv.tokUsed := rfl

theorem State.takePlace_regs (u : State) (k : Nat) (x : PendEnt) : (u.takePlace k x).regs = u.regs := rfl

theorem FindAt.takePlace {s t : State} {k : Nat} {x : PendEnt} (h : FindAt s t k x) (y : PendEnt) :
    FindAt s (t.takePlace k y) k y := (h.putPend y).grove rfl rfl rfl

theorem sameDir_takePlace {s t : State} {k : Nat} {x y : PendEnt} (h : FindAt s t k x) (hw : y.heldWay = x.heldWay) :
    sameDir t (t.takePlace k y) := by
  obtain ⟨hrs, hq, hheld⟩ := sameDir_putPend h.entry hw
  exact ⟨hrs, hq, hheld⟩

/-- The state in which an engine has taken a FIND and read its primary bucket. -/
def State.findTaken (s : State) (k : Nat) (e : PendEnt) : State :=
  (s.findScanned (e.hB % 2 ^ 24)).takePlace k
    (e.takenAt (s.findScanned (e.hB % 2 ^ 24)).gv.nextTake (s.takeToken (s.bucketStack (e.hB % 2 ^ 24))).1)

theorem State.takeToken_nextTake (s : State) (c : Nat) : (s.takeToken c).2.gv.nextTake = s.gv.nextTake := by
  unfold State.takeToken
  dsimp only
  split <;> rfl

theorem State.findScanned_access (s : State) (b : Nat) : onlyAccess (s.takeToken (s.bucketStack b)).2 (s.findScanned b) :=
  onlyAccess_rtsUse _ _ _ _ _

theorem State.findScanned_nextTake (s : State) (b : Nat) : (s.findScanned b).gv.nextTake = s.gv.nextTake :=
  (congrArg GroveSt.nextTake (s.findScanned_access b).gv).trans (s.takeToken_nextTake _)

theorem sameDir_takeToken (s : State) (c : Nat) : sameDir s (s.takeToken c).2 := by
  unfold State.takeToken
  dsimp only
  split <;> exact ⟨rfl, rfl, fun _ => rfl⟩

theorem sameDir_findOb {s t : State} {k : Nat} {x : PendEnt} (h : FindAt s t k x) : sameDir t (t.findOb k) := by
  unfold State.findOb
  rw [h.entry]
  dsimp only
  split
  · exact ⟨rfl, rfl, fun _ => rfl⟩
  · exact sameDir_putPend h.entry rfl

section
variable {s : State} {k : Nat} {e : PendEnt} (hk : s.gv.pends.find? k = some e)
include hk

theorem State.findScanned_at (b : Nat) : FindAt s (s.findScanned b) k e :=
  ((FindAt.start hk).takeToken _).access (s.findScanned_access b)

theorem State.findTaken_at : FindAt s (s.findTaken k e) k
    (e.takenAt s.gv.nextTake (s.takeToken (s.bucketStack (e.hB % 2 ^ 24))).1) := by
  rw [← s.findScanned_nextTake (e.hB % 2 ^ 24)]
  exact (State.findScanned_at hk _).takePlace _

theorem State.findTaken_dir : sameDir s (s.findTaken k e) :=
  ((sameDir_takeToken s _).trans (s.findScanned_access _).sameDir).trans (sameDir_takePlace (State.findScanned_at hk _) rfl)

/-- R169, R257: one equation for a FIND that an engine takes, over what its primary bucket holds. -/
theorem State.find_taken {b c : Nat} {tok : Bool} {t : State} (hs : s.clean) (hph : e.ph = .find) (hfs : e.fs = .sent)
    (hb : e.hB % 2 ^ 24 = b) (hc : s.bucketStack b = c) (htok : (s.takeToken c).1 = tok)
    (ht : (if tok then s.findTaken k e else (s.findTaken k e).findOb k) = t)
    (hroom : s.rtsHas (findCls tok) (wayAddr (4 * b)) = true) : s.find k =
      match s.matchWay b e.key e.prof false with
      | some i => t.findHit k i
      | none =>
        if s.ovf b = 0 then
          if !tok then t.setFind k (.none 0)
          else
            match s.freeWay b with
            | some i => if s.revWaits (e.takenAt (s.findScanned b).gv.nextTake tok) then s else t.findCreate k c i false
            | none =>
              if (t.secondToken k c).1 then ((t.secondToken k c).2.cnt GRV_ALT_READ_CNT).setFind k .alt
              else (t.secondToken k c).2.setFind k (.none 0)
        else
          let r := if tok then t.secondToken k c else (false, t)
          match r.2.gv.pends.find? k with
          | some x => (r.2.putPend k { x with heldWay := if r.1 then r.2.freeWay b else none, fs := .alt }).cnt GRV_ALT_READ_CNT
          | none => r.2 := by
  subst hb hc htok
  have hdir : sameDir s t := by
    rw [← ht]
    split
    · exact State.findTaken_dir hk
    · exact (State.findTaken_dir hk).trans (sameDir_findOb (State.findTaken_at hk))
  have hclean : (s.takeToken (s.bucketStack (e.hB % 2 ^ 24))).2.clean := ((FindAt.start hk).takeToken _).clean hs
  unfold State.find
  rw [hk]
  dsimp only
  rw [if_neg (by simp [hph, hfs]), if_neg (by rw [hroom]; decide), State.bucketScan_clean hclean,
    ← State.matchWay_congr hdir, ← State.ovf_congr hdir, ← State.freeWay_congr hdir]
  subst ht
  unfold State.findTaken State.takePlace State.findScanned PendEnt.takenAt
  rfl

theorem State.find_held {b : Nat} (hph : e.ph = .find) (hfs : e.fs = .sent) (hb : e.hB % 2 ^ 24 = b)
    (hroom : s.rtsHas (findCls (s.takeToken (s.bucketStack b)).1) (wayAddr (4 * b)) = false) :
    s.find k = s.rtsHeldBack (wayAddr (4 * b)) := by
  subst hb
  unfold State.find
  rw [hk]
  dsimp only
  rw [if_neg (by simp [hph, hfs]), if_pos (by rw [hroom]; decide)]

omit hk in
/-- A second token stands ready after the first where there were two. -/
theorem State.findTaken_secondToken {c : Nat} (hc : s.bucketStack (e.hB % 2 ^ 24) = c)
    (h : s.gv.tokUsed.get 0 c + 1000 * 2 ≤ s.missBurst * 1000) : (s.findTaken k e).secondToken k c =
      (true, ((s.findTaken k e).takeToken c).2) := by
  have hone : s.gv.tokUsed.get 0 c + 1000 ≤ s.missBurst * 1000 := by omega
  subst hc
  have hread := s.findScanned_access (e.hB % 2 ^ 24)
  have htok : (s.findTaken k e).gv.tokUsed = (s.takeToken (s.bucketStack (e.hB % 2 ^ 24))).2.gv.tokUsed :=
    (State.takePlace_tokUsed _ _ _).trans (congrArg GroveSt.tokUsed hread.gv)
  have hreg : (s.findTaken k e).reg GRV_MISS_CFG = (s.takeToken (s.bucketStack (e.hB % 2 ^ 24))).2.reg GRV_MISS_CFG :=
    (State.reg_congr (State.takePlace_regs _ _ _) _).trans (hread.2 _ (by decide))
  apply State.secondToken_has
  rw [State.missBurst_congr hreg, htok, State.takeToken_has hone]
  dsimp only
  rw [Tab.get_set_same]
  exact (by omega : _ + 1000 + 1000 ≤ s.missBurst * 1000)

/-! ### The further steps of a FIND (R168, R257) -/

/-- R257: one equation for the step on the alternate bucket, over what that bucket holds. -/
theorem State.findAlt_read {a c : Nat} {t : State} (hs : s.clean) (hph : e.ph = .find) (hfs : e.fs = .alt)
    (ha : altBucket (e.hB % 2 ^ 24) (fpOf e.hA e.hB) = a) (hc : s.bucketStack (e.hB % 2 ^ 24) = c)
    (ht : (s.toOwner c a).rtsUse (findCls e.inBudget) (wayAddr (4 * a)) 256 false = t)
    (hroom : s.rtsHas (findCls e.inBudget) (wayAddr (4 * a)) = true) : s.findAlt k =
      match s.matchWay a e.key e.prof true with
      | some i => if e.heldWay.isSome then t.setFind k (.prim (some i)) else t.findHit k i
      | none =>
        if !e.inBudget then t.setFind k (.none 0)
        else if e.heldWay.isSome then t.setFind k (.prim none)
        else
          match s.freeWay a with
          | some i => if s.revWaits e then s else t.findCreate k c i true
          | none => t.setFind k (.none 1) := by
  subst ha hc ht
  have howner := onlyAccess_toOwner s (s.bucketStack (e.hB % 2 ^ 24)) (altBucket (e.hB % 2 ^ 24) (fpOf e.hA e.hB))
  have hdir := (howner.trans (onlyAccess_rtsUse _ (findCls e.inBudget)
    (wayAddr (4 * altBucket (e.hB % 2 ^ 24) (fpOf e.hA e.hB))) 256 false)).sameDir
  unfold State.findAlt
  rw [hk]
  dsimp only
  rw [if_neg (by simp [hph, hfs]), if_neg (by rw [hroom]; decide),
    State.bucketScan_clean (((FindAt.start hk).access howner).clean hs),
    State.matchWay_congr hdir, State.freeWay_congr hdir] <;> rfl

theorem State.findAlt_held {a : Nat} (hph : e.ph = .find) (hfs : e.fs = .alt)
    (ha : altBucket (e.hB % 2 ^ 24) (fpOf e.hA e.hB) = a) (hroom : s.rtsHas (findCls e.inBudget) (wayAddr (4 * a)) = false) :
    s.findAlt k = s.rtsHeldBack (wayAddr (4 * a)) := by
  subst ha
  unfold State.findAlt
  rw [hk]
  dsimp only
  rw [if_neg (by simp [hph, hfs]), if_pos (by rw [hroom]; decide)]

theorem State.findPrim_hit {i : Nat} (hph : e.ph = .find) (hfs : e.fs = .prim (some i)) : s.findPrim k = s.findHit k i := by
  unfold State.findPrim
  rw [hk]
  dsimp only
  rw [hph, hfs]

theorem State.findPrim_creates {i : Nat} (hph : e.ph = .find) (hfs : e.fs = .prim none) (hw : e.heldWay = some i) :
    s.findPrim k = if s.revWaits e then s else s.findCreate k (s.bucketStack (e.hB % 2 ^ 24)) i false := by
  unfold State.findPrim
  rw [hk]
  dsimp only
  rw [hph, hfs, hw]

theorem State.findPrim_ovf {o j : Nat} {os : List Nat} (hph : e.ph = .find) (hfs : e.fs = .ovf (o :: os) j) :
    s.findPrim k = (s.ovfUp clsMiss o).setFind k (if os = [] then .line j true else .ovf os j) := by
  unfold State.findPrim
  rw [hk]
  dsimp only
  rw [hph, hfs]
  cases os <;> rfl

theorem State.findReply_line {i : Nat} {w : Bool} (hph : e.ph = .find) (hfs : e.fs = .line i w) :
    s.findReply k = s.putPend k { e with ph := .install } := by
  unfold State.findReply
  rw [hk]
  dsimp only
  rw [hph, hfs]

theorem State.findReply_none {x : Nat} (hph : e.ph = .find) (hfs : e.fs = .none x) :
    s.findReply k = if e.pkts = [] then s.freePend k else s.putPend k { e with ph := .release } := by
  unfold State.findReply
  rw [hk]
  dsimp only
  rw [hph, hfs]
  cases e.pkts <;> rfl

/-! ### The installation of a line (R170, R171) -/

theorem State.install_noVictim {i : Nat} {w : Bool} {u : State} (hph : e.ph = .install) (hfs : e.fs = .line i w)
    (hv : s.victim e.hA (fpOf e.hA e.hB) = (none, u)) : s.install k = u := by
  unfold State.install
  rw [hk]
  dsimp only
  rw [hph, hfs, hv]

end

/-- A victim whose hot block is dirty and whose controller has no room for the write-back. -/
def State.evictWaits (u : State) (l : Nat) : Bool :=
  (u.line l).v && (u.line l).dirty && !u.rtsHas clsMiss (slotAddr (u.line l).idx + 64)

/-- The line that holds an entry's flow `i`: dirty with the new hot block when the FIND has just created it. -/
def State.foundLine (t : State) (e : PendEnt) (i : Nat) (w : Bool) : CLine :=
  { fp := fpOf e.hA e.hB, v := true, ref := true, pend := true, dirty := w
    data := splice (t.way i) 63 [0] ++ (if w then e.hot else t.rsRead (slotAddr i + 64) 64) }

/-- That line put into `l`, which stands free; the entry waits for its packets' release. -/
def State.installed (t : State) (k : Nat) (e : PendEnt) (i : Nat) (w : Bool) (l : Nat) : State :=
  (((t.setLine l (t.foundLine e i w)).lineWritten l).putPend k { e with ph := .release, line := some l }).pendEnd k

theorem State.install_victim {s u : State} {k i l : Nat} {e : PendEnt} {w : Bool} (hk : s.gv.pends.find? k = some e)
    (hph : e.ph = .install) (hfs : e.fs = .line i w) (hv : s.victim e.hA (fpOf e.hA e.hB) = (some l, u)) : s.install k =
      if u.evictWaits l then u.bufferWb l else (u.evict l).installed k e i w l := by
  unfold State.install State.evictWaits State.installed State.foundLine
  rw [hk]
  dsimp only
  rw [hph, hfs, hv]

/-- A way without a valid line is taken as it is. -/
theorem State.evict_eq (u : State) (l : Nat) : u.evict l = if (u.line l).v then u.evict l else u := by
  split
  · rfl
  · next h =>
    unfold State.evict
    simp [h]

end Sys2Proof.Machine
end

section
/-!
SUPPORT. How each step of a FIND ends (O41): the entry it leaves, with a token and without one (R168, R169, R174, R257).
-/
namespace Sys2Proof.Machine

/-- What a FIND's step leaves, as the statement says it. -/
theorem FindAt.replies {s t : State} {k : Nat} {x : PendEnt} (h : FindAt s t k x) {i : Instr} (hi : exec i s = .next t) :
    ∃ t, exec i s = .next t ∧ t.gv.pends.find? k = some x ∧ (∀ j, j ≠ k → t.gv.pends.find? j = s.gv.pends.find? j) ∧
      t = { s with gv := t.gv, regs := t.regs, msi := t.msi, obs := t.obs, rts0 := t.rts0, rts1 := t.rts1 } ∧
      t.gv.lines = s.gv.lines ∧ t.gv.wbq = s.gv.wbq :=
  ⟨t, hi, h.entry, h.others, h.frame, h.lines, h.wbq⟩

section
variable {s : State} {k b c : Nat} {e : PendEnt} (hs : s.clean) (hk : s.gv.pends.find? k = some e) (hph : e.ph = .find)
  (hfs : e.fs = .sent) (hb : e.hB % 2 ^ 24 = b) (hc : s.bucketStack b = c)
include hs hk hph hfs hb hc

section
variable (htok : s.gv.tokUsed.get 0 c + 1000 ≤ s.missBurst * 1000) (hroom : s.rtsHas clsMiss (wayAddr (4 * b)) = true)
include htok hroom

omit hs hph hfs hroom in
theorem State.findTaken_funded : FindAt s (s.findTaken k e) k (e.takenAt s.gv.nextTake true) := by
  have h := State.findTaken_at hk
  rw [hb, hc, State.takeToken_has htok] at h
  exact h

omit hs hk hph hfs hroom in
theorem State.findTaken_eq : s.findTaken k e =
    { ((s.takeToken c).2.rtsUse clsMiss (wayAddr (4 * b)) 256 false).putPend k (e.takenAt s.gv.nextTake true) with
      gv.nextTake := s.gv.nextTake + 1 } := by
  unfold State.findTaken State.takePlace
  rw [State.findScanned_nextTake, hb]
  unfold State.findScanned
  rw [hc, State.takeToken_has htok]
  rfl

theorem State.find_hits {i : Nat} (hm : s.matchWay b e.key e.prof false = some i) :
    FindAt s (s.find k) k { e.takenAt s.gv.nextTake true with fs := .line i false, heldWay := none } := by
  rw [State.find_taken hk hs hph hfs hb hc (by rw [State.takeToken_has htok]) (if_pos rfl) hroom, hm]
  exact (State.findTaken_funded hk hb hc htok).findHit hs i

theorem State.find_waits {i : Nat} (hm : s.matchWay b e.key e.prof false = none) (ho : s.ovf b = 0)
    (hf : s.freeWay b = some i) (hrev : s.revWaits (e.takenAt s.gv.nextTake true) = true) : s.find k = s := by
  rw [State.find_taken hk hs hph hfs hb hc (by rw [State.takeToken_has htok]) (if_pos rfl) hroom, hm, hf]
  dsimp only
  rw [if_pos ho, if_neg (by decide), State.findScanned_nextTake, if_pos hrev]

theorem State.find_creates {i : Nat} (hm : s.matchWay b e.key e.prof false = none) (ho : s.ovf b = 0)
    (hf : s.freeWay b = some i) (h1 : e.cr.bind ≠ 1) (h2 : e.cr.bind ≠ 2) :
    s.find k = (s.findTaken k e).created k (e.takenAt s.gv.nextTake true) i false := by
  rw [State.find_taken hk hs hph hfs hb hc (by rw [State.takeToken_has htok]) (if_pos rfl) hroom, hm, hf]
  dsimp only
  rw [if_pos ho, if_neg (by decide),
    State.revWaits_unbound s (x := e.takenAt (s.findScanned b).gv.nextTake true) h1 h2, if_neg (by decide)]
  exact State.findCreate_unbound (State.findTaken_funded hk hb hc htok).entry c i false h1 h2

end

section
variable (htok : s.gv.tokUsed.get 0 c + 1000 * 2 ≤ s.missBurst * 1000) (hroom : s.rtsHas clsMiss (wayAddr (4 * b)) = true)
  (hm : s.matchWay b e.key e.prof false = none)
include htok hroom hm

omit hs hph hfs hroom hm in
theorem State.findTaken_twice : FindAt s ((s.findTaken k e).secondToken k c).2 k (e.takenAt s.gv.nextTake true) := by
  rw [State.findTaken_secondToken (by rw [hb]; exact hc) htok]
  exact (State.findTaken_funded hk hb hc (by omega)).takeToken c

theorem State.find_goesOn (ho : s.ovf b = 0) (hf : s.freeWay b = none) :
    FindAt s (s.find k) k { e.takenAt s.gv.nextTake true with fs := .alt } := by
  have hone : s.gv.tokUsed.get 0 c + 1000 ≤ s.missBurst * 1000 := by omega
  have htwo := State.findTaken_secondToken (k := k) (by rw [hb]; exact hc : s.bucketStack (e.hB % 2 ^ 24) = c) htok
  rw [State.find_taken hk hs hph hfs hb hc (by rw [State.takeToken_has hone]) (if_pos rfl) hroom, hm, hf]
  dsimp only
  rw [if_pos ho, if_neg (by decide), if_pos (by rw [htwo])]
  exact ((State.findTaken_twice hk hb hc htok).cnt _ _).setFind .alt

theorem State.find_goesOnHolding (ho : s.ovf b ≠ 0) :
    FindAt s (s.find k) k { e.takenAt s.gv.nextTake true with fs := .alt, heldWay := s.freeWay b } := by
  have hone : s.gv.tokUsed.get 0 c + 1000 ≤ s.missBurst * 1000 := by omega
  have htwo := State.findTaken_secondToken (k := k) (by rw [hb]; exact hc : s.bucketStack (e.hB % 2 ^ 24) = c) htok
  have hat := State.findTaken_twice hk hb hc htok
  have hdir : sameDir s ((s.findTaken k e).takeToken c).2 := (State.findTaken_dir hk).trans (sameDir_takeToken _ c)
  rw [State.find_taken hk hs hph hfs hb hc (by rw [State.takeToken_has hone]) (if_pos rfl) hroom, hm]
  rw [htwo] at hat
  dsimp only
  rw [if_neg ho, if_pos rfl, htwo]
  dsimp only
  rw [hat.entry, if_pos rfl, State.freeWay_congr hdir]
  exact (hat.putPend _).cnt _ _

end

section
variable (htok : ¬ s.gv.tokUsed.get 0 c + 1000 ≤ s.missBurst * 1000) (hroom : s.rtsHas clsOb (wayAddr (4 * b)) = true)
include htok hroom

omit hs hph hfs hroom in
theorem State.findTaken_unfunded : FindAt s ((s.findTaken k e).findOb k) k
    { e.takenAt s.gv.nextTake false with counted := true } := by
  have h := State.findTaken_at hk
  rw [hb, hc, State.takeToken_lacks htok] at h
  exact h.findOb rfl

theorem State.find_hitsUnfunded {i : Nat} (hm : s.matchWay b e.key e.prof false = some i) : FindAt s (s.find k) k
    { e.takenAt s.gv.nextTake false with counted := true, fs := .line i false, heldWay := none } := by
  rw [State.find_taken (tok := false) hk hs hph hfs hb hc (by rw [State.takeToken_lacks htok]) (if_neg (by decide)) hroom, hm]
  exact (State.findTaken_unfunded hk hb hc htok).findHit hs i

theorem State.find_missesUnfunded (hm : s.matchWay b e.key e.prof false = none) (ho : s.ovf b = 0) : FindAt s (s.find k) k
    { e.takenAt s.gv.nextTake false with counted := true, fs := .none 0, heldWay := none } := by
  rw [State.find_taken (tok := false) hk hs hph hfs hb hc (by rw [State.takeToken_lacks htok]) (if_neg (by decide)) hroom, hm]
  dsimp only
  rw [if_pos ho, if_pos (by decide)]
  exact (State.findTaken_unfunded hk hb hc htok).setFind (.none 0)

end

end

/-! ### The step on the alternate bucket -/

section
variable {s : State} {k a c : Nat} {e : PendEnt} (hs : s.clean) (hk : s.gv.pends.find? k = some e) (hph : e.ph = .find)
  (hfs : e.fs = .alt) (ha : altBucket (e.hB % 2 ^ 24) (fpOf e.hA e.hB) = a) (hc : s.bucketStack (e.hB % 2 ^ 24) = c)
  (hroom : s.rtsHas (findCls e.inBudget) (wayAddr (4 * a)) = true)
include hs hk hph hfs ha hc hroom

omit hs hph hfs ha hc hroom in
theorem State.altScanned_at (s' : Nat) (cls : Nat) : FindAt s ((s.toOwner s' a).rtsUse cls (wayAddr (4 * a)) 256 false) k e :=
  (FindAt.start hk).access ((onlyAccess_toOwner s s' a).trans (onlyAccess_rtsUse _ _ _ _ _))

theorem State.findAlt_hits {i : Nat} (hm : s.matchWay a e.key e.prof true = some i) : FindAt s (s.findAlt k) k
    { e with fs := if e.heldWay.isSome then .prim (some i) else .line i false, heldWay := none } := by
  rw [State.findAlt_read hk hs hph hfs ha hc rfl hroom, hm]
  dsimp only
  split
  · exact (State.altScanned_at hk c _).setFind (.prim (some i))
  · exact (State.altScanned_at hk c _).findHit hs i

variable (hm : s.matchWay a e.key e.prof true = none)
include hm

theorem State.findAlt_missesUnfunded (hin : e.inBudget = false) :
    FindAt s (s.findAlt k) k { e with fs := .none 0, heldWay := none } := by
  rw [State.findAlt_read hk hs hph hfs ha hc rfl hroom, hm]
  dsimp only
  rw [if_pos (by rw [hin]; decide)]
  exact (State.altScanned_at hk c _).setFind (.none 0)

variable (hin : e.inBudget = true)
include hin

theorem State.findAlt_handsOn (hheld : e.heldWay.isSome = true) : FindAt s (s.findAlt k) k { e with fs := .prim none } := by
  rw [State.findAlt_read hk hs hph hfs ha hc rfl hroom, hm]
  dsimp only
  rw [if_neg (by rw [hin]; decide), if_pos hheld]
  exact (State.altScanned_at hk c _).setFind (.prim none)

theorem State.findAlt_full (hheld : e.heldWay = none) (hf : s.freeWay a = none) :
    FindAt s (s.findAlt k) k { e with fs := .none 1, heldWay := none } := by
  rw [State.findAlt_read hk hs hph hfs ha hc rfl hroom, hm, hf]
  dsimp only
  rw [if_neg (by rw [hin]; decide), if_neg (by rw [hheld]; decide)]
  exact (State.altScanned_at hk c _).setFind (.none 1)

theorem State.findAlt_free {i : Nat} (hheld : e.heldWay = none) (hf : s.freeWay a = some i) : s.findAlt k =
    if s.revWaits e then s else ((s.toOwner c a).rtsUse clsMiss (wayAddr (4 * a)) 256 false).findCreate k c i true := by
  rw [State.findAlt_read hk hs hph hfs ha hc rfl hroom, hm, hf]
  dsimp only
  rw [if_neg (by rw [hin]; decide), if_neg (by rw [hheld]; decide), hin]; rfl

theorem State.findAlt_creates {i : Nat} (hheld : e.heldWay = none) (hf : s.freeWay a = some i) (h1 : e.cr.bind ≠ 1)
    (h2 : e.cr.bind ≠ 2) : s.findAlt k = ((s.toOwner c a).rtsUse clsMiss (wayAddr (4 * a)) 256 false).created k e i true := by
  rw [State.findAlt_free hs hk hph hfs ha hc hroom hm hin hheld hf, State.revWaits_unbound s h1 h2, if_neg (by decide)]
  exact State.findCreate_unbound (State.altScanned_at hk c _).entry c i true h1 h2

end

end Sys2Proof.Machine
end

section
/-!
FINDs and the lines they install (O41).
-/
namespace Sys2Proof.Machine

/-- Settles O41: each step of a FIND runs the operation that its equation above gives, branch by branch; what it replies
follows from the rules of `FindAt`. Tokens kept as thousandths used are assumption 56, accesses that wait for the
controller's room and the buffered victim assumption 58. -/
theorem findAndInstall : Obligations.FindAndInstall := by
  unfold Obligations.FindAndInstall
  refine ⟨fun s c halive => onIsl_up (f := (·.missRefill c.val)) halive, fun s g n e halive hd hp hk => ?steps,
    fun s g n e i w halive hk hph hfs u v hv => ⟨fun hnone => ?noVictim,
      fun l hl => ⟨fun hheld => ?held, fun hheld => ?installs⟩⟩⟩
  case noVictim =>
    subst hnone
    exact (exec_lineInstall n halive).trans (congrArg _ (State.install_noVictim hk hph hfs hv))
  case held =>
    subst hl
    exact (exec_lineInstall n halive).trans (congrArg _ ((State.install_victim hk hph hfs hv).trans (if_pos hheld)))
  case installs =>
    subst hl
    have hinstall := (State.install_victim hk hph hfs hv).trans (if_neg (ne_true_of_eq_false hheld))
    rw [State.evict_eq] at hinstall
    exact (exec_lineInstall n halive).trans (congrArg _ hinstall)
  case steps =>
    have hs : s.clean := ⟨hd, hp⟩
    have hfind := exec_find n halive
    have halt := exec_dirAltStep n halive
    have hprim := exec_dirPrimaryStep n halive
    have hreply := exec_findReply n halive
    refine ⟨fun hph hfs => ⟨fun i htok hroom hm => ?hits, fun i htok hroom hm => ?hitsUnfunded,
        fun htok hroom hm ho => ?missesUnfunded, fun x hroom hx => ?heldBack,
        fun i htok hroom hm ho hf => ⟨fun hrev => ?waits, fun h1 h2 => ?creates⟩,
        fun htok hroom hm => ⟨fun ho hf => ?goesOn, fun ho => ?goesOnHolding⟩⟩,
      fun hph hfs hroom => ?altHeld,
      fun hph hfs hroom => ⟨fun i hm => ?altHits, fun hm hin => ?altUnfunded, fun hm hin hheld => ?handsOn,
        fun hm hin hheld hf => ?altFull, fun i hm hin hheld hf => ⟨fun hrev => ?altWaits, fun h1 h2 => ?altCreates⟩⟩,
      fun i hph hfs => ?primHits, fun i hph hfs hw => ⟨fun hrev => ?primWaits, fun h1 h2 => ?primCreates⟩,
      fun o os j hph hfs => ?primOvf, fun i w hph hfs => ?replyLine,
      fun x hph hfs => ⟨fun hpkts => ?replyRelease, fun hpkts => ?replyFree⟩⟩
    case hits => exact (State.find_hits hs hk hph hfs rfl rfl htok hroom hm).replies hfind
    case hitsUnfunded => exact (State.find_hitsUnfunded hs hk hph hfs rfl rfl htok hroom hm).replies hfind
    case missesUnfunded => exact (State.find_missesUnfunded hs hk hph hfs rfl rfl htok hroom hm ho).replies hfind
    case heldBack =>
      rw [hx, ← State.findCls_takeToken] at hroom
      exact hfind.trans (congrArg _ (State.find_held hk hph hfs rfl hroom))
    case waits => exact hfind.trans (congrArg _ (State.find_waits hs hk hph hfs rfl rfl htok hroom hm ho hf hrev))
    case creates =>
      rw [State.find_creates hs hk hph hfs rfl rfl htok hroom hm ho hf h1 h2, State.findTaken_eq rfl rfl htok] at hfind
      exact hfind
    case goesOn => exact (State.find_goesOn hs hk hph hfs rfl rfl htok hroom hm ho hf).replies hfind
    case goesOnHolding => exact (State.find_goesOnHolding hs hk hph hfs rfl rfl htok hroom hm ho).replies hfind
    case altHeld => exact halt.trans (congrArg _ (State.findAlt_held hk hph hfs rfl hroom))
    case altHits => exact (State.findAlt_hits hs hk hph hfs rfl rfl hroom hm).replies halt
    case altUnfunded => exact (State.findAlt_missesUnfunded hs hk hph hfs rfl rfl hroom hm hin).replies halt
    case handsOn => exact (State.findAlt_handsOn hs hk hph hfs rfl rfl hroom hm hin hheld).replies halt
    case altFull => exact (State.findAlt_full hs hk hph hfs rfl rfl hroom hm hin hheld hf).replies halt
    case altWaits =>
      exact halt.trans (congrArg _ ((State.findAlt_free hs hk hph hfs rfl rfl hroom hm hin hheld hf).trans (if_pos hrev)))
    case altCreates =>
      exact halt.trans (congrArg _ (State.findAlt_creates hs hk hph hfs rfl rfl hroom hm hin hheld hf h1 h2))
    case primHits =>
      rw [State.findPrim_hit hk hph hfs] at hprim
      exact ((FindAt.start hk).findHit hs i).replies hprim
    case primWaits => exact hprim.trans (congrArg _ ((State.findPrim_creates hk hph hfs hw).trans (if_pos hrev)))
    case primCreates =>
      rw [State.findPrim_creates hk hph hfs hw, State.revWaits_unbound s h1 h2, if_neg (by decide),
        State.findCreate_unbound hk _ i false h1 h2] at hprim
      exact hprim
    case primOvf => exact hprim.trans (congrArg _ (State.findPrim_ovf hk hph hfs))
    case replyLine =>
      rw [State.findReply_line hk hph hfs] at hreply
      exact ((FindAt.start hk).putPend _).replies hreply
    case replyRelease =>
      rw [State.findReply_none hk hph hfs, if_neg hpkts] at hreply
      exact ((FindAt.start hk).putPend _).replies hreply
    case replyFree => exact hreply.trans (congrArg _ ((State.findReply_none hk hph hfs).trans (if_pos hpkts)))

end Sys2Proof.Machine
end

section
/-!
SUPPORT. The item that runs on an engine, and the ALU slots of a microword (R215, R216, R220, R221), and O35.
-/
namespace Sys2Proof.Machine

/-! ### Items (R216) -/

theorem State.find_putItem (s : State) (i j : Nat) (it : Item) :
    (s.putItem i it).twig.items.find? j = if i = j then some it else s.twig.items.find? j := Tab.find_insert _ _ _ _

@[simp] theorem State.find_putItem_same (s : State) (i : Nat) (it : Item) :
    (s.putItem i it).twig.items.find? i = some it := by rw [State.find_putItem, if_pos rfl]

theorem State.find_putItem_other (s : State) {i j : Nat} (it : Item) (h : j ≠ i) :
    (s.putItem i it).twig.items.find? j = s.twig.items.find? j := by rw [State.find_putItem, if_neg (Ne.symm h)]

/-- The item found on an engine is one of its cluster that runs there. -/
theorem State.runningOn_some {s : State} {k e i : Nat} {it : Item} (h : s.runningOn k e = some (i, it)) :
    it.cluster = k ∧ it.engine = e ∧ it.ph = .running := by
  simpa [and_assoc] using List.find?_some h

theorem State.onEngine_runs {s : State} {k e i : Nat} {it : Item} (f : Nat → Item → State)
    (h : s.runningOn k e = some (i, it)) : s.onEngine k e f = f i it := by
  unfold State.onEngine; rw [h]

section
variable {s : State} {k : Fin 16} {e : Fin 32} {i : Nat} {it : Item} (halive : s.alive (islCluster k.val) = true)
  (hrun : s.runningOn k.val e.val = some (i, it))
include halive hrun

/-! ### ALU slots (R220, R221) -/

/-- An ALU slot whose operation is defined puts its engine's new state into the item. -/
theorem aluCmd_runs {op : Nat} {isA : Bool} {dst s1 s2 : BitVec 6} {imm : BitVec 64} {en : EngSt}
    (hop : it.eng.aluOp it.eng isA op dst.toNat s1.toNat s2.toNat imm (s.now (islCluster k.val)) = some en) :
    aluCmd k e op isA dst s1 s2 imm s = .next (s.putItem i { it with eng := en }) := by
  refine (onIsl_up (f := (·.aluRow k.val e.val op isA dst.toNat s1.toNat s2.toNat imm)) halive).trans (congrArg _ ?_)
  unfold State.aluRow
  rw [State.onEngine_runs _ hrun, hop]

/-- An operation with a result and flags writes the one to its destination select, the others in slot A alone. -/
theorem aluCmd_result {op : Nat} {dst s1 s2 : BitVec 6} {imm v : BitVec 64} {f : BitVec 4}
    (hop : alu op (it.eng.operand s1.toNat imm (s.now (islCluster k.val)))
      (it.eng.operand s2.toNat imm (s.now (islCluster k.val))) = some (some v, some f)) :
    aluCmd k e op true dst s1 s2 imm s = .next (s.putItem i { it with eng := { it.eng.writeSel dst.toNat v with flags := f } }) ∧
    aluCmd k e op false dst s1 s2 imm s = .next (s.putItem i { it with eng := it.eng.writeSel dst.toNat v }) :=
  ⟨aluCmd_runs halive hrun (by unfold EngSt.aluOp; rw [hop]; rfl),
    aluCmd_runs halive hrun (by unfold EngSt.aluOp; rw [hop]; rfl)⟩

/-- An operation without a result sets the flags in slot A, and changes nothing in slot B. -/
theorem aluCmd_flags {op : Nat} {dst s1 s2 : BitVec 6} {imm : BitVec 64} {f : BitVec 4}
    (hop : alu op (it.eng.operand s1.toNat imm (s.now (islCluster k.val)))
      (it.eng.operand s2.toNat imm (s.now (islCluster k.val))) = some (none, some f)) :
    aluCmd k e op true dst s1 s2 imm s = .next (s.putItem i { it with eng := { it.eng with flags := f } }) ∧
    aluCmd k e op false dst s1 s2 imm s = .next (s.putItem i { it with eng := it.eng }) :=
  ⟨aluCmd_runs halive hrun (by unfold EngSt.aluOp; rw [hop]; rfl),
    aluCmd_runs halive hrun (by unfold EngSt.aluOp; rw [hop]; rfl)⟩

end

/-- A bit field of 64 bits cuts nothing off, so the width needs no case of its own. -/
theorem extField_eq (a b : BitVec 64) :
    extField a b = BitVec.ofNat 64 (a.toNat / 2 ^ (b.toNat % 64) % 2 ^ (b.toNat / 256 % 64 + 1)) := by
  unfold extField
  dsimp only
  split
  · rfl
  · have hw : b.toNat / 256 % 64 + 1 = 64 := by omega
    apply BitVec.eq_of_toNat_eq
    rw [hw, BitVec.toNat_ofNat, BitVec.toNat_ushiftRight, Nat.shiftRight_eq_div_pow, Nat.mod_mod]
    exact (Nat.mod_eq_of_lt ((Nat.div_le_self _ _).trans_lt a.isLt)).symm

theorem EngSt.writeSel_discards (e : EngSt) {sel : Nat} (v : BitVec 64) (h : 48 ≤ sel) : e.writeSel sel v = e :=
  if_neg (Nat.not_lt.2 h)

theorem EngSt.xr_writeSel {e : EngSt} {sel : Nat} (r : Nat) (v : BitVec 64) (hlen : e.x.length = 48) (h : sel < 48) :
    (e.writeSel sel v).xr r = if r = sel then v else e.xr r := by
  unfold EngSt.writeSel EngSt.xr nth setNth
  rw [if_pos h, List.getElem?_set]
  by_cases hr : r = sel
  · subst hr; simp [hlen, h]
  · simp [hr, Ne.symm hr]

/-- Settles O35, operation by operation: the table of R221 gives each slot's result and flags. -/
theorem twigAluOperations : Obligations.TwigAluOperations := by
  unfold Obligations.TwigAluOperations
  refine ⟨fun s k e dst s1 s2 imm i it halive hrun => ?_, fun e sel v h => e.writeSel_discards v h,
    fun e sel r v hlen h => ⟨EngSt.xr_writeSel r v hlen h, ?_⟩⟩
  · intro a b becomes eff zn sub
    refine ⟨fun x => aluCmd_runs halive hrun rfl, aluCmd_result halive hrun rfl, aluCmd_result halive hrun rfl,
      aluCmd_result halive hrun rfl, aluCmd_result halive hrun rfl, aluCmd_result halive hrun rfl,
      aluCmd_result halive hrun rfl, aluCmd_result halive hrun rfl, aluCmd_result halive hrun rfl,
      aluCmd_result halive hrun rfl, aluCmd_flags halive hrun rfl, aluCmd_flags halive hrun rfl,
      aluCmd_result halive hrun rfl, aluCmd_result halive hrun rfl, ?_, aluCmd_result halive hrun rfl,
      aluCmd_result halive hrun rfl, aluCmd_result halive hrun rfl⟩
    have hext := aluCmd_result halive hrun (op := 14) (dst := dst) (s1 := s1) (s2 := s2) (imm := imm) rfl
    rw [extField_eq] at hext
    exact hext
  · unfold EngSt.writeSel; rw [if_pos h]; exact ⟨rfl, rfl, rfl⟩

end Sys2Proof.Machine
end

section
/-!
SUPPORT. A frame's bytes and the memory slots of a microword (R217, R222), and O36.
-/
namespace Sys2Proof.Machine

/-! ### The frame's bytes (R217, R222) -/

theorem splice_byte {l : List Byte} {a : Nat} (v : Byte) (h : a < l.length) : splice l a [v] = l.set a v := by
  have hn : [v].length ≤ l.length - a := by simp only [List.length_singleton]; omega
  unfold splice
  dsimp only
  rw [List.take_of_length_le hn, List.set_eq_take_append_cons_drop, if_pos h, List.append_assoc]
  rfl

theorem nth_set {l : List Byte} {a : Nat} (v : Byte) (b : Nat) (h : a < l.length) :
    nth (l.set a v) b 0 = if b = a then v else nth l b 0 := by
  unfold nth
  rw [List.getElem?_set]
  by_cases hb : b = a
  · subst hb; simp [h]
  · simp [hb, Ne.symm hb]

theorem bit_or_two_pow (m a b : Nat) : bit (m ||| 2 ^ a) b = (bit m b || decide (b = a)) := by
  unfold bit; rw [Nat.testBit_or, Nat.testBit_two_pow]; simp only [eq_comm]

/-- One byte stored: the bits of it that may change do, and it is staged when it has any; the rest stays. -/
theorem EngSt.store1_shows {e : EngSt} (a : Nat) (v : Byte) (h : e.frame.length = 512) :
    (e.store1 a v).x = e.x ∧ (e.store1 a v).flags = e.flags ∧ (e.store1 a v).stack = e.stack ∧ (e.store1 a v).pc = e.pc ∧
      (e.store1 a v).frame.length = 512 ∧
      (∀ b < 512, nth (e.store1 a v).frame b 0 =
        if b = a then (v &&& writable b) ||| (nth e.frame b 0 &&& ~~~writable b) else nth e.frame b 0) ∧
      ∀ b, bit (e.store1 a v).mask b = (bit e.mask b || (decide (b = a) && decide (b < 512) && writable b != 0)) := by
  unfold EngSt.store1
  dsimp only
  split
  next hno =>
    refine ⟨rfl, rfl, rfl, rfl, h, fun b hb => ?_, fun b => ?_⟩
    · split
      next hba =>
        have hw : writable b = 0#8 := hba ▸ hno.resolve_left (by omega)
        rw [hw, BitVec.and_zero, BitVec.not_zero, BitVec.and_allOnes, BitVec.zero_or]
      next => rfl
    · by_cases hba : b = a
      · subst hba
        rcases hno with hno | hno <;> simp [hno]
      · simp [hba]
  next hyes =>
    rw [not_or, Nat.not_le] at hyes
    obtain ⟨ha, hw⟩ := hyes
    have hal : a < e.frame.length := h ▸ ha
    refine ⟨rfl, rfl, rfl, rfl, ?_, fun b _ => ?_, fun b => ?_⟩
    · rw [splice_byte _ hal, List.length_set, h]
    · rw [splice_byte _ hal, nth_set _ _ hal]
      by_cases hba : b = a
      · subst hba; rfl
      · rw [if_neg hba, if_neg hba]
    · rw [bit_or_two_pow]
      by_cases hba : b = a
      · subst hba
        have hne : (writable b != 0) = true := bne_iff_ne.2 hw
        rw [hne]; simp [ha]
      · simp [hba]

/-- Bytes stored one after another from `a` on. -/
def EngSt.storeBytes (e : EngSt) (a : Nat) (bs : List Byte) : EngSt :=
  (bs.foldl (fun (x : EngSt × Nat) b => (x.1.store1 x.2 b, x.2 + 1)) (e, a)).1

theorem EngSt.storeBytes_cons (e : EngSt) (a : Nat) (v : Byte) (bs : List Byte) :
    e.storeBytes a (v :: bs) = (e.store1 a v).storeBytes (a + 1) bs := rfl

theorem EngSt.store_eq (e : EngSt) (a n : Nat) (v : BitVec 64) (net : Bool) :
    e.store a n v net = e.storeBytes a (if net then natBe n v.toNat else natLe n v.toNat) := rfl

/-- What a store of the `n` bytes `bs` from `a` on makes of an engine `e` whose frame is whole: the bits that may change in
the bytes below 512, each such byte staged; registers, flags, return stack and address stay. -/
def EngSt.storedAs (e : EngSt) (a n : Nat) (bs : List Byte) (en : EngSt) : Prop :=
  en.x = e.x ∧ en.flags = e.flags ∧ en.stack = e.stack ∧ en.pc = e.pc ∧ en.frame.length = 512 ∧
  (∀ b < 512, nth en.frame b 0 = if a ≤ b ∧ b < a + n then
      (nth bs (b - a) 0 &&& writable b) ||| (nth e.frame b 0 &&& ~~~writable b) else nth e.frame b 0) ∧
  ∀ b, bit en.mask b = (bit e.mask b || (decide (b < 512) && decide (a ≤ b) && decide (b < a + n) && writable b != 0))

theorem EngSt.storeBytes_storedAs {e : EngSt} (a : Nat) (bs : List Byte) (h : e.frame.length = 512) :
    e.storedAs a bs.length bs (e.storeBytes a bs) := by
  induction bs generalizing e a with
  | nil =>
    refine ⟨rfl, rfl, rfl, rfl, h, fun b _ => ?_, fun b => ?_⟩
    · simp [EngSt.storeBytes]
    · simp [EngSt.storeBytes]
  | cons v bs ih =>
    obtain ⟨hx, hf, hs, hp, hl, hbytes, hmask⟩ := e.store1_shows a v h
    obtain ⟨hx', hf', hs', hp', hl', hbytes', hmask'⟩ := ih (a + 1) hl
    rw [EngSt.storeBytes_cons]
    refine ⟨hx'.trans hx, hf'.trans hf, hs'.trans hs, hp'.trans hp, hl', fun b hb => ?_, fun b => ?_⟩
    · rw [hbytes' b hb, hbytes b hb]
      rcases Nat.lt_trichotomy b a with hlt | rfl | hgt
      · rw [if_neg (by omega), if_neg (by omega), if_neg (by omega)]
      · rw [if_neg (by omega), if_pos rfl, if_pos (by simp), Nat.sub_self]; rfl
      · have hoff : b - a = b - (a + 1) + 1 := by omega
        have hin : a + 1 ≤ b ∧ b < a + 1 + bs.length ↔ a ≤ b ∧ b < a + (v :: bs).length := by
          rw [List.length_cons]; omega
        rw [if_neg (show ¬ b = a by omega), if_congr hin rfl rfl, hoff]; rfl
    · rw [hmask', hmask, Bool.or_assoc]
      have hin : (decide (b = a) || (decide (a + 1 ≤ b) && decide (b < a + 1 + bs.length))) =
          (decide (a ≤ b) && decide (b < a + (v :: bs).length)) := by
        rw [Bool.eq_iff_iff]; simp; omega
      cases hb : decide (b < 512)
      · simp
      · cases hw : writable b != 0
        · simp
        · simpa using congrArg (bit e.mask b || ·) hin

theorem natLe_length (n x : Nat) : (natLe n x).length = n := by
  induction n generalizing x with
  | zero => rfl
  | succ n ih => rw [natLe, List.length_cons, ih]

theorem natBe_length (n x : Nat) : (natBe n x).length = n := by rw [natBe, List.length_reverse, natLe_length]

/-! ### Memory slots (R222) -/

theorem widthBytes_toNat (w : BitVec 2) : widthBytes w.toNat = 2 ^ w.toNat := by
  unfold widthBytes; rw [Nat.mod_eq_of_lt w.isLt]

section
variable {s : State} {k : Fin 16} {e : Fin 32} {i : Nat} {it : Item} (halive : s.alive (islCluster k.val) = true)
  (hrun : s.runningOn k.val e.val = some (i, it))
include halive hrun

theorem memCmd_runs {op : Nat} {reg : BitVec 6} {off : BitVec 9} {w : BitVec 2} {imm : BitVec 64} {en : EngSt}
    (hop : it.eng.memOp it.eng op reg.toNat off.toNat w.toNat imm (s.now (islCluster k.val)) = some en) :
    memCmd k e op reg off w imm s = .next (s.putItem i { it with eng := en }) := by
  refine (onIsl_up (f := (·.memRow k.val e.val op reg.toNat off.toNat w.toNat imm)) halive).trans (congrArg _ ?_)
  unfold State.memRow
  rw [State.onEngine_runs _ hrun, hop]

/-- A memory slot that stores bytes on an engine whose frame is whole. -/
theorem memCmd_stores {op : Nat} {reg : BitVec 6} {off : BitVec 9} {w : BitVec 2} {imm : BitVec 64} {a n : Nat}
    {bs : List Byte} (hlen : it.eng.frame.length = 512) (hn : bs.length = n)
    (hop : it.eng.memOp it.eng op reg.toNat off.toNat w.toNat imm (s.now (islCluster k.val)) =
      some (it.eng.storeBytes a bs)) :
    ∃ en, memCmd k e op reg off w imm s = .next (s.putItem i { it with eng := en }) ∧ it.eng.storedAs a n bs en :=
  ⟨_, memCmd_runs halive hrun hop, hn ▸ EngSt.storeBytes_storedAs a bs hlen⟩

end

/-- Settles O36: each load form reads its bytes, each store form stores its bytes one after another. -/
theorem twigFrameAccess : Obligations.TwigFrameAccess := by
  unfold Obligations.TwigFrameAccess
  refine ⟨fun s k e reg off w i it halive hrun => ?_, fun s k e reg off w i it halive hrun hlen imm => ?_⟩
  · intro n idx becomes bytes
    have hload (a : Nat) (net : Bool) : some (it.eng.writeSel reg.toNat (it.eng.load a (widthBytes w.toNat) net)) =
        some (it.eng.writeSel reg.toNat (BitVec.ofNat 64 (if net then beNat (bytes a) else leNat (bytes a)))) := by
      rw [widthBytes_toNat]; rfl
    exact ⟨memCmd_runs halive hrun rfl, memCmd_runs halive hrun (hload off.toNat false),
      memCmd_runs halive hrun (hload off.toNat true), memCmd_runs halive hrun (hload idx false),
      memCmd_runs halive hrun (hload idx true)⟩
  · intro n idx v stores
    have hstore (a : Nat) (net : Bool) : some (it.eng.store a (widthBytes w.toNat) v net) =
        some (it.eng.storeBytes a (if net then natBe n v.toNat else natLe n v.toNat)) := by
      rw [widthBytes_toNat]; rfl
    exact ⟨memCmd_stores halive hrun hlen (natLe_length _ _) (hstore off.toNat false),
      memCmd_stores halive hrun hlen (natBe_length _ _) (hstore off.toNat true),
      memCmd_stores halive hrun hlen (natLe_length _ _) (hstore idx false),
      memCmd_stores halive hrun hlen (natBe_length _ _) (hstore idx true)⟩

end Sys2Proof.Machine
end

section
/-!
SUPPORT. The commit slot of a microword (R226 to R229, R242), and O38.
-/
namespace Sys2Proof.Machine

/-! ### Staged bytes (R226, R227) -/

@[simp] theorem overBytes_nil (l : List (Nat × Byte)) : overBytes l [] = l := by simp [overBytes]

theorem EngSt.staged_unwritten {e : EngSt} (r : Nat) (h : e.mask = 0) : e.staged r = [] := by
  simp [EngSt.staged, h, bit]

theorem EngSt.unstage_unwritten {e : EngSt} (r : Nat) (h : e.mask = 0) : e.unstage r = e := by
  have hfold (l : List Nat) : l.foldl (fun m a => if bit m a then m - 2 ^ a else m) 0 = 0 := by
    induction l with
    | nil => rfl
    | cons a l ih => simpa [bit] using ih
  unfold EngSt.unstage
  rw [h, hfold, ← h]

theorem EngSt.unstage_all_unwritten {e : EngSt} (rs : List Nat) (h : e.mask = 0) : rs.foldl EngSt.unstage e = e := by
  induction rs with
  | nil => rfl
  | cons r rs ih => rw [List.foldl_cons, EngSt.unstage_unwritten r h, ih]

/-! ### One commit (R227 to R229) -/

/-- The staged bytes of a region, when it is one of those that a commit takes. -/
def EngSt.stagedIn (e : EngSt) (rs : List Nat) (r : Nat) : List (Nat × Byte) := if rs.contains r then e.staged r else []

/-- Whether a commit operation on these regions counts: it takes a byte, or is DROP. -/
def Item.commits (it : Item) (op : Nat) (rs : List Nat) : Bool := rs.any (fun r => !(it.eng.staged r).isEmpty) || op == 6

/-- The item after a commit operation on these regions. -/
def Item.afterCommit (it : Item) (op : Nat) (rs : List Nat) : Item :=
  { it with
    eng := rs.foldl EngSt.unstage it.eng, bark := overBytes it.bark (it.eng.stagedIn rs 1)
    patch := overBytes it.patch ((it.eng.stagedIn rs 4).map (fun x => (x.1 - 256, x.2)))
    drop := it.drop || op == 6, committed := it.committed || it.commits op rs }

theorem EngSt.stagedIn_unwritten {e : EngSt} (rs : List Nat) (r : Nat) (h : e.mask = 0) : e.stagedIn rs r = [] := by
  unfold EngSt.stagedIn; rw [EngSt.staged_unwritten r h, ite_self]

theorem Item.commits_unwritten {it : Item} (op : Nat) (rs : List Nat) (h : it.eng.mask = 0) : it.commits op rs = (op == 6) := by
  simp [Item.commits, EngSt.staged_unwritten _ h]

/-- With nothing staged, DROP marks the item and no other operation changes it. -/
theorem Item.afterCommit_unwritten {it : Item} (op : Nat) (rs : List Nat) (h : it.eng.mask = 0) :
    it.afterCommit op rs = { it with drop := it.drop || op == 6, committed := it.committed || op == 6 } := by
  simp [Item.afterCommit, EngSt.stagedIn_unwritten rs _ h, EngSt.unstage_all_unwritten rs h, Item.commits_unwritten op rs h]

/-- The state in which a commit has changed its item and the count of commits. -/
def State.commitPut (s : State) (i : Nat) (it : Item) (op : Nat) (rs : List Nat) : State :=
  if it.commits op rs then (s.putItem i (it.afterCommit op rs)).cnt TWG_COMMIT_CNT else s.putItem i (it.afterCommit op rs)

theorem State.twigCommit_eq (s : State) (i : Nat) (it : Item) (op : Nat) (rs : List Nat) : s.twigCommit i it op rs =
    if 64 < (it.afterCommit op rs).patch.length then none
    else some (((s.commitPut i it op rs).commitHot it (it.eng.stagedIn rs 2)).commitCold it (it.eng.stagedIn rs 3)) := (rfl)

@[simp] theorem State.commitHot_nil (s : State) (it : Item) : s.commitHot it [] = s := (rfl)

@[simp] theorem State.commitCold_nil (s : State) (it : Item) : s.commitCold it [] = s := (rfl)

/-- A commit that hands nothing to the flow changes its item and the count of commits alone. -/
theorem State.commitPut_shows (s : State) (i : Nat) (it : Item) (op : Nat) (rs : List Nat) :
    let t := s.commitPut i it op rs
    t.twig.items.find? i = some (it.afterCommit op rs) ∧ (∀ j, j ≠ i → t.twig.items.find? j = s.twig.items.find? j) ∧
      counted TWG_COMMIT_CNT (b2n (it.commits op rs)) s t ∧ t = { s with twig.items := t.twig.items, regs := t.regs } ∧
      regsKept [TWG_COMMIT_CNT, TWG_COMMIT_CNT + 4] s t := by
  intro t
  have ht : t = s.commitPut i it op rs := rfl
  unfold State.commitPut at ht
  cases hc : it.commits op rs
  · rw [hc, if_neg Bool.false_ne_true] at ht
    rw [ht]
    exact ⟨s.find_putItem_same i _, fun j => s.find_putItem_other _, counted_zero s _, rfl, fun _ _ => rfl⟩
  · rw [hc, if_pos rfl] at ht
    rw [ht]
    exact ⟨s.find_putItem_same i _, fun j => s.find_putItem_other _, counted_cnt (s.putItem i _) _ _, rfl,
      (onlyRegs_cnt (s.putItem i _) 1 (by simp) (by simp)).2⟩

section
variable {s : State} {k : Fin 16} {e : Fin 32} {i : Nat} {it : Item} (halive : s.alive (islCluster k.val) = true)
  (hrun : s.runningOn k.val e.val = some (i, it)) {op : Nat} {rs : List Nat} (hop : commitRegions op = some rs)
include halive hrun hop

theorem commitCmd_regions : commitCmd k e op s =
    .next ((s.twigCommit i it op rs).getD (s.twigTrap i it 4 it.eng.pc)) := by
  refine (onIsl_up (f := (·.commitRow k.val e.val op)) halive).trans (congrArg _ ?_)
  unfold State.commitRow
  rw [State.onEngine_runs _ hrun, hop]
  dsimp only
  cases s.twigCommit i it op rs <;> rfl

/-- A header patch that would pass 64 bytes traps, and nothing is committed. -/
theorem commitCmd_full (hfull : 64 < (it.afterCommit op rs).patch.length) :
    commitCmd k e op s = .next (s.twigTrap i it 4 it.eng.pc) := by
  rw [commitCmd_regions halive hrun hop, State.twigCommit_eq, if_pos hfull]; rfl

theorem commitCmd_fits (hfits : (it.afterCommit op rs).patch.length ≤ 64) : commitCmd k e op s =
    .next (((s.commitPut i it op rs).commitHot it (it.eng.stagedIn rs 2)).commitCold it (it.eng.stagedIn rs 3)) := by
  rw [commitCmd_regions halive hrun hop, State.twigCommit_eq, if_neg (Nat.not_lt.2 hfits)]; rfl

/-- A commit whose regions hold nothing for the flow. -/
theorem commitCmd_becomes {it' : Item} {n : Nat} (hfits : (it.afterCommit op rs).patch.length ≤ 64)
    (hhot : it.eng.stagedIn rs 2 = []) (hcold : it.eng.stagedIn rs 3 = []) (hit : it.afterCommit op rs = it')
    (hn : b2n (it.commits op rs) = n) : ∃ t, commitCmd k e op s = .next t ∧ t.twig.items.find? i = some it' ∧
      (∀ j, j ≠ i → t.twig.items.find? j = s.twig.items.find? j) ∧ counted TWG_COMMIT_CNT n s t ∧
      t = { s with twig.items := t.twig.items, regs := t.regs } ∧ regsKept [TWG_COMMIT_CNT, TWG_COMMIT_CNT + 4] s t := by
  subst hit hn
  refine ⟨_, ?_, s.commitPut_shows i it op rs⟩
  rw [commitCmd_fits halive hrun hop hfits, hhot, hcold]; rfl

end

/-- Settles O38, region by region. -/
theorem twigCommits : Obligations.TwigCommits := by
  unfold Obligations.TwigCommits
  intro s k e i it halive hrun hpatch becomes has hdr
  have hempty {r : Nat} (h : has r = false) : it.eng.staged r = [] := by simpa [has] using h
  have hkeep {op : Nat} {rs : List Nat} (h4 : rs.contains 4 = false) : (it.afterCommit op rs).patch.length ≤ 64 := by
    unfold Item.afterCommit EngSt.stagedIn
    dsimp only
    rw [h4, if_neg Bool.false_ne_true, List.map_nil, overBytes_nil]; exact hpatch
  refine ⟨?none, ?bark, fun hfits => ?hdr, fun hfull => ⟨?hdrFull, ?allFull, ?dropFull⟩, fun h2 => ?hot, fun h3 => ?cold,
    fun h2 => ?hotNone, fun h3 => ?coldNone, fun hfits => ?all, fun hmask => ⟨?allNone, ?dropNone⟩⟩
  case none =>
    refine commitCmd_becomes (op := 0) (rs := []) halive hrun rfl (hkeep rfl) rfl rfl ?_ rfl
    simp [Item.afterCommit, EngSt.stagedIn, Item.commits]
  case bark =>
    refine commitCmd_becomes (op := 1) (rs := [1]) halive hrun rfl (hkeep rfl) rfl rfl ?_ ?_ <;>
      simp [Item.afterCommit, EngSt.stagedIn, Item.commits, has]
  case hdr =>
    refine commitCmd_becomes (op := 4) (rs := [4]) halive hrun rfl hfits rfl rfl ?_ ?_ <;>
      simp [Item.afterCommit, EngSt.stagedIn, Item.commits, has, hdr]
  case hdrFull => exact commitCmd_full (op := 4) (rs := [4]) halive hrun rfl hfull
  case allFull => exact commitCmd_full (op := 5) (rs := [1, 2, 3, 4]) halive hrun rfl hfull
  case dropFull => exact commitCmd_full (op := 6) (rs := [1, 2, 3, 4]) halive hrun rfl hfull
  case hot =>
    refine (commitCmd_fits (op := 2) (rs := [2]) halive hrun rfl (hkeep rfl)).trans ?_
    have h : it.commits 2 [2] = true := by simpa [Item.commits, has] using h2
    simp [State.commitPut, h, Item.afterCommit, EngSt.stagedIn]
  case cold =>
    refine (commitCmd_fits (op := 3) (rs := [3]) halive hrun rfl (hkeep rfl)).trans ?_
    have h : it.commits 3 [3] = true := by simpa [Item.commits, has] using h3
    simp [State.commitPut, h, Item.afterCommit, EngSt.stagedIn]
  case hotNone =>
    refine commitCmd_becomes (op := 2) (rs := [2]) halive hrun rfl (hkeep rfl) (hempty h2) rfl ?_ ?_ <;>
      simp [Item.afterCommit, EngSt.stagedIn, Item.commits, hempty h2, b2n]
  case coldNone =>
    refine commitCmd_becomes (op := 3) (rs := [3]) halive hrun rfl (hkeep rfl) rfl (hempty h3) ?_ ?_ <;>
      simp [Item.afterCommit, EngSt.stagedIn, Item.commits, hempty h3, b2n]
  case all =>
    intro any all
    have hall (drop : Bool) (op : Nat) (hd : (op == 6) = drop) : ((s.commitPut i it op [1, 2, 3, 4]).commitHot it
        (it.eng.stagedIn [1, 2, 3, 4] 2)).commitCold it (it.eng.stagedIn [1, 2, 3, 4] 3) = all drop := by
      have h : it.commits op [1, 2, 3, 4] = (any || drop) := by simp [Item.commits, any, has, hd, Bool.or_assoc]
      unfold State.commitPut Item.afterCommit
      rw [h, hd]; rfl
    exact ⟨(commitCmd_fits (op := 5) halive hrun rfl hfits).trans (congrArg _ (hall false 5 rfl)),
      (commitCmd_fits (op := 6) halive hrun rfl hfits).trans (congrArg _ (hall true 6 rfl))⟩
  case allNone =>
    have hit : it.afterCommit 5 [1, 2, 3, 4] = it := by simp [it.afterCommit_unwritten 5 _ hmask]
    exact commitCmd_becomes (op := 5) (rs := [1, 2, 3, 4]) halive hrun rfl (by rw [hit]; exact hpatch)
      (it.eng.stagedIn_unwritten _ 2 hmask) (it.eng.stagedIn_unwritten _ 3 hmask) hit
      (congrArg b2n (it.commits_unwritten 5 _ hmask))
  case dropNone =>
    have hit : it.afterCommit 6 [1, 2, 3, 4] = { it with drop := true, committed := true } := by
      simp [it.afterCommit_unwritten 6 _ hmask]
    exact commitCmd_becomes (op := 6) (rs := [1, 2, 3, 4]) halive hrun rfl (by rw [hit]; exact hpatch)
      (it.eng.stagedIn_unwritten _ 2 hmask) (it.eng.stagedIn_unwritten _ 3 hmask) hit
      (congrArg b2n (it.commits_unwritten 6 _ hmask))

end Sys2Proof.Machine
end

section
/-!
SUPPORT. Traps, the next address and the microword (R219, R223 to R225, R229, R242, R243), and O37.
-/
namespace Sys2Proof.Machine

/-- A count speaks of the register file alone that it ends in. -/
theorem counted.of_regs {a n : Nat} {s t u : State} (h : counted a n s t) (hu : u.regs = t.regs) : counted a n s u :=
  counted_congr h (State.reg_congr hu _) (State.reg_congr hu _)

/-! ### Traps (R242, R243) -/

/-- The state in which a trap is counted, flagged and logged while the log is free. -/
def State.trapLogged (s : State) (it : Item) (cause addr : Nat) : State :=
  let u := (s.cnt TWG_TRAP_CNT).raise TWG_INT_TRAP
  if u.on TWG_TRAP_LOG0_VALID then u
  else (u.setReg TWG_TRAP_LOG0 (addr + 2 ^ 14 + 2 ^ 16 * it.cluster + 2 ^ 20 * it.engine + 2 ^ 25 * cause)).setReg
    TWG_TRAP_LOG1 it.rt

/-- A trap other than an unreadable microword is logged, journaled, and fails its item. -/
theorem State.twigTrap_fails {s : State} (i : Nat) (it : Item) {cause : Nat} (addr : Nat) (h : cause ≠ 0) : ∃ body,
    s.twigTrap i it cause addr = ((s.trapLogged it cause addr).journal (islCluster it.cluster) 0x0501 it.cluster body).putItem i
      { it with ph := .failed } := by
  have hretry (b : Bool) : (decide (cause = 0) && b) = false := by simp [h]
  unfold State.twigTrap
  simp only [Bool.and_assoc, hretry]
  exact ⟨_, rfl⟩

theorem State.trapLogged_shows (s : State) (it : Item) (cause addr : Nat) :
    let u := s.trapLogged it cause addr
    counted TWG_TRAP_CNT 1 s u ∧ u.rd TWG_INT_TRAP = 1 ∧
      (s.on TWG_TRAP_LOG0_VALID = true → u.reg TWG_TRAP_LOG0 = s.reg TWG_TRAP_LOG0) ∧
      onlyRegs [TWG_TRAP_CNT, TWG_TRAP_CNT + 4, TWG_INT, TWG_TRAP_LOG0, TWG_TRAP_LOG1] s u := by
  have hcnt : onlyRegs [TWG_TRAP_CNT, TWG_TRAP_CNT + 4] s (s.cnt TWG_TRAP_CNT) := onlyRegs_cnt s 1 (by simp) (by simp)
  have hraise : onlyRegs [TWG_INT] (s.cnt TWG_TRAP_CNT) ((s.cnt TWG_TRAP_CNT).raise TWG_INT_TRAP) :=
    onlyRegs_raise _ (List.mem_singleton_self _)
  have hcount : counted TWG_TRAP_CNT 1 s ((s.cnt TWG_TRAP_CNT).raise TWG_INT_TRAP) :=
    counted_onlyRegs (counted_cnt s _ 1) hraise (by decide) (by decide)
  have hint : ((s.cnt TWG_TRAP_CNT).raise TWG_INT_TRAP).rd TWG_INT_TRAP = 1 := State.rd_raise _ _ (by decide) rfl
  have hboth : onlyRegs [TWG_TRAP_CNT, TWG_TRAP_CNT + 4, TWG_INT] s ((s.cnt TWG_TRAP_CNT).raise TWG_INT_TRAP) :=
    (hcnt.mono (by simp)).trans (hraise.mono (by simp))
  unfold State.trapLogged
  generalize (s.cnt TWG_TRAP_CNT).raise TWG_INT_TRAP = u at *
  dsimp only
  split
  · exact ⟨hcount, hint, fun _ => hboth.2 _ (by decide), hboth.mono (by simp)⟩
  next hfree =>
    have hlog (a v w : Nat) : onlyRegs [TWG_TRAP_LOG0, TWG_TRAP_LOG1] u ((u.setReg TWG_TRAP_LOG0 v).setReg TWG_TRAP_LOG1 w) :=
      (onlyRegs_setReg u v (by simp)).trans (onlyRegs_setReg _ w (by simp))
    refine ⟨counted_onlyRegs hcount (hlog 0 _ _) (by decide) (by decide), ((hlog 0 _ _).2.rd (by decide)).trans hint,
      fun hv => ?_, (hboth.mono (by simp)).trans ((hlog 0 _ _).mono (by simp))⟩
    exact absurd ((hboth.on (by decide)).trans hv) hfree

/-- What a trap leaves: its item failed, the trap counted, flagged and, while the log is free, logged. -/
theorem State.twigTrap_shows {s t : State} {i : Nat} {it : Item} {cause addr : Nat} (h : cause ≠ 0)
    (ht : t = s.twigTrap i it cause addr) :
    t.twig.items.find? i = some { it with ph := .failed } ∧ counted TWG_TRAP_CNT 1 s t ∧ t.rd TWG_INT_TRAP = 1 ∧
      (s.on TWG_TRAP_LOG0_VALID = true → t.reg TWG_TRAP_LOG0 = s.reg TWG_TRAP_LOG0) ∧
      t = { s with twig.items := t.twig.items, regs := t.regs, msi := t.msi, jrn := t.jrn } ∧
      regsKept (jrnRegs ++ [TWG_TRAP_CNT, TWG_TRAP_CNT + 4, TWG_INT, TWG_TRAP_LOG0, TWG_TRAP_LOG1]) s t := by
  obtain ⟨body, htrap⟩ := s.twigTrap_fails i it addr h
  obtain ⟨hcount, hint, hlog, hu⟩ := s.trapLogged_shows it cause addr
  rw [htrap] at ht
  generalize s.trapLogged it cause addr = u at ht hcount hint hlog hu
  have hj := onlyRegsJrn_journal [] u (islCluster it.cluster) 0x0501 it.cluster body
  have hv := hu.jrn.trans (onlyRegsJrn_journal _ u (islCluster it.cluster) 0x0501 it.cluster body)
  generalize u.journal (islCluster it.cluster) 0x0501 it.cluster body = v at ht hj hv
  have hregs : t.regs = v.regs := by rw [ht]; rfl
  have hkept : regsKept (jrnRegs ++ []) u t := fun a ha => (State.reg_congr hregs a).trans (hj.2 a ha)
  refine ⟨by rw [ht]; exact v.find_putItem_same i _, hkept.counted hcount (by decide) (by decide),
    (hkept.rd (by decide)).trans hint, fun h => (hkept _ (by decide)).trans (hlog h), ?_,
    fun a ha => (State.reg_congr hregs a).trans (hv.2 a ha)⟩
  obtain ⟨hframe, -⟩ := hv
  rw [ht]
  change v.putItem i _ = { s with twig.items := (v.putItem i _).twig.items, regs := v.regs, msi := v.msi, jrn := v.jrn }
  generalize v.regs = r at hframe ⊢
  generalize v.msi = m at hframe ⊢
  generalize v.jrn = j at hframe ⊢
  rw [hframe]; rfl

/-! ### The next address (R224, R229) -/

theorem State.twigNext_at {s : State} {i : Nat} {it : Item} (a : Nat) (h : s.twig.items.find? i = some it)
    (hph : it.ph = .running) : s.twigNext i (.at_ a) false = s.putItem i { it with eng := { it.eng with pc := a } } := by
  unfold State.twigNext
  rw [h]
  dsimp only
  rw [Bool.false_and, if_neg Bool.false_ne_true, ← hph]

theorem State.twigNext_ended {s : State} {i : Nat} {it : Item} (c : Bool) (h : s.twig.items.find? i = some it) :
    s.twigNext i .ended c = (if it.eng.mask = 0 then s else s.cnt TWG_UNCOMMIT_CNT).putItem i { it with ph := .ended } := by
  unfold State.twigNext; rw [h]

theorem State.twigNext_trap {s : State} {i : Nat} {it : Item} (c : Nat) (b : Bool) (h : s.twig.items.find? i = some it) :
    s.twigNext i (.trap c) b = s.twigTrap i it c it.eng.pc := by
  unfold State.twigNext; rw [h]

/-- Stores left uncommitted at a routine's end count, and the item has ended. -/
theorem State.twigEnd_shows {s t : State} {i : Nat} {x it : Item}
    (ht : t = (if it.eng.mask = 0 then s.putItem i x else (s.putItem i x).cnt TWG_UNCOMMIT_CNT).putItem i { it with ph := .ended }) :
    t.twig.items.find? i = some { it with ph := .ended } ∧ counted TWG_UNCOMMIT_CNT (if it.eng.mask = 0 then 0 else 1) s t ∧
      t = { s with twig.items := t.twig.items, regs := t.regs } ∧ regsKept [TWG_UNCOMMIT_CNT, TWG_UNCOMMIT_CNT + 4] s t := by
  have hfind : t.twig.items.find? i = some { it with ph := .ended } := by rw [ht, State.find_putItem_same]
  by_cases hm : it.eng.mask = 0
  · rw [if_pos hm] at ht ⊢
    have hregs : t.regs = s.regs := by rw [ht]; rfl
    exact ⟨hfind, (counted_zero s _).of_regs hregs, by rw [ht]; rfl, fun a _ => State.reg_congr hregs a⟩
  · rw [if_neg hm] at ht ⊢
    have hregs : t.regs = (s.cnt TWG_UNCOMMIT_CNT).regs := by rw [ht]; rfl
    exact ⟨hfind, (counted_cnt s _ 1).of_regs hregs, by rw [ht]; rfl,
      fun a ha => (State.reg_congr hregs a).trans ((onlyRegs_cnt s 1 (by simp) (by simp)).2 a ha)⟩

section
variable {s : State} {k : Fin 16} {e : Fin 32} {i : Nat} {it : Item} (halive : s.alive (islCluster k.val) = true)
  (hrun : s.runningOn k.val e.val = some (i, it)) {op : Nat} {cond : BitVec 4} {target : BitVec 14} {src1 : BitVec 6}
  {imm : BitVec 64}
include halive hrun

theorem seqCmd_runs {n : NextPc} {st : List Nat}
    (hop : it.eng.seqOp op cond.toNat target.toNat src1.toNat imm (s.now (islCluster k.val)) = (n, st)) :
    seqCmd k e op cond target src1 imm s =
      .next ((s.putItem i { it with eng := { it.eng with stack := st } }).twigNext i n false) := by
  refine (onIsl_up (f := (·.seqRow k.val e.val op cond.toNat target.toNat src1.toNat imm)) halive).trans (congrArg _ ?_)
  unfold State.seqRow
  rw [State.onEngine_runs _ hrun, hop]

/-- A sequencing slot that goes to an address. -/
theorem seqCmd_goes {pc : Nat} {st : List Nat}
    (hop : it.eng.seqOp op cond.toNat target.toNat src1.toNat imm (s.now (islCluster k.val)) = (.at_ pc, st)) :
    ∃ t, seqCmd k e op cond target src1 imm s = .next t ∧
      t.twig.items.find? i = some { it with eng := { it.eng with pc := pc, stack := st } } ∧
      (∀ j, j ≠ i → t.twig.items.find? j = s.twig.items.find? j) ∧ t = { s with twig.items := t.twig.items } := by
  obtain ⟨-, -, hph⟩ := State.runningOn_some hrun
  refine ⟨_, (seqCmd_runs halive hrun hop).trans (congrArg _ (State.twigNext_at pc (s.find_putItem_same i _) hph)),
    State.find_putItem_same _ i _, fun j hj => ?_, rfl⟩
  rw [State.find_putItem_other _ _ hj, State.find_putItem_other _ _ hj]

/-- A sequencing slot that traps, its return stack as it was. -/
theorem seqCmd_traps {c : Nat} {st : List Nat} (hst : st = it.eng.stack)
    (hop : it.eng.seqOp op cond.toNat target.toNat src1.toNat imm (s.now (islCluster k.val)) = (.trap c, st)) :
    seqCmd k e op cond target src1 imm s = .next ((s.putItem i it).twigTrap i it c it.eng.pc) := by
  subst hst
  exact (seqCmd_runs halive hrun hop).trans (congrArg _ (State.twigNext_trap c false (s.find_putItem_same i _)))

end

/-! ### One microword (R219, R223, R225) -/

/-- A microword inside its routine's extent and limit. -/
def State.mayRun (s : State) (k : Nat) (it : Item) : Prop :=
  let ent := s.rtEntry k (it.epoch % 2) it.rt
  fget ent RT_BASE ≤ it.eng.pc ∧ it.eng.pc < fget ent RT_BASE + fget ent RT_LEN ∧ it.run < max 1 (fget ent RT_MAXW)

/-- The 160 bits of a microword as last written. -/
def State.microword (s : State) (a : Nat) : Nat := fget (s.ent 0x50 0 a) ⟨0, 160⟩

theorem State.ctlFetch_clean {s : State} (k a : Nat) (h : s.ecc.diff = []) : s.ctlFetch k a = (some (s.microword a), s) := by
  unfold State.ctlFetch; rw [h]; rfl

/-- The state in which a microword has counted. -/
def State.uwordCounted (s : State) (k : Nat) : State := (s.cnt TWG_UWORD_CNT).pmuEv 0x20 k

section
variable {s : State} {k : Fin 16} {e : Fin 32} {i : Nat} {it : Item} (halive : s.alive (islCluster k.val) = true)
  (hrun : s.runningOn k.val e.val = some (i, it))
include halive hrun

theorem exec_twigMicroword : exec (.twigMicroword k e) s = .next (s.twigStep i it) :=
  (onIsl_up (f := fun s => s.onEngine k.val e.val s.twigStep) halive).trans (congrArg _ (State.onEngine_runs _ hrun))

/-- Outside its extent or past its limit a microword traps. -/
theorem exec_twigMicroword_outside (h : ¬ s.mayRun k.val it) : ∃ c, c ≠ 0 ∧
    exec (.twigMicroword k e) s = .next (s.twigTrap i it c it.eng.pc) := by
  obtain ⟨hk, -, -⟩ := State.runningOn_some hrun
  rw [exec_twigMicroword halive hrun]
  unfold State.mayRun at h
  unfold State.twigStep
  rw [hk]
  dsimp only at h ⊢
  split
  · exact ⟨1, by decide, rfl⟩
  · rw [if_pos (by omega)]; exact ⟨5, by decide, rfl⟩

end

/-- KIND of a microword's sample that did not trap: 2 for END, 1 for a commit. -/
def NextPc.sampleKind (n : NextPc) (op : Nat) : Nat := match n with | .ended => 2 | _ => if op != 0 then 1 else 0

theorem NextPc.sampleKind_eq (n : NextPc) (op : Nat) :
    n.sampleKind op = match n with | .ended => 2 | _ => if op = 0 then 0 else 1 := by
  cases n <;> by_cases h : op = 0 <;> simp [NextPc.sampleKind, h]

/-- What a fetched microword does: its slots on the state at its start, its commit, its sample and the next address, or a
trap. -/
def State.uwordRun (s : State) (i : Nat) (it : Item) (w : Nat) : State :=
  let now := s.now (islCluster it.cluster)
  let u := s.uwordCounted it.cluster
  let it' := { it with run := it.run + 1 }
  let op := fget w MW_C_OP
  match commitRegions op, it.eng.slots w now with
  | some rs, .ok (e, n) =>
    match u.twigCommit i { it' with eng := e } op rs with
    | none => (u.psample it (fon w MW_SAMP) 3 now).twigTrap i it' 4 it.eng.pc
    | some v => (v.psample it (fon w MW_SAMP) (n.sampleKind op) now).twigNext i n (op != 0)
  | _, .error c => (u.psample it (fon w MW_SAMP) 3 now).twigTrap i it' c it.eng.pc
  | none, _ => (u.psample it (fon w MW_SAMP) 3 now).twigTrap i it' 2 it.eng.pc

theorem State.twigStep_runs {s : State} (i : Nat) {it : Item} (h : s.mayRun it.cluster it) (hclean : s.ecc.diff = []) :
    s.twigStep i it = s.uwordRun i it (s.microword it.eng.pc) := by
  obtain ⟨hbase, hend, hrun⟩ := h
  unfold State.twigStep
  dsimp only
  rw [if_neg (by omega), if_neg (by omega), State.ctlFetch_clean _ _ hclean]
  rfl

theorem exec_twigMicroword_runs {s : State} {k : Fin 16} {e : Fin 32} {i : Nat} {it : Item}
    (halive : s.alive (islCluster k.val) = true) (hrun : s.runningOn k.val e.val = some (i, it))
    (hmay : s.mayRun it.cluster it) (hclean : s.ecc.diff = []) :
    exec (.twigMicroword k e) s = .next (s.uwordRun i it (s.microword it.eng.pc)) :=
  (exec_twigMicroword halive hrun).trans (congrArg _ (State.twigStep_runs i hmay hclean))

section
variable {s : State} {i : Nat} {it : Item} {w : Nat} {en : EngSt} {n : NextPc} {rs : List Nat}

theorem State.uwordRun_commits {v : State} {kind : Nat} (hslots : it.eng.slots w (s.now (islCluster it.cluster)) = .ok (en, n))
    (hrs : commitRegions (fget w MW_C_OP) = some rs)
    (hcommit : (s.uwordCounted it.cluster).twigCommit i { it with run := it.run + 1, eng := en } (fget w MW_C_OP) rs = some v)
    (hkind : n.sampleKind (fget w MW_C_OP) = kind) : s.uwordRun i it w =
      (v.psample it (fon w MW_SAMP) kind (s.now (islCluster it.cluster))).twigNext i n (fget w MW_C_OP != 0) := by
  subst hkind
  unfold State.uwordRun
  dsimp only
  rw [hrs, hslots]
  dsimp only
  rw [hcommit]

theorem State.uwordRun_full (hslots : it.eng.slots w (s.now (islCluster it.cluster)) = .ok (en, n))
    (hrs : commitRegions (fget w MW_C_OP) = some rs)
    (hcommit : (s.uwordCounted it.cluster).twigCommit i { it with run := it.run + 1, eng := en } (fget w MW_C_OP) rs = none) :
    s.uwordRun i it w = ((s.uwordCounted it.cluster).psample it (fon w MW_SAMP) 3 (s.now (islCluster it.cluster))).twigTrap i
      { it with run := it.run + 1 } 4 it.eng.pc := by
  unfold State.uwordRun
  dsimp only
  rw [hrs, hslots]
  dsimp only
  rw [hcommit]

theorem State.uwordRun_slotTrap {c : Nat} (hslots : it.eng.slots w (s.now (islCluster it.cluster)) = .error c) :
    s.uwordRun i it w = ((s.uwordCounted it.cluster).psample it (fon w MW_SAMP) 3 (s.now (islCluster it.cluster))).twigTrap i
      { it with run := it.run + 1 } c it.eng.pc := by
  unfold State.uwordRun
  dsimp only
  rw [hslots]
  cases commitRegions (fget w MW_C_OP) <;> rfl

theorem State.uwordRun_badCommit (hslots : it.eng.slots w (s.now (islCluster it.cluster)) = .ok (en, n))
    (hrs : commitRegions (fget w MW_C_OP) = none) :
    s.uwordRun i it w = ((s.uwordCounted it.cluster).psample it (fon w MW_SAMP) 3 (s.now (islCluster it.cluster))).twigTrap i
      { it with run := it.run + 1 } 2 it.eng.pc := by
  unfold State.uwordRun
  dsimp only
  rw [hrs, hslots]

end

theorem State.psample_off {s : State} (it : Item) (samp : Bool) (kind now : Nat) (h : s.rd OBS_PS_CFG_PERIOD = 0) :
    s.psample it samp kind now = s := by
  unfold State.psample
  dsimp only
  rw [if_pos (by simp [h])]

theorem Item.afterCommit_none (it : Item) : it.afterCommit 0 [] = it := by
  simp [Item.afterCommit, EngSt.stagedIn, Item.commits]

/-- A microword without a commit and without a sample counts, changes its engine and moves on. -/
theorem State.uwordRun_plain {s : State} {i a w : Nat} {it : Item} {en : EngSt} (hph : it.ph = .running)
    (hps : s.rd OBS_PS_CFG_PERIOD = 0) (hop : fget w MW_C_OP = 0) (hpatch : it.patch.length ≤ 64)
    (hslots : it.eng.slots w (s.now (islCluster it.cluster)) = .ok (en, .at_ a)) :
    s.uwordRun i it w = ((s.uwordCounted it.cluster).putItem i { it with run := it.run + 1, eng := en }).putItem i
      { it with run := it.run + 1, eng := { en with pc := a } } := by
  have hcommit : (s.uwordCounted it.cluster).twigCommit i { it with run := it.run + 1, eng := en } (fget w MW_C_OP) [] =
      some ((s.uwordCounted it.cluster).putItem i { it with run := it.run + 1, eng := en }) := by
    rw [State.twigCommit_eq, hop, Item.afterCommit_none, if_neg (Nat.not_lt.2 hpatch)]
    unfold State.commitPut
    rw [Item.afterCommit_none]; rfl
  have hcnt : onlyRegs [TWG_UWORD_CNT, TWG_UWORD_CNT + 4] s (s.cnt TWG_UWORD_CNT) := onlyRegs_cnt s 1 (by simp) (by simp)
  have hoff : ((s.uwordCounted it.cluster).putItem i { it with run := it.run + 1, eng := en }).rd OBS_PS_CFG_PERIOD = 0 :=
    (hcnt.2.rd (by decide)).trans hps
  rw [State.uwordRun_commits hslots (by rw [hop]; rfl) hcommit rfl, State.psample_off _ _ _ _ hoff, hop]
  exact State.twigNext_at a (State.find_putItem_same _ i _) hph

/-- What a plain microword leaves: its item one run further, the word counted. -/
theorem State.uwordPut_shows {s t : State} {k i : Nat} {x y : Item} (ht : t = ((s.uwordCounted k).putItem i x).putItem i y) :
    t.twig.items.find? i = some y ∧ (∀ j, j ≠ i → t.twig.items.find? j = s.twig.items.find? j) ∧ counted TWG_UWORD_CNT 1 s t ∧
      t = { s with twig.items := t.twig.items, regs := t.regs, obs := t.obs } ∧
      regsKept [TWG_UWORD_CNT, TWG_UWORD_CNT + 4] s t := by
  have hregs : t.regs = (s.cnt TWG_UWORD_CNT).regs := by rw [ht]; rfl
  refine ⟨by rw [ht, State.find_putItem_same], fun j hj => ?_, (counted_cnt s _ 1).of_regs hregs,
    by rw [ht]; unfold State.putItem State.uwordCounted State.pmuEv; rfl,
    fun a ha => (State.reg_congr hregs a).trans ((onlyRegs_cnt s 1 (by simp) (by simp)).2 a ha)⟩
  rw [ht, State.find_putItem_other _ _ hj, State.find_putItem_other _ _ hj]; rfl

/-- Settles O37: a sequencing slot's next address is that of R224; a microword runs as its equations above say, or traps where
it stands outside its extent or past its limit. -/
theorem twigSequenceAndMicroword : Obligations.TwigSequenceAndMicroword := by
  unfold Obligations.TwigSequenceAndMicroword
  refine ⟨fun s k e i it halive hrun => ?seq, fun s k e i a it en halive hrun => ?plain, fun s k e i it halive hrun => ?slots,
    fun s k e i it halive hrun => ?outside⟩
  case seq =>
    intro goes traps nxt
    refine ⟨seqCmd_goes halive hrun rfl, fun t => seqCmd_goes halive hrun rfl, fun c t => seqCmd_goes halive hrun rfl,
      fun t hroom => seqCmd_goes halive hrun (if_neg (Nat.not_le.2 hroom)),
      fun t hfull => seqCmd_traps halive hrun rfl (if_pos hfull), fun a l hst => seqCmd_goes halive hrun ?ret,
      fun hst => seqCmd_traps halive hrun hst.symm ?empty, fun t r m => seqCmd_goes halive hrun rfl, ?ends⟩
    case ret => unfold EngSt.seqOp; rw [hst]; rfl
    case empty => unfold EngSt.seqOp; rw [hst]; rfl
    case ends =>
      exact ⟨_, (seqCmd_runs halive hrun rfl).trans (congrArg _ (State.twigNext_ended false (s.find_putItem_same i _))),
        State.twigEnd_shows rfl⟩
  case plain =>
    obtain ⟨hk, -, hph⟩ := State.runningOn_some hrun
    rw [← hk]
    intro ent w hbase hend hlimit hclean hps hop hpatch hslots
    exact ⟨_, (exec_twigMicroword_runs halive hrun ⟨hbase, hend, hlimit⟩ hclean).trans
      (congrArg _ (State.uwordRun_plain hph hps hop hpatch hslots)), State.uwordPut_shows rfl⟩
  case slots =>
    obtain ⟨hk, -, -⟩ := State.runningOn_some hrun
    rw [← hk]
    intro ent w it' u now hbase hend hlimit hclean
    have hexec := exec_twigMicroword_runs halive hrun ⟨hbase, hend, hlimit⟩ hclean
    exact ⟨fun en n rs v hslots hrs hcommit => hexec.trans (congrArg _ (State.uwordRun_commits hslots hrs hcommit (n.sampleKind_eq _))),
      fun en n rs hslots hrs hcommit => hexec.trans (congrArg _ (State.uwordRun_full hslots hrs hcommit)),
      fun c hslots => hexec.trans (congrArg _ (State.uwordRun_slotTrap hslots)),
      fun en n hslots hrs => hexec.trans (congrArg _ (State.uwordRun_badCommit hslots hrs))⟩
  case outside =>
    intro ent out hout
    have hno : ¬ s.mayRun k.val it := fun ⟨hbase, hend, hlimit⟩ =>
      hout.elim (Or.elim · hbase.not_gt hend.not_ge) hlimit.not_ge
    obtain ⟨c, hc, hexec⟩ := exec_twigMicroword_outside halive hrun hno
    exact ⟨_, hexec, State.twigTrap_shows hc rfl⟩

end Sys2Proof.Machine
end

section
/-!
SUPPORT. Halted clusters, the patch's course and the copies of the routine table, the repair of control-store pages (R244, R247,
R345), and O40.
-/
namespace Sys2Proof.Machine

theorem regsKept.on {l : List Nat} {s t : State} {f : RFld} (h : regsKept l s t) (hf : f.addr ∉ l) : t.on f = s.on f :=
  State.on_of_reg (h _ hf)

/-! ### Halts (R244) -/

theorem exec_twigHaltReq {s : State} (v : Word) (h : s.reaches TWG_HALT = true) :
    exec (.twigHaltReq v) s = .next (s.twigHalt v.toNat) := onBar0_up (f := (·.twigHalt v.toNat)) h

/-- The state in which a write of TWG_HALT has reached the registers: clusters no longer asked are shown as going on. -/
def State.haltShown (s : State) (v : Nat) : State :=
  let u := s.hostWrite TWG_HALT v
  u.wr TWG_HALT_STS_HALTED (u.rd TWG_HALT_STS_HALTED &&& u.rd TWG_HALT_HALT_REQ)

theorem State.haltShown_shows (s : State) (v : Nat) :
    (s.haltShown v).rd TWG_HALT_HALT_REQ = getBits v TWG_HALT_HALT_REQ.lsb TWG_HALT_HALT_REQ.w ∧
      onlyRegs [TWG_HALT, TWG_HALT_STS] s (s.haltShown v) := by
  have hstored : (s.hostWrite TWG_HALT v).rd TWG_HALT_HALT_REQ = getBits v TWG_HALT_HALT_REQ.lsb TWG_HALT_HALT_REQ.w := by
    have hfields : fieldsAt TWG_HALT_HALT_REQ.addr = [⟨0, 16, .rw, 0⟩] := by decide
    exact s.rd_hostWrite_rw TWG_HALT_HALT_REQ v (f := ⟨0, 16, .rw, 0⟩) (by rw [hfields]; exact List.pairwise_singleton _ _)
      (by rw [hfields]; exact List.mem_singleton_self _) rfl rfl rfl (by decide)
  refine ⟨(State.rd_wr_addr _ _ (by decide)).trans hstored, ?_⟩
  exact (onlyRegs_setReg s _ (by simp)).trans (onlyRegs_wr _ _ (by simp [TWG_HALT_STS_HALTED]))

theorem State.twigHalt_eq (s : State) (v : Nat) : s.twigHalt v = { s.haltShown v with
    twig.items := s.twig.items.map (fun x => if x.2.ph = .stopped &&
      !bit ((s.haltShown v).rd TWG_HALT_HALT_REQ) x.2.cluster then (x.1, { x.2 with ph := .running }) else x) } := by
  have hreq : (s.haltShown v).rd TWG_HALT_HALT_REQ = (s.hostWrite TWG_HALT v).rd TWG_HALT_HALT_REQ :=
    State.rd_wr_addr _ _ (by decide)
  rw [hreq]; rfl

theorem exec_twigClusterHalted {s : State} {k : Fin 16} (h : s.alive (islCluster k.val) = true) :
    exec (.twigClusterHalted k) s = .next (s.twigHalted k.val) := onIsl_up (f := (·.twigHalted k.val)) h

theorem bit_add_two_pow_self {n k : Nat} (h : bit n k = false) : bit (n + 2 ^ k) k = true := by
  unfold bit at h ⊢
  rw [Nat.add_comm, Nat.testBit_two_pow_add_eq, h]; rfl

/-- A halting cluster on which nothing runs is shown as halted. -/
theorem State.twigHalted_shows {s : State} {k : Nat} (hk : k < 16) (hreq : bit (s.rd TWG_HALT_HALT_REQ) k = true)
    (hsts : bit (s.rd TWG_HALT_STS_HALTED) k = false)
    (hidle : ∀ x ∈ s.twig.items, x.2.cluster = k → x.2.ph ≠ .running) :
    bit ((s.twigHalted k).rd TWG_HALT_STS_HALTED) k = true ∧ (s.twigHalted k).rd TWG_INT_HALTED = 1 ∧
      onlyRegs [TWG_HALT_STS, TWG_INT] s (s.twigHalted k) := by
  have hany : s.twig.items.any (fun x => x.2.cluster == k && decide (x.2.ph = .running)) = false := by
    simpa using hidle
  unfold State.twigHalted
  rw [if_neg (by rw [hreq, hsts, hany]; decide)]
  refine ⟨?_, State.rd_raise _ _ (by decide) rfl, (onlyRegs_wr s _ (by simp [TWG_HALT_STS_HALTED])).trans
    (onlyRegs_raise _ (by simp [TWG_INT_HALTED]))⟩
  rw [State.rd_of_reg (State.reg_raise_other _ (by decide)), State.rd_wr_same _ _ _ (by decide)]
  unfold bit
  rw [Nat.testBit_mod_two_pow, ← bit, bit_add_two_pow_self hsts, Bool.and_true]
  exact decide_eq_true hk

/-! ### The patch's status (R247) -/

theorem State.setPatch_shows (s : State) {st : Nat} (h : st < 4) : (s.setPatch st).rd TWG_PATCH_STS_STATE = st ∧
    (s.setPatch st).on TWG_PATCH_STS_BUSY = (st != 0) ∧ onlyRegs [TWG_PATCH_STS] s (s.setPatch st) := by
  refine ⟨?_, ?_, (onlyRegs_wr s (f := TWG_PATCH_STS_STATE) _ (List.mem_singleton_self _)).trans
    (onlyRegs_wr _ (f := TWG_PATCH_STS_BUSY) _ (List.mem_singleton_self _))⟩
  · unfold State.setPatch
    rw [State.rd_wr_beside _ _ (by decide) (by decide), State.rd_wr_same _ _ _ (by decide)]
    exact Nat.mod_eq_of_lt h
  · unfold State.setPatch State.on
    rw [State.rd_wr_same _ _ _ (by decide)]
    cases hst : st != 0 <;> rfl

theorem exec_twigPatchFlip {s : State} (h : s.alive islMgmt = true) : exec .twigPatchFlip s = .next s.patchFlip :=
  onIsl_up (f := (·.patchFlip)) h

/-- The registers at the flip: the next epoch, the old one still live, the version and the state. -/
def State.epochNext (s : State) : State :=
  (((s.wr TWG_EPOCH_CUR ((s.rd TWG_EPOCH_CUR + 1) % 65536)).wr TWG_EPOCH_PREV_LIVE 1).wr TWG_IMG_VER_VER s.twig.patchVer).setPatch 2

theorem State.epochNext_shows (s : State) : s.epochNext.rd TWG_EPOCH_CUR = (s.rd TWG_EPOCH_CUR + 1) % 65536 ∧
    s.epochNext.on TWG_EPOCH_PREV_LIVE = true ∧ s.epochNext.rd TWG_IMG_VER_VER = s.twig.patchVer % 2 ^ 32 ∧
    s.epochNext.rd TWG_PATCH_STS_STATE = 2 ∧ s.epochNext.on TWG_PATCH_STS_BUSY = true ∧
    onlyRegs [TWG_EPOCH, TWG_IMG_VER, TWG_PATCH_STS] s s.epochNext := by
  unfold State.epochNext
  generalize he : (s.rd TWG_EPOCH_CUR + 1) % 65536 = e
  have hlt : e < 2 ^ 16 := by omega
  have hcur : ((s.wr TWG_EPOCH_CUR e).wr TWG_EPOCH_PREV_LIVE 1).rd TWG_EPOCH_CUR = e := by
    rw [State.rd_wr_beside _ _ (by decide) (by decide), State.rd_wr_same _ _ _ (by decide)]
    exact Nat.mod_eq_of_lt hlt
  have hlive : ((s.wr TWG_EPOCH_CUR e).wr TWG_EPOCH_PREV_LIVE 1).on TWG_EPOCH_PREV_LIVE = true :=
    State.on_wr_one _ (by decide) rfl
  have hepoch : onlyRegs [TWG_EPOCH] s ((s.wr TWG_EPOCH_CUR e).wr TWG_EPOCH_PREV_LIVE 1) :=
    (onlyRegs_wr s (f := TWG_EPOCH_CUR) _ (List.mem_singleton_self _)).trans
      (onlyRegs_wr _ (f := TWG_EPOCH_PREV_LIVE) _ (List.mem_singleton_self _))
  generalize (s.wr TWG_EPOCH_CUR e).wr TWG_EPOCH_PREV_LIVE 1 = u at hcur hlive hepoch ⊢
  have hver : onlyRegs [TWG_IMG_VER] u (u.wr TWG_IMG_VER_VER s.twig.patchVer) := onlyRegs_wr u _ (List.mem_singleton_self _)
  obtain ⟨hst, hbusy, hset⟩ := (u.wr TWG_IMG_VER_VER s.twig.patchVer).setPatch_shows (st := 2) (by decide)
  refine ⟨?_, ?_, ?_, hst, hbusy, (hepoch.mono (by simp)).trans ((hver.mono (by simp)).trans (hset.mono (by simp)))⟩
  · rw [hset.2.rd (by decide), hver.2.rd (by decide), hcur]
  · rw [hset.on (by decide), hver.on (by decide), hlive]
  · rw [hset.2.rd (by decide), State.rd_wr_same _ _ _ (by decide)]; rfl

/-- The registers, causes and records at the flip. -/
def State.flipShown (s : State) : State :=
  (s.epochNext.raise TWG_INT_FLIPPED).journal islMgmt 0x0502 0
    (natLe 2 ((s.rd TWG_EPOCH_CUR + 1) % 65536) ++ [0, 0] ++ natLe 4 s.twig.patchVer)

theorem State.setPatch_twig (s : State) (st : Nat) : (s.setPatch st).twig = s.twig := (rfl)

theorem State.flipShown_twig (s : State) : s.flipShown.twig = s.twig := by
  simp only [State.flipShown, State.epochNext, State.setPatch_twig, State.journal_twig, State.raise_twig, State.wr_twig]

/-- What the flip shows: the next epoch, the old one still live, the version, the patch's state, and the cause. -/
theorem State.flipShown_shows (s : State) : s.flipShown.rd TWG_EPOCH_CUR = (s.rd TWG_EPOCH_CUR + 1) % 65536 ∧
    s.flipShown.on TWG_EPOCH_PREV_LIVE = true ∧ s.flipShown.rd TWG_IMG_VER_VER = s.twig.patchVer % 2 ^ 32 ∧
    s.flipShown.rd TWG_PATCH_STS_STATE = 2 ∧ s.flipShown.on TWG_PATCH_STS_BUSY = true ∧ s.flipShown.rd TWG_INT_FLIPPED = 1 ∧
    onlyRegsJrn [TWG_EPOCH, TWG_IMG_VER, TWG_PATCH_STS, TWG_INT] s s.flipShown := by
  obtain ⟨hcur, hlive, hver, hst, hbusy, honly⟩ := s.epochNext_shows
  unfold State.flipShown
  generalize natLe 2 ((s.rd TWG_EPOCH_CUR + 1) % 65536) ++ [0, 0] ++ natLe 4 s.twig.patchVer = body
  generalize s.epochNext = u at *
  obtain ⟨hint, hraised⟩ := u.raise_journal_shows (f := TWG_INT_FLIPPED) islMgmt 0x0502 0 body (by decide) rfl (by decide)
  have hall := (honly.mono (m := [TWG_EPOCH, TWG_IMG_VER, TWG_PATCH_STS, TWG_INT]) (by simp)).jrn.trans
    (hraised.mono (by simp [TWG_INT_FLIPPED]))
  obtain ⟨-, hkept⟩ := hraised
  generalize (u.raise TWG_INT_FLIPPED).journal islMgmt 0x0502 0 body = v at *
  exact ⟨(hkept.rd (by decide)).trans hcur, (hkept.on (by decide)).trans hlive, (hkept.rd (by decide)).trans hver,
    (hkept.rd (by decide)).trans hst, (hkept.on (by decide)).trans hbusy, hint, hall⟩

/-- The flip's end: the switch of profile that brought the patch knows of it, and no command awaits it any more. -/
def State.flipEnd (v : State) : State :=
  { v with twig.by_ := none, sw := v.sw.map (fun (w : ProfSw) => { w with patchDone := true }) }

theorem State.flipEnd_frame {l : List Nat} {s v t : State} (hv : onlyRegsJrn l s v) (ht : t = v.flipEnd) :
    t.regs = v.regs ∧ t = { s with twig.by_ := none, sw := t.sw, regs := t.regs, msi := t.msi, jrn := t.jrn } ∧
      regsKept (jrnRegs ++ l) s t := by
  have hregs : t.regs = v.regs := by rw [ht]; rfl
  refine ⟨hregs, ?_, fun a ha => (State.reg_congr hregs a).trans (hv.2 a ha)⟩
  obtain ⟨hframe, -⟩ := hv
  rw [ht]
  unfold State.flipEnd
  dsimp only
  generalize v.regs = r at hframe ⊢
  generalize v.msi = m at hframe ⊢
  generalize v.jrn = j at hframe ⊢
  rw [hframe]

/-- The reply of the flip: the command that asked for the patch, if one did, completes with the epoch. -/
def State.flipReply (v : State) (e : Nat) : State :=
  let u := { v with sw := v.sw.map (fun (w : ProfSw) => { w with patchDone := true }) }
  match u.twig.by_ with
  | some (c, i) => ({ u with twig.by_ := none } : State).cmdEnd c i 0 e
  | none => u

theorem State.flipReply_none {v : State} (e : Nat) (h : v.twig.by_ = none) : v.flipReply e = v.flipEnd := by
  have hsame : { v.twig with by_ := none } = v.twig := by rw [← h]
  unfold State.flipReply
  dsimp only
  rw [h]
  exact congrArg (fun x : TwigSt => ({ v with
    twig := x, sw := v.sw.map (fun (w : ProfSw) => { w with patchDone := true }) } : State)) hsame.symm

theorem State.flipReply_some {v : State} {c i : Nat} (e : Nat) (h : v.twig.by_ = some (c, i)) :
    v.flipReply e = v.flipEnd.cmdEnd c i 0 e := by
  unfold State.flipReply State.flipEnd
  dsimp only
  rw [h]

/-- A fold of steps that each leave the state alone. -/
theorem foldl_same {α β : Type} {f : β → α → β} {b : β} (l : List α) (h : ∀ a ∈ l, f b a = b) : l.foldl f b = b := by
  induction l with
  | nil => rfl
  | cons a l ih => rw [List.foldl_cons, h a List.mem_cons_self, ih fun x hx => h x (List.mem_cons_of_mem _ hx)]

/-- The flip of a state that has waited for T in every cluster. -/
def State.flipNow (s : State) : State := s.flipShown.flipReply ((s.rd TWG_EPOCH_CUR + 1) % 65536)

theorem State.patchFlip_eq (s : State) : s.patchFlip = if s.rd TWG_PATCH_STS_STATE ≠ 1 then s
    else ((List.range 16).foldl (fun u k => u.waitIsl (islCluster k) u.twig.patchT) s).flipNow := by
  unfold State.patchFlip
  generalize (List.range 16).foldl (fun u k => u.waitIsl (islCluster k) u.twig.patchT) s = u
  extract_lets w e numbered shown recorded marked
  have hrec : recorded = u.flipShown := by
    unfold State.flipShown State.epochNext
    simp only [recorded, shown, numbered, e, w, State.setPatch_twig, State.wr_twig]
  clear_value recorded
  unfold State.flipNow
  rw [← hrec]
  rfl

/-- The flip once every cluster has reached T. -/
theorem State.patchFlip_due {s : State} (hst : s.rd TWG_PATCH_STS_STATE = 1)
    (hdue : ∀ k < 16, s.twig.patchT ≤ s.now (islCluster k)) : s.patchFlip = s.flipNow := by
  rw [State.patchFlip_eq, if_neg (not_not.2 hst), foldl_same]
  exact fun k hk => s.waitIsl_due _ _ (hdue k (List.mem_range.1 hk))

/-! ### The end of the old epoch (R247) -/

theorem exec_twigPatchRetire {s : State} (h : s.alive islMgmt = true) : exec .twigPatchRetire s = .next s.patchRetire :=
  onIsl_up (f := (·.patchRetire)) h

/-- The registers at the end of the old epoch. -/
def State.retireShown (s : State) : State := ((s.wr TWG_EPOCH_PREV_LIVE 0).setPatch 3).raise TWG_INT_RETIRED

theorem State.retireShown_shows (s : State) : s.retireShown.on TWG_EPOCH_PREV_LIVE = false ∧
    s.retireShown.rd TWG_PATCH_STS_STATE = 3 ∧ s.retireShown.rd TWG_INT_RETIRED = 1 ∧
    onlyRegs [TWG_EPOCH, TWG_PATCH_STS, TWG_INT] s s.retireShown := by
  have hlive : (s.wr TWG_EPOCH_PREV_LIVE 0).on TWG_EPOCH_PREV_LIVE = false := State.on_wr_zero s (by decide)
  have hwr : onlyRegs [TWG_EPOCH] s (s.wr TWG_EPOCH_PREV_LIVE 0) := onlyRegs_wr s _ (List.mem_singleton_self _)
  obtain ⟨hst, -, hset⟩ := (s.wr TWG_EPOCH_PREV_LIVE 0).setPatch_shows (st := 3) (by decide)
  have hint := State.rd_raise ((s.wr TWG_EPOCH_PREV_LIVE 0).setPatch 3) TWG_INT_RETIRED (by decide) rfl
  have hraise : onlyRegs [TWG_INT] _ (((s.wr TWG_EPOCH_PREV_LIVE 0).setPatch 3).raise TWG_INT_RETIRED) :=
    onlyRegs_raise _ (List.mem_singleton_self _)
  refine ⟨?_, (hraise.2.rd (by decide)).trans hst, hint,
    (hwr.mono (by simp)).trans ((hset.mono (by simp)).trans (hraise.mono (by simp)))⟩
  exact (hraise.on (by decide)).trans ((hset.on (by decide)).trans hlive)

theorem State.retireShown_twig (s : State) : s.retireShown.twig = s.twig := by
  simp only [State.retireShown, State.setPatch_twig, State.raise_twig, State.wr_twig]

theorem State.patchRetire_due {s : State} (hst : s.rd TWG_PATCH_STS_STATE = 2)
    (hidle : ∀ x ∈ s.twig.items, x.2.epoch = (s.rd TWG_EPOCH_CUR + 65535) % 65536 → x.2.ph ≠ .running ∧ x.2.ph ≠ .stopped) :
    s.patchRetire = ({ s.retireShown with twig.syncAt := s.retireShown.time.mono } : State).journal islMgmt 0x0503 0
      (natLe 2 ((s.rd TWG_EPOCH_CUR + 65535) % 65536)) := by
  have hany : s.twig.items.any (fun x => x.2.epoch == (s.rd TWG_EPOCH_CUR + 65535) % 65536 &&
      (decide (x.2.ph = .running) || decide (x.2.ph = .stopped))) = false := by simpa using hidle
  unfold State.patchRetire
  dsimp only
  rw [hany, if_neg (by simp [hst])]
  rfl

theorem State.patchRetire_shows {s t : State} {w : TwigSt} {body : List Byte} (hw : w.items = s.twig.items)
    (ht : t = ({ s.retireShown with twig := w } : State).journal islMgmt 0x0503 0 body) :
    t.on TWG_EPOCH_PREV_LIVE = false ∧ t.rd TWG_PATCH_STS_STATE = 3 ∧ t.rd TWG_INT_RETIRED = 1 ∧
      t = { s with twig := t.twig, regs := t.regs, msi := t.msi, jrn := t.jrn } ∧ t.twig.items = s.twig.items ∧
      regsKept (jrnRegs ++ [TWG_EPOCH, TWG_PATCH_STS, TWG_INT]) s t := by
  obtain ⟨hlive, hst, hint, honly, hkept⟩ := s.retireShown_shows
  generalize s.retireShown = u at *
  obtain ⟨hframe, hj⟩ := onlyRegsJrn_journal [] ({ u with twig := w } : State) islMgmt 0x0503 0 body
  have htwig : t.twig = w := by rw [ht, State.journal_twig]
  rw [← ht] at hframe hj
  have hbeside : regsKept (jrnRegs ++ []) u t := regsKept_of_regs (s' := { u with twig := w }) rfl hj
  refine ⟨(hbeside.on (by decide)).trans hlive, (hbeside.rd (by decide)).trans hst, (hbeside.rd (by decide)).trans hint, ?_,
    htwig ▸ hw, hkept.trans hbeside (by simp) (by simp)⟩
  rw [htwig]
  generalize t.regs = r at hframe ⊢
  generalize t.msi = m at hframe ⊢
  generalize t.jrn = j at hframe ⊢
  rw [hframe, honly]

/-! ### The copies of the routine table (R247) -/

theorem exec_twigPatchSyncDone {s : State} (h : s.alive islMgmt = true) :
    exec .twigPatchSyncDone s = .next s.patchSyncDone := onIsl_up (f := (·.patchSyncDone)) h

section
variable {α : Type}

theorem Tab.find_filter (t : Tab α) (p : Nat → Bool) (k : Nat) :
    Tab.find? (t.filter (fun e => p e.1)) k = if p k then t.find? k else none := by
  induction t with
  | nil => simp [Tab.find?]
  | cons e t ih =>
    obtain ⟨j, v⟩ := e
    by_cases hj : j = k
    · subst hj
      cases hp : p j <;> simp [Tab.find?, hp, ih]
    · cases hp : p j <;> simp [Tab.find?, hp, hj, ih]

/-- A key no higher than the lower limit of a sorted store is not listed. -/
theorem Tab.find_of_sortedFrom {t : Tab α} {l k : Nat} (h : Tab.sortedFrom (some l) t = true) (hk : k ≤ l) :
    t.find? k = none := by
  induction t generalizing l with
  | nil => rfl
  | cons e t ih =>
    obtain ⟨j, v⟩ := e
    simp only [Tab.sortedFrom, Bool.and_eq_true, decide_eq_true_eq] at h
    obtain ⟨hlj, hrest⟩ := h
    unfold Tab.find?
    rw [if_neg (by omega)]
    exact ih hrest (by omega)

/-- Entries inserted under keys of their own leave every other key alone. -/
theorem Tab.find_foldl_insert_other (l t : Tab α) (f : Nat → Nat) {k : Nat} (h : ∀ e ∈ l, f e.1 ≠ k) :
    Tab.find? (l.foldl (fun u e => Tab.insert u (f e.1) e.2) t) k = t.find? k := by
  induction l generalizing t with
  | nil => rfl
  | cons e l ih =>
    rw [List.foldl_cons, ih _ fun x hx => h x (List.mem_cons_of_mem _ hx), Tab.find_insert,
      if_neg (h e List.mem_cons_self)]

/-- A sorted store's entries inserted under other keys: what stood at a key stands at the key that it alone goes to. -/
theorem Tab.find_foldl_insert (l t : Tab α) (f : Nat → Nat) {lo : Option Nat} {k : Nat} (hl : Tab.sortedFrom lo l = true)
    (hf : ∀ e ∈ l, f e.1 = f k → e.1 = k) :
    Tab.find? (l.foldl (fun u e => Tab.insert u (f e.1) e.2) t) (f k) = (l.find? k).or (t.find? (f k)) := by
  induction l generalizing t lo with
  | nil => simp [Tab.find?]
  | cons e l ih =>
    obtain ⟨j, v⟩ := e
    simp only [Tab.sortedFrom, Bool.and_eq_true] at hl
    rw [List.foldl_cons, ih _ hl.2 fun x hx => hf x (List.mem_cons_of_mem _ hx), Tab.find_insert]
    by_cases hj : j = k
    · subst hj
      rw [Tab.find_of_sortedFrom hl.2 le_rfl]
      simp [Tab.find?]
    · have hne : f j ≠ f k := fun h => hj (hf (j, v) List.mem_cons_self h)
      rw [if_neg hne]
      simp [Tab.find?, hj]

end

theorem tblKey_div {id copy j : Nat} (h : j < 2 ^ 32) : tblKey id copy j / 2 ^ 32 = id * 2 + copy := by
  unfold tblKey; omega

theorem tblKey_mod {id copy j : Nat} (h : j < 2 ^ 32) : tblKey id copy j % 2 ^ 32 = j := by
  unfold tblKey; omega

/-- A copied entry holds what stood in the copy it was taken from. -/
theorem State.find_tblCopy_to {s : State} (hwf : s.tblWf = true) (id : Nat) {a b j : Nat} (hj : j < 2 ^ 32) :
    (s.tblCopy id a b).tbl.find? (tblKey id b j) = s.tbl.find? (tblKey id a j) := by
  have hsorted : Tab.sortedFrom none s.tbl = true := by
    unfold State.tblWf Tab.wf at hwf; exact (Bool.and_eq_true_iff.1 hwf).1
  have hkey : tblKey id b (tblKey id a j % 2 ^ 32) = tblKey id b j := by rw [tblKey_mod hj]
  have hcopied := Tab.find_foldl_insert (s.tbl.filter (fun e => e.1 / 2 ^ 32 == id * 2 + a))
    (s.tbl.filter (fun e => e.1 / 2 ^ 32 != id * 2 + b)) (fun k => tblKey id b (k % 2 ^ 32)) (k := tblKey id a j)
    (Tab.sortedFrom_filter _ hsorted) fun e he h => by
      have hdiv : e.1 / 2 ^ 32 = id * 2 + a := by simpa using (List.mem_filter.1 he).2
      rw [tblKey_mod hj] at h
      have hmod : e.1 % 2 ^ 32 = j := by unfold tblKey at h; omega
      unfold tblKey; omega
  rw [hkey, Tab.find_filter s.tbl (fun k => k / 2 ^ 32 == id * 2 + a), Tab.find_filter s.tbl (fun k => k / 2 ^ 32 != id * 2 + b),
    tblKey_div hj, tblKey_div hj] at hcopied
  unfold State.tblCopy
  simpa using hcopied

/-- A copy leaves the one it was taken from alone. -/
theorem State.find_tblCopy_from (s : State) (id : Nat) {a b j : Nat} (hab : a ≠ b) (hj : j < 2 ^ 32) :
    (s.tblCopy id a b).tbl.find? (tblKey id a j) = s.tbl.find? (tblKey id a j) := by
  unfold State.tblCopy
  dsimp only
  rw [Tab.find_foldl_insert_other _ _ (fun k => tblKey id b (k % 2 ^ 32)), Tab.find_filter s.tbl (fun k => k / 2 ^ 32 != id * 2 + b),
    tblKey_div hj, if_pos (by simpa using hab)]
  intro e _ h
  have hmod : e.1 % 2 ^ 32 < 2 ^ 32 := Nat.mod_lt _ (by decide)
  have hdiv : id * 2 + b = id * 2 + a := by rw [← tblKey_div hmod, h, tblKey_div hj]
  omega

theorem State.ent_clean {s : State} (h : s.ecc.repairDue = []) (id copy j : Nat) : s.ent id copy j = s.entHeld id copy j := by
  unfold State.ent; rw [State.repairing_clean h, if_neg Bool.false_ne_true]

/-- Both copies of a table hold what the one copied held. -/
theorem State.ent_tblCopy {s : State} (hwf : s.tblWf = true) (hrep : s.ecc.repairDue = []) (id : Nat) {a b j : Nat} (hab : a ≠ b)
    (hj : j < 2 ^ 32) : (s.tblCopy id a b).ent id a j = s.ent id a j ∧ (s.tblCopy id a b).ent id b j = s.ent id a j := by
  have hrep' : (s.tblCopy id a b).ecc.repairDue = [] := hrep
  rw [State.ent_clean hrep', State.ent_clean hrep', State.ent_clean hrep]
  unfold State.entHeld
  rw [State.find_tblCopy_from s id hab hj, State.find_tblCopy_to hwf id hj]
  exact ⟨rfl, rfl⟩

theorem State.patchSyncDone_shows {s : State} (hst : s.rd TWG_PATCH_STS_STATE = 3) (hwf : s.tblWf = true)
    (hrep : s.ecc.repairDue = []) {t : State} (ht : t = s.patchSyncDone) :
    t.rd TWG_PATCH_STS_STATE = 0 ∧ t.on TWG_PATCH_STS_BUSY = false ∧ counted TWG_PATCH_CNT 1 s t ∧
      (∀ j < 4096, t.ent 0x51 0 j = s.ent 0x51 (s.rd TWG_EPOCH_CUR % 2) j ∧
        t.ent 0x51 1 j = s.ent 0x51 (s.rd TWG_EPOCH_CUR % 2) j) ∧
      t = { s with tbl := t.tbl, regs := t.regs } ∧ regsKept [TWG_PATCH_STS, TWG_PATCH_CNT, TWG_PATCH_CNT + 4] s t := by
  have hcopy : s.patchSyncDone =
      ((s.tblCopy 0x51 (s.rd TWG_EPOCH_CUR % 2) (1 - s.rd TWG_EPOCH_CUR % 2)).setPatch 0).cnt TWG_PATCH_CNT := by
    unfold State.patchSyncDone; exact if_neg (not_not.2 hst)
  rw [hcopy] at ht
  generalize hn : s.rd TWG_EPOCH_CUR % 2 = n at ht ⊢
  have hboth (j : Nat) (hj : j < 4096) := s.ent_tblCopy hwf hrep 0x51 (a := n) (b := 1 - n) (j := j) (by omega) (by omega)
  have hframe : s.tblCopy 0x51 n (1 - n) = { s with tbl := (s.tblCopy 0x51 n (1 - n)).tbl } := rfl
  generalize s.tblCopy 0x51 n (1 - n) = u at *
  obtain ⟨hst0, hbusy, hset⟩ := u.setPatch_shows (st := 0) (by decide)
  have hcnt : onlyRegs [TWG_PATCH_CNT, TWG_PATCH_CNT + 4] (u.setPatch 0) ((u.setPatch 0).cnt TWG_PATCH_CNT) :=
    onlyRegs_cnt _ 1 (by simp) (by simp)
  have hone := counted_of_onlyRegs hset (by decide) (by decide) (counted_cnt (u.setPatch 0) TWG_PATCH_CNT 1)
  have hall := (hset.mono (m := [TWG_PATCH_STS, TWG_PATCH_CNT, TWG_PATCH_CNT + 4]) (by simp)).trans (hcnt.mono (by simp))
  have htframe := hall.regs_only rfl
  obtain ⟨-, hkept⟩ := hall
  rw [← ht] at hcnt hone htframe hkept
  have hregs : u.regs = s.regs := by rw [hframe]
  have hent (c j : Nat) : t.ent 0x51 c j = u.ent 0x51 c j := by rw [htframe]; rfl
  refine ⟨(hcnt.2.rd (by decide)).trans hst0, (hcnt.on (by decide)).trans hbusy, counted_of_regs hregs hone, fun j hj => ?_, ?_,
    regsKept_of_regs hregs hkept⟩
  · rw [hent, hent]
    obtain ⟨hfrom, hto⟩ := hboth j hj
    obtain rfl | rfl : n = 0 ∨ n = 1 := by omega
    · exact ⟨hfrom, hto⟩
    · exact ⟨hto, hfrom⟩
  · generalize t.regs = r at htframe ⊢
    rw [htframe, hframe]

/-! ### Repair of a control-store page (R345) -/

theorem exec_controlStoreRepair {s : State} {k : Fin 16} (h : s.alive (islCluster k.val) = true) :
    exec (.controlStoreRepair k) s = .next (s.ctlRepair k.val) := onIsl_up (f := (·.ctlRepair k.val)) h

theorem State.ctlRepair_none {s : State} {k : Nat} (h : ∀ x ∈ s.ecc.pageDue, x.1 = 3 → x.2 / 160 ≠ k) : s.ctlRepair k = s := by
  have hfind : s.ecc.pageDue.find? (fun x => x.1 == 3 && x.2 / 160 == k) = none := by
    simpa [List.find?_eq_none] using h
  unfold State.ctlRepair
  rw [hfind]

theorem State.ctlRepair_noCopy {s : State} {k : Nat} {x : Nat × Nat}
    (hx : s.ecc.pageDue.find? (fun x => x.1 == 3 && x.2 / 160 == k) = some x)
    (h : ∀ c < 16, (c != k && s.ctlPageGood (c * 160 + x.2 % 160)) = false) : s.ctlRepair k = s := by
  have hfind : (List.range 16).find? (fun c => c != k && s.ctlPageGood (c * 160 + x.2 % 160)) = none := by
    rw [List.find?_eq_none]
    exact fun c hc => Bool.eq_false_iff.1 (h c (List.mem_range.1 hc))
  unfold State.ctlRepair
  rw [hx]; dsimp only; rw [hfind]

/-- What a word of a copied page keeps of its error: a corrected one is corrected, any other is taken as it is. -/
def pageLeft (d : Nat) : Nat := if classify 80 d = .ce then afterCorrection 80 d else d

theorem State.ctlRepair_some {s : State} {k c : Nat} {x : Nat × Nat}
    (hx : s.ecc.pageDue.find? (fun x => x.1 == 3 && x.2 / 160 == k) = some x)
    (hc : (List.range 16).find? (fun c => c != k && s.ctlPageGood (c * 160 + x.2 % 160)) = some c) :
    s.ctlRepair k = ({ s with ecc := { s.ecc with
      pageDue := s.ecc.pageDue.erase x
      diff := (s.ctlPageWords (c * 160 + x.2 % 160)).foldl
        (fun (t : Tab Nat) w => t.set 0 (eccKey 3 (w - c * 32768 + k * 32768)) (pageLeft (s.ecc.diff.get 0 (eccKey 3 w))))
        ((s.ctlPageWords x.2).foldl (fun (t : Tab Nat) w => t.erase (eccKey 3 w)) s.ecc.diff)
      pageDiff := s.ecc.pageDiff.erase (eccKey 3 x.2) } } : State).repaired 3 k 0 (x.2 % 160 * 2048 / 20) (islCluster k) := by
  unfold State.ctlRepair
  extract_lets left
  have hleft : left = fun w => pageLeft (s.ecc.diff.get 0 (eccKey 3 w)) := by
    funext w
    unfold pageLeft left
    dsimp only
    cases classify 80 (s.ecc.diff.get 0 (eccKey 3 w)) <;> rfl
  rw [hleft, hx]
  dsimp only
  rw [hc]

/-- Settles O40: halts, the flip, the end of the old epoch, the copies of the routine table and the repair of a page, each by the
lemma of what its operation shows. -/
theorem twigHaltPatchAndRepair : Obligations.TwigHaltPatchAndRepair := by
  unfold Obligations.TwigHaltPatchAndRepair
  refine ⟨fun s v h => ?_, fun s k h hreq hsts hidle => ?_, fun s h hst hdue => ?_, fun s h hst hidle => ?_,
    fun s h hst hwf hrep => ?_, fun s k h => ⟨fun hnone => ?_, fun x hx => ?_⟩⟩
  · obtain ⟨hreq, honly⟩ := s.haltShown_shows v.toNat
    have hframe := honly.regs_only rfl
    obtain ⟨-, hkept⟩ := honly
    refine ⟨_, (exec_twigHaltReq v h).trans (congrArg _ (s.twigHalt_eq v.toNat)), ?_⟩
    generalize s.haltShown v.toNat = u at *
    exact ⟨hreq, rfl, by rw [hframe], hkept⟩
  · exact ⟨_, exec_twigClusterHalted h, State.twigHalted_shows k.isLt hreq hsts hidle⟩
  · obtain ⟨hcur, hlive, hver, hstate, hbusy, hint, hall⟩ := s.flipShown_shows
    have hby := congrArg TwigSt.by_ s.flipShown_twig
    have hflip := (exec_twigPatchFlip h).trans (congrArg Host.Outcome.next (State.patchFlip_due hst hdue))
    unfold State.flipNow at hflip
    generalize s.flipShown = v at *
    obtain ⟨hregs, hframe, hkept⟩ := State.flipEnd_frame hall rfl
    have hrd (f : RFld) : v.flipEnd.rd f = v.rd f := State.rd_congr hregs f
    have hon (f : RFld) : v.flipEnd.on f = v.on f := State.on_of_reg (State.reg_congr hregs _)
    refine ⟨v.flipEnd, ?_, (hrd _).trans hcur, (hon _).trans hlive, (hrd _).trans hver, (hrd _).trans hstate, (hon _).trans hbusy,
      (hrd _).trans hint, hframe, hkept⟩
    cases hs : s.twig.by_ with
    | none => exact hflip.trans (congrArg _ (State.flipReply_none _ (hby.trans hs)))
    | some r => exact hflip.trans (congrArg _ (State.flipReply_some _ (hby.trans hs)))
  · have hitems : s.retireShown.twig.items = s.twig.items := by rw [s.retireShown_twig]
    exact ⟨_, exec_twigPatchRetire h, State.patchRetire_shows
      (w := { s.retireShown.twig with syncAt := s.retireShown.time.mono }) hitems
      (State.patchRetire_due hst hidle)⟩
  · exact ⟨_, exec_twigPatchSyncDone h, State.patchSyncDone_shows hst hwf hrep rfl⟩
  · rw [exec_controlStoreRepair h, State.ctlRepair_none hnone]
  · intro good
    refine ⟨fun hno => (exec_controlStoreRepair h).trans (congrArg _ (State.ctlRepair_noCopy hx hno)), fun c hc => ?_⟩
    intro left clean
    exact (exec_controlStoreRepair h).trans (congrArg _ (State.ctlRepair_some hx hc))

end Sys2Proof.Machine
end

section
/-!
SUPPORT. Dispatch, cold reads, the start and the end of items, and ordered release (R218, R231, R232, R236 to R240, R243), and O39.
-/
namespace Sys2Proof.Machine

/-! ### Dispatch (R231) -/

theorem exec_twigDispatch {s : State} (b : Fin 32) (t : BitVec 13) (h : s.inReset = false) :
    exec (.twigDispatch b t) s = .next (s.twigDispatch (pkey b.val t.toNat)) := whenUp_up (f := (·.twigDispatch _)) h

theorem onlyRegs_dispShow (s : State) (k : Nat) : onlyRegs [TWG_CLU_STS k] s (s.dispShow k) :=
  onlyRegs_wr s (f := TWG_CLU_STS_DISP_USE k) _ (List.mem_singleton_self _)

/-- A cluster's dispatch use shown, after items came, went or changed. -/
theorem State.dispShow_frame {s t : State} {w : TwigSt} {k : Nat} (ht : t = ({ s with twig := w } : State).dispShow k) :
    t.twig = w ∧ t = { s with twig := t.twig, regs := t.regs } ∧ regsKept [TWG_CLU_STS k] s t := by
  have hregs : ({ s with twig := w } : State).regs = s.regs := rfl
  refine ⟨by rw [ht]; rfl, by rw [ht]; rfl, ?_⟩
  rw [ht]
  exact regsKept_of_regs hregs (onlyRegs_dispShow _ k).2

section
variable {s : State} {pk i : Nat} {it : Item} (hitem : s.itemOf pk = some (i, it)) (hent : it.entered = false)
  (halive : s.alive (islCluster it.cluster) = true)
include hitem hent halive

theorem State.twigDispatch_full (hfull : 2048 ≤ (s.twig.items.filter (fun e => e.2.waits it.cluster)).length) :
    s.twigDispatch pk = (s.endItem i it).twigRefuse pk it.rt TWG_DISP_FULL_CNT := by
  unfold State.twigDispatch
  rw [hitem]; dsimp only
  rw [hent, halive, if_neg (by decide), if_pos hfull]

/-- An item as it stands in its cluster's dispatch queue: on its engine, with the kept commits of its flow in its frame. -/
def State.placed (s : State) (it : Item) : Item :=
  { it with
    engine := s.engineFor it.cluster it.aff, entered := true, enteredAt := s.time.mono
    img := if it.flow = 0 then it.img else patched it.img 48 (s.keptCommits it.cluster it.flow) }

theorem State.twigDispatch_room (hroom : (s.twig.items.filter (fun e => e.2.waits it.cluster)).length < 2048) :
    s.twigDispatch pk = ({ s.pruneCommits with
      twig.items := (s.twig.items.erase i).insert s.twig.nextItem (s.pruneCommits.placed it)
      twig.nextItem := s.twig.nextItem + 1 } : State).dispShow it.cluster := by
  unfold State.twigDispatch
  rw [hitem]; dsimp only
  rw [hent, halive, if_neg (by decide), if_neg (Nat.not_le.2 hroom)]
  rfl

end

/-! ### Cold reads (R232) -/

theorem exec_coldReadTokenRefill {s : State} {k : Fin 16} (h : s.alive (islCluster k.val) = true) :
    exec (.coldReadTokenRefill k) s = .next (s.coldRefill k.val) := onIsl_up (f := (·.coldRefill k.val)) h

theorem exec_twigColdRead {s : State} (b : Fin 32) (t : BitVec 13) (h : s.inReset = false) :
    exec (.twigColdRead b t) s = .next (s.twigColdRead (pkey b.val t.toNat)) := whenUp_up (f := (·.twigColdRead _)) h

/-- The state in which a cold read has taken its token, its entry of the controller, and has met the codes of its words. -/
def State.coldTaken (s : State) (it : Item) : State :=
  ((({ s with twig.coldUsed := s.twig.coldUsed.set 0 it.cluster (s.twig.coldUsed.get 0 it.cluster + 1000) } : State).cnt
    TWG_COLD_CNT).rtsUseFrom (s.bucketStack (it.flow / 4)) clsTwig (slotAddr it.flow + 128) 128 false).rsScan (slotAddr it.flow + 128) 128

/-- What a cold read does once its bytes have been read: a poisoned block ends the item, another comes into its frame. -/
def State.coldEnd (r : State) (i : Nat) (it : Item) : State :=
  if r.rsPoisoned (slotAddr it.flow + 128) 128 then
    let x := r.putItem i { it with cold := .read, ph := .failed }
    (if x.wayUsed it.flow then x.flowPoisonWait it.flow else x).dispShow it.cluster
  else
    r.putItem i { it with cold := .read, coldWait := (r.time.mono - it.enteredAt) / 5
                          img := splice it.img 112 (r.rsRead (slotAddr it.flow + 128) 128) }

section
variable {s : State} {pk i : Nat} {it : Item} (hitem : s.itemOf pk = some (i, it)) (hent : it.entered = true)
  (hcold : it.cold = .wanted) (hph : it.ph = .queued) (halive : s.alive (islCluster it.cluster) = true)
  (htok : s.twig.coldUsed.get 0 it.cluster + 1000 ≤ 64000)
  (hfirst : ∀ e ∈ s.twig.items, e.1 < i → e.2.cluster = it.cluster → e.2.aff = it.aff → e.2.active = false)
include hitem hent hcold hph halive htok hfirst

theorem State.twigColdRead_due : s.twigColdRead pk =
    if !s.rtsHas clsTwig (slotAddr it.flow + 128) then s.rtsHeldBack (slotAddr it.flow + 128) else (s.coldTaken it).coldEnd i it := by
  have hearlier : s.twig.items.any (fun e => decide (e.1 < i) && e.2.cluster == it.cluster && e.2.aff == it.aff && e.2.active) = false := by
    simpa using hfirst
  unfold State.twigColdRead
  rw [hitem]; dsimp only
  rw [hearlier, if_neg (by simp [hent, halive, hcold, hph, htok])]
  rfl

end

/-! ### The start of an item (R218, R247) -/

@[simp] theorem State.eccLog_time (s : State) (a b c d e f : Nat) : (s.eccLog a b c d e f).time = s.time := by
  unfold State.eccLog; split <;> rfl

@[simp] theorem State.pageFail_time (s : State) (a b c d e : Nat) : (s.pageFail a b c d e).time = s.time := by
  unfold State.pageFail; simp

@[simp] theorem State.leakDue_time (s : State) (n : Nat) : (s.leakDue n).time = s.time := by
  unfold State.leakDue; dsimp only; split <;> rfl

@[simp] theorem State.ceCount_time (s : State) (a b : Nat) : (s.ceCount a b).time = s.time := by
  unfold State.ceCount; dsimp only; split <;> simp

@[simp] theorem State.tblBad_time (s : State) (a b : Nat) : (s.tblBad a b).time = s.time := by
  unfold State.tblBad
  dsimp only
  split
  · rfl
  · rw [State.pageFail_time]; split <;> rfl

@[simp] theorem State.meetTbl_time (s : State) (a b : Nat) : (s.meetTbl a b).time = s.time := by
  unfold State.meetTbl
  split
  · rfl
  · simp
  · split <;> simp

/-- Reading a routine's entry takes no time. -/
theorem State.rtRead_time (s : State) (k copy rt : Nat) : (s.rtRead k copy rt).2.time = s.time := by
  unfold State.rtRead
  dsimp only
  split
  · rfl
  · exact foldl_kept State.time _ (fun s w => s.meetTbl_time _ _) _ _

/-- With no error in any protected word, reading a routine's entry changes nothing. -/
theorem State.rtRead_clean {s : State} (h : s.ecc.diff = []) (k copy rt : Nat) : (s.rtRead k copy rt).2 = s := by
  unfold State.rtRead
  dsimp only
  rw [h]; rfl

theorem exec_twigItemStart {s : State} {k : Fin 16} (e : Fin 32) (h : s.alive (islCluster k.val) = true) :
    exec (.twigItemStart k e) s = .next (s.twigItemStart k.val e.val) := onIsl_up (f := (·.twigItemStart k.val e.val)) h

/-- The start of an item under epoch `ep` and routine-table entry `ent`, in the state that has read the entry. -/
def State.startItem (r : State) (k i : Nat) (it : Item) (ep ent : Nat) : State :=
  if (r.pkt? it.pkt).any (·.memUe) then
    match r.pkt? it.pkt with
    | some p => (r.endItem i it).memDrop it.pkt p
    | none => r
  else if fon ent RT_V && fon ent RT_COLD && it.flow != 0 && it.cold ≠ .read then r.putItem i { it with cold := .wanted }
  else
    let it := { it with epoch := ep, startedAt := r.time.mono }
    if fon ent RT_V then
      ((r.putItem i { it with ph := .running, eng := runStart it ent }).dispShow k).pmuEv 0x21 k
    else (r.putItem i { it with ph := .failed }).dispShow k

theorem State.twigItemStart_first {s : State} {k e i : Nat} {it : Item} (hreq : bit (s.rd TWG_HALT_HALT_REQ) k = false)
    (hfree : ∀ x ∈ s.twig.items, x.2.onEngine k e = false)
    (hfirst : s.twig.items.first (fun x => x.2.waits k && x.2.engine == e) = some (i, it)) :
    s.twigItemStart k e = (s.rtRead k (s.rd TWG_EPOCH_CUR % 2) it.rt).2.startItem k i it (s.rd TWG_EPOCH_CUR)
      (s.rtEntry k (s.rd TWG_EPOCH_CUR % 2) it.rt) := by
  have hany : s.twig.items.any (fun x => x.2.onEngine k e) = false := by simpa using hfree
  unfold State.twigItemStart
  rw [hreq, hany, if_neg (by decide), hfirst]
  generalize hr : s.rtRead k (s.rd TWG_EPOCH_CUR % 2) it.rt = r
  have hent : s.rtEntry k (s.rd TWG_EPOCH_CUR % 2) it.rt = r.1 := by rw [← hr]; rfl
  rw [hent]
  dsimp only
  rw [hr]
  rfl

section
variable {r : State} {k i ep ent : Nat} {it : Item}

theorem State.startItem_memUe {p : Pkt} (hp : r.pkt? it.pkt = some p) (hue : p.memUe = true) :
    r.startItem k i it ep ent = (r.endItem i it).memDrop it.pkt p := by
  unfold State.startItem
  rw [hp, if_pos (by simpa using hue)]

theorem State.startItem_lacks (hue : (r.pkt? it.pkt).any (·.memUe) = false)
    (hlacks : (fon ent RT_V && fon ent RT_COLD && it.flow != 0 && it.cold != .read) = true) :
    r.startItem k i it ep ent = r.putItem i { it with cold := .wanted } := by
  unfold State.startItem
  rw [hue, if_neg Bool.false_ne_true, if_pos (by simpa using hlacks)]

theorem State.startItem_starts (hue : (r.pkt? it.pkt).any (·.memUe) = false)
    (hlacks : (fon ent RT_V && fon ent RT_COLD && it.flow != 0 && it.cold != .read) = false) :
    r.startItem k i it ep ent = if fon ent RT_V then
      ((r.putItem i { it with epoch := ep, startedAt := r.time.mono, ph := .running, eng := runStart it ent }).dispShow k).pmuEv 0x21 k
      else (r.putItem i { it with epoch := ep, startedAt := r.time.mono, ph := .failed }).dispShow k := by
  unfold State.startItem
  rw [hue, if_neg Bool.false_ne_true, if_neg (by simpa using hlacks)]
  rfl

/-- An item put into its cluster, whose dispatch use is shown. -/
theorem State.putShown_shows {y : Item} {t : State} (ht : t = (r.putItem i y).dispShow k) :
    t.twig.items.find? i = some y ∧ (∀ j, j ≠ i → t.twig.items.find? j = r.twig.items.find? j) ∧
      t = { r with twig.items := t.twig.items, regs := t.regs } ∧ regsKept [TWG_CLU_STS k] r t := by
  obtain ⟨htwig, hframe, hkept⟩ := State.dispShow_frame (s := r) (w := { r.twig with items := r.twig.items.insert i y }) ht
  rw [htwig] at hframe ⊢
  exact ⟨r.find_putItem_same i y, fun j hj => r.find_putItem_other y hj, hframe, hkept⟩

/-- An item that lacks nothing starts at its routine's base, or fails where its entry has V = 0. -/
theorem State.startItem_shows (hue : (r.pkt? it.pkt).any (·.memUe) = false)
    (hlacks : (fon ent RT_V && fon ent RT_COLD && it.flow != 0 && it.cold != .read) = false) :
    ∃ y, (r.startItem k i it ep ent).twig.items.find? i = some y ∧ y.startedAt = r.time.mono ∧ y.epoch = ep ∧
      (fon ent RT_V = true → y.ph = .running ∧ y.eng = { pc := fget ent RT_BASE, frame := it.img }) ∧
      (fon ent RT_V = false → y.ph = .failed) ∧
      (∀ j, j ≠ i → (r.startItem k i it ep ent).twig.items.find? j = r.twig.items.find? j) ∧
      r.startItem k i it ep ent = { r with
        twig.items := (r.startItem k i it ep ent).twig.items
        regs := (r.startItem k i it ep ent).regs
        obs := (r.startItem k i it ep ent).obs } ∧
      regsKept [TWG_CLU_STS k] r (r.startItem k i it ep ent) := by
  have hstart := State.startItem_starts (r := r) (k := k) (i := i) (ep := ep) hue hlacks
  cases hv : fon ent RT_V with
  | true =>
    rw [hv, if_pos rfl] at hstart
    generalize hd : (r.putItem i _).dispShow k = d at hstart
    obtain ⟨hsame, hother, hframe, hkept⟩ := State.putShown_shows hd.symm
    rw [hstart, State.pmuEv_twig]
    refine ⟨_, hsame, rfl, rfl, fun _ => ⟨rfl, rfl⟩, fun h => absurd h.symm Bool.false_ne_true, hother, ?_,
      fun a ha => (State.reg_congr (State.pmuEv_regs d _ _ _) a).trans (hkept a ha)⟩
    exact congrArg (fun u : State => { u with obs := (d.pmuEv 0x21 k).obs }) hframe
  | false =>
    rw [hv, if_neg Bool.false_ne_true] at hstart
    generalize hd : (r.putItem i _).dispShow k = d at hstart
    obtain ⟨hsame, hother, hframe, hkept⟩ := State.putShown_shows hd.symm
    rw [hstart]
    refine ⟨_, hsame, rfl, rfl, fun h => absurd h Bool.false_ne_true, fun _ => rfl, hother, ?_, hkept⟩
    have hobs : d.obs = r.obs := (congrArg State.obs hframe :)
    rw [hobs]
    exact hframe

end

/-! ### Completion and time-out (R230, R240, R243) -/

theorem exec_twigItemComplete {s : State} (b : Fin 32) (t : BitVec 13) (h : s.inReset = false) :
    exec (.twigItemComplete b t) s = .next (s.twigItemComplete (pkey b.val t.toNat)) := whenUp_up (f := (·.twigItemComplete _)) h

theorem exec_twigItemTimeout {s : State} (b : Fin 32) (t : BitVec 13) (h : s.inReset = false) :
    exec (.twigItemTimeout b t) s = .next (s.twigItemTimeout (pkey b.val t.toNat)) := whenUp_up (f := (·.twigItemTimeout _)) h

section
variable {s : State} {pk i : Nat} {it : Item} (hitem : s.itemOf pk = some (i, it))
include hitem

theorem State.twigItemComplete_ended (halive : s.alive (islCluster it.cluster) = true) (hph : it.ph = .ended) :
    s.twigItemComplete pk = (((s.endItem i it).cnt TWG_DONE_CNT).takePatch pk it).itemDone pk it := by
  unfold State.twigItemComplete
  rw [hitem]; dsimp only
  rw [halive, if_neg (by decide), hph]

theorem State.twigItemComplete_failed (halive : s.alive (islCluster it.cluster) = true) (hph : it.ph = .failed) :
    s.twigItemComplete pk = ((s.endItem i it).takePatch pk it).itemFailed pk it := by
  unfold State.twigItemComplete
  rw [hitem]; dsimp only
  rw [halive, if_neg (by decide), hph]

theorem State.twigItemComplete_unfinished (hph : it.ph ≠ .ended ∧ it.ph ≠ .failed) : s.twigItemComplete pk = s := by
  unfold State.twigItemComplete
  rw [hitem]; dsimp only
  split
  · rfl
  · split
    · exact absurd ‹_› hph.1
    · exact absurd ‹_› hph.2
    · rfl

theorem State.twigItemTimeout_due (hph : it.ph ≠ .ended ∧ it.ph ≠ .failed)
    (hdue : it.createdAt + 8 * max 100 (s.rd TWG_CFG_ITEM_TMAX) ≤ s.time.mono) :
    s.twigItemTimeout pk = ((((s.cnt TWG_TMO_CNT).raise TWG_INT_TMO).endItem i it).takePatch pk it).itemFailed pk
      { it with epoch := if it.ph = .queued then s.rd TWG_EPOCH_CUR else it.epoch } := by
  unfold State.twigItemTimeout
  rw [hitem]; dsimp only
  rw [if_neg (not_or.2 hph), State.waitMono_due _ _ hdue]

end

/-! ### Ordered release (R236 to R239) -/

theorem exec_ordSlotReady {s : State} (b : Fin 32) (t : BitVec 13) (h : s.inReset = false) :
    exec (.ordSlotReady b t) s = .next (s.ordSlotReady (pkey b.val t.toNat)) := whenUp_up (f := (·.ordSlotReady _)) h

theorem exec_ordHoldExpire {s : State} (b : Fin 32) (t : BitVec 13) (h : s.inReset = false) :
    exec (.ordHoldExpire b t) s = .next (s.ordHoldExpire (pkey b.val t.toNat)) := whenUp_up (f := (·.ordHoldExpire _)) h

theorem State.ordSlotReady_some {s : State} {pk id : Nat} {x : Pkt} (hx : s.pkt? pk = some x) (hst : x.stage = .ordered)
    (hslot : x.slot = some id) : s.ordSlotReady pk = s.slotReady id := by
  unfold State.ordSlotReady
  rw [hx]; dsimp only
  rw [hst, hslot]

/-- A released slot gives back its place in the window, and its packet goes on to admission. -/
theorem State.slotGo_ordered {s : State} {o : OrdSlot} {x : Pkt} (hlive : o.live = true) (hx : s.pkt? o.pkt = some x)
    (hst : x.stage = .ordered) : s.slotGo o = (s.winSub o.win).putPkt o.pkt { x with slot := none, stage := .toAdmit } := by
  unfold State.slotGo
  rw [hlive, if_pos rfl, State.modPkt_some (s := s.winSub o.win) (p := x) _ hx, hst, if_pos rfl]

/-- A port's only slot goes at once when it becomes ready, with or without a hold time. -/
theorem State.slotReady_only {s : State} {o : OrdSlot} {x : Pkt} (hslots : s.twig.slots = [o]) (hready : o.ready = false)
    (hlive : o.live = true) (hx : s.pkt? o.pkt = some x) (hst : x.stage = .ordered) :
    s.slotReady o.id = (({ s with twig.slots := [] } : State).winSub o.win).putPkt o.pkt { x with slot := none, stage := .toAdmit } := by
  have hfind : s.twig.slots.find? (fun y => y.id == o.id && !y.ready) = some o := by rw [hslots]; simp [hready]
  unfold State.slotReady
  rw [hfind, hslots]; dsimp only [List.map]
  rw [if_pos rfl]
  by_cases hhold : s.rd TWG_CFG_HOLD = 0
  · refine (if_pos hhold).trans ?_
    simp only [List.any_cons, List.any_nil, List.filter, Bool.not_true, Bool.and_false, Bool.or_false, Bool.false_and, bne_self_eq_false,
      Bool.false_eq_true, if_false]
    exact State.slotGo_ordered hlive hx hst
  · refine (if_neg hhold).trans ?_
    generalize hm : ({ s with twig.slots := [{ o with ready := true, readyAt := s.time.mono }] } : State) = m
    have hgo : m.slotGo { o with ready := true, readyAt := s.time.mono } =
        (m.winSub o.win).putPkt o.pkt { x with slot := none, stage := .toAdmit } :=
      State.slotGo_ordered (s := m) (o := { o with ready := true, readyAt := s.time.mono }) hlive (by rw [← hm]; exact hx) hst
    unfold State.slotChain
    rw [if_pos rfl, if_pos rfl, hgo, ← hm]
    rfl

/-- A slot behind another of its port is marked ready and stays. -/
theorem State.slotReady_second {s : State} {o q : OrdSlot} (hslots : s.twig.slots = [q, o]) (hready : o.ready = false)
    (hid : q.id ≠ o.id) (hport : q.port = o.port) (hq : q.ready = false) (hhold : s.rd TWG_CFG_HOLD ≠ 0) :
    s.slotReady o.id = { s with twig.slots := [q, { o with ready := true, readyAt := s.time.mono }] } := by
  have hfind : s.twig.slots.find? (fun y => y.id == o.id && !y.ready) = some o := by rw [hslots]; simp [hready, hid]
  unfold State.slotReady
  rw [hfind, hslots]; dsimp only [List.map]
  rw [if_neg hid, if_pos rfl]
  refine (if_neg hhold).trans ?_
  unfold State.slotChain
  rw [if_pos hport, hq, if_neg Bool.false_ne_true]
  rfl

theorem State.ordHoldExpire_due {s : State} {pk : Nat} {o : OrdSlot}
    (ho : s.twig.slots.find? (fun x => x.pkt == pk && x.ready) = some o)
    (hdue : o.readyAt + 8 * s.rd TWG_CFG_HOLD ≤ s.time.mono) :
    s.ordHoldExpire pk = ((({ s with twig.slots := s.twig.slots.filter (fun x => x.id != o.id) } : State).cnt
      TWG_ORD_SKIP_CNT).raise TWG_INT_ORD_SKIP).slotGo o := by
  unfold State.ordHoldExpire
  rw [ho]; dsimp only
  rw [State.waitMono_due _ _ hdue]

/-- Settles O39: dispatch, the cold read, the start, the completion and the time-out of an item, and the release of ordered slots, each
by the lemma of its row. -/
theorem twigItemsAndOrder : Obligations.TwigItemsAndOrder := by
  unfold Obligations.TwigItemsAndOrder
  refine ⟨fun s b t i it h hitem hent halive => ⟨fun hfull => ?_, fun hroom => ?_⟩, fun s k h => exec_coldReadTokenRefill h,
    fun s b t i it h hitem hent hcold hph halive htok hfirst => ?_, fun s k e i it h hreq hfree hfirst => ?_,
    fun s b t i it h hitem halive => ⟨fun hph => ?_, fun hph => ?_, fun hph => ?_⟩,
    fun s b t i it h hitem hended hfailed hdue => ?_, fun s b t x o h hx hst hslot hpkt hlive hready => ⟨fun hslots => ?_, ?_⟩,
    fun s b t o h ho hdue => ?_⟩
  · rw [exec_twigDispatch b t h, State.twigDispatch_full hitem hent halive hfull]
  · obtain ⟨htwig, hframe, hkept⟩ := State.dispShow_frame (s := s) (w := { s.pruneCommits.twig with
      items := (s.twig.items.erase i).insert s.twig.nextItem (s.pruneCommits.placed it), nextItem := s.twig.nextItem + 1 })
      (State.twigDispatch_room hitem hent halive hroom)
    refine ⟨_, s.pruneCommits.placed it, exec_twigDispatch b t h, ?_, by rw [htwig], rfl, rfl, rfl, rfl, rfl, rfl, hframe, hkept⟩
    rw [htwig]
    exact (Tab.find_insert _ _ _ _).trans (if_pos rfl)
  · have hcoldRead := (exec_twigColdRead b t h).trans (congrArg Host.Outcome.next
      (State.twigColdRead_due hitem hent hcold hph halive htok hfirst))
    intro r y
    refine ⟨fun hhas => ?_, fun hhas hpois => ?_, fun hhas hclean => ?_⟩
    · rw [hcoldRead, hhas]; rfl
    · rw [hcoldRead, hhas]
      exact congrArg Host.Outcome.next (if_pos hpois)
    · rw [hcoldRead, hhas]
      exact congrArg Host.Outcome.next (if_neg (Bool.eq_false_iff.1 hclean))
  · have hstart := (exec_twigItemStart e h).trans (congrArg Host.Outcome.next (State.twigItemStart_first hreq hfree hfirst))
    have htime := s.rtRead_time k.val (s.rd TWG_EPOCH_CUR % 2) it.rt
    intro ent r lacks
    refine ⟨fun x hx hue => ?_, fun hue hlacks => ?_, fun hue hlacks => ?_, fun hdiff => State.rtRead_clean hdiff _ _ _⟩
    · exact hstart.trans (congrArg _ (State.startItem_memUe hx hue))
    · exact hstart.trans (congrArg _ (State.startItem_lacks hue hlacks))
    · obtain ⟨y, hy, hat, hshown⟩ := State.startItem_shows (k := k.val) (i := i) (ep := s.rd TWG_EPOCH_CUR) hue hlacks
      exact ⟨_, y, hstart, hy, hat.trans (congrArg TimeSt.mono htime), hshown⟩
  · rw [exec_twigItemComplete b t h, State.twigItemComplete_ended hitem halive hph]
  · rw [exec_twigItemComplete b t h, State.twigItemComplete_failed hitem halive hph]
  · have hneither : it.ph ≠ .ended ∧ it.ph ≠ .failed := by obtain hph | hph | hph := hph <;> rw [hph] <;> decide
    rw [exec_twigItemComplete b t h, State.twigItemComplete_unfinished hitem hneither]
  · exact (exec_twigItemTimeout b t h).trans (congrArg _ (State.twigItemTimeout_due hitem ⟨hended, hfailed⟩ hdue))
  · have hgone := (State.ordSlotReady_some hx hst hslot).trans (State.slotReady_only hslots hready hlive (hpkt ▸ hx) hst)
    refine ⟨_, (exec_ordSlotReady b t h).trans (congrArg _ hgone), rfl, ?_, rfl, ?_⟩
    · rw [hpkt]; exact State.pkt?_putPkt_same _ _ _
    · exact regsKept_of_regs rfl (onlyRegs_wr _ (f := TWG_CLU_STS_WIN_USE o.win) _ (List.mem_singleton_self _)).2
  · intro q hslots hid hport hq hhold
    rw [exec_ordSlotReady b t h, State.ordSlotReady_some hx hst hslot, State.slotReady_second hslots hready hid hport hq hhold]
  · exact (exec_ordHoldExpire b t h).trans (congrArg _ (State.ordHoldExpire_due ho hdue))

end Sys2Proof.Machine
end

section
/-!
SUPPORT. The Root store controllers as parts of the state (chapter 09): what replacing one reads as and leaves alone.
-/
namespace Sys2Proof.Machine

/-! ### The controllers as parts of the state -/

@[simp] theorem State.rts_putRts_same (s : State) (c : Nat) (x : RtsSt) : (s.putRts c x).rts c = x := by
  unfold State.putRts State.rts; split <;> rfl

theorem State.rts_putRts_other (s : State) {c : Nat} (x : RtsSt) (h : c < 2) : (s.putRts c x).rts (1 - c) = s.rts (1 - c) := by
  obtain rfl | rfl : c = 0 ∨ c = 1 := by omega
  · rfl
  · rfl

theorem State.rts_congr {s t : State} (h0 : t.rts0 = s.rts0) (h1 : t.rts1 = s.rts1) (c : Nat) : t.rts c = s.rts c := by
  unfold State.rts; rw [h0, h1]

@[simp] theorem State.rts_cnt (s : State) (a n c : Nat) : (s.cnt a n).rts c = s.rts c := rfl
@[simp] theorem State.rts_wr (s : State) (f : RFld) (v c : Nat) : (s.wr f v).rts c = s.rts c := rfl
@[simp] theorem State.rts_pmuEv (s : State) (k u n c : Nat) : (s.pmuEv k u n).rts c = s.rts c := rfl

/-- Replacing a controller touches the controllers alone. -/
theorem State.putRts_only (s : State) (c : Nat) (x : RtsSt) :
    s.putRts c x = { s with rts0 := (s.putRts c x).rts0, rts1 := (s.putRts c x).rts1 } := by
  unfold State.putRts; split <;> rfl

@[simp] theorem State.putRts_regs (s : State) (c : Nat) (x : RtsSt) : (s.putRts c x).regs = s.regs := by
  rw [State.putRts_only]

@[simp] theorem State.rd_putRts (s : State) (c : Nat) (x : RtsSt) (f : RFld) : (s.putRts c x).rd f = s.rd f :=
  State.rd_congr (s.putRts_regs c x) f

end Sys2Proof.Machine
end

section
/-!
SUPPORT. A changed mapping (R254 to R256): the bits of a renamed address, the keys of protected words, and what the bytes and the
errors of a stack read as under their new names.
-/
namespace Sys2Proof.Machine

/-! ### The bits of a renamed address (R255) -/

/-- The nominal bit of a spread bit flips exactly where the two masks select row bits of different parity. -/
theorem bit_remap (n old new a i : Nat) : bit (remap n old new a) i =
    (bit a i ^^ (decide (n = i) && (parity 14 (getBits a 20 14 &&& old) ^^ parity 14 (getBits a 20 14 &&& new)))) := by
  unfold remap bit
  split
  · rename_i h; rw [h]; simp
  · rename_i h
    rw [Nat.testBit_xor, Nat.testBit_two_pow, Bool.eq_not_of_ne h]; simp

theorem getBits_remap {n l : Nat} (h : n < l) (old new a w : Nat) : getBits (remap n old new a) l w = getBits a l w := by
  apply Nat.eq_of_testBit_eq
  intro i
  have hbit := bit_remap n old new a (l + i)
  rw [decide_eq_false (by omega), Bool.false_and, Bool.xor_false] at hbit
  unfold bit at hbit
  simp only [getBits_eq, Nat.testBit_mod_two_pow, Nat.testBit_div_two_pow]
  rw [Nat.add_comm i l, hbit]

theorem remap_mod {n m : Nat} (h : m ≤ n) (old new a : Nat) : remap n old new a % 2 ^ m = a % 2 ^ m := by
  apply Nat.eq_of_testBit_eq
  intro i
  simp only [Nat.testBit_mod_two_pow]
  by_cases hi : i < m
  · have hbit := bit_remap n old new a i
    rw [decide_eq_false (by omega), Bool.false_and, Bool.xor_false] at hbit
    unfold bit at hbit
    rw [hbit]
  · simp [hi]

theorem remap_lt {n m a : Nat} (hn : n < m) (ha : a < 2 ^ m) (old new : Nat) : remap n old new a < 2 ^ m := by
  unfold remap
  split
  · exact ha
  · exact Nat.xor_lt_two_pow ha (Nat.pow_lt_pow_right (by omega) hn)

/-- Renaming twice gives the address back: the row bits that decide it stay. -/
theorem remap_remap {n : Nat} (h : n < 20) (old new a : Nat) : remap n old new (remap n old new a) = a := by
  have hrow := getBits_remap h old new a 14
  apply Nat.eq_of_testBit_eq
  intro i
  have hbit := bit_remap n old new (remap n old new a) i
  rw [hrow, bit_remap n old new a i, Bool.xor_assoc, Bool.xor_self, Bool.xor_false] at hbit
  exact hbit

theorem remap_injective {n : Nat} (h : n < 20) (old new : Nat) {a b : Nat} (hab : remap n old new a = remap n old new b) :
    a = b := by
  rw [← remap_remap h old new a, hab, remap_remap h]

theorem spread_remap_same {n : Nat} (h : n < 20) (old new a : Nat) : spread (remap n old new a) n new = spread a n old := by
  unfold spread
  rw [bit_remap, getBits_remap h, decide_eq_true rfl, Bool.true_and, Bool.xor_assoc, Bool.xor_assoc, Bool.xor_self,
    Bool.xor_false]

theorem spread_remap_other {n j : Nat} (h : n < 20) (hj : n ≠ j) (old new a mask : Nat) :
    spread (remap n old new a) j mask = spread a j mask := by
  unfold spread
  rw [bit_remap, getBits_remap h, decide_eq_false hj, Bool.false_and, Bool.xor_false]

/-! ### The keys of protected words (R255, R340) -/

/-- A word of a stack keeps its stack's number and goes with its bytes. -/
theorem remapKey_stack {c x : Nat} (hc : c = 1 ∨ c = 2) (hx : x < 2 ^ 40) (n old new : Nat) :
    remapKey n old new (c * 2 ^ 40 + x) = c * 2 ^ 40 + remap n old new (8 * x) / 8 := by
  unfold remapKey
  rw [show (c * 2 ^ 40 + x) / 2 ^ 40 = c by omega, show (c * 2 ^ 40 + x) % 2 ^ 40 = x by omega, if_pos hc]

/-- A word keeps its alignment: no bit below the nominal one changes. -/
theorem eight_mul_remap {n : Nat} (h : 3 ≤ n) (old new x : Nat) : 8 * (remap n old new (8 * x) / 8) = remap n old new (8 * x) := by
  have hlow := remap_mod h old new (8 * x)
  omega

theorem remapKey_remapKey {n : Nat} (hlo : 3 ≤ n) (hhi : n < 20) (old new k : Nat) :
    remapKey n old new (remapKey n old new k) = k := by
  by_cases hk : k / 2 ^ 40 = 1 ∨ k / 2 ^ 40 = 2
  · obtain ⟨c, x, hc, hx, rfl⟩ : ∃ c x, (c = 1 ∨ c = 2) ∧ x < 2 ^ 40 ∧ k = c * 2 ^ 40 + x :=
      ⟨k / 2 ^ 40, k % 2 ^ 40, hk, by omega, by omega⟩
    have hword : remap n old new (8 * x) < 2 ^ 43 := remap_lt (by omega) (by omega) old new
    rw [remapKey_stack hc hx, remapKey_stack hc (by omega), eight_mul_remap hlo, remap_remap hhi, Nat.mul_div_cancel_left _ (by omega)]
  · have hkept : remapKey n old new k = k := if_neg hk
    rw [hkept, hkept]

theorem remapKey_injective {n : Nat} (hlo : 3 ≤ n) (hhi : n < 20) (old new : Nat) {k l : Nat}
    (h : remapKey n old new k = remapKey n old new l) : k = l := by
  rw [← remapKey_remapKey hlo hhi old new k, h, remapKey_remapKey hlo hhi]

/-! ### A store under new keys -/

/-- A sorted store's entries set under other keys: what stood at a key stands at the key that it alone goes to. -/
theorem Tab.get_foldl_set {α : Type} [DecidableEq α] (d : α) (l t : Tab α) (f : Nat → Nat) {lo : Option Nat} {k : Nat}
    (hl : Tab.sortedFrom lo l = true) (hf : ∀ e ∈ l, f e.1 = f k → e.1 = k) :
    Tab.get d (l.foldl (fun u e => Tab.set d u (f e.1) e.2) t) (f k) = (l.find? k).getD (t.get d (f k)) := by
  induction l generalizing t lo with
  | nil => rfl
  | cons e l ih =>
    obtain ⟨j, v⟩ := e
    simp only [Tab.sortedFrom, Bool.and_eq_true] at hl
    rw [List.foldl_cons, ih _ hl.2 fun x hx => hf x (List.mem_cons_of_mem _ hx), Tab.get_set]
    by_cases hj : j = k
    · subst hj
      rw [Tab.find_of_sortedFrom hl.2 le_rfl, if_pos rfl]
      simp [Tab.find?]
    · rw [if_neg fun h => hj (hf (j, v) List.mem_cons_self h)]
      simp [Tab.find?, hj]

/-- A canonical store renamed by a map that no two keys share reads as before, under the new keys. -/
theorem Tab.get_renamed {α : Type} [DecidableEq α] {d : α} {l : Tab α} {f : Nat → Nat} (hl : Tab.wf (fun _ => d) l = true)
    {k : Nat} (hf : ∀ j, f j = f k → j = k) :
    Tab.get d (l.foldl (fun u e => Tab.set d u (f e.1) e.2) []) (f k) = l.get d k := by
  simp only [Tab.wf, Bool.and_eq_true] at hl
  exact Tab.get_foldl_set d l [] f hl.1 fun e _ => hf e.1

/-! ### RTS_MAP_WRITE (R254 to R256) -/

theorem exec_rtsMapWrite {s : State} {i : Fin 10} (v : Word) (h : s.reaches (mapFld i.val).addr = true) :
    exec (.rtsMapWrite i v) s = .next (s.rtsMapWrite i.val v.toNat) := onBar0_up (f := (·.rtsMapWrite i.val v.toNat)) h

/-- The mapping registers stand one after another, each with its mask from bit 0. -/
theorem mapFld_at : ∀ i : Fin 10, mapFld i.val = ⟨0x5000010 + 4 * i.val, 0, 14⟩ := by decide

/-- The state under a new mask: what a stack keeps has the new names. -/
def State.remapped (s : State) (i new : Nat) : State :=
  let mk := remapKey (mapBit i) (s.rd (mapFld i)) new
  { s.wr (mapFld i) new with
    rs := s.rs.foldl (fun (t : Tab Byte) e => t.set 0 (remap (mapBit i) (s.rd (mapFld i)) new e.1) e.2) []
    ecc := { s.ecc with
      diff := s.ecc.diff.foldl (fun (t : Tab Nat) e => t.set 0 (mk e.1) e.2) []
      symErr := s.ecc.symErr.foldl (fun (t : Tab Nat) e => t.set 0 (16 * mk (e.1 / 16) + e.1 % 16) e.2) []
      poison := s.ecc.poison.map mk } }

theorem State.rtsMapWrite_on {s : State} (i v : Nat) (h : s.on RTS_CFG_EN = true) :
    s.rtsMapWrite i v = s.wr RTS_STS_MAP_REJ_STK 1 := if_pos h

theorem State.rtsMapWrite_off {s : State} (i v : Nat) (h : s.on RTS_CFG_EN = false) :
    s.rtsMapWrite i v = s.remapped i (v % 2 ^ 14) := if_neg (by rw [h]; decide)

theorem State.rd_remapped_same (s : State) (i : Fin 10) {new : Nat} (h : new < 2 ^ 14) :
    (s.remapped i.val new).rd (mapFld i.val) = new := by
  refine (State.rd_wr_same s (mapFld i.val) new ?_).trans ?_
  · rw [mapFld_at]; exact Nat.le_of_ble_eq_true rfl
  · rw [mapFld_at]; exact Nat.mod_eq_of_lt h

theorem State.rd_remapped_other (s : State) {i j : Fin 10} (new : Nat) (h : i ≠ j) :
    (s.remapped i.val new).rd (mapFld j.val) = s.rd (mapFld j.val) := by
  refine State.rd_wr_addr s new ?_
  rw [mapFld_at, mapFld_at]
  dsimp only
  have := Fin.val_ne_of_ne h
  omega

/-- Every spread bit of a byte under its new name and the new mask is the one it had. -/
theorem State.spread_remapped (s : State) (i j : Fin 10) {new : Nat} (h : new < 2 ^ 14) (a : Nat) :
    spread (remap (mapBit i.val) (s.rd (mapFld i.val)) new a) (mapBit j.val) ((s.remapped i.val new).rd (mapFld j.val)) =
      spread a (mapBit j.val) (s.rd (mapFld j.val)) := by
  have hi : mapBit i.val < 20 := by unfold mapBit; omega
  by_cases hij : i = j
  · subst hij
    rw [s.rd_remapped_same i h, spread_remap_same hi]
  · have hbits : mapBit i.val ≠ mapBit j.val := fun e => hij (Fin.ext (Nat.add_left_cancel e))
    rw [s.rd_remapped_other new hij, spread_remap_other hi hbits]

/-- Stack, pseudo-channel and bank are spread bits of the mapping registers 0, 1 to 5 and 6 to 9. -/
theorem State.placed_congr {s t : State} {a b : Nat}
    (h : ∀ j : Fin 10, spread b (mapBit j.val) (t.rd (mapFld j.val)) = spread a (mapBit j.val) (s.rd (mapFld j.val))) :
    t.stkOf b = s.stkOf a ∧ t.pcOf b = s.pcOf a ∧ t.baOf b = s.baOf a := by
  refine ⟨congrArg b2n (h 0), ?_, ?_⟩
  · have hbit : ∀ x, ∀ n ∈ List.range 5, x + b2n (spread b (11 + n) (t.rd (RTS_MAP_PC_XMASK n))) * 2 ^ n =
        x + b2n (spread a (11 + n) (s.rd (RTS_MAP_PC_XMASK n))) * 2 ^ n := by
      intro x n hn
      have h5 := List.mem_range.1 hn
      have hj := h ⟨n + 1, by omega⟩
      rw [show mapBit (n + 1) = 11 + n by unfold mapBit; omega,
        show mapFld (n + 1) = RTS_MAP_PC_XMASK n by unfold mapFld; rw [if_neg (by omega), if_pos (by omega), Nat.add_sub_cancel]] at hj
      rw [hj]
    exact List.foldl_ext _ _ 0 hbit
  · have hbit : ∀ x, ∀ n ∈ List.range 4, x + b2n (spread b (16 + n) (t.rd (RTS_MAP_BA_XMASK n))) * 2 ^ n =
        x + b2n (spread a (16 + n) (s.rd (RTS_MAP_BA_XMASK n))) * 2 ^ n := by
      intro x n hn
      have h4 := List.mem_range.1 hn
      have hj := h ⟨n + 6, by omega⟩
      rw [show mapBit (n + 6) = 16 + n by unfold mapBit; omega,
        show mapFld (n + 6) = RTS_MAP_BA_XMASK n by unfold mapFld; rw [if_neg (by omega), if_neg (by omega), Nat.add_sub_cancel]] at hj
      rw [hj]
    exact List.foldl_ext _ _ 0 hbit

/-- A mapping register written while EN = 0. -/
theorem State.remapped_shows {s : State} (i : Fin 10) {new : Nat} (h : new < 2 ^ 14) (hrs : s.rsWf = true)
    (hdiff : Tab.wf (fun _ => 0) s.ecc.diff = true) :
    let t := s.remapped i.val new
    let m (a : Nat) : Nat := remap (mapBit i.val) (s.rd (mapFld i.val)) new a
    let mk (k : Nat) : Nat := remapKey (mapBit i.val) (s.rd (mapFld i.val)) new k
    (∀ a, t.rs.get 0 (m a) = s.rs.get 0 a ∧ t.stkOf (m a) = s.stkOf a ∧ t.pcOf (m a) = s.pcOf a ∧ t.baOf (m a) = s.baOf a ∧
      getBits (m a) 20 16 = getBits a 20 16 ∧ m a % 2 ^ 10 = a % 2 ^ 10) ∧
    (∀ k, t.ecc.diff.get 0 (mk k) = s.ecc.diff.get 0 k) ∧
    (Tab.wf (fun _ => 0) s.ecc.symErr = true → ∀ k j, j < 16 →
      t.ecc.symErr.get 0 (16 * mk k + j) = s.ecc.symErr.get 0 (16 * k + j)) := by
  intro t m mk
  have hlo : 10 ≤ mapBit i.val := Nat.le_add_right _ _
  have hhi : mapBit i.val < 20 := by unfold mapBit; omega
  have hkey : ∀ k l, mk k = mk l → k = l := fun k l => remapKey_injective (by omega) hhi _ _
  refine ⟨fun a => ?_, fun k => ?_, fun hsym k j hj => ?_⟩
  · obtain ⟨hstk, hpc, hba⟩ := State.placed_congr (s := s) (t := t) (a := a) (b := m a) fun j => s.spread_remapped i j h a
    exact ⟨Tab.get_renamed hrs fun b => remap_injective hhi _ _, hstk, hpc, hba, getBits_remap hhi _ _ _ _, remap_mod hlo _ _ _⟩
  · exact Tab.get_renamed hdiff fun l => hkey l k
  · have hrenamed := Tab.get_renamed hsym (f := fun k => 16 * mk (k / 16) + k % 16) (k := 16 * k + j) fun l hl => by
      rw [show (16 * k + j) / 16 = k by omega] at hl
      have hword := hkey (l / 16) k (by omega)
      omega
    rw [show (16 * k + j) / 16 = k by omega, show (16 * k + j) % 16 = j by omega] at hrenamed
    exact hrenamed

end Sys2Proof.Machine
end

section
/-!
SUPPORT. The start of the stacks, the caps, refresh, temperature and retraining (R251, R261 to R264, R267), row by row.
-/
namespace Sys2Proof.Machine

/-! ### Start (R263) -/

theorem exec_rootStoreEnable {s : State} (v : Word) (h : s.reaches RTS_CFG = true) :
    exec (.rootStoreEnable v) s = .next (s.rtsCfgWrite (v.toNat ||| 1)) := onBar0_up (f := (·.rtsCfgWrite (v.toNat ||| 1))) h

theorem State.rtsCfgWrite_on {s : State} (v : Nat) (h : s.on RTS_CFG_EN = true) : s.rtsCfgWrite v = s := by
  unfold State.rtsCfgWrite; rw [h]; rfl

theorem State.rtsCfgWrite_off {s : State} (v : Nat) (h : s.on RTS_CFG_EN = false) :
    s.rtsCfgWrite (v ||| 1) = ((s.wr RTS_CFG_EN 1).rtsStart 0).rtsStart 1 := by
  unfold State.rtsCfgWrite
  rw [if_neg]
  simp [h, bit]

theorem exec_rootStoreReady {s : State} {c : Fin 2} (h : s.alive (islRts c.val) = true) :
    exec (.rootStoreReady c) s = .next (s.rtsReadyUp c.val) := onIsl_up (f := (·.rtsReadyUp c.val)) h

/-- A stack whose start ends, before READY is shown: zeroed when it kept nothing. -/
def State.stackStarted (s : State) (c : Nat) : State :=
  let w := s.putRts c { s.rts c with starting := false, startAt := s.time.mono, trainAt := [] }
  if bit (s.rd RTS_STS_KEPT) c then w else w.stackZero c

/-- READY shown for a stack, with its cause. -/
def State.readyShown (s : State) (c : Nat) : State :=
  (s.wr RTS_STS_READY (s.rd RTS_STS_READY ||| 2 ^ c)).raise (RTS_INT_READY c)

theorem State.rtsReadyUp_idle {s : State} {c : Nat} (h : (s.rts c).starting = false) : s.rtsReadyUp c = s := by
  unfold State.rtsReadyUp; rw [h]; rfl

theorem State.stackStarted_only (s : State) (c : Nat) :
    s.stackStarted c = { s with rs := (s.stackStarted c).rs, ecc := (s.stackStarted c).ecc, rts0 := (s.stackStarted c).rts0,
                                rts1 := (s.stackStarted c).rts1 } := by
  unfold State.stackStarted State.putRts
  split <;> split <;> rfl

theorem State.stackStarted_regs (s : State) (c : Nat) : (s.stackStarted c).regs = s.regs := by
  rw [State.stackStarted_only]

theorem State.stackZero_rts (s : State) (c k : Nat) : (s.stackZero c).rts k = s.rts k := rfl

theorem State.stackStarted_rts (s : State) {c : Nat} (h : c < 2) :
    (s.stackStarted c).rts c = { s.rts c with starting := false, startAt := s.time.mono, trainAt := [] } ∧
      (s.stackStarted c).rts (1 - c) = s.rts (1 - c) := by
  unfold State.stackStarted
  dsimp only
  split
  · exact ⟨State.rts_putRts_same _ _ _, State.rts_putRts_other _ _ h⟩
  · exact ⟨(State.stackZero_rts _ _ _).trans (State.rts_putRts_same _ _ _),
      (State.stackZero_rts _ _ _).trans (State.rts_putRts_other _ _ h)⟩

theorem State.stackStarted_kept {s : State} {c : Nat} (h : bit (s.rd RTS_STS_KEPT) c = true) :
    (s.stackStarted c).rs = s.rs ∧ (s.stackStarted c).ecc = s.ecc := by
  unfold State.stackStarted State.putRts
  dsimp only
  rw [if_pos h]
  split <;> exact ⟨rfl, rfl⟩

theorem State.stackStarted_zeroed {s : State} {c : Nat} (h : bit (s.rd RTS_STS_KEPT) c = false) :
    (s.stackStarted c).rs = s.rs.filter (fun e => s.stkOf e.1 != c) := by
  unfold State.stackStarted State.putRts
  dsimp only
  rw [if_neg (Bool.eq_false_iff.1 h)]
  split <;> rfl

theorem bit_or_two_pow_self (n c : Nat) : bit (n ||| 2 ^ c) c = true := by
  unfold bit; rw [Nat.testBit_or, Nat.testBit_two_pow_self, Bool.or_true]

theorem bit_or_two_pow_other (n : Nat) {c k : Nat} (h : c ≠ k) : bit (n ||| 2 ^ c) k = bit n k := by
  unfold bit; rw [Nat.testBit_or, Nat.testBit_two_pow_of_ne h, Bool.or_false]

theorem State.readyShown_shows (s : State) {c : Nat} (hc : c < 2) : let t := s.readyShown c
    bit (t.rd RTS_STS_READY) c = true ∧ bit (t.rd RTS_STS_READY) (1 - c) = bit (s.rd RTS_STS_READY) (1 - c) ∧
      t.rd (RTS_INT_READY c) = 1 ∧ onlyRegs [RTS_STS, RTS_INT c] s t := by
  intro t
  have hapart : (RTS_INT_READY c).addr ≠ RTS_STS_READY.addr := by
    simp only [RTS_INT_READY, RTS_INT, RTS_STS_READY, RTS_STS]; omega
  have hrd : t.rd RTS_STS_READY = (s.rd RTS_STS_READY ||| 2 ^ c) % 2 ^ 2 :=
    (State.rd_of_reg (State.reg_raise_other _ hapart)).trans (State.rd_wr_same _ _ _ (by decide))
  have hbit : ∀ k, k < 2 → bit (t.rd RTS_STS_READY) k = bit (s.rd RTS_STS_READY ||| 2 ^ c) k := by
    intro k hk
    rw [hrd]; unfold bit
    rw [Nat.testBit_mod_two_pow, decide_eq_true hk, Bool.true_and]
  refine ⟨(hbit c hc).trans (bit_or_two_pow_self _ c), (hbit (1 - c) (by omega)).trans (bit_or_two_pow_other _ (by omega)),
    State.rd_raise _ _ (Nat.le_of_ble_eq_true rfl) rfl, ?_⟩
  exact (onlyRegs_wr s (f := RTS_STS_READY) _ List.mem_cons_self).trans
    (onlyRegs_raise _ (f := RTS_INT_READY c) (List.mem_cons_of_mem _ List.mem_cons_self))

theorem State.rtsReadyUp_starting {s : State} {c : Nat} (h : (s.rts c).starting = true) :
    let t := (s.stackStarted c).readyShown c
    s.rtsReadyUp c = if t.rtsReady && s.gv.heldEn then t.groveStart else t := by
  intro t
  have hgv : t.gv = s.gv := by
    show ((s.stackStarted c).readyShown c).gv = s.gv
    unfold State.readyShown
    rw [State.raise_gv, State.wr_gv, State.stackStarted_only]
  have hkept : (s.putRts c { s.rts c with starting := false, startAt := s.time.mono, trainAt := [] }).rd RTS_STS_KEPT =
      s.rd RTS_STS_KEPT := State.rd_putRts _ _ _ _
  rw [← hgv]
  unfold State.rtsReadyUp
  dsimp only
  rw [h, if_neg (by decide), hkept]
  rfl

/-! ### Caps (R264, R267, R352) -/

theorem exec_rtsBwCfgWrite {s : State} {n : Fin 6} (v : Word) (h : s.reaches (RTS_BW_CFG (n.val + 1)) = true) :
    exec (.rtsBwCfgWrite n v) s = .next (s.rtsBwWrite (n.val + 1) v.toNat) := onBar0_up (f := (·.rtsBwWrite (n.val + 1) v.toNat)) h

/-- Each cap is one plain field; its reset value is the register's own. -/
theorem fieldsAt_rtsBwCfg : ∀ n : Fin 6, fieldsAt (RTS_BW_CFG (n.val + 1)) =
    [⟨0, 10, .rw, ([32, 16, 20, 8, 16, 4] : List Nat)[n.val]!⟩] := by decide

theorem State.rd_hostWrite_cap (s : State) (n : Fin 6) (v : Nat) :
    (s.hostWrite (RTS_BW_CFG (n.val + 1)) v).rd (RTS_BW_CFG_CAP (n.val + 1)) = v % 2 ^ 10 := by
  have hfields : fieldsAt (RTS_BW_CFG_CAP (n.val + 1)).addr = _ := fieldsAt_rtsBwCfg n
  have hrd := s.rd_hostWrite_rw (RTS_BW_CFG_CAP (n.val + 1)) v (hfields ▸ List.pairwise_singleton _ _)
    (hfields ▸ List.mem_singleton_self _) rfl rfl rfl (Nat.le_of_ble_eq_true rfl)
  exact hrd.trans (getBits_eq v 0 10 ▸ by simp)

/-- Whether a target's pass runs at the cap instead of its PERIOD. -/
def State.passBehind (s : State) (k : Nat) : Bool :=
  bit (s.rd ECC_CFG_SCRUB_EN) k && decide (1000 * max 1 (s.rd (ECC_SCRUB_CFG_PERIOD k)) < s.scrubMilli k)

/-- A pass of a scrub target reports that it runs behind, once. -/
def State.behindReported (s : State) (k : Nat) (b : Bool) : State :=
  if b && !s.ecc.behind.get false k then
    ({ s with ecc := { s.ecc with behind := s.ecc.behind.set false k true } } : State).raise ECC_INT_SCRUB_BEHIND
  else s

theorem State.scrubBehind_eq (s : State) (k : Nat) :
    s.scrubBehind k = (s.wrB (ECC_SCRUB_STS_BEHIND k) (s.passBehind k)).behindReported k (s.passBehind k) := rfl

theorem State.behindReported_frame (s : State) (k : Nat) (b : Bool) : let t := s.behindReported k b
    t = { s with regs := t.regs, msi := t.msi, ecc := { s.ecc with behind := t.ecc.behind } } ∧ regsKept [ECC_INT] s t := by
  unfold State.behindReported
  split
  · have honly := onlyRegs_raise (l := [ECC_INT]) ({ s with ecc := { s.ecc with behind := s.ecc.behind.set false k true } } : State)
      (f := ECC_INT_SCRUB_BEHIND) (List.mem_singleton_self _)
    obtain ⟨hframe, hkept⟩ := honly
    refine ⟨?_, hkept⟩
    rw [State.raise_ecc]
    exact hframe
  · exact ⟨rfl, fun _ _ => rfl⟩

theorem State.scrubMilli_congr {s t : State} {k : Nat} (hp : t.rd (ECC_SCRUB_CFG_PERIOD k) = s.rd (ECC_SCRUB_CFG_PERIOD k))
    (hc : t.rd (RTS_BW_CFG_CAP 6) = s.rd (RTS_BW_CFG_CAP 6)) : t.scrubMilli k = s.scrubMilli k := by
  unfold State.scrubMilli; rw [hp, hc]

/-- The state once a cap has been written and the Root store scrub's pass has been judged by it. -/
def State.capJudged (s : State) (n v : Nat) : State := (s.hostWrite (RTS_BW_CFG n) v).scrubBehind 1

def State.capSum (s : State) : Nat := (List.range 6).foldl (fun x i => x + s.rd (RTS_BW_CFG_CAP (i + 1))) 0

theorem State.capSum_eq (s : State) : s.capSum = s.rd (RTS_BW_CFG_CAP 1) + s.rd (RTS_BW_CFG_CAP 2) + s.rd (RTS_BW_CFG_CAP 3) +
    s.rd (RTS_BW_CFG_CAP 4) + s.rd (RTS_BW_CFG_CAP 5) + s.rd (RTS_BW_CFG_CAP 6) := by
  simp [State.capSum, List.range_succ]

theorem State.rtsBwWrite_eq (s : State) (n v : Nat) : s.rtsBwWrite n v =
    (s.capJudged n v).wrB RTS_STS_BW_OVER (decide (209 < (s.capJudged n v).capSum)) := rfl

theorem State.rd_wrB_same (s : State) {f : RFld} (b : Bool) (h : f.lsb + f.w ≤ 32) (hw : f.w = 1) : (s.wrB f b).rd f = b2n b := by
  refine (State.rd_wr_same s f _ h).trans ?_
  rw [hw]; cases b <;> rfl

theorem State.on_wrB_same (s : State) {f : RFld} (b : Bool) (h : f.lsb + f.w ≤ 32) (hw : f.w = 1) : (s.wrB f b).on f = b := by
  unfold State.on
  rw [s.rd_wrB_same b h hw]; cases b <;> rfl

/-- The Root store scrub (target 1) shows whether it runs behind. -/
theorem State.scrubBehind_shows (s : State) : let t := s.scrubBehind 1
    t.rd (ECC_SCRUB_STS_BEHIND 1) = b2n (s.passBehind 1) ∧
      t = { s with regs := t.regs, msi := t.msi, ecc := { s.ecc with behind := t.ecc.behind } } ∧
      regsKept [ECC_SCRUB_STS 1, ECC_INT] s t := by
  intro t
  have hshown := s.rd_wrB_same (f := ECC_SCRUB_STS_BEHIND 1) (s.passBehind 1) (by decide) rfl
  obtain ⟨hframe, hkept⟩ := (s.wrB (ECC_SCRUB_STS_BEHIND 1) (s.passBehind 1)).behindReported_frame 1 (s.passBehind 1)
  obtain ⟨-, hwk⟩ := onlyRegs_wr (l := [ECC_SCRUB_STS 1]) s (f := ECC_SCRUB_STS_BEHIND 1) (b2n (s.passBehind 1))
    (List.mem_singleton_self _)
  exact ⟨(hkept.rd (by decide)).trans hshown, hframe, hwk.trans hkept (by simp) (by simp)⟩

theorem State.wr_only_behind {s u : State} (h : u = { s with regs := u.regs, msi := u.msi, ecc := { s.ecc with behind := u.ecc.behind } })
    (f : RFld) (v : Nat) : let t := u.wr f v
    t = { s with regs := t.regs, msi := t.msi, ecc := { s.ecc with behind := t.ecc.behind } } := by
  generalize u.regs = r at h
  generalize u.msi = m at h
  generalize u.ecc.behind = b at h
  subst h
  rfl

theorem State.rtsBwWrite_shows (s : State) (n : Fin 6) (v : Nat) : let t := s.rtsBwWrite (n.val + 1) v
    t.rd (RTS_BW_CFG_CAP (n.val + 1)) = v % 2 ^ 10 ∧
    (t.on RTS_STS_BW_OVER = true ↔ 209 < t.capSum) ∧
    t.rd (ECC_SCRUB_STS_BEHIND 1) =
      b2n (bit (s.rd ECC_CFG_SCRUB_EN) 1 && decide (1000 * max 1 (s.rd (ECC_SCRUB_CFG_PERIOD 1)) < t.scrubMilli 1)) ∧
    t = { s with regs := t.regs, msi := t.msi, ecc := { s.ecc with behind := t.ecc.behind } } ∧
    regsKept [RTS_BW_CFG (n.val + 1), RTS_STS, ECC_SCRUB_STS 1, ECC_INT] s t := by
  intro t
  have hcap := s.rd_hostWrite_cap n v
  obtain ⟨-, hwk⟩ := State.hostWrite_only s (RTS_BW_CFG (n.val + 1)) v
  obtain ⟨hbehind, hframe, hjk⟩ := (s.hostWrite (RTS_BW_CFG (n.val + 1)) v).scrubBehind_shows
  obtain ⟨-, htk⟩ := onlyRegs_wr (l := [RTS_STS]) (s.capJudged (n.val + 1) v) (f := RTS_STS_BW_OVER)
    (b2n (decide (209 < (s.capJudged (n.val + 1) v).capSum))) (List.mem_singleton_self _)
  have hjt : regsKept [RTS_STS, ECC_SCRUB_STS 1, ECC_INT] (s.hostWrite (RTS_BW_CFG (n.val + 1)) v) t :=
    hjk.trans htk (by simp) (by simp)
  have hcaps : ∀ k : Nat, k < 7 → RTS_BW_CFG k ∉ [RTS_STS, ECC_SCRUB_STS 1, ECC_INT] := by decide
  have hsum : t.capSum = (s.capJudged (n.val + 1) v).capSum := by
    have hrd : ∀ k, k < 7 → t.rd (RTS_BW_CFG_CAP k) = (s.capJudged (n.val + 1) v).rd (RTS_BW_CFG_CAP k) := fun k hk =>
      htk.rd fun h => hcaps k hk (List.mem_cons.2 (.inl (List.mem_singleton.1 h)))
    rw [State.capSum_eq, State.capSum_eq, hrd 1 (by decide), hrd 2 (by decide), hrd 3 (by decide), hrd 4 (by decide),
      hrd 5 (by decide), hrd 6 (by decide)]
  have hmilli : t.scrubMilli 1 = (s.hostWrite (RTS_BW_CFG (n.val + 1)) v).scrubMilli 1 :=
    State.scrubMilli_congr (hjt.rd (by decide)) (hjt.rd (by decide))
  have hbelow := hcaps (n.val + 1) (by omega)
  have hapart : ∀ f : RFld, 0x8000000 ≤ f.addr → (s.hostWrite (RTS_BW_CFG (n.val + 1)) v).rd f = s.rd f := fun f hf =>
    hwk.rd fun h => by
      have haddr := List.mem_singleton.1 h
      unfold RTS_BW_CFG at haddr
      omega
  refine ⟨(hjt.rd hbelow).trans hcap, ?_, ?_, State.wr_only_behind hframe _ _, hwk.trans hjt (by simp) (by simp)⟩
  · rw [hsum]
    exact (Bool.eq_iff_iff.1 (State.on_wrB_same _ _ (by decide) rfl)).trans decide_eq_true_iff
  · rw [hmilli, ← hapart ECC_CFG_SCRUB_EN (by decide), ← hapart (ECC_SCRUB_CFG_PERIOD 1) (by decide)]
    exact (htk.rd (by decide)).trans hbehind

/-! ### Refresh and temperature (R251, R261) -/

theorem exec_hbmRefresh {s : State} {c : Fin 2} (k : Fin 1536) (r : Bool) (h : s.alive (islRts c.val) = true) :
    exec (.hbmRefresh c k r) s = .next (s.hbmRefresh c.val k.val r) := onIsl_up (f := (·.hbmRefresh c.val k.val r)) h

theorem State.hbmRefresh_unready {s : State} {c : Nat} (k : Nat) (r : Bool) (h : bit (s.rd RTS_STS_READY) c = false) :
    s.hbmRefresh c k r = s := by
  unfold State.hbmRefresh; rw [h]; rfl

theorem State.hbmRefresh_ready {s : State} {c : Nat} (k : Nat) (r : Bool) (h : bit (s.rd RTS_STS_READY) c = true) :
    s.hbmRefresh c k r = (s.bankClose c k).cnt (if r then RTS_RFM_CNT c else RTS_REFRESH_CNT c) := by
  unfold State.hbmRefresh; rw [h]; rfl

/-- A controller replaced and something counted. -/
theorem State.putRts_cnt_shows (s : State) {c : Nat} (hc : c < 2) (x : RtsSt) (a : Nat) : let t := (s.putRts c x).cnt a
    counted a 1 s t ∧ t.rts c = x ∧ t.rts (1 - c) = s.rts (1 - c) ∧
      t = { s with regs := t.regs, rts0 := t.rts0, rts1 := t.rts1 } ∧ regsKept [a, a + 4] s t := by
  intro t
  have hregs := s.putRts_regs c x
  refine ⟨counted_of_regs hregs (counted_cnt _ a 1), s.rts_putRts_same c x, s.rts_putRts_other x hc, ?_,
    regsKept_of_regs hregs (onlyRegs_cnt (l := [a, a + 4]) _ 1 (by simp) (by simp)).2⟩
  obtain rfl | rfl : c = 0 ∨ c = 1 := by omega
  · rfl
  · rfl

theorem exec_hbmTempRead {s : State} {c : Fin 2} (d : BitVec 8) (h : s.alive (islRts c.val) = true) :
    exec (.hbmTempRead c d) s = .next (s.hbmTemp c.val d.toNat) := onIsl_up (f := (·.hbmTemp c.val d.toNat)) h

/-- A temperature reading shown, and whether it calls for the faster rate. -/
def State.tempShown (s : State) (c d : Nat) : State := (s.wr (RTS_TEMP_TEMP c) d).wrB (RTS_TEMP_FAST_REF c) (decide (85 < d))

theorem State.tempShown_shows (s : State) (c : Nat) {d : Nat} (hd : d < 2 ^ 8) : let t := s.tempShown c d
    t.rd (RTS_TEMP_TEMP c) = d ∧ t.rd (RTS_TEMP_FAST_REF c) = (if 85 < d then 1 else 0) ∧ onlyRegs [RTS_TEMP c] s t := by
  refine ⟨?_, ?_, (onlyRegs_wr s (f := RTS_TEMP_TEMP c) _ (List.mem_singleton_self _)).trans
    (onlyRegs_wr _ (f := RTS_TEMP_FAST_REF c) _ (List.mem_singleton_self _))⟩
  · refine (State.rd_wr_beside _ _ (Nat.le_of_ble_eq_true rfl) (.inr (Nat.le_of_ble_eq_true rfl))).trans ?_
    exact (State.rd_wr_same s _ d (Nat.le_of_ble_eq_true rfl)).trans (Nat.mod_eq_of_lt hd)
  · refine (State.rd_wrB_same _ _ (Nat.le_of_ble_eq_true rfl) rfl).trans ?_
    unfold b2n
    simp only [decide_eq_true_eq]

theorem State.hbmTemp_eq (s : State) (c d : Nat) : s.hbmTemp c d =
    if (s.tempShown c d).rd RTS_TEMP_CFG_HIGH ≤ d then (s.tempShown c d).raise (RTS_INT_TEMP_HIGH c) else s.tempShown c d := rfl

theorem State.hbmTemp_shows (s : State) (c : Fin 2) {d : Nat} (hd : d < 2 ^ 8) : let t := s.hbmTemp c.val d
    t.rd (RTS_TEMP_TEMP c.val) = d ∧ t.rd (RTS_TEMP_FAST_REF c.val) = (if 85 < d then 1 else 0) ∧
      (s.rd RTS_TEMP_CFG_HIGH ≤ d → t.rd (RTS_INT_TEMP_HIGH c.val) = 1) ∧
      (d < s.rd RTS_TEMP_CFG_HIGH → t.reg (RTS_INT c.val) = s.reg (RTS_INT c.val)) ∧
      onlyRegs [RTS_TEMP c.val, RTS_INT c.val] s t := by
  obtain ⟨htemp, hfast, honly⟩ := s.tempShown_shows c.val hd
  have hhigh : ∀ c : Fin 2, RTS_TEMP_CFG ≠ RTS_TEMP c.val ∧ RTS_INT c.val ≠ RTS_TEMP c.val := by decide
  have hcfg : (s.tempShown c.val d).rd RTS_TEMP_CFG_HIGH = s.rd RTS_TEMP_CFG_HIGH :=
    honly.2.rd fun h => (hhigh c).1 (List.mem_singleton.1 h)
  intro t
  have ht : t = _ := s.hbmTemp_eq c.val d
  rw [hcfg] at ht
  by_cases hle : s.rd RTS_TEMP_CFG_HIGH ≤ d
  · rw [if_pos hle] at ht
    rw [ht]
    exact ⟨(State.rd_of_reg (State.reg_raise_other _ (hhigh c).2)).trans htemp,
      (State.rd_of_reg (State.reg_raise_other _ (hhigh c).2)).trans hfast, fun _ => State.rd_raise _ _ (Nat.le_of_ble_eq_true rfl) rfl,
      fun h => absurd hle (Nat.not_le.2 h), (honly.mono (by simp)).trans (onlyRegs_raise _ (by simp [RTS_INT_TEMP_HIGH]))⟩
  · rw [if_neg hle] at ht
    rw [ht]
    exact ⟨htemp, hfast, fun h => absurd h hle, fun _ => honly.2 _ fun h => (hhigh c).2 (List.mem_singleton.1 h), honly.mono (by simp)⟩

/-! ### Retraining (R262) -/

theorem exec_retrain {s : State} {c : Fin 2} (p : Fin 32) (ok : Bool) (h : s.alive (islRts c.val) = true) :
    exec (.retrain c p ok) s = .next (s.retrain c.val p.val ok) := onIsl_up (f := (·.retrain c.val p.val ok)) h

theorem State.retrain_unready {s : State} {c : Nat} (p : Nat) (ok : Bool) (h : bit (s.rd RTS_STS_READY) c = false) :
    s.retrain c p ok = s := by
  unfold State.retrain; rw [h]; rfl

/-- A pseudo-channel retrained: counted, paused for 250 ns, with `n` failures in a row. -/
def State.retrained (w : State) (c p n : Nat) : State :=
  let x := w.rts c
  (w.cnt (RTS_TRAIN_CNT c)).putRts c { x with
    trainFails := x.trainFails.set 0 p n, trainAt := x.trainAt.set x.startAt p w.time.mono
    pausePc := p, pauseEnd := w.time.mono + 2000 }

/-- The third failure in a row reported. -/
def State.trainFailed (s : State) (c p : Nat) : State :=
  ((s.raise (RTS_INT_TRAIN_FAIL c)).cnt (RTS_TRAIN_FAIL_CNT c)).journal (islRts c) 0x0601 c (natLe 1 p)

theorem State.retrain_ready {s : State} {c : Nat} (p : Nat) (ok : Bool) (h : bit (s.rd RTS_STS_READY) c = true) :
    let w := (s.waitMono (s.trainDue c p)).waitMono (s.rts c).pauseEnd
    let n := if ok then 0 else (w.rts c).trainFails.get 0 p + 1
    s.retrain c p ok = if n = 3 then (w.retrained c p (n % 3)).trainFailed c p else w.retrained c p (n % 3) := by
  unfold State.retrain
  rw [h]
  dsimp only
  rw [if_neg (by decide), State.rts_cnt, State.cnt_time]
  rfl

end Sys2Proof.Machine
end

section
/-!
SUPPORT. Start, mapping and upkeep of the Root store (O49).
-/
namespace Sys2Proof.Machine

theorem State.rtsStart_both (s : State) : let t := (s.rtsStart 0).rtsStart 1
    t.rts0 = { s.rts0 with starting := true, startAt := s.time.mono, selfRef := false } ∧
      t.rts1 = { s.rts1 with starting := true, startAt := s.time.mono, selfRef := false } ∧ t.regs = s.regs ∧
      t = { s with rts0 := t.rts0, rts1 := t.rts1 } := ⟨rfl, rfl, rfl, rfl⟩

/-- A stack's start ends. -/
theorem State.stackReady_shows (s : State) {c : Nat} (hc : c < 2) : let t := (s.stackStarted c).readyShown c
    bit (t.rd RTS_STS_READY) c = true ∧ bit (t.rd RTS_STS_READY) (1 - c) = bit (s.rd RTS_STS_READY) (1 - c) ∧
      t.rd (RTS_INT_READY c) = 1 ∧ t.rts c = { s.rts c with starting := false, startAt := s.time.mono, trainAt := [] } ∧
      t.rts (1 - c) = s.rts (1 - c) ∧ (bit (s.rd RTS_STS_KEPT) c = true → t.rs = s.rs ∧ t.ecc = s.ecc) ∧
      (bit (s.rd RTS_STS_KEPT) c = false → t.rs = s.rs.filter (fun e => s.stkOf e.1 != c)) ∧
      t = { s with regs := t.regs, msi := t.msi, rs := t.rs, ecc := t.ecc, rts0 := t.rts0, rts1 := t.rts1 } ∧
      regsKept [RTS_STS, RTS_INT c] s t := by
  obtain ⟨hready, hother, hint, hframe, hkept⟩ := (s.stackStarted c).readyShown_shows hc
  obtain ⟨hrts, hrts'⟩ := s.stackStarted_rts hc
  have hregs := s.stackStarted_regs c
  have hstarted := s.stackStarted_only c
  have hkeep := State.stackStarted_kept (s := s) (c := c)
  have hzero := State.stackStarted_zeroed (s := s) (c := c)
  generalize s.stackStarted c = u at *
  intro t
  have h0 : t.rts0 = u.rts0 := (congrArg State.rts0 hframe :)
  have h1 : t.rts1 = u.rts1 := (congrArg State.rts1 hframe :)
  have hrs : t.rs = u.rs := (congrArg State.rs hframe :)
  have hecc : t.ecc = u.ecc := (congrArg State.ecc hframe :)
  have hsts : u.rd RTS_STS_READY = s.rd RTS_STS_READY := State.rd_congr hregs _
  refine ⟨hready, hother.trans (by rw [hsts]), hint, (State.rts_congr h0 h1 c).trans hrts, (State.rts_congr h0 h1 _).trans hrts',
    fun h => ⟨hrs.trans (hkeep h).1, hecc.trans (hkeep h).2⟩, fun h => hrs.trans (hzero h), ?_, regsKept_of_regs hregs hkept⟩
  rw [h0, h1, hrs, hecc]
  change t = _ at hframe
  generalize t.regs = r at hframe ⊢
  generalize t.msi = m at hframe ⊢
  rw [hframe]
  generalize u.rs = a at hstarted ⊢
  generalize u.ecc = b at hstarted ⊢
  generalize u.rts0 = x at hstarted ⊢
  generalize u.rts1 = y at hstarted ⊢
  rw [hstarted]

/-- Settles O49: start, mapping, caps, refresh, temperature and retraining, each by the lemma of its row. -/
theorem rootStoreStartMappingAndUpkeep : Obligations.RootStoreStartMappingAndUpkeep := by
  unfold Obligations.RootStoreStartMappingAndUpkeep
  refine ⟨fun s v h => ⟨fun hen => ?_, fun hen => ?_⟩, fun s c h => ⟨fun hst => ?_, fun hst => ?_⟩,
    fun s i v h => ⟨fun hen => ?_, fun hen hrs hdiff => ?_⟩, fun s n v h => ?_,
    fun s c k r h => ⟨fun hready => ?_, fun hready => ?_⟩, fun s c d h => ?_,
    fun s c p ok h => ⟨fun hready => ?_, fun hready => ?_⟩⟩
  · rw [exec_rootStoreEnable v h, State.rtsCfgWrite_on _ hen]
  · obtain ⟨h0, h1, hregs, hframe⟩ := (s.wr RTS_CFG_EN 1).rtsStart_both
    exact ⟨_, (exec_rootStoreEnable v h).trans (congrArg _ (State.rtsCfgWrite_off _ hen)),
      (congrArg (· != 0) (State.rd_congr hregs _)).trans (State.on_wr_one s (by decide) rfl), h0, h1, rfl,
      (onlyRegs_wr s (f := RTS_CFG_EN) 1 (List.mem_singleton_self _)).2⟩
  · rw [exec_rootStoreReady h, State.rtsReadyUp_idle hst]
  · exact ⟨_, (exec_rootStoreReady h).trans (congrArg _ (State.rtsReadyUp_starting hst)), s.stackReady_shows c.isLt⟩
  · exact ⟨_, (exec_rtsMapWrite v h).trans (congrArg _ (State.rtsMapWrite_on _ _ hen)), State.rd_wr_same _ _ _ (by decide),
      onlyRegs_wr s (f := RTS_STS_MAP_REJ_STK) 1 (List.mem_singleton_self _)⟩
  · have hnew : v.toNat % 2 ^ 14 < 2 ^ 14 := Nat.mod_lt _ (by decide)
    obtain ⟨hbytes, hwords, hsyms⟩ := State.remapped_shows i hnew hrs hdiff
    exact ⟨_, (exec_rtsMapWrite v h).trans (congrArg _ (State.rtsMapWrite_off _ _ hen)), s.rd_remapped_same i hnew, hbytes, hwords,
      rfl, hsyms, rfl, (onlyRegs_wr s (f := mapFld i.val) _ (List.mem_singleton_self _)).2⟩
  · obtain ⟨hcap, hover, hbehind, hframe, hkept⟩ := s.rtsBwWrite_shows n v.toNat
    exact ⟨_, exec_rtsBwCfgWrite v h, hcap, hover.trans (by rw [State.capSum_eq]), hbehind, hframe, hkept⟩
  · rw [exec_hbmRefresh k r h, State.hbmRefresh_unready _ _ hready]
  · obtain ⟨hcnt, hrts, hother, hframe, hkept⟩ := s.putRts_cnt_shows c.isLt { s.rts c.val with
      banks := (s.rts c.val).banks.set {} k.val { (s.rts c.val).banks.get {} k.val with isOpen := false } }
      (if r then RTS_RFM_CNT c.val else RTS_REFRESH_CNT c.val)
    refine ⟨_, (exec_hbmRefresh k r h).trans (congrArg _ (State.hbmRefresh_ready _ _ hready)), hcnt, ?_, fun j hj => ?_, ?_, hother,
      hframe, hkept⟩
    · exact (congrArg (fun x : RtsSt => x.banks.get {} k.val) hrts).trans (Tab.get_set_same _ _ _ _)
    · exact (congrArg (fun x : RtsSt => x.banks.get {} j) hrts).trans (Tab.get_set_other _ _ _ hj.symm)
    · exact hrts.trans (congrArg (fun b => { s.rts c.val with banks := b }) (congrArg RtsSt.banks hrts.symm))
  · exact ⟨_, exec_hbmTempRead d h, s.hbmTemp_shows c d.isLt⟩
  · rw [exec_retrain p ok h, State.retrain_unready _ _ hready]
  · have hrow := (exec_retrain p ok h).trans (congrArg Host.Outcome.next (State.retrain_ready p.val ok hready))
    intro w x old next
    refine ⟨fun hok => ?_, fun hok hold => ?_, fun hok hold => ?_⟩
    · subst hok; exact hrow
    · subst hok
      refine hrow.trans (congrArg Host.Outcome.next ((if_neg ?_).trans (congrArg _ (Nat.mod_eq_of_lt ?_))))
      · show old + 1 ≠ 3; omega
      · show old + 1 < 3; omega
    · subst hok
      have hthird : (old + 1) % 3 = 0 := by omega
      refine hrow.trans (congrArg Host.Outcome.next ((if_pos ?_).trans
        (congrArg (fun n => (w.retrained c.val p.val n).trainFailed c.val p.val) hthird)))
      show old + 1 = 3; omega

end Sys2Proof.Machine
end

section
/-!
SUPPORT. What a controller's rows count and leave alone (R253, R258, R264, R268): the counters of its block as one function of the
address, the state beside the controllers, and RTS_REQ_STS.
-/
namespace Sys2Proof.Machine

/-! ### Counters of the controllers' blocks -/

/-- Every counter in a controller's block (from offset 0x100 on, in pairs of registers) stands further by what `f` gives for it. -/
def tallied (f : Nat → Nat) (s t : State) : Prop := ∀ a, a % 8 = 0 → 0x100 ≤ a % 0x10000 → counted a (f a) s t

theorem tallied_zero_of_reg {s t : State} (h : ∀ b, 0x100 ≤ b % 0x10000 → t.reg b = s.reg b) : tallied (fun _ => 0) s t :=
  fun a ha hblock => counted_congr (counted_zero s a) (h a hblock) (h (a + 4) (by omega))

theorem tallied_of_regs {f : Nat → Nat} {s s' t : State} (h : s'.regs = s.regs) (ht : tallied f s' t) : tallied f s t :=
  fun a ha hblock => counted_of_regs h (ht a ha hblock)

theorem tallied.trans {f g : Nat → Nat} {s t u : State} (hst : tallied f s t) (htu : tallied g t u) :
    tallied (fun a => f a + g a) s u := fun a ha hblock => by
  have hs : t.cntAt a = (s.cntAt a + f a) % 2 ^ 48 := hst a ha hblock
  have ht : u.cntAt a = (t.cntAt a + g a) % 2 ^ 48 := htu a ha hblock
  show u.cntAt a = (s.cntAt a + (f a + g a)) % 2 ^ 48
  rw [ht, hs, Nat.mod_add_mod, Nat.add_assoc]

theorem tallied_cnt (s : State) {a : Nat} (n : Nat) (h : a % 8 = 0) : tallied (fun b => if b = a then n else 0) s (s.cnt a n) := by
  intro b hb hblock
  dsimp only
  split
  · rename_i heq; subst heq; exact counted_cnt s b n
  · exact counted_congr (counted_zero s b) (State.reg_cnt_other s n (by omega) (by omega))
      (State.reg_cnt_other s n (by omega) (by omega))

/-- A counter that a condition decides. -/
def State.cntIf (s : State) (b : Bool) (a n : Nat) : State := if b then s.cnt a n else s

theorem tallied_cntIf (s : State) (b : Bool) {a : Nat} (n : Nat) (h : a % 8 = 0) :
    tallied (fun k => if k = a then (if b then n else 0) else 0) s (s.cntIf b a n) := by
  cases b
  · simpa [State.cntIf] using tallied_zero_of_reg (s := s) (t := s) fun _ _ => rfl
  · exact tallied_cnt s n h

theorem State.cntIf_kept (s : State) (b : Bool) (a n : Nat) : regsKept [a, a + 4] s (s.cntIf b a n) := by
  cases b
  · exact fun _ _ => rfl
  · exact (onlyRegs_cnt s n (by simp) (by simp)).2

/-! ### The state beside the controllers -/

/-- Beside the controllers, the setup registers and the events of the current cycle, nothing differs. -/
def onlyRts (s t : State) : Prop :=
  t = { s with regs := t.regs, rts0 := t.rts0, rts1 := t.rts1, obs := { s.obs with pmuNow := t.obs.pmuNow } }

theorem onlyRts_refl (s : State) : onlyRts s s := rfl

theorem onlyRts.trans {s t u : State} (hst : onlyRts s t) (htu : onlyRts t u) : onlyRts s u := by
  unfold onlyRts at *
  generalize u.regs = r at htu ⊢
  generalize u.rts0 = x at htu ⊢
  generalize u.rts1 = y at htu ⊢
  generalize u.obs.pmuNow = p at htu ⊢
  rw [htu, hst]

theorem onlyRts_cnt (s : State) (a n : Nat) : onlyRts s (s.cnt a n) := rfl
theorem onlyRts_wr (s : State) (f : RFld) (v : Nat) : onlyRts s (s.wr f v) := rfl
theorem onlyRts_pmuEv (s : State) (c u n : Nat) : onlyRts s (s.pmuEv c u n) := rfl

theorem onlyRts_cntIf (s : State) (b : Bool) (a n : Nat) : onlyRts s (s.cntIf b a n) := by
  cases b
  · exact onlyRts_refl s
  · exact onlyRts_cnt s a n

theorem onlyRts_putRts (s : State) (c : Nat) (x : RtsSt) : onlyRts s (s.putRts c x) := by
  unfold onlyRts State.putRts; split <;> rfl

theorem onlyRts.rs {s t : State} (h : onlyRts s t) : t.rs = s.rs := (congrArg State.rs h :)
theorem onlyRts.time {s t : State} (h : onlyRts s t) : t.time = s.time := (congrArg State.time h :)

/-! ### The controllers beside counters and events -/

@[simp] theorem State.rts_rtsShow (s : State) (k c : Nat) : (s.rtsShow k).rts c = s.rts c := by
  unfold State.rtsShow
  rw [State.rts_wr, State.rts_wr]

@[simp] theorem State.rts_cntIf (s : State) (b : Bool) (a n c : Nat) : (s.cntIf b a n).rts c = s.rts c := by
  cases b
  · rfl
  · exact s.rts_cnt a n c

/-! ### RTS_REQ_STS (R268) -/

theorem State.rtsShow_kept (s : State) (c : Nat) : regsKept [RTS_REQ_STS c] s (s.rtsShow c) :=
  ((onlyRegs_wr s (f := RTS_REQ_STS_IN_USE c) _ (List.mem_singleton_self _)).trans
    (onlyRegs_wr _ (f := RTS_REQ_STS_HWM c) _ (List.mem_singleton_self _))).2

theorem State.rd_rtsShow_inUse {s : State} {c : Nat} (h : (s.rts c).reqs.length < 2 ^ 13) :
    (s.rtsShow c).rd (RTS_REQ_STS_IN_USE c) = (s.rts c).reqs.length := by
  refine (State.rd_wr_beside _ _ (Nat.le_of_ble_eq_true rfl) (.inr (Nat.le_of_ble_eq_true rfl))).trans ?_
  exact (State.rd_wr_same s (RTS_REQ_STS_IN_USE c) _ (Nat.le_of_ble_eq_true rfl)).trans (Nat.mod_eq_of_lt h)

theorem State.rd_rtsShow_hwm {s : State} {c : Nat} (h : (s.rts c).reqs.length < 2 ^ 13) :
    (s.rtsShow c).rd (RTS_REQ_STS_HWM c) = max (s.rts c).reqs.length (s.rd (RTS_REQ_STS_HWM c)) := by
  have hold : s.rd (RTS_REQ_STS_HWM c) < 2 ^ 13 := getBits_lt _ _ 13
  exact (State.rd_wr_same _ (RTS_REQ_STS_HWM c) _ (Nat.le_of_ble_eq_true rfl)).trans (Nat.mod_eq_of_lt (max_lt h hold))

theorem onlyRts_rtsShow (s : State) (c : Nat) : onlyRts s (s.rtsShow c) := (onlyRts_wr _ _ _).trans (onlyRts_wr _ _ _)

theorem tallied_rtsShow (s : State) (c : Nat) : tallied (fun _ => 0) s (s.rtsShow c) :=
  tallied_zero_of_reg fun b hb => s.rtsShow_kept c b fun h => by
    have haddr := List.mem_singleton.1 h
    unfold RTS_REQ_STS at haddr
    omega

end Sys2Proof.Machine
end

section
/-!
SUPPORT. Requests (R252, R253, R258, R259, R268): the accesses a request is performed as, and an access accepted or held back.
-/
namespace Sys2Proof.Machine

/-! ### The accesses of a request (R253) -/

theorem exec_rtsRequest {s : State} (tag : Nat) (cls : Fin 8) (a : BitVec 36) (n : Fin 257) (d : Option (List Byte))
    (h : s.inReset = false) : exec (.rtsRequest tag cls a n d) s = .next (s.rtsRequest tag cls.val a.toNat n.val d) :=
  whenUp_up (f := (·.rtsRequest tag cls.val a.toNat n.val d)) h

theorem rtsParts_whole {a n : Nat} (hn : n = 64 ∨ n = 128 ∨ n = 256) (ha : a % n = 0) : rtsParts a n = [(a, n)] :=
  if_pos (decide_eq_true ⟨hn, ha⟩)

theorem State.rtsRequest_outside {s : State} {a n : Nat} (tag cls : Nat) (d : Option (List Byte))
    (h : n = 0 ∨ 0xC00000000 < a + n) : s.rtsRequest tag cls a n d = s := if_pos h

theorem State.rtsRequest_inside {s : State} {a n : Nat} (tag cls : Nat) (d : Option (List Byte)) (hn : n ≠ 0)
    (ha : a + n ≤ 0xC00000000) : s.rtsRequest tag cls a n d = (rtsParts a n).foldl (fun s p =>
      s.rtsRequest1 ⟨tag, cls, p.1, p.2, d.isSome, false, slice0 (slice0 (d.getD []) 0 n) (p.1 - a) p.2,
        d.isSome && !rtsWhole a n⟩) s := if_neg (by omega)

/-! ### An access accepted (R258, R259) -/

theorem State.stkOf_lt (s : State) (a : Nat) : s.stkOf a < 2 := by
  unfold State.stkOf b2n; split <;> omega

/-- Whether a write still in the table gives bytes to a read of `n` bytes from `a`. -/
def RtsSt.forwards (x : RtsSt) (a n : Nat) : Bool :=
  x.reqs.any (fun q => q.write && decide (q.addr < a + n) && decide (a < q.addr + q.len))

/-- An access enters the table. -/
def State.rtsEnter (s : State) (c : Nat) (q : RtsReq) : State :=
  let t := ((s.putRts c { s.rts c with reqs := (s.rts c).reqs ++ [q] }).pmuEv 0x30 c).rtsShow c
  if q.cls = 0 then t.pmuEv 0x33 c else t

theorem State.rtsWrite_clean {s : State} (hd : s.ecc.diff = []) (hp : s.ecc.poison = []) (harm : s.on ECC_INJ_CFG_ARM = false)
    (a : Nat) (bs : List Byte) : s.rsWrite a bs = s.rsPut a bs := by
  unfold State.rsWrite; rw [hd, hp, harm]; rfl

/-- What the table holds of an accepted access: a read takes its bytes as they stand. -/
def State.rtsTaken (s : State) (r : RtsReq) : RtsReq := if r.write then r else { r with data := s.rsRead r.addr r.len }

theorem State.rtsAccept_eq (s : State) (c : Nat) (r : RtsReq) : s.rtsAccept c r =
    let u := s.cntIf (!r.write && (s.rts c).forwards r.addr r.len) (RTS_RAW_FWD_CNT c) 1
    let q := u.rtsTaken r
    (if q.write then u.rsWrite q.addr q.data else u).rtsEnter c q := rfl

theorem State.rtsAccept_write {s : State} {r : RtsReq} (c : Nat) (hw : r.write = true) (hd : s.ecc.diff = [])
    (hp : s.ecc.poison = []) (harm : s.on ECC_INJ_CFG_ARM = false) :
    s.rtsAccept c r = (s.rsPut r.addr r.data).rtsEnter c r := by
  have htaken : s.rtsTaken r = r := if_pos hw
  have hcnt : s.cntIf (!r.write && (s.rts c).forwards r.addr r.len) (RTS_RAW_FWD_CNT c) 1 = s := by rw [hw]; rfl
  rw [State.rtsAccept_eq, hcnt]
  dsimp only
  rw [htaken, if_pos hw, State.rtsWrite_clean hd hp harm]

theorem State.rtsAccept_read {s : State} {r : RtsReq} (c : Nat) (hw : r.write = false) : s.rtsAccept c r =
    (s.cntIf ((s.rts c).forwards r.addr r.len) (RTS_RAW_FWD_CNT c) 1).rtsEnter c { r with data := s.rsRead r.addr r.len } := by
  have hcnt : (!r.write && (s.rts c).forwards r.addr r.len) = (s.rts c).forwards r.addr r.len := by rw [hw]; rfl
  have hrs := (onlyRts_cntIf s ((s.rts c).forwards r.addr r.len) (RTS_RAW_FWD_CNT c) 1).rs
  rw [State.rtsAccept_eq, hcnt]
  dsimp only
  generalize s.cntIf ((s.rts c).forwards r.addr r.len) (RTS_RAW_FWD_CNT c) 1 = u at *
  have htaken : u.rtsTaken r = { r with data := s.rsRead r.addr r.len } := by
    unfold State.rtsTaken State.rsRead
    rw [hw, hrs]; rfl
  rw [htaken]
  exact congrArg (State.rtsEnter · c _) (if_neg (by simp [hw]))

theorem State.rtsEnter_shows {s : State} {c : Nat} (q : RtsReq) (hc : c < 2) (hlen : (s.rts c).reqs.length < 4096) :
    let t := s.rtsEnter c q
    t.rts c = { s.rts c with reqs := (s.rts c).reqs ++ [q] } ∧ t.rts (1 - c) = s.rts (1 - c) ∧
      t.rd (RTS_REQ_STS_IN_USE c) = (s.rts c).reqs.length + 1 ∧
      t.rd (RTS_REQ_STS_HWM c) = max ((s.rts c).reqs.length + 1) (s.rd (RTS_REQ_STS_HWM c)) ∧
      onlyRts s t ∧ regsKept [RTS_REQ_STS c] s t := by
  have hput := s.rts_putRts_same c { s.rts c with reqs := (s.rts c).reqs ++ [q] }
  have hother := s.rts_putRts_other { s.rts c with reqs := (s.rts c).reqs ++ [q] } hc
  have honly := onlyRts_putRts s c { s.rts c with reqs := (s.rts c).reqs ++ [q] }
  have hregs := s.putRts_regs c { s.rts c with reqs := (s.rts c).reqs ++ [q] }
  unfold State.rtsEnter
  generalize s.putRts c { s.rts c with reqs := (s.rts c).reqs ++ [q] } = u at *
  have hcount : ((u.pmuEv 0x30 c).rts c).reqs.length = (s.rts c).reqs.length + 1 := by
    rw [State.rts_pmuEv, hput, List.length_append, List.length_singleton]
  have huse := State.rd_rtsShow_inUse (s := u.pmuEv 0x30 c) (c := c) (by omega)
  have hhwm := State.rd_rtsShow_hwm (s := u.pmuEv 0x30 c) (c := c) (by omega)
  have hold : (u.pmuEv 0x30 c).rd (RTS_REQ_STS_HWM c) = s.rd (RTS_REQ_STS_HWM c) :=
    State.rd_congr ((State.pmuEv_regs _ _ _ _).trans hregs) _
  rw [hcount] at huse hhwm
  rw [hold] at hhwm
  have hrts := State.rts_rtsShow (u.pmuEv 0x30 c) c
  have hkept := regsKept_of_regs ((State.pmuEv_regs _ _ _ _).trans hregs) ((u.pmuEv 0x30 c).rtsShow_kept c)
  have hframe := honly.trans ((onlyRts_pmuEv u 0x30 c 1).trans (onlyRts_rtsShow _ c))
  generalize (u.pmuEv 0x30 c).rtsShow c = v at *
  dsimp only
  split
  · have hev := State.pmuEv_regs v 0x33 c 1
    exact ⟨(State.rts_pmuEv _ _ _ _ _).trans ((hrts c).trans hput), (State.rts_pmuEv _ _ _ _ _).trans ((hrts (1 - c)).trans hother),
      (State.rd_congr hev _).trans huse, (State.rd_congr hev _).trans hhwm, hframe.trans (onlyRts_pmuEv v _ _ _),
      fun a ha => (State.reg_congr hev a).trans (hkept a ha)⟩
  · exact ⟨(hrts c).trans hput, (hrts (1 - c)).trans hother, huse, hhwm, hframe, hkept⟩

/-! ### An access reaches its controller (R268) -/

theorem State.rtsRequest1_accepted {s : State} {r : RtsReq} (hready : bit (s.rd RTS_STS_READY) (s.stkOf r.addr) = true)
    (halive : s.alive (islRts (s.stkOf r.addr)) = true) (hheld : ∀ x ∈ (s.rts (s.stkOf r.addr)).held, x.cls ≠ r.cls)
    (hroom : rtsRoom (s.rts (s.stkOf r.addr)).reqs r.cls = true) : s.rtsRequest1 r = s.rtsAccept (s.stkOf r.addr) r := by
  have hfree : (s.rts (s.stkOf r.addr)).held.all (fun q => q.cls != r.cls) = true := by simpa using hheld
  unfold State.rtsRequest1
  dsimp only
  rw [hready, halive, if_neg (by decide), hfree, hroom, if_pos (by decide)]

theorem State.rtsRequest1_heldBack {s : State} {r : RtsReq} (hready : bit (s.rd RTS_STS_READY) (s.stkOf r.addr) = true)
    (halive : s.alive (islRts (s.stkOf r.addr)) = true)
    (hwait : (∃ x ∈ (s.rts (s.stkOf r.addr)).held, x.cls = r.cls) ∨ rtsRoom (s.rts (s.stkOf r.addr)).reqs r.cls = false) :
    let c := s.stkOf r.addr
    let p := s.putRts c { s.rts c with held := (s.rts c).held ++ [r] }
    s.rtsRequest1 r = if (s.rts c).held = [] then p.raise (RTS_INT_BACKPRESS c) else p := by
  have hfull : ((s.rts (s.stkOf r.addr)).held.all (fun q => q.cls != r.cls) && rtsRoom (s.rts (s.stkOf r.addr)).reqs r.cls) = false := by
    rcases hwait with ⟨x, hx, hcls⟩ | hroom
    · rw [Bool.and_eq_false_iff]
      exact .inl (List.all_eq_false.2 ⟨x, hx, by simp [hcls]⟩)
    · rw [hroom, Bool.and_false]
  unfold State.rtsRequest1
  dsimp only
  rw [hready, halive, if_neg (by decide), hfull, if_neg Bool.false_ne_true]
  simp only [List.isEmpty_iff]

/-- What an accepted access shows: the table with it, the bytes a write leaves, the bytes a read takes. -/
theorem State.rtsAccept_shows {s : State} {c : Nat} (r : RtsReq) (hc : c < 2) (hlen : (s.rts c).reqs.length < 4096)
    (hd : s.ecc.diff = []) (hp : s.ecc.poison = []) (harm : s.on ECC_INJ_CFG_ARM = false) :
    let t := s.rtsAccept c r
    (t.rts c).reqs = (s.rts c).reqs ++ [s.rtsTaken r] ∧ t.rts c = { s.rts c with reqs := (t.rts c).reqs } ∧
      t.rts (1 - c) = s.rts (1 - c) ∧ t.rd (RTS_REQ_STS_IN_USE c) = (s.rts c).reqs.length + 1 ∧
      t.rd (RTS_REQ_STS_HWM c) = max ((s.rts c).reqs.length + 1) (s.rd (RTS_REQ_STS_HWM c)) ∧
      counted (RTS_RAW_FWD_CNT c) (if !r.write && (s.rts c).forwards r.addr r.len then 1 else 0) s t ∧
      t.rs = (if r.write then (s.rsPut r.addr r.data).rs else s.rs) ∧
      t = { s with regs := t.regs, rs := t.rs, rts0 := t.rts0, rts1 := t.rts1, obs := { s.obs with pmuNow := t.obs.pmuNow } } ∧
      regsKept [RTS_REQ_STS c, RTS_RAW_FWD_CNT c, RTS_RAW_FWD_CNT c + 4] s t := by
  have hraw : RTS_RAW_FWD_CNT c ∉ [RTS_REQ_STS c] ∧ RTS_RAW_FWD_CNT c + 4 ∉ [RTS_REQ_STS c] := by
    simp only [List.mem_singleton, RTS_RAW_FWD_CNT, RTS_REQ_STS]; omega
  have hblock : RTS_RAW_FWD_CNT c % 8 = 0 ∧ 0x100 ≤ RTS_RAW_FWD_CNT c % 0x10000 := by unfold RTS_RAW_FWD_CNT; omega
  have hsts : (RTS_REQ_STS_HWM c).addr ∉ [RTS_RAW_FWD_CNT c, RTS_RAW_FWD_CNT c + 4] := by
    simp only [List.mem_cons, List.not_mem_nil, or_false, RTS_RAW_FWD_CNT, RTS_REQ_STS_HWM, RTS_REQ_STS]; omega
  by_cases hw : r.write = true
  · have htaken : s.rtsTaken r = r := if_pos hw
    obtain ⟨hrts, hother, huse, hhwm, honly, hkept⟩ := State.rtsEnter_shows (s := s.rsPut r.addr r.data) r hc hlen
    rw [State.rtsAccept_write c hw hd hp harm, htaken, hw]
    dsimp only
    generalize (s.rsPut r.addr r.data).rtsEnter c r = t at *
    refine ⟨congrArg RtsSt.reqs hrts, hrts.trans ?_, hother, huse, hhwm, ?_, honly.rs, ?_, hkept.trans (m := []) (fun _ _ => rfl) (by simp) (by simp)⟩
    · rw [hrts]; rfl
    · exact hkept.counted (counted_zero s _) hraw.1 hraw.2
    · rw [honly.rs]; exact honly
  · have hw : r.write = false := Bool.eq_false_iff.2 hw
    have htaken : s.rtsTaken r = { r with data := s.rsRead r.addr r.len } := if_neg (by simp [hw])
    have hcnt := tallied_cntIf s ((s.rts c).forwards r.addr r.len) 1 hblock.1 _ hblock.1 hblock.2
    have hck := s.cntIf_kept ((s.rts c).forwards r.addr r.len) (RTS_RAW_FWD_CNT c) 1
    have hcr := s.rts_cntIf ((s.rts c).forwards r.addr r.len) (RTS_RAW_FWD_CNT c) 1
    have hco := onlyRts_cntIf s ((s.rts c).forwards r.addr r.len) (RTS_RAW_FWD_CNT c) 1
    rw [State.rtsAccept_read c hw, htaken]
    generalize { r with data := s.rsRead r.addr r.len } = q
    rw [hw]
    generalize s.cntIf ((s.rts c).forwards r.addr r.len) (RTS_RAW_FWD_CNT c) 1 = u at *
    obtain ⟨hrts, hother, huse, hhwm, honly, hkept⟩ :=
      State.rtsEnter_shows (s := u) q hc (by rw [hcr]; exact hlen)
    rw [hcr] at hrts hother huse hhwm
    rw [hck.rd hsts] at hhwm
    dsimp only at hcnt ⊢
    rw [if_pos rfl] at hcnt
    generalize u.rtsEnter c q = t at *
    have hframe := hco.trans honly
    refine ⟨congrArg RtsSt.reqs hrts, hrts.trans ?_, hother, huse, hhwm, hkept.counted hcnt hraw.1 hraw.2, hframe.rs, ?_,
      hck.trans hkept (by simp) (by simp)⟩
    · rw [hrts]
    · rw [hframe.rs]; exact hframe

end Sys2Proof.Machine
end

section
/-!
SUPPORT. Issue, completion and idle pages (R259, R260, R262, R264): which request a pseudo-channel issues, what an issued one
counts, and the read that completes.
-/
namespace Sys2Proof.Machine

/-! ### The request issued next (R264) -/

/-- The first of the lowest rank among a list is what a fold that keeps it finds. -/
theorem foldl_first_lowest {β : Type} (f : β → Nat) {g : Option β → β → Option β} (hnone : ∀ y, g none y = some y)
    (hsome : ∀ x y, g (some x) y = if f y < f x then some y else some x) {l m : List β} {r : β} (hl : ∀ x ∈ l, f r < f x)
    (hm : ∀ x ∈ m, f r ≤ f x) : (l ++ r :: m).foldl g none = some r := by
  have hafter : ∀ m : List β, (∀ x ∈ m, f r ≤ f x) → m.foldl g (some r) = some r := by
    intro m
    induction m with
    | nil => exact fun _ => rfl
    | cons y m ih =>
      intro hy
      rw [List.foldl_cons, hsome, if_neg (Nat.not_lt.2 (hy y List.mem_cons_self))]
      exact ih fun x hx => hy x (List.mem_cons_of_mem _ hx)
  have hbefore : ∀ (l : List β) (b : Option β), (∀ x, b = some x → f r < f x) → (∀ x ∈ l, f r < f x) →
      ∀ x, l.foldl g b = some x → f r < f x := by
    intro l
    induction l with
    | nil => exact fun b hb _ => hb
    | cons y l ih =>
      intro b hb hy
      refine ih (g b y) (fun x hx => ?_) fun x hx => hy x (List.mem_cons_of_mem _ hx)
      have hyr := hy y List.mem_cons_self
      cases b with
      | none => rw [hnone] at hx; cases hx; exact hyr
      | some z =>
        rw [hsome] at hx
        split at hx
        · cases hx; exact hyr
        · cases hx; exact hb _ rfl
  rw [List.foldl_append, List.foldl_cons]
  have htake : g (l.foldl g none) r = some r := by
    cases hb : l.foldl g none with
    | none => exact hnone r
    | some x => rw [hsome, if_pos (hbefore l none (fun _ h => nomatch h) hl x hb)]
  rw [htake]
  exact hafter m hm

/-- The requests that wait for a pseudo-channel. -/
def State.rtsWaiting (s : State) (c p : Nat) : List RtsReq :=
  (s.rts c).reqs.filter (fun r => !r.issued && s.pcOf r.addr == p)

/-- A row hit: the bank is open at the request's row. -/
def State.rowHit (s : State) (c : Nat) (x : RtsReq) : Bool :=
  ((s.rts c).banks.get {} (s.bankNo x.addr)).isOpen && ((s.rts c).banks.get {} (s.bankNo x.addr)).row == getBits x.addr 20 14

theorem exec_rtsAccess {s : State} {c : Fin 2} (p : Fin 32) (h : s.alive (islRts c.val) = true) :
    exec (.rtsAccess c p) s = .next (s.rtsAccess c.val p.val) := onIsl_up (f := (·.rtsAccess c.val p.val)) h

theorem State.rtsAccess_some {s : State} {c p : Nat} {r : RtsReq} {f : Bool} (h : s.rtsPick c p = some (r, f)) :
    s.rtsAccess c p = s.rtsIssue c p r f := by
  unfold State.rtsAccess; rw [h]

theorem State.rtsAccess_none {s : State} {c p : Nat} (h : s.rtsPick c p = none) : s.rtsAccess c p = s := by
  unfold State.rtsAccess; rw [h]

theorem State.rtsPick_nothing {s : State} {c p : Nat} (h : s.rtsWaiting c p = [] ∨ s.rtsPaused c p = true) :
    s.rtsPick c p = none := by
  have hlist : (if s.rtsPaused c p then [] else s.rtsWaiting c p) = [] := by
    rcases h with h | h
    · rw [h, ite_self]
    · rw [if_pos h]
  unfold State.rtsPick
  rw [State.rtsWaiting] at hlist
  rw [hlist]
  rfl

/-- A row hit that may go ahead of the oldest request `r` of its class: within the cap when the class is. -/
def State.mayPass (s : State) (c : Nat) (l : List RtsReq) (r x : RtsReq) : Bool :=
  x.cls == r.cls && s.rowHit c x && (decide (8 ≤ s.rtsRank c l r.cls) || s.rtsInCap c r.cls (rtsBytes x))

/-- The oldest request of the first rank, or a row hit of its class ahead of it. -/
theorem State.rtsPick_first {s : State} {c p : Nat} {l m : List RtsReq} {r : RtsReq} (hwait : s.rtsWaiting c p = l ++ r :: m)
    (hrun : s.rtsPaused c p = false) (hl : ∀ x ∈ l, s.rtsRank c (l ++ r :: m) r.cls < s.rtsRank c (l ++ r :: m) x.cls)
    (hm : ∀ x ∈ m, s.rtsRank c (l ++ r :: m) r.cls ≤ s.rtsRank c (l ++ r :: m) x.cls) :
    s.rtsPick c p = if s.rowHit c r || decide (4 ≤ (s.rts c).ahead.get 0 (8 * p + r.cls)) then some (r, false)
      else some ((((l ++ r :: m).find? (s.mayPass c (l ++ r :: m) r)).map (fun x => (x, true))).getD (r, false)) := by
  unfold State.rtsPick
  rw [State.rtsWaiting] at hwait
  rw [hrun, if_neg Bool.false_ne_true, hwait]
  dsimp only
  rw [foldl_first_lowest (fun x => s.rtsRank c (l ++ r :: m) x.cls) (fun _ => rfl) (fun _ _ => rfl) hl hm]
  refine if_congr Iff.rfl rfl ?_
  unfold State.mayPass State.rowHit
  generalize List.find? _ (l ++ r :: m) = o
  cases o <;> rfl

/-! ### An access that leaves for its stack (R253, R260, R264) -/

/-- What an access adds to each counter of its controller. -/
def moveCounts (c : Nat) (r : RtsReq) (hit : Bool) (a : Nat) : Nat :=
  if a = RTS_ROW_HIT_CNT c then (if hit then 1 else 0)
  else if a = RTS_ROW_MISS_CNT c then (if hit then 0 else 1)
  else if a = RTS_RD_BYTES_CNT c then (if !r.write || r.rmw then rtsBytes r else 0)
  else if a = RTS_WR_BYTES_CNT c then (if r.write then rtsBytes r else 0)
  else if a = RTS_CLS_BYTES_CNT c r.cls then rtsBytes r
  else if a = RTS_OB_BYTES_CNT c then (if r.cls = 7 then rtsBytes r else 0)
  else 0

/-- The bank and the last 1 µs of a controller after an access. -/
def State.rtsMoved (s : State) (c : Nat) (r : RtsReq) (b : BankSt) : RtsSt :=
  { s.rts c with
    banks := (s.rts c).banks.set {} (s.bankNo r.addr) b
    recent := ((s.rts c).recent.filter (fun e => decide (s.time.mono < e.1 + 8000))) ++ [(s.time.mono, r.cls, rtsBytes r)] }

/-- The bank of an access after it, and whether it was a row hit. -/
def State.rtsBank (s : State) (c : Nat) (r : RtsReq) : Bool × BankSt :=
  bankAccess (s.rd RTS_PAGE_CFG_POLICY) ((s.rts c).banks.get {} (s.bankNo r.addr)) (getBits r.addr 20 14) s.time.mono

/-- The row hit or miss of an access counted. -/
def State.rowCounted (s : State) (c : Nat) (hit : Bool) : State :=
  if hit then s.cnt (RTS_ROW_HIT_CNT c) else (s.cnt (RTS_ROW_MISS_CNT c)).pmuEv 0x32 c

/-- What an access counts. -/
def State.rtsCounted (s : State) (c : Nat) (r : RtsReq) (hit : Bool) : State :=
  ((((s.rowCounted c hit).cntIf (!r.write || r.rmw) (RTS_RD_BYTES_CNT c) (rtsBytes r)).cntIf r.write (RTS_WR_BYTES_CNT c)
    (rtsBytes r)).cntIf true (RTS_CLS_BYTES_CNT c r.cls) (rtsBytes r)).cntIf (decide (r.cls = clsOb)) (RTS_OB_BYTES_CNT c) (rtsBytes r)

theorem State.rtsMove_eq (s : State) (c : Nat) (r : RtsReq) :
    s.rtsMove c r = (s.putRts c (s.rtsMoved c r (s.rtsBank c r).2)).rtsCounted c r (s.rtsBank c r).1 := by
  unfold State.rtsCounted State.cntIf
  simp only [decide_eq_true_eq]
  rfl

/-- Only counters of the controllers' blocks, by `f`, and events of the current cycle. -/
structure onlyTally (f : Nat → Nat) (s t : State) : Prop where
  counts : tallied f s t
  only : onlyRts s t
  rts : ∀ k, t.rts k = s.rts k
  below : ∀ a, a % 0x10000 < 0x100 → t.reg a = s.reg a

theorem onlyTally.trans {f g : Nat → Nat} {s t u : State} (hst : onlyTally f s t) (htu : onlyTally g t u) :
    onlyTally (fun a => f a + g a) s u :=
  ⟨hst.counts.trans htu.counts, hst.only.trans htu.only, fun k => (htu.rts k).trans (hst.rts k),
    fun a ha => (htu.below a ha).trans (hst.below a ha)⟩

theorem onlyTally.congr {f g : Nat → Nat} {s t : State} (h : onlyTally f s t) (hfg : ∀ a, f a = g a) : onlyTally g s t :=
  funext hfg ▸ h

theorem onlyTally_cntIf (s : State) (b : Bool) {a : Nat} (n : Nat) (ha : a % 8 = 0 ∧ 0x100 ≤ a % 0x10000) :
    onlyTally (fun k => if k = a then (if b then n else 0) else 0) s (s.cntIf b a n) where
  counts := tallied_cntIf s b n ha.1
  only := onlyRts_cntIf s b a n
  rts := s.rts_cntIf b a n
  below k hk := s.cntIf_kept b a n k fun h => by
    simp only [List.mem_cons, List.not_mem_nil, or_false] at h
    omega

theorem onlyTally_pmuEv (s : State) (c u n : Nat) : onlyTally (fun _ => 0) s (s.pmuEv c u n) where
  counts := tallied_zero_of_reg fun b _ => State.reg_congr (s.pmuEv_regs c u n) b
  only := onlyRts_pmuEv s c u n
  rts := s.rts_pmuEv c u n
  below a _ := State.reg_congr (s.pmuEv_regs c u n) a

theorem onlyTally_rowCounted (s : State) (c : Nat) (hit : Bool) :
    onlyTally (fun a => if a = (if hit then RTS_ROW_HIT_CNT c else RTS_ROW_MISS_CNT c) then 1 else 0) s (s.rowCounted c hit) := by
  cases hit
  · exact (onlyTally_cntIf s true (a := RTS_ROW_MISS_CNT c) 1 (by unfold RTS_ROW_MISS_CNT; omega)).trans (onlyTally_pmuEv _ _ _ _)
  · exact onlyTally_cntIf s true (a := RTS_ROW_HIT_CNT c) 1 (by unfold RTS_ROW_HIT_CNT; omega)

/-- What each counter of its controller reads after an access. -/
theorem State.rtsCounted_tally (s : State) {c : Nat} {r : RtsReq} (hit : Bool) (hcls : r.cls < 8) :
    onlyTally (moveCounts c r hit) s (s.rtsCounted c r hit) := by
  have hsum := (((onlyTally_rowCounted s c hit).trans (onlyTally_cntIf _ (!r.write || r.rmw) (a := RTS_RD_BYTES_CNT c) (rtsBytes r)
    (by unfold RTS_RD_BYTES_CNT; omega))).trans (onlyTally_cntIf _ r.write (a := RTS_WR_BYTES_CNT c) (rtsBytes r)
    (by unfold RTS_WR_BYTES_CNT; omega))).trans (onlyTally_cntIf _ true (a := RTS_CLS_BYTES_CNT c r.cls) (rtsBytes r)
    (by unfold RTS_CLS_BYTES_CNT; omega)) |>.trans (onlyTally_cntIf _ (decide (r.cls = clsOb)) (a := RTS_OB_BYTES_CNT c)
    (rtsBytes r) (by unfold RTS_OB_BYTES_CNT; omega))
  refine onlyTally.congr hsum fun a => ?_
  unfold moveCounts clsOb
  simp only [decide_eq_true_eq, if_true]
  generalize (if (!r.write || r.rmw) = true then rtsBytes r else 0) = x
  generalize (if r.write = true then rtsBytes r else 0) = y
  generalize (if r.cls = 7 then rtsBytes r else 0) = z
  unfold RTS_ROW_HIT_CNT RTS_ROW_MISS_CNT RTS_RD_BYTES_CNT RTS_WR_BYTES_CNT RTS_CLS_BYTES_CNT RTS_OB_BYTES_CNT
  cases hit <;> simp only [if_true, Bool.false_eq_true, if_false] <;> split_ifs <;> omega

/-! ### The issue of a request (R264) -/

/-- The controller once a request has been issued: a write leaves the table, a read stays in it. -/
def RtsSt.issue (x : RtsSt) (p : Nat) (r : RtsReq) (ahead : Bool) : RtsSt :=
  { x with
    ahead := x.ahead.set 0 (8 * p + r.cls) (if ahead then x.ahead.get 0 (8 * p + r.cls) + 1 else 0)
    reqs := if r.write then x.reqs.eraseIdx (x.reqs.findIdx (fun q => q == r))
      else x.reqs.set (x.reqs.findIdx (fun q => q == r)) { r with issued := true } }

theorem RtsSt.issue_write {x : RtsSt} (p : Nat) {r : RtsReq} (f : Bool) (hw : r.write = true) :
    (x.issue p r f).reqs = x.reqs.erase r := by
  rw [List.erase_eq_eraseIdx_of_idxOf rfl]
  exact if_pos hw

theorem RtsSt.issue_read {x : RtsSt} (p : Nat) {r : RtsReq} (f : Bool) (hw : r.write = false) (hr : r ∈ x.reqs) :
    (x.issue p r f).reqs.length = x.reqs.length ∧ { r with issued := true } ∈ (x.issue p r f).reqs := by
  have hreqs : (x.issue p r f).reqs = x.reqs.set (x.reqs.findIdx (fun q => q == r)) { r with issued := true } :=
    if_neg (by simp [hw])
  have hidx : x.reqs.findIdx (fun q => q == r) < x.reqs.length := List.findIdx_lt_length_of_exists ⟨r, hr, beq_self_eq_true r⟩
  rw [hreqs]
  exact ⟨List.length_set, List.mem_set hidx _⟩

theorem State.rtsUnhold_none {s : State} {c : Nat} (h : (s.rts c).held = []) : s.rtsUnhold c = s := by
  unfold State.rtsUnhold; rw [h]; rfl

theorem RtsSt.length_issue_le (x : RtsSt) (p : Nat) (r : RtsReq) (f : Bool) : (x.issue p r f).reqs.length ≤ x.reqs.length := by
  unfold RtsSt.issue
  dsimp only
  split
  · exact List.length_eraseIdx_le _ _
  · exact Nat.le_of_eq List.length_set

/-- The issued request gone from the table, or marked in it, and the table's fill shown. -/
def State.rtsIssuing (s : State) (c p : Nat) (r : RtsReq) (f : Bool) : State := (s.putRts c ((s.rts c).issue p r f)).rtsShow c

theorem State.rtsIssuing_rts (s : State) (c p : Nat) (r : RtsReq) (f : Bool) :
    (s.rtsIssuing c p r f).rts c = (s.rts c).issue p r f :=
  (State.rts_rtsShow _ c c).trans (State.rts_putRts_same _ _ _)

theorem State.rtsIssuing_kept (s : State) (c p : Nat) (r : RtsReq) (f : Bool) :
    regsKept [RTS_REQ_STS c] s (s.rtsIssuing c p r f) := regsKept_of_regs (s.putRts_regs c _) (State.rtsShow_kept _ c)

theorem onlyRts_rtsIssuing (s : State) (c p : Nat) (r : RtsReq) (f : Bool) : onlyRts s (s.rtsIssuing c p r f) :=
  (onlyRts_putRts s c _).trans (onlyRts_rtsShow _ c)

theorem State.rtsMove_rts (s : State) {c : Nat} {r : RtsReq} (hcls : r.cls < 8) :
    (s.rtsMove c r).rts c = s.rtsMoved c r (s.rtsBank c r).2 := by
  rw [State.rtsMove_eq, (State.rtsCounted_tally _ _ hcls).rts, State.rts_putRts_same]

theorem State.rtsIssue_eq {s : State} {c : Nat} (p : Nat) {r : RtsReq} (f : Bool) (hcls : r.cls < 8) (h : (s.rts c).held = []) :
    s.rtsIssue c p r f = (s.rtsIssuing c p r f).rtsMove c r := by
  have hheld : (((s.rtsIssuing c p r f).rtsMove c r).rts c).held = [] := by
    rw [State.rtsMove_rts _ hcls]
    unfold State.rtsMoved
    rw [State.rtsIssuing_rts]
    exact h
  have hrow : s.rtsIssue c p r f = if r.write then ((s.rtsIssuing c p r f).rtsMove c r).rtsUnhold c
      else (s.rtsIssuing c p r f).rtsMove c r := rfl
  rw [hrow, State.rtsUnhold_none hheld, ite_self]

/-- The bank of an address follows the mapping registers. -/
theorem State.bankNo_congr {s t : State} (h : ∀ j : Fin 10, t.rd (mapFld j.val) = s.rd (mapFld j.val)) (a : Nat) :
    t.bankNo a = s.bankNo a := by
  obtain ⟨-, hpc, hba⟩ := State.placed_congr (s := s) (t := t) (a := a) (b := a) fun j => by rw [h]
  unfold State.bankNo
  rw [hpc, hba]

theorem State.rtsIssuing_bank (s : State) (c p : Nat) (r : RtsReq) (f : Bool) :
    (s.rtsIssuing c p r f).bankNo r.addr = s.bankNo r.addr ∧ (s.rtsIssuing c p r f).rtsBank c r = s.rtsBank c r := by
  have hkept := s.rtsIssuing_kept c p r f
  have hbank : (s.rtsIssuing c p r f).bankNo r.addr = s.bankNo r.addr := State.bankNo_congr (fun j => hkept.rd fun h => by
    rw [mapFld_at] at h
    have haddr := List.mem_singleton.1 h
    have := j.isLt
    unfold RTS_REQ_STS at haddr
    dsimp only at haddr
    omega) r.addr
  have hpolicy : (s.rtsIssuing c p r f).rd RTS_PAGE_CFG_POLICY = s.rd RTS_PAGE_CFG_POLICY := hkept.rd fun h => by
    have haddr := List.mem_singleton.1 h
    unfold RTS_REQ_STS RTS_PAGE_CFG_POLICY RTS_PAGE_CFG at haddr
    dsimp only at haddr
    omega
  refine ⟨hbank, ?_⟩
  unfold State.rtsBank
  rw [hbank, hpolicy, State.rtsIssuing_rts, (onlyRts_rtsIssuing s c p r f).time]
  rfl

/-- What an issued request shows. -/
theorem State.rtsIssue_shows {s : State} {c : Nat} (p : Nat) {r : RtsReq} (f : Bool) (hc : c < 2) (hcls : r.cls < 8)
    (hheld : (s.rts c).held = []) (hlen : (s.rts c).reqs.length ≤ 4096) : let t := s.rtsIssue c p r f
    (t.rts c).reqs = ((s.rts c).issue p r f).reqs ∧ (t.rts c).banks.get {} (s.bankNo r.addr) = (s.rtsBank c r).2 ∧
      tallied (moveCounts c r (s.rtsBank c r).1) s t ∧
      t.rd (RTS_REQ_STS_IN_USE c) = ((s.rts c).issue p r f).reqs.length ∧ t.rts (1 - c) = s.rts (1 - c) ∧ onlyRts s t := by
  have hle := (s.rts c).length_issue_le p r f
  have hrts := s.rtsIssuing_rts c p r f
  obtain ⟨hno, hbank⟩ := s.rtsIssuing_bank c p r f
  have huse : (s.rtsIssuing c p r f).rd (RTS_REQ_STS_IN_USE c) = ((s.rts c).issue p r f).reqs.length := by
    refine (State.rd_rtsShow_inUse ?_).trans ?_
    · rw [State.rts_putRts_same]; omega
    · rw [State.rts_putRts_same]
  have hother : (s.rtsIssuing c p r f).rts (1 - c) = s.rts (1 - c) :=
    (State.rts_rtsShow _ c _).trans (State.rts_putRts_other _ _ hc)
  have hquiet : tallied (fun _ => 0) s (s.rtsIssuing c p r f) := tallied_of_regs (s.putRts_regs c _) (tallied_rtsShow _ c)
  have honly := onlyRts_rtsIssuing s c p r f
  rw [State.rtsIssue_eq p f hcls hheld]
  generalize s.rtsIssuing c p r f = v at *
  have hmoved := v.rtsMove_rts (c := c) hcls
  rw [hbank] at hmoved
  have hregs := v.putRts_regs c (v.rtsMoved c r (s.rtsBank c r).2)
  have htally := (v.putRts c (v.rtsMoved c r (s.rtsBank c r).2)).rtsCounted_tally (s.rtsBank c r).1 hcls (c := c)
  have heq := v.rtsMove_eq c r
  rw [hbank] at heq
  intro t
  have ht : t = _ := heq
  refine ⟨?_, ?_, ?_, ?_, ?_, ?_⟩
  · refine (congrArg RtsSt.reqs hmoved).trans ?_
    show (v.rts c).reqs = _
    rw [hrts]
  · refine (congrArg (fun x : RtsSt => x.banks.get {} (s.bankNo r.addr)) hmoved).trans ?_
    unfold State.rtsMoved
    rw [hno]
    exact Tab.get_set_same _ _ _ _
  · rw [ht]
    refine fun a ha hb => ?_
    have hcount := (hquiet.trans (tallied_of_regs hregs htally.counts)) a ha hb
    dsimp only at hcount
    rwa [Nat.zero_add] at hcount
  · rw [ht, State.rd_of_reg (htally.below _ (by unfold RTS_REQ_STS_IN_USE RTS_REQ_STS; dsimp only; omega)), State.rd_congr hregs, huse]
  · rw [ht, htally.rts, State.rts_putRts_other _ _ hc, hother]
  · rw [ht]
    exact honly.trans ((onlyRts_putRts v c _).trans htally.only)

/-! ### Completion (R259, R345) and idle pages (R260) -/

theorem exec_rtsAccessComplete {s : State} {c : Fin 2} (tag : Nat) (ce : Bool) (h : s.alive (islRts c.val) = true) :
    exec (.rtsAccessComplete c tag ce) s = .next (s.rtsComplete c.val tag ce) := onIsl_up (f := (·.rtsComplete c.val tag ce)) h

/-- An on-die ECC report that comes with a read's data. -/
def State.dieReported (s : State) (c : Nat) (ce : Bool) : State := if ce then s.cnt (RTS_DIE_CE_CNT c) else s

theorem State.dieReported_rts (s : State) (c : Nat) (ce : Bool) (k : Nat) : (s.dieReported c ce).rts k = s.rts k :=
  s.rts_cntIf ce (RTS_DIE_CE_CNT c) 1 k

/-- Whether `q` is a read of the class of `r` that touches a 64-byte unit of `r`. -/
def RtsReq.sharesUnit (r q : RtsReq) : Bool :=
  !q.write && q.cls == r.cls && decide (q.addr / 64 ≤ (r.addr + r.len - 1) / 64) && decide (r.addr / 64 ≤ (q.addr + q.len - 1) / 64)

theorem State.rtsComplete_none {s : State} {c tag : Nat} (ce : Bool) (h : ∀ r ∈ (s.rts c).reqs, r.issued = true → r.tag ≠ tag) :
    s.rtsComplete c tag ce = s.dieReported c ce := by
  have hfind : ((s.dieReported c ce).rts c).reqs.find? (fun r => r.issued && r.tag == tag) = none := by
    rw [State.dieReported_rts, List.find?_eq_none]
    intro r hr
    simpa using h r hr
  unfold State.dieReported at hfind
  unfold State.rtsComplete
  dsimp only
  rw [hfind]
  rfl

theorem State.rtsComplete_some {s : State} {c tag : Nat} {r : RtsReq} (ce : Bool)
    (h : (s.rts c).reqs.find? (fun r => r.issued && r.tag == tag) = some r) :
    let p := s.dieReported c ce
    let w := p.rsScan r.addr r.len
    s.rtsComplete c tag ce = if ((s.rts c).reqs.takeWhile (fun q => q != r)).any r.sharesUnit then p
      else ((w.putRts c { w.rts c with reqs := (w.rts c).reqs.erase r, lastTag := tag, lastBytes := r.data }).rtsShow c).rtsUnhold c := by
  have hrts := s.dieReported_rts c ce c
  unfold State.dieReported at hrts
  unfold State.rtsComplete State.dieReported
  dsimp only
  rw [hrts, h]
  rfl

theorem exec_pageIdleClose {s : State} {c : Fin 2} (k : Fin 1536) (h : s.alive (islRts c.val) = true) :
    exec (.pageIdleClose c k) s = .next (s.pageIdle c.val k.val) := onIsl_up (f := (·.pageIdle c.val k.val)) h

theorem State.pageIdle_closed {s : State} {c k : Nat} (h : ((s.rts c).banks.get {} k).isOpen = false) : s.pageIdle c k = s := by
  unfold State.pageIdle; dsimp only; rw [h]; rfl

theorem State.pageIdle_due {s : State} {c k : Nat} (h : ((s.rts c).banks.get {} k).isOpen = true)
    (hdue : ((s.rts c).banks.get {} k).at_ + 8 * max 1 (s.rd RTS_PAGE_CFG_IDLE) ≤ s.time.mono) : s.pageIdle c k = s.bankClose c k := by
  unfold State.pageIdle
  dsimp only
  rw [h, if_neg (by decide), State.waitMono_due _ _ hdue]
  rfl

end Sys2Proof.Machine
end

section
/-!
SUPPORT. Requests and accesses of the Root store (O50).
-/
namespace Sys2Proof.Machine

/-- What an access counts, counter by counter. -/
theorem tallied_moveCounts {s t : State} {c : Nat} {r : RtsReq} {hit : Bool} (h : tallied (moveCounts c r hit) s t)
    (hcls : r.cls < 8) :
    counted (RTS_ROW_HIT_CNT c) (if hit then 1 else 0) s t ∧ counted (RTS_ROW_MISS_CNT c) (if hit then 0 else 1) s t ∧
      counted (RTS_RD_BYTES_CNT c) (if !r.write || r.rmw then rtsBytes r else 0) s t ∧
      counted (RTS_WR_BYTES_CNT c) (if r.write then rtsBytes r else 0) s t ∧
      counted (RTS_CLS_BYTES_CNT c r.cls) (rtsBytes r) s t ∧ counted (RTS_OB_BYTES_CNT c) (if r.cls = 7 then rtsBytes r else 0) s t := by
  have hcount : ∀ a n, a % 8 = 0 → 0x100 ≤ a % 0x10000 → moveCounts c r hit a = n → counted a n s t :=
    fun a n ha hb hn => hn ▸ h a ha hb
  unfold moveCounts at hcount
  generalize (if hit = true then 1 else 0) = x0 at hcount ⊢
  generalize (if hit = true then 0 else 1) = x1 at hcount ⊢
  generalize (if (!r.write || r.rmw) = true then rtsBytes r else 0) = x2 at hcount ⊢
  generalize (if r.write = true then rtsBytes r else 0) = x3 at hcount ⊢
  generalize (if r.cls = 7 then rtsBytes r else 0) = x5 at hcount ⊢
  unfold RTS_ROW_HIT_CNT RTS_ROW_MISS_CNT RTS_RD_BYTES_CNT RTS_WR_BYTES_CNT RTS_CLS_BYTES_CNT RTS_OB_BYTES_CNT at hcount ⊢
  refine ⟨hcount _ _ (by omega) (by omega) ?_, hcount _ _ (by omega) (by omega) ?_,
    hcount _ _ (by omega) (by omega) ?_, hcount _ _ (by omega) (by omega) ?_, hcount _ _ (by omega) (by omega) ?_,
    hcount _ _ (by omega) (by omega) ?_⟩
  all_goals
    clear hcount
    split_ifs <;> omega

/-- Settles O50: requests, accesses, completions and idle pages, each by the lemma of its row. -/
theorem rootStoreRequestsAndAccesses : Obligations.RootStoreRequestsAndAccesses := by
  unfold Obligations.RootStoreRequestsAndAccesses
  refine ⟨fun s tag cls a n d h => ⟨fun hout => ?_, fun hn ha => ?_⟩, fun a n hn ha => rtsParts_whole hn ha,
    fun s r => ?_, fun s c p l m r h hwait hrun => ?_, fun s c p h hnone => ?_, fun s c p r f hc hcls hr hheld hlen => ?_,
    fun s c tag ce h => ⟨fun hno => ?_, fun r hr => ⟨fun hold => ?_, fun hold => ?_⟩⟩,
    fun s c k h => ⟨fun hcl => ?_, fun hop hdue => ?_⟩⟩
  · rw [exec_rtsRequest tag cls a n d h, State.rtsRequest_outside _ _ _ hout]
  · rw [exec_rtsRequest tag cls a n d h, State.rtsRequest_inside _ _ _ hn ha]
  · intro c hready halive hcls hlen
    refine ⟨fun hheld hroom hd hp harm => ?_, fun hwait => State.rtsRequest1_heldBack hready halive hwait⟩
    have hrow := State.rtsRequest1_accepted hready halive hheld hroom
    intro q t
    have ht : t = s.rtsAccept c r := hrow
    rw [ht]
    exact State.rtsAccept_shows r (s.stkOf_lt _) hlen hd hp harm
  · intro rank hl hm may hit
    have hpick := State.rtsPick_first hwait hrun hl hm
    have hrow := exec_rtsAccess p h
    refine ⟨fun hfirst => ?_, fun hmiss hfew => ⟨fun hnone => ?_, fun x hx => ?_⟩⟩
    · have hcond : (s.rowHit c.val r || decide (4 ≤ (s.rts c.val).ahead.get 0 (8 * p.val + r.cls))) = true := by
        rcases hfirst with hhit | hmany
        · rw [show s.rowHit c.val r = true from hhit, Bool.true_or]
        · rw [decide_eq_true hmany, Bool.or_true]
      rw [hrow, State.rtsAccess_some (hpick.trans (if_pos hcond))]
    · have hcond : ¬(s.rowHit c.val r || decide (4 ≤ (s.rts c.val).ahead.get 0 (8 * p.val + r.cls))) = true := by
        rw [show s.rowHit c.val r = false from hmiss, Bool.false_or, decide_eq_true_iff]; omega
      have hfind : (l ++ r :: m).find? (s.mayPass c.val (l ++ r :: m) r) = none := by
        rw [List.find?_eq_none]
        intro x hx hpass
        unfold State.mayPass at hpass
        simp only [Bool.and_eq_true, beq_iff_eq] at hpass
        obtain ⟨⟨hclass, hxhit⟩, hxmay⟩ := hpass
        exact Bool.eq_false_iff.1 (hnone x hx hclass hxhit) hxmay
      rw [hfind] at hpick
      rw [hrow, State.rtsAccess_some (hpick.trans (if_neg hcond))]
    · have hcond : ¬(s.rowHit c.val r || decide (4 ≤ (s.rts c.val).ahead.get 0 (8 * p.val + r.cls))) = true := by
        rw [show s.rowHit c.val r = false from hmiss, Bool.false_or, decide_eq_true_iff]; omega
      have hfind : (l ++ r :: m).find? (s.mayPass c.val (l ++ r :: m) r) = some x := hx
      rw [hfind] at hpick
      rw [hrow, State.rtsAccess_some (hpick.trans (if_neg hcond))]
  · rw [exec_rtsAccess p h, State.rtsAccess_none (State.rtsPick_nothing hnone)]
  · intro t b
    obtain ⟨hreqs, hbank, htally, huse, hother, honly⟩ := State.rtsIssue_shows p f hc hcls hheld hlen
    obtain ⟨hhit, hmiss, hrd, hwr, hcl, hob⟩ := tallied_moveCounts htally hcls
    refine ⟨hbank, hhit, hmiss, hrd, hwr, hcl, hob, fun hw => ?_, fun hw => ?_, hother, honly⟩
    · have herase := RtsSt.issue_write (x := s.rts c) p f hw
      exact ⟨hreqs.trans herase, huse.trans (by rw [herase, List.length_erase_of_mem hr])⟩
    · obtain ⟨hlength, hmem⟩ := RtsSt.issue_read (x := s.rts c) p f hw hr
      exact ⟨(congrArg List.length hreqs).trans hlength, hreqs ▸ hmem⟩
  · exact (exec_rtsAccessComplete tag ce h).trans (congrArg _ (State.rtsComplete_none ce hno))
  · refine (exec_rtsAccessComplete tag ce h).trans (congrArg Host.Outcome.next ((State.rtsComplete_some ce hr).trans (if_pos ?_)))
    obtain ⟨q, hq⟩ := List.exists_mem_of_ne_nil _ hold
    obtain ⟨hmem, hshare⟩ := List.mem_filter.1 hq
    exact List.any_eq_true.2 ⟨q, hmem, hshare⟩
  · refine (exec_rtsAccessComplete tag ce h).trans (congrArg Host.Outcome.next ((State.rtsComplete_some ce hr).trans (if_neg ?_)))
    intro hany
    obtain ⟨q, hmem, hshare⟩ := List.any_eq_true.1 hany
    exact List.not_mem_nil (hold ▸ List.mem_filter.2 ⟨hmem, hshare⟩)
  · rw [exec_pageIdleClose k h, State.pageIdle_closed hcl]
  · rw [exec_pageIdleClose k h, State.pageIdle_due hop hdue]; rfl

end Sys2Proof.Machine
end

section
/-!
SUPPORT. Commands that move bytes between the Root store, the counters and the host (R252, R347, R348, R370, R371, R397).
-/
namespace Sys2Proof.Machine

/-! ### What an access leaves alone above the controllers' blocks -/

/-- No register above the controllers' blocks differs. -/
def sameAboveRts (s t : State) : Prop := ∀ a, 0x6000000 ≤ a → t.reg a = s.reg a

theorem sameAboveRts.trans {s t u : State} (hst : sameAboveRts s t) (htu : sameAboveRts t u) : sameAboveRts s u :=
  fun a ha => (htu a ha).trans (hst a ha)

theorem sameAboveRts_of_regs {s t : State} (h : t.regs = s.regs) : sameAboveRts s t := fun a _ => State.reg_congr h a

theorem sameAboveRts_cntIf (s : State) (b : Bool) {a : Nat} (n : Nat) (h : a + 4 < 0x6000000) : sameAboveRts s (s.cntIf b a n) :=
  fun k hk => s.cntIf_kept b a n k fun hmem => by
    simp only [List.mem_cons, List.not_mem_nil, or_false] at hmem
    omega

theorem sameAboveRts_wr (s : State) {f : RFld} (n : Nat) (h : f.addr < 0x6000000) : sameAboveRts s (s.wr f n) :=
  fun _ hk => State.reg_wr_other s n (by omega)

theorem sameAboveRts_ite {p : Prop} [Decidable p] {s t u : State} (ht : sameAboveRts s t) (hu : sameAboveRts s u) :
    sameAboveRts s (if p then t else u) := by split <;> assumption

theorem sameAboveRts_rowCounted (s : State) {c : Nat} (hit : Bool) (hc : c < 2) : sameAboveRts s (s.rowCounted c hit) := by
  cases hit
  · exact (sameAboveRts_cntIf s true (a := RTS_ROW_MISS_CNT c) 1 (by unfold RTS_ROW_MISS_CNT; omega)).trans
      (sameAboveRts_of_regs (State.pmuEv_regs _ _ _ _))
  · exact sameAboveRts_cntIf s true (a := RTS_ROW_HIT_CNT c) 1 (by unfold RTS_ROW_HIT_CNT; omega)

theorem sameAboveRts_rtsMove (s : State) {c : Nat} {r : RtsReq} (hc : c < 2) (hcls : r.cls < 8) :
    sameAboveRts s (s.rtsMove c r) := by
  rw [State.rtsMove_eq]
  refine (sameAboveRts_of_regs (s.putRts_regs c (s.rtsMoved c r (s.rtsBank c r).2))).trans ?_
  unfold State.rtsCounted
  exact ((((sameAboveRts_rowCounted _ _ hc).trans
    (sameAboveRts_cntIf _ _ (a := RTS_RD_BYTES_CNT c) _ (by unfold RTS_RD_BYTES_CNT; omega))).trans
    (sameAboveRts_cntIf _ _ (a := RTS_WR_BYTES_CNT c) _ (by unfold RTS_WR_BYTES_CNT; omega))).trans
    (sameAboveRts_cntIf _ _ (a := RTS_CLS_BYTES_CNT c r.cls) _ (by unfold RTS_CLS_BYTES_CNT; omega))).trans
    (sameAboveRts_cntIf _ _ (a := RTS_OB_BYTES_CNT c) _ (by unfold RTS_OB_BYTES_CNT; omega))

theorem sameAboveRts_rtsTake (s : State) {r : RtsReq} (hcls : r.cls < 8) : sameAboveRts s (s.rtsTake r) := by
  have hc := s.stkOf_lt r.addr
  unfold State.rtsTake
  dsimp only
  generalize s.stkOf r.addr = c at hc ⊢
  have hraw := sameAboveRts_ite (p := (!r.write && (s.rts c).forwards r.addr r.len) = true)
    (sameAboveRts_cntIf s true (a := RTS_RAW_FWD_CNT c) 1 (by unfold RTS_RAW_FWD_CNT; omega)) (fun _ _ => rfl)
  refine (hraw.trans (sameAboveRts_of_regs (State.pmuEv_regs _ 0x30 c 1))).trans ?_
  have hhwm := fun (u : State) (n : Nat) => sameAboveRts_wr u (f := RTS_REQ_STS_HWM c) n
    (by show RTS_REQ_STS c < _; unfold RTS_REQ_STS; omega)
  exact ((hhwm _ _).trans (sameAboveRts_ite (sameAboveRts_of_regs (State.pmuEv_regs _ _ _ _)) (fun _ _ => rfl))).trans
    (sameAboveRts_rtsMove _ hc hcls)

theorem sameAboveRts_rtsUse (s : State) {cls : Nat} (a n : Nat) (w : Bool) (hcls : cls < 8) :
    sameAboveRts s (s.rtsUse cls a n w) := by
  unfold State.rtsUse
  generalize rtsParts a n = l
  induction l generalizing s with
  | nil => exact fun _ _ => rfl
  | cons p l ih => exact (sameAboveRts_rtsTake s hcls).trans (ih _)

/-! ### Bytes written to the Root store -/

theorem slice0_length (bs : List Byte) (off n : Nat) : (slice0 bs off n).length = n := by
  have hgot : (slice bs off n).length ≤ n := by unfold slice; exact List.length_take_le _ _
  unfold slice0
  simp only [List.length_append, List.length_replicate]
  omega

theorem State.rsPut_append (s : State) (a : Nat) (x y : List Byte) :
    (s.rsPut a x).rsPut (a + x.length) y = s.rsPut a (x ++ y) := by
  have hnext : ∀ (l : List Byte) (t : Tab Byte) (k : Nat),
      (l.foldl (fun (x : Tab Byte × Nat) b => (x.1.set 0 x.2 b, x.2 + 1)) (t, k)).2 = k + l.length := by
    intro l
    induction l with
    | nil => exact fun _ _ => rfl
    | cons b l ih => intro t k; rw [List.foldl_cons, ih, List.length_cons]; omega
  unfold State.rsPut
  rw [List.foldl_append, ← hnext x s.rs a]

theorem State.rsRefused_clean {s : State} (hd : s.ecc.diff = []) (hp : s.ecc.poison = []) (a n : Nat) :
    s.rsRefused a n = false := by
  unfold State.rsRefused; rw [hd, hp]; rfl

/-- Where no word has an error or a mark and no injection is armed, all bytes are written. -/
theorem State.memPut_clean {s : State} (hd : s.ecc.diff = []) (hp : s.ecc.poison = []) (harm : s.on ECC_INJ_CFG_ARM = false)
    (a : Nat) (bs : List Byte) : s.memPut a bs = (true, bs.length, s.rsPut a bs) := by
  have hput := fun (n : Nat) => State.rtsWrite_clean (s := s.rsPut a (bs.take n)) hd hp harm
  unfold State.memPut
  simp only [State.rsRefused_clean hd hp, State.rtsWrite_clean hd hp harm, Bool.false_eq_true, if_false]
  generalize ht : (if min bs.length (64 - a % 64) < bs.length then (a + bs.length) % 64 else 0) = t
  have hle : t ≤ bs.length := by split at ht <;> omega
  split
  · rename_i hzero
    rw [hzero, Nat.sub_zero, List.take_length]
  · rw [State.rsRefused_clean (s := s.rsPut a _) hd hp, hput, if_neg Bool.false_ne_true]
    have hlen : (bs.take (bs.length - t)).length = bs.length - t := by rw [List.length_take]; omega
    have happ := s.rsPut_append a (bs.take (bs.length - t)) (bs.drop (bs.length - t))
    rw [hlen, List.take_append_drop] at happ
    rw [happ]

end Sys2Proof.Machine
end

section
/-!
SUPPORT. Memory, journal and counter commands (R252, R347, R348, R370, R371, R382, R395, R397): one equation for each way they end.
-/
namespace Sys2Proof.Machine

variable {s : State} {c : Nat} {m : Cmd}

/-! ### Commands whose data crosses to or from the host (R382) -/

theorem State.withDma_off {f : State} (idx : Nat) (h : s.dmaOk = false) :
    s.withDma c idx f = (s.cmdEnd c idx 15 0).chHalt c 4 := if_neg (by simp [h])

theorem State.withDma_on {f : State} (idx : Nat) (h : s.dmaOk = true) : s.withDma c idx f = f := if_pos h

theorem State.withData_off {f : List Byte → State} (idx : Nat) (d : Option (List Byte)) (h : s.dmaOk = false) :
    s.withData c idx d f = (s.cmdEnd c idx 15 0).chHalt c 4 := if_pos (by simp [h])

theorem State.withData_none {f : List Byte → State} (idx : Nat) (h : s.dmaOk = true) :
    s.withData c idx none f = (s.cmdEnd c idx 15 0).chHalt c 1 := if_neg (by simp [h])

theorem State.withData_some {f : List Byte → State} (idx : Nat) (b : List Byte) (h : s.dmaOk = true) :
    s.withData c idx (some b) f = f b := if_neg (by simp [h])

/-! ### MEM_READ and JRN_READ -/

section
variable {base size most : Nat}

theorem State.memToHost_count (h : m.count = 0 ∨ most < m.count) :
    s.memToHost c m base size most = s.cmdEnd c m.idx 3 0 := if_pos h

theorem State.memToHost_range (h1 : 1 ≤ m.count) (hmost : m.count ≤ most) (h : size < m.param + m.count) :
    s.memToHost c m base size most = s.cmdEnd c m.idx 13 0 := (if_neg (by omega)).trans (if_pos h)

theorem State.memToHost_inside (h1 : 1 ≤ m.count) (hmost : m.count ≤ most) (h : m.param + m.count ≤ size) :
    s.memToHost c m base size most = if s.rd RTS_STS_READY ≠ 3 then s
      else s.withDma c m.idx (
        let u := ((s.trunkAsk trkHost 6 (ceilDiv m.count 256)).rtsUse clsHost (base + m.param) m.count false).rsScan
          (base + m.param) m.count
        if u.rsPoisoned (base + m.param) m.count then u.cmdPoison c m.idx 0
        else (u.hostPut m.host (u.rsRead (base + m.param) m.count)).cmdEnd c m.idx 0 m.count) :=
  (if_neg (by omega)).trans (if_neg (by omega))

end

/-! ### MEM_WRITE -/

theorem State.memWrite_count {d : Option (List Byte)} (h : m.count = 0) : s.memWrite c m d = s.cmdEnd c m.idx 3 0 := if_pos h

theorem State.memWrite_range {d : Option (List Byte)} (h1 : 1 ≤ m.count) (h : userSize < m.param + m.count) :
    s.memWrite c m d = s.cmdEnd c m.idx 13 0 := (if_neg (by omega)).trans (if_pos h)

theorem State.memWrite_protected {d : Option (List Byte)} (h1 : 1 ≤ m.count) (h : m.param + m.count ≤ userSize)
    (hp : s.protected m.param m.count = true) : s.memWrite c m d = s.cmdEnd c m.idx 14 0 :=
  (if_neg (by omega)).trans ((if_neg (by omega)).trans (if_pos hp))

theorem State.memWrite_open {d : Option (List Byte)} (h1 : 1 ≤ m.count) (h : m.param + m.count ≤ userSize)
    (hp : s.protected m.param m.count = false) : s.memWrite c m d = if s.rd RTS_STS_READY ≠ 3 then s
      else s.withData c m.idx d (fun b =>
        let r := ((s.trunkAsk trkHost 6 (ceilDiv m.count 256)).rtsUse clsHost (userBase + m.param) m.count true).memPut
          (userBase + m.param) (slice0 b 0 m.count)
        r.2.2.cmdEnd c m.idx (if r.1 then 0 else 10) r.2.1) :=
  (if_neg (by omega)).trans ((if_neg (by omega)).trans (if_neg (by simp [hp])))

/-- What the accesses of a MEM_WRITE leave alone of the codes and of an armed injection. -/
theorem State.memPut_afterUse (hd : s.ecc.diff = []) (hp : s.ecc.poison = []) (harm : s.on ECC_INJ_CFG_ARM = false) (k n a : Nat)
    (bs : List Byte) : ((s.trunkAsk trkHost 6 k).rtsUse clsHost a n true).memPut a bs =
      (true, bs.length, ((s.trunkAsk trkHost 6 k).rtsUse clsHost a n true).rsPut a bs) := by
  have hecc := State.rtsUse_ecc (s.trunkAsk trkHost 6 k) clsHost a n true
  have hreg := sameAboveRts_rtsUse (s.trunkAsk trkHost 6 k) (cls := clsHost) a n true (Nat.le_of_ble_eq_true rfl)
    ECC_INJ_CFG_ARM.addr (Nat.le_of_ble_eq_true rfl)
  refine State.memPut_clean (by rw [hecc]; exact hd) (by rw [hecc]; exact hp) ?_ a bs
  have hrd : ((s.trunkAsk trkHost 6 k).rtsUse clsHost a n true).rd ECC_INJ_CFG_ARM = s.rd ECC_INJ_CFG_ARM :=
    State.rd_of_reg (hreg.trans (State.reg_congr rfl _))
  unfold State.on at harm ⊢
  rw [hrd, harm]

/-! ### CNT_READ -/

theorem State.bar4Slot_congr {s t : State} (hregs : t.regs = s.regs) (hobs : t.obs = s.obs) (a : Nat) :
    t.bar4Slot a = s.bar4Slot a := by
  unfold State.bar4Slot State.liveSlot State.bank State.cntAt
  simp only [State.reg_congr hregs, hobs]

/-- The slots of a CNT_READ from a BAR4 offset on, to the host. -/
theorem State.cntToHost_eq {u : State} (hregs : u.regs = s.regs) (hobs : u.obs = s.obs) (a : Nat) : u.cntToHost c m a =
    ((u.trunkAsk trkHost 6 (ceilDiv (8 * m.count) 256)).hostPut m.host
      ((List.range m.count).flatMap (fun k => natLe 8 (s.bar4Slot (a + 8 * k))))).cmdEnd c m.idx 0 m.count := by
  have hslot := State.bar4Slot_congr (t := u.trunkAsk trkHost 6 (ceilDiv (8 * m.count) 256)) hregs hobs
  unfold State.cntToHost
  simp only [hslot]
  rfl

theorem State.cntRead_count (h : m.count = 0) : s.cntRead c m = s.cmdEnd c m.idx 3 0 := if_pos h

theorem State.cntRead_range (h1 : 1 ≤ m.count) (h : m.param % 2 ^ 63 % 8 ≠ 0 ∨ 0x4000000 < m.param % 2 ^ 63 + 8 * m.count) :
    s.cntRead c m = s.cmdEnd c m.idx 13 0 := (if_neg (by omega)).trans (if_pos h)

theorem State.cntRead_inside (h1 : 1 ≤ m.count) (ha : m.param % 2 ^ 63 % 8 = 0)
    (h : m.param % 2 ^ 63 + 8 * m.count ≤ 0x4000000) : s.cntRead c m = s.withDma c m.idx (
      if bit m.param 63 && decide (m.param % 2 ^ 63 < 0x1000000) then
        (({ s with svn := { s.svn with snapAt := s.svn.snapAt.insert (65536 * c + m.idx) (s.now islMgmt + 2000) } } : State).snapAsk
          (s.now islMgmt + 2000)).cmdStarted c m.idx
      else s.cntToHost c m (m.param % 2 ^ 63)) := (if_neg (by omega)).trans (if_neg (by omega))

/-- Slots read at once: of the live bank without a snapshot asked for, or outside it. -/
theorem State.cntRead_live (h1 : 1 ≤ m.count) (ha : m.param % 2 ^ 63 % 8 = 0) (h : m.param % 2 ^ 63 + 8 * m.count ≤ 0x4000000)
    (hdma : s.dmaOk = true) (hlive : bit m.param 63 = false ∨ 0x1000000 ≤ m.param % 2 ^ 63) :
    s.cntRead c m = s.cntToHost c m (m.param % 2 ^ 63) := by
  refine (State.cntRead_inside h1 ha h).trans ((State.withDma_on _ hdma).trans (if_neg ?_))
  rw [Bool.and_eq_true, decide_eq_true_iff]
  rintro ⟨hbit, hlow⟩
  rcases hlive with hb | hb
  · exact Bool.false_ne_true (hb.symm.trans hbit)
  · exact absurd hlow (Nat.not_lt.2 hb)

/-- A snapshot of the live bank scheduled. -/
theorem State.cntRead_snap (h1 : 1 ≤ m.count) (ha : m.param % 2 ^ 63 % 8 = 0) (h : m.param % 2 ^ 63 + 8 * m.count ≤ 0x4000000)
    (hdma : s.dmaOk = true) (hbit : bit m.param 63 = true) (hlow : m.param % 2 ^ 63 < 0x1000000) : s.cntRead c m =
      (({ s with svn := { s.svn with snapAt := s.svn.snapAt.insert (65536 * c + m.idx) (s.now islMgmt + 2000) } } : State).snapAsk
        (s.now islMgmt + 2000)).cmdStarted c m.idx := by
  refine (State.cntRead_inside h1 ha h).trans ((State.withDma_on _ hdma).trans (if_pos ?_))
  rw [hbit, decide_eq_true hlow]
  rfl

/-- The row of a CNT_READ that has scheduled no snapshot. -/
theorem exec_cntRead_fresh {c : BitVec 10} {i : BitVec 16} (halive : s.alive islMgmt = true)
    (h : s.readyCmd c.toNat i.toNat 0x23 m) (hno : s.svn.snapAt.find? (65536 * c.toNat + i.toNat) = none) :
    exec (.cntRead c i) s = .next (s.cntRead c.toNat m) := by
  have hrow : s.cntCmd c.toNat i.toNat = s.cmdRun c.toNat i.toNat 0x23 (fun m s => s.cntRead c.toNat m) := by
    unfold State.cntCmd
    rw [hno]
    split
    · contradiction
    · rfl
  have hrun : exec (.cntRead c i) s = .next (s.cntCmd c.toNat i.toNat) := onIsl_up (f := (·.cntCmd c.toNat i.toNat)) halive
  rw [hrun, hrow]
  exact (onIsl_up (f := (·.cmdRun c.toNat i.toNat 0x23 (fun m s => s.cntRead c.toNat m))) halive).symm.trans
    (onCmd_ready halive h)

/-- The row of a CNT_READ whose snapshot has been scheduled. -/
theorem exec_cntRead_goOn {c : BitVec 10} {i : BitVec 16} {t : Nat} (halive : s.alive islMgmt = true)
    (h : (s.chan c.toNat).flight.find? (fun q => q.idx == i.toNat && q.started && q.fin.isNone) = some m)
    (ht : s.svn.snapAt.find? (65536 * c.toNat + i.toNat) = some t) (hdma : s.dmaOk = true) :
    m.idx = i.toNat ∧ exec (.cntRead c i) s = .next (s.cntGoOn c.toNat m t) := by
  have hrun : exec (.cntRead c i) s = .next (s.cntCmd c.toNat i.toNat) := onIsl_up (f := (·.cntCmd c.toNat i.toNat)) halive
  have hfound := List.find?_some h
  simp only [Bool.and_eq_true, beq_iff_eq] at hfound
  refine ⟨hfound.1.1, hrun.trans (congrArg _ ?_)⟩
  unfold State.cntCmd
  rw [h, ht]
  exact State.withDma_on _ hdma

/-- From which slots a CNT_READ goes on, once its snapshot is due. -/
theorem State.cntGoOn_due {t : Nat} (h : t ∉ s.obs.snapDue) : s.cntGoOn c m t =
    let e : State := { s with svn := { s.svn with snapAt := s.svn.snapAt.erase (65536 * c + m.idx) } }
    let at_ := m.param % 2 ^ 63
    if s.obs.bank0.t = t then (if s.obs.bank0.done then e.cntToHost c m (0x1000000 + at_) else s)
    else if s.obs.bank1.t = t then (if s.obs.bank1.done then e.cntToHost c m (0x2000000 + at_) else s)
    else e.cntToHost c m (0 + at_) := if_neg (by simpa using h)

theorem State.cntGoOn_early {t : Nat} (h : t ∈ s.obs.snapDue) : s.cntGoOn c m t = s := if_pos (by simpa using h)

end Sys2Proof.Machine
end

section
/-!
SUPPORT. Injection and posted buffers (R272, R273, R372 to R375): the commands, and what an injected packet is.
-/
namespace Sys2Proof.Machine

/-! ### An island's time, for any island -/

/-- The time island's registers and an island's stop give the island's time. -/
theorem State.now_of_stop {s t : State} {i : Nat} (ht : t.time = s.time) (hr : ∀ a, belowPorts a → t.reg a = s.reg a)
    (hi : t.islStopped i = s.islStopped i) : t.now i = s.now i := by
  have hfreq : t.freqOff = s.freqOff := by unfold State.freqOff; rw [hr _ (by decide)]
  have hslew : t.slewStep = s.slewStep := by
    unfold State.slewStep
    rw [State.rd_of_reg (f := TIM_SLEW_CFG_MAX) (hr _ (by decide)), hfreq, ht]
  have htime : t.islStopped islTime = s.islStopped islTime := by
    unfold State.islStopped
    rw [State.rd_of_reg (f := CLK_ISL_FAIL_ISL (islTime / 32)) (hr _ (by decide))]
  have hfine : t.accFine = s.accFine := by unfold State.accFine State.sentRate; rw [hfreq, hslew, ht, htime]
  have hcopy : t.copyNow i = s.copyNow i := by
    unfold State.copyNow State.copyOld State.agrees State.rawCopy; rw [hfine, ht, hi]
  unfold State.now State.localAcc
  rw [hcopy, ht]

/-! ### The commands (R372 to R374) -/

section
variable {s : State} {c : Nat} {m : Cmd} {cls : Option Nat} {d : Option (List Byte)}

theorem State.injCmd_invalid (g : Nat) (h : s.injValid (leAt m.desc 2 1) (leAt m.desc 8 2) = false) :
    s.injCmd c m g cls d = s.cmdEnd c m.idx 3 0 := if_pos (by simp [h])

theorem State.injCmd_valid (g : Nat) (h : s.injValid (leAt m.desc 2 1) (leAt m.desc 8 2) = true) :
    s.injCmd c m g cls d = s.withData c m.idx d (fun b =>
      if !s.allocMay (portBough (leAt m.desc 2 1)) (leAt m.desc 8 2 + 4) 8 then s
      else
      match s.inject (leAt m.desc 2 1) g cls false (slice0 b 0 (leAt m.desc 8 2)) with
      | some s => (s.cnt SVN_INJ_CNT).cmdEnd c m.idx 0 0
      | none => if m.held then s else (s.modCmd c m.idx ({ · with held := true })).cnt SVN_INJ_WAIT_CNT) :=
  if_neg (by simp [h])

section
variable {b : List Byte} {g : Nat} (hval : s.injValid (leAt m.desc 2 1) (leAt m.desc 8 2) = true) (hdma : s.dmaOk = true)
include hval hdma

/-- Before the turn of owner 8 (R273). -/
theorem State.injCmd_notTurn (hturn : s.allocMay (portBough (leAt m.desc 2 1)) (leAt m.desc 8 2 + 4) 8 = false) :
    s.injCmd c m g cls (some b) = s := by
  rw [State.injCmd_valid g hval, State.withData_some _ _ hdma, hturn]
  rfl

theorem State.injCmd_placed {u : State} (hturn : s.allocMay (portBough (leAt m.desc 2 1)) (leAt m.desc 8 2 + 4) 8 = true)
    (hu : s.inject (leAt m.desc 2 1) g cls false (slice0 b 0 (leAt m.desc 8 2)) = some u) :
    s.injCmd c m g cls (some b) = (u.cnt SVN_INJ_CNT).cmdEnd c m.idx 0 0 := by
  rw [State.injCmd_valid g hval, State.withData_some _ _ hdma, hturn, hu]
  rfl

theorem State.injCmd_lacking (hturn : s.allocMay (portBough (leAt m.desc 2 1)) (leAt m.desc 8 2 + 4) 8 = true)
    (hu : s.inject (leAt m.desc 2 1) g cls false (slice0 b 0 (leAt m.desc 8 2)) = none) : s.injCmd c m g cls (some b) =
      if m.held then s else (s.modCmd c m.idx ({ · with held := true })).cnt SVN_INJ_WAIT_CNT := by
  rw [State.injCmd_valid g hval, State.withData_some _ _ hdma, hturn, hu]
  rfl

end

end

/-! ### The injected packet (R373) -/

/-- Where the tag sought from `t` on is found, it is free. -/
theorem State.tagFrom_free {s : State} {b n t g : Nat} (ht : t < 8192) (h : s.tagFrom b n t = some g) :
    g < 8192 ∧ s.pkt? (pkey b g) = none := by
  induction n generalizing t with
  | zero => exact absurd h (by simp [State.tagFrom])
  | succ n ih =>
    unfold State.tagFrom at h
    split at h
    · rename_i hfree
      obtain rfl := Option.some.inj h
      rw [Bool.and_eq_true] at hfree
      exact ⟨ht, Option.isNone_iff_eq_none.1 hfree.1⟩
    · exact ih (Nat.mod_lt _ (by decide)) h

/-- An injected packet in tag `g` of its port's bough, with its buffer at unit `u` of pool `q`. -/
def State.injectedPkt (s : State) (port g u q : Nat) (cls : Option Nat) (exp ue : Bool) (f : List Byte) : Pkt :=
  let p := match cls with | some c => s.injPortPkt port c (s.injPkt port g f) | none => s.injPkt port g f
  { p with exp := exp, hasBuf := true, stUe := ue, bark := { p.bark with buf := u, pool := q } }

/-- The state in which an injected packet takes its tag: its buffer is taken, its words have met an armed injection. -/
def State.injectReady (s : State) (port g q n : Nat) : Bool × State :=
  ((s.rrServed (rrAlloc (portBough port)) 9 8).bufTaken (portBough port) 8 g q (q != firstFit n)).injPacket 4 (ceilDiv n 8)
    (portBough port) (islBough (portBough port))

theorem State.inject_some {s u : State} {port t : Nat} {cls : Option Nat} {exp : Bool} {f : List Byte}
    (h : s.inject port t cls exp f = some u) : ∃ g q, s.tagFrom (portBough port) 8192 t = some g ∧ q < 4 ∧
      let s1 := (s.rrServed (rrAlloc (portBough port)) 9 8).bufTaken (portBough port) 8 g q (q != firstFit (f.length + 4))
      let r := s.injectReady port g q (f.length + 4)
      let p := s1.injectedPkt port g ((s.rrServed (rrAlloc (portBough port)) 9 8).lowestBuf (portBough port) q) q cls exp r.1 f
      let w := (r.2.nextSeq port).takeTag (portBough port) g p
      u = if cls.isSome then w.genTake (portBough port) else w := by
  unfold State.inject at h
  dsimp only at h
  split at h
  · contradiction
  · split at h
    · contradiction
    · rename_i g hg
      cases hq : (s.rrServed (rrAlloc (portBough port)) 9 8).allocPool (portBough port) 8 4 (firstFit (f.length + 4)) with
      | none => rw [State.bufAlloc_none g hq] at h; contradiction
      | some q =>
        rw [State.bufAlloc_some g hq] at h
        exact ⟨g, q, hg, State.allocPool_lt hq, (Option.some.inj h).symm⟩

/-- What an allocation for owner 8 leaves alone: the packets, the ports, and time as the bough reads it. -/
theorem State.injectAlloc_keeps (s : State) (b g : Nat) {q : Nat} (spill : Bool) (hq : q < 4) :
    let t := (s.rrServed (rrAlloc b) 9 8).bufTaken b 8 g q spill
    t.pkts = s.pkts ∧ t.ports = s.ports ∧ t.now (islBough b) = s.now (islBough b) := by
  obtain ⟨⟨R, O, honly⟩, -, hkept⟩ :=
    State.bufTaken_shows (s.rrServed (rrAlloc b) 9 8) (b := b) (o := 8) g spill (Nat.le_refl 8) hq
  generalize (s.rrServed (rrAlloc b) 9 8).bufTaken b 8 g q spill = t at honly hkept ⊢
  have hreg : ∀ a, a < 0x6010000 + 0x10000 * b → t.reg a = s.reg a := fun a ha => hkept a fun h => by
    simp only [allocRegs, List.mem_cons, List.not_mem_nil, or_false, CRN_USE, CRN_POOL_STS, CRN_STORE_STS, CRN_ALLOC_CNT,
      CRN_SPILL_CNT] at h
    omega
  refine ⟨(congrArg State.pkts honly :), (congrArg State.ports honly :),
    State.now_of_stop (congrArg State.time honly :) (fun a ha => hreg a (Nat.lt_of_lt_of_le ha (by omega))) ?_⟩
  unfold State.islStopped
  rw [State.rd_of_reg (hreg _ ?_)]
  show CLK_ISL_FAIL (islBough b / 32) < _
  unfold CLK_ISL_FAIL islBough
  omega

theorem State.genTake_pkts (s : State) (b : Nat) : (s.genTake b).pkts = s.pkts := rfl

theorem State.injectReady_pkts (s : State) (port g n : Nat) {q : Nat} (hq : q < 4) :
    (s.injectReady port g q n).2.pkts = s.pkts :=
  (State.injPacket_pkts _ _ _ _ _).trans (s.injectAlloc_keeps (portBough port) g _ hq).1

/-- The fields of an injected packet (R373). -/
theorem State.injectedPkt_fields (s : State) (port g u q : Nat) (cls : Option Nat) (exp ue : Bool) (f : List Byte) :
    let p := s.injectedPkt port g u q cls exp ue f
    p.bytes = withFcs f ∧ p.bark.ingPort = port ∧ p.bark.arrTs = s.now (islBough (portBough port)) ∧
      p.bark.seq = (s.port port).seq ∧ p.host = true ∧ p.ended = true ∧ p.hasBuf = true ∧ (cls = none → p.bark.inj = false) ∧
      ∀ k, cls = some k → p.bark.inj = true ∧ p.bark.egr = port ∧ p.bark.cls = k ∧ p.stage = .toAdmit := by
  cases cls with
  | none => exact ⟨rfl, rfl, rfl, rfl, rfl, rfl, rfl, fun _ => rfl, fun k hk => by cases hk⟩
  | some c =>
    refine ⟨rfl, rfl, rfl, rfl, rfl, rfl, rfl, fun h => (by cases h), fun k hk => ?_⟩
    cases hk
    exact ⟨rfl, rfl, rfl, rfl⟩

/-- A tag taken after the SEQ of its port, and the generation counted where asked for: which packet stands under which key. -/
theorem State.pkt?_injected (s : State) (port g k : Nat) (x : Pkt) (gen : Bool) :
    let w := (s.nextSeq port).takeTag (portBough port) g x
    (if gen then w.genTake (portBough port) else w).pkt? k = if pkey (portBough port) g = k then some x else s.pkt? k := by
  intro w
  have hput : w.pkt? k = if pkey (portBough port) g = k then some x else s.pkt? k :=
    (State.pkt?_takeTag _ _ _ _ _).trans (State.pkt?_putPkt _ _ _ _)
  cases gen with
  | false => exact hput
  | true => exact (State.pkt?_congr (w.genTake_pkts _) k).trans hput

/-- An injected packet stands in a tag that was free; every other packet stays. -/
theorem State.inject_places {s u : State} {port t : Nat} {cls : Option Nat} {exp : Bool} {f : List Byte} (ht : t < 8192)
    (h : s.inject port t cls exp f = some u) : ∃ (g n q : Nat) (ue : Bool) (a : State), g < 8192 ∧
      s.pkt? (pkey (portBough port) g) = none ∧
      (∀ k, u.pkt? k = if pkey (portBough port) g = k then some (a.injectedPkt port g n q cls exp ue f) else s.pkt? k) ∧
      a.ports = s.ports ∧ a.now (islBough (portBough port)) = s.now (islBough (portBough port)) := by
  obtain ⟨g, q, htag, hq, hu⟩ := State.inject_some h
  obtain ⟨hg, hfree⟩ := State.tagFrom_free ht htag
  obtain ⟨-, hports, hnow⟩ := s.injectAlloc_keeps (portBough port) g (q != firstFit (f.length + 4)) hq
  have hready := s.injectReady_pkts port g (f.length + 4) hq
  refine ⟨g, (s.rrServed (rrAlloc (portBough port)) 9 8).lowestBuf (portBough port) q, q,
    (s.injectReady port g q (f.length + 4)).1, _, hg, hfree, fun k => ?_, hports, hnow⟩
  rw [hu, State.pkt?_injected, State.pkt?_congr hready]

end Sys2Proof.Machine
end

section
/-!
SUPPORT. Copies to the host and event streams (R365, R374, R375, R421): one equation for each row.
-/
namespace Sys2Proof.Machine

variable {s : State} {k c : Nat} {p : Pkt} {h : HostCopy}

/-! ### Completion rings (R365) -/

/-- A completion ring is full or has a free slot. -/
theorem ChSt.cqFull_eq (x : ChSt) : x.cqFull = !decide (x.cqOut + x.comps.length < 2 ^ (x.cqLog + 4)) := by
  unfold ChSt.cqFull ChSt.cqSize
  rw [← decide_not]
  simp only [Nat.not_lt]

/-! ### Posted buffers filled (R374) -/

/-- Content that fits the first posted buffer. -/
theorem State.putBufs_one (op info : Nat) {bs : List Byte} {b : PostedBuf} {l : List PostedBuf} (hb : (s.chan c).bufs = b :: l)
    (hlen : bs.length ≤ 256 * (s.chan c).bufUnits) : s.putBufs c 1 op info bs = (s.hostPut b.addr bs).putChan c { s.chan c with
      bufs := l, comps := (s.chan c).comps ++ [⟨b.idx, b.irq, true, true, bs.length, info, op⟩] } := by
  have hfill : fillBufs (s.chan c).bufBytes op info true ((s.chan c).bufs.take 1) bs =
      ([(b.addr, bs)], [⟨b.idx, b.irq, true, true, bs.length, info, op⟩]) := by
    rw [hb]
    have hpart : bs.take (s.chan c).bufBytes = bs := List.take_of_length_le hlen
    simp only [List.take_succ_cons, List.take_zero, fillBufs, hpart, List.isEmpty_nil]
  unfold State.putBufs
  dsimp only
  rw [hfill, hb]
  rfl

/-! ### Copies (R374) -/

/-- Another packet's copy for the channel has been ready for longer than copy `h` of an ended packet. -/
def State.readyLonger (s : State) (k c : Nat) (p : Pkt) (h : HostCopy) : Bool :=
  s.pkts.any (fun e => e.1 != k && e.2.ended && (e.2.copyTo c).any (fun x => decide (max x.at_ e.2.endAt < max h.at_ p.endAt)))

theorem State.copyBehind_eq (hend : p.ended = true) (hcopy : p.copyTo c = some h) : s.copyBehind k c p = s.readyLonger k c p h := by
  unfold State.copyBehind State.readyLonger
  refine congrArg (List.any s.pkts) (funext fun e => ?_)
  have hready : p.readyAt c = some (max h.at_ p.endAt) := by unfold Pkt.readyAt; rw [if_pos hend, hcopy]; rfl
  rw [hready, Bool.and_assoc]
  congr 1
  unfold Pkt.readyAt
  cases e.2.ended
  · rfl
  · cases e.2.copyTo c <;> rfl

/-- Whether a copy is written to its channel now. -/
def State.canDeliver (s : State) (k c : Nat) (p : Pkt) (h : HostCopy) : Bool :=
  let x := s.chan c
  p.ended && decide (x.st = 1) && decide (x.typ = 3) && s.cached c &&
    decide (ceilDiv (48 + p.bytes.length) (max 1 (256 * x.bufUnits)) ≤ x.bufs.length) &&
    decide (x.cqOut + x.comps.length < 2 ^ (x.cqLog + 4)) && !s.readyLonger k c p h

theorem ChSt.takesCopies_eq (x : ChSt) : x.takesCopies = (decide (x.st = 1) && decide (x.typ = 3)) := rfl

theorem ChSt.takesCopies_true {x : ChSt} (hst : x.st = 1) (htyp : x.typ = 3) : x.takesCopies = true := by
  rw [ChSt.takesCopies_eq, decide_eq_true hst, decide_eq_true htyp]; rfl

theorem State.canDeliver_iff (hcopy : p.copyTo c = some h) : (!p.ended || !(s.chan c).takesCopies || (s.chan c).cqFull ||
    !s.cached c || decide ((s.chan c).bufs.length < (s.chan c).copyBufs p) || s.copyBehind k c p) = !s.canDeliver k c p h := by
  unfold State.canDeliver
  rw [ChSt.cqFull_eq, ChSt.takesCopies_eq]
  cases hend : p.ended with
  | false => rfl
  | true =>
    have hroom : decide ((s.chan c).bufs.length < (s.chan c).copyBufs p) =
        !decide (ceilDiv (48 + p.bytes.length) (max 1 (256 * (s.chan c).bufUnits)) ≤ (s.chan c).bufs.length) := by
      rw [← decide_not]; simp only [Nat.not_le]; rfl
    rw [State.copyBehind_eq hend hcopy, hroom]
    simp only [Bool.not_and, Bool.not_not, Bool.not_true, Bool.false_or, Bool.true_and]
    ac_rfl

/-- A copy written to its channel (R374). -/
def State.copyDelivered (s : State) (k c : Nat) (p : Pkt) (h : HostCopy) : State :=
  ((((s.touch c).putBufs c (ceilDiv (48 + p.bytes.length) (max 1 (256 * (s.chan c).bufUnits))) 0x40 h.info
    (barkBytes p.bark ++ p.bytes)).cnt SVN_RX_CNT).copyGone k c).settle k

theorem State.hostCopyDeliver_eq (hp : s.pkt? k = some p) (hcopy : p.copyTo c = some h) : s.hostCopyDeliver k c =
    if p.stUe then (s.modPkt k ({ · with hostCopies := [] })).settle k
    else if s.canDeliver k c p h then (if s.dmaOk then s.copyDelivered k c p h else s.chHalt c 4)
    else s := by
  have hrow : s.hostCopyDeliver k c = if p.stUe then (s.modPkt k ({ · with hostCopies := [] })).settle k
      else if !s.canDeliver k c p h then s
      else if !s.dmaOk then s.chHalt c 4
      else s.copyDelivered k c p h := by
    rw [← State.canDeliver_iff hcopy]
    unfold State.hostCopyDeliver
    rw [hp]
    dsimp only
    rw [hcopy]
    rfl
  rw [hrow]
  cases s.canDeliver k c p h <;> cases s.dmaOk <;> rfl

/-- A copy given up (R374). -/
def State.copyGivenUp (s : State) (k c : Nat) : State :=
  (((s.copyGone k c).cnt SVN_RX_GIVEUP_CNT).raise SVN_INT_RX_GIVEUP).settle k

theorem State.rxGiveup_eq (hp : s.pkt? k = some p) (hcopy : p.copyTo c = some h) : s.rxGiveup k c =
    if !(s.chan c).takesCopies then s.copyGivenUp k c
    else if !p.ended || decide ((s.chan c).copyBufs p ≤ (s.chan c).bufs.length) then s
    else (s.waitMono (p.endAt + s.rd SVN_RX_CFG_WAIT * 8000)).copyGivenUp k c := by
  unfold State.rxGiveup
  rw [hp]
  dsimp only
  rw [hcopy]
  rfl

theorem State.rxGiveup_closed (hp : s.pkt? k = some p) (hcopy : p.copyTo c = some h) (hoff : (s.chan c).takesCopies = false) :
    s.rxGiveup k c = s.copyGivenUp k c := by
  rw [State.rxGiveup_eq hp hcopy, hoff]; rfl

section
variable (hp : s.pkt? k = some p) (hcopy : p.copyTo c = some h) (hst : (s.chan c).st = 1) (htyp : (s.chan c).typ = 3)
include hp hcopy hst htyp

/-- While the frame has not ended or there are buffers enough, a copy is not given up. -/
theorem State.rxGiveup_waits (hwait : p.ended = false ∨ (s.chan c).copyBufs p ≤ (s.chan c).bufs.length) :
    s.rxGiveup k c = s := by
  have htakes := ChSt.takesCopies_true hst htyp
  refine (State.rxGiveup_eq hp hcopy).trans ((if_neg (by rw [htakes]; decide)).trans (if_pos ?_))
  rcases hwait with hw | hw <;> simp [hw]

theorem State.rxGiveup_due (hend : p.ended = true) (hfew : (s.chan c).bufs.length < (s.chan c).copyBufs p)
    (hdue : p.endAt + s.rd SVN_RX_CFG_WAIT * 8000 ≤ s.time.mono) : s.rxGiveup k c = s.copyGivenUp k c := by
  have htakes := ChSt.takesCopies_true hst htyp
  rw [State.rxGiveup_eq hp hcopy, State.waitMono_due _ _ hdue]
  exact (if_neg (by rw [htakes]; decide)).trans (if_neg (by simp [hend, hfew]))

end

/-! ### Streams (R421) -/

section
variable {st : Nat}

theorem State.streamChan_none (hno : ∀ e ∈ s.svn.ch, e.2.st = 1 → e.2.typ = 4 → bit e.2.evSel st = false) :
    s.streamChan st = none := by
  refine Option.map_eq_none_iff.2 (List.find?_eq_none.2 fun e he hsel => ?_)
  simp only [Bool.and_eq_true, beq_iff_eq] at hsel
  obtain ⟨⟨hst, htyp⟩, hbit⟩ := hsel
  exact Bool.false_ne_true ((hno e he hst htyp).symm.trans hbit)

theorem State.evEntryPut_none (hno : s.streamChan st = none) : s.evEntryPut st = s := by
  unfold State.evEntryPut; rw [hno]

/-- The state from which a stream's entry is read: journal records overwritten are skipped. -/
def State.evSkipped (s : State) (st c : Nat) : State := if st = 0 then s.jrnSkip c else s

/-- The state once a stream's entry has been read: a journal record by an access. -/
def State.evRead (s : State) (st c : Nat) : State :=
  if st = 0 then (s.rtsUse clsHost (jrnAddr (s.obs.evJrn.get 0 c)) 32 false).rsScan (jrnAddr (s.obs.evJrn.get 0 c)) 32 else s

/-- A stream's entry delivered to its channel, once its body has been found (R421, R382). -/
def State.evDeliver (s : State) (st c : Nat) (body : List Byte) : State :=
  let w := s.evRead st c
  if st = 0 && w.rsPoisoned (jrnAddr (s.obs.evJrn.get 0 c)) 32 then w.chHalt c 2
  else match w.evWrite c (evEntry st (w.obs.evCount.get 0 st) body) with
    | some u => (u.touch c).evTake st c
    | none => w

theorem State.evEntryPut_some (hc : s.streamChan st = some c) : s.evEntryPut st =
    if !s.cached c || (s.chan c).cqFull then s
    else if !s.dmaOk then s.chHalt c 4
    else match (s.evSkipped st c).evBody st c with
      | none => s.evSkipped st c
      | some body => (s.evSkipped st c).evDeliver st c body := by
  unfold State.evEntryPut
  rw [hc]
  rfl

/-- While its channel is not cached or its ring is full, a stream waits. -/
theorem State.evEntryPut_waits (hc : s.streamChan st = some c) (hno : s.cached c = false ∨ (s.chan c).cqFull = true) :
    s.evEntryPut st = s := by
  refine (State.evEntryPut_some hc).trans (if_pos ?_)
  rcases hno with h | h <;> simp [h]

section
variable (hc : s.streamChan st = some c) (hcached : s.cached c = true) (hroom : (s.chan c).cqFull = false)
include hc hcached hroom

theorem State.evEntryPut_halts (hdma : s.dmaOk = false) : s.evEntryPut st = s.chHalt c 4 := by
  rw [State.evEntryPut_some hc, hcached, hroom, hdma]; rfl

theorem State.evEntryPut_empty (hdma : s.dmaOk = true) (hbody : (s.evSkipped st c).evBody st c = none) :
    s.evEntryPut st = s.evSkipped st c := by
  rw [State.evEntryPut_some hc, hcached, hroom, hdma, hbody]; rfl

theorem State.evEntryPut_delivers {body : List Byte} (hdma : s.dmaOk = true)
    (hbody : (s.evSkipped st c).evBody st c = some body) : s.evEntryPut st = (s.evSkipped st c).evDeliver st c body := by
  rw [State.evEntryPut_some hc, hcached, hroom, hdma, hbody]; rfl

end

theorem State.evDeliver_poisoned {body : List Byte} (h0 : st = 0)
    (hpois : (s.evRead st c).rsPoisoned (jrnAddr (s.obs.evJrn.get 0 c)) 32 = true) :
    s.evDeliver st c body = (s.evRead st c).chHalt c 2 := if_pos (by
    rw [hpois, decide_eq_true h0]; rfl)

section
variable {body : List Byte} (hok : st = 0 → (s.evRead st c).rsPoisoned (jrnAddr (s.obs.evJrn.get 0 c)) 32 = false)
include hok

theorem State.evDeliver_clean : s.evDeliver st c body =
    match (s.evRead st c).evWrite c (evEntry st ((s.evRead st c).obs.evCount.get 0 st) body) with
    | some u => (u.touch c).evTake st c
    | none => s.evRead st c := by
  refine if_neg ?_
  rw [Bool.and_eq_true, decide_eq_true_iff]
  rintro ⟨h0, hpois⟩
  exact Bool.false_ne_true ((hok h0).symm.trans hpois)

/-- Without buffers enough, an entry waits. -/
theorem State.evDeliver_waits
    (hno : (s.evRead st c).evWrite c (evEntry st ((s.evRead st c).obs.evCount.get 0 st) body) = none) :
    s.evDeliver st c body = s.evRead st c := by
  rw [State.evDeliver_clean hok, hno]

theorem State.evDeliver_written {u : State}
    (hu : (s.evRead st c).evWrite c (evEntry st ((s.evRead st c).obs.evCount.get 0 st) body) = some u) :
    s.evDeliver st c body = (u.touch c).evTake st c := by
  rw [State.evDeliver_clean hok, hu]

end

end

theorem State.evBody_queue (q : Nat) (h3 : 3 ≤ q) : s.evBody q c = (s.obs.evQ.get [] q).head? := by
  obtain ⟨n, rfl⟩ := Nat.exists_eq_add_of_le' h3
  rfl

theorem State.evTake_queue (q : Nat) (h3 : 3 ≤ q) : s.evTake q c = { s with obs := { s.obs with
    evCount := s.obs.evCount.set 0 q ((s.obs.evCount.get 0 q + 1) % 2 ^ 32)
    evQ := s.obs.evQ.set [] q (s.obs.evQ.get [] q).tail } } := by
  rw [← List.drop_one]
  obtain ⟨n, rfl⟩ := Nat.exists_eq_add_of_le' h3
  rfl

/-! ### A buffer that has held a partial content for FLUSH -/

theorem State.evFlush_idle (hidle : (s.chan c).evFill = 0 ∨ (s.chan c).st ≠ 1 ∨ (s.chan c).cqFull = true) : s.evFlush c = s := by
  unfold State.evFlush
  refine if_pos ?_
  rcases hidle with h | h | h <;> simp [h]

theorem State.evFlush_due {b : PostedBuf} {l : List PostedBuf} (hfill : (s.chan c).evFill ≠ 0) (hst : (s.chan c).st = 1)
    (hroom : (s.chan c).cqFull = false) (hb : (s.chan c).bufs = b :: l)
    (hdue : (s.chan c).evAt + 8000 * max 1 (s.rd OBS_EV_CFG_FLUSH) ≤ s.time.mono) : s.evFlush c = s.putChan c { s.chan c with
      bufs := l, evFill := 0, comps := (s.chan c).comps ++ [⟨b.idx, b.irq, true, true, (s.chan c).evFill, 0, 0x41⟩] } := by
  unfold State.evFlush
  dsimp only
  rw [if_neg (by simp [hfill, hst, hroom]), State.waitMono_due _ _ hdue]
  unfold State.evClose
  dsimp only
  rw [hb]
  exact if_neg hfill

end Sys2Proof.Machine
end

section
/-!
SUPPORT. Memory, journal and counters to and from the host, injected frames, copies and events (O56): the rows of chapter 13
that move them, each by the equations of its command.
-/
namespace Sys2Proof.Machine

/-! ### The rows -/

section
variable {s : State} {c : BitVec 10} {i : BitVec 16} {m : Cmd}

theorem State.readyCmd_idx {c i op : Nat} (h : s.readyCmd c i op m) : m.idx = i := by
  obtain ⟨-, hidx, -⟩ := h; exact hidx

/-- The rows MEM_READ and JRN_READ. -/
theorem exec_memToHost {op base size most : Nat} {j : Instr} (halive : s.alive islMgmt = true)
    (hj : (op, j, base, size, most) ∈ [(0x20, Instr.memRead c i, 0x800000000, 0x400000000, 2 ^ 24),
      (0x22, .jrnRead c i, 0x500000000, 0x200000000, 2 ^ 32)]) (h : s.readyCmd c.toNat i.toNat op m) :
    exec j s = .next (s.memToHost c.toNat m base size most) := by
  simp only [List.mem_cons, List.not_mem_nil, or_false, Prod.mk.injEq] at hj
  rcases hj with ⟨rfl, rfl, rfl, rfl, rfl⟩ | ⟨rfl, rfl, rfl, rfl, rfl⟩
  · exact onCmd_ready halive h
  · exact onCmd_ready halive h

/-- The rows INJ_PIPE and INJ_PORT. -/
theorem exec_inj {op : Nat} {j : Instr} {g : Fin 8192} {d : Option (List Byte)} {cls : Option Nat}
    (halive : s.alive islMgmt = true) (hj : (op, j, cls) ∈ [(0x30, Instr.injPipe c i g d, none),
      (0x31, .injPort c i g d, some (leAt m.desc 3 1 % 16))]) (h : s.readyCmd c.toNat i.toNat op m) :
    exec j s = .next (s.injCmd c.toNat m g.val cls d) := by
  simp only [List.mem_cons, List.not_mem_nil, or_false, Prod.mk.injEq] at hj
  rcases hj with ⟨rfl, rfl, rfl⟩ | ⟨rfl, rfl, rfl⟩
  · exact onCmd_ready halive h
  · exact onCmd_ready halive h

/-- The rows RX_BUF and EV_BUF. -/
theorem exec_bufPost {op : Nat} {j : Instr} (halive : s.alive islMgmt = true)
    (hj : (op, j) ∈ [(0x40, Instr.rxBuf c i), (0x41, .evBuf c i)]) (h : s.readyCmd c.toNat i.toNat op m) :
    exec j s = .next (s.bufPost c.toNat m) := by
  simp only [List.mem_cons, List.not_mem_nil, or_false, Prod.mk.injEq] at hj
  rcases hj with ⟨rfl, rfl⟩ | ⟨rfl, rfl⟩
  · exact onCmd_ready halive h
  · exact onCmd_ready halive h

theorem exec_hostCopyDeliver (b : Fin 32) (g : BitVec 13) (c : BitVec 10) (h : s.alive islPcie = true) :
    exec (.hostCopyDeliver b g c) s = .next (s.hostCopyDeliver (pkey b.val g.toNat) c.toNat) :=
  onIsl_up (f := (·.hostCopyDeliver (pkey b.val g.toNat) c.toNat)) h

theorem exec_rxCopyGiveup (b : Fin 32) (g : BitVec 13) (c : BitVec 10) (h : s.alive islPcie = true) :
    exec (.rxCopyGiveup b g c) s = .next (s.rxGiveup (pkey b.val g.toNat) c.toNat) :=
  onIsl_up (f := (·.rxGiveup (pkey b.val g.toNat) c.toNat)) h

theorem exec_evStreamEntry (st : Fin 5) (h : s.alive islPcie = true) :
    exec (.evStreamEntry st) s = .next (s.evEntryPut st.val) := onIsl_up (f := (·.evEntryPut st.val)) h

theorem exec_evBufferFlush (c : BitVec 10) (h : s.alive islPcie = true) :
    exec (.evBufferFlush c) s = .next (s.evFlush c.toNat) := onIsl_up (f := (·.evFlush c.toNat)) h

end

/-- Settles O56: the commands one by one, then the injected packet, the posted buffers, copies and streams. -/
theorem memoryInjectionAndStreams : Obligations.MemoryInjectionAndStreams := by
  unfold Obligations.MemoryInjectionAndStreams
  refine ⟨fun s c i d m halive => ?_, fun s u port t cls x f ht h => ?_,
    fun s c op info bs p l hb hlen => State.putBufs_one op info hb hlen, fun s b g c p h halive => ?_, fun s st halive => ⟨fun hno => ?_, fun c hc => ?_⟩,
    fun s q c h3 => ⟨s.evBody_queue q h3, s.evTake_queue q h3⟩, fun s c halive => ⟨fun hidle => ?_, ?_⟩⟩
  · intro ends failed n
    refine ⟨fun op j base size most hj hready => ?_, fun hready => ?_, ?_, fun op j g cls hj hready => ?_, fun op j hj hready => ?_⟩
    · -- MEM_READ and JRN_READ
      have hrow := exec_memToHost halive hj hready
      have hidx := State.readyCmd_idx hready
      refine ⟨fun hn => ?_, fun h1 hmost hout => ?_, fun h1 hmost hin hwait => ?_, fun h1 hmost hin hup => ?_⟩
      · exact hrow.trans (by rw [State.memToHost_count hn, hidx])
      · exact hrow.trans (by rw [State.memToHost_range h1 hmost hout, hidx])
      · rw [hrow, State.memToHost_inside h1 hmost hin, if_pos hwait]
      · rw [State.memToHost_inside h1 hmost hin, if_neg (not_not.2 hup), hidx] at hrow
        refine ⟨fun hdma => ?_, fun hdma => ⟨fun hpois => ?_, fun hclean => ?_⟩⟩
        · exact hrow.trans (by rw [State.withDma_off _ hdma])
        · rw [hrow, State.withDma_on _ hdma]
          exact congrArg _ (if_pos hpois)
        · rw [hrow, State.withDma_on _ hdma]
          exact congrArg _ (if_neg (ne_true_of_eq_false hclean))
    · -- MEM_WRITE
      have hrow : exec (.memWrite c i d) s = .next (s.memWrite c.toNat m d) := onCmd_ready halive hready
      have hidx := State.readyCmd_idx hready
      refine ⟨fun hn => ?_, fun h1 => ⟨fun hout => ?_, fun hin hprot => ?_, fun hin hprot hwait => ?_, fun hin hprot hup => ?_⟩⟩
      · exact hrow.trans (by rw [State.memWrite_count hn, hidx])
      · exact hrow.trans (by rw [State.memWrite_range h1 hout, hidx])
      · exact hrow.trans (by rw [State.memWrite_protected h1 hin hprot, hidx])
      · rw [hrow, State.memWrite_open h1 hin hprot, if_pos hwait]
      · rw [State.memWrite_open h1 hin hprot, if_neg (not_not.2 hup), hidx] at hrow
        refine ⟨fun hdma => ?_, fun hdma hd => ?_, fun b hdma hd => ?_⟩
        · exact hrow.trans (by rw [State.withData_off _ _ hdma])
        · subst hd
          exact hrow.trans (by rw [State.withData_none _ hdma])
        · subst hd
          refine ⟨by rw [hrow, State.withData_some _ _ hdma]; rfl, fun hdiff hpoison harm => ?_⟩
          have hput := State.memPut_afterUse hdiff hpoison harm (ceilDiv m.count 256) m.count (0x800000000 + m.param)
            (slice0 b 0 m.count)
          rw [slice0_length] at hput
          exact ⟨congrArg (·.1) hput, congrArg (·.2.1) hput, congrArg (·.2.2) hput⟩
    · -- CNT_READ: begun, then gone on with
      intro j at_ slots
      have hslots : ∀ u : State, u.regs = s.regs → u.obs = s.obs → m.idx = i.toNat → ∀ a, u.cntToHost c.toNat m a = slots u a :=
        fun u hregs hobs hidx a => (State.cntToHost_eq hregs hobs a).trans (by rw [hidx])
      refine ⟨fun hready hno => ?_, fun t hgoes ht hdma => ?_⟩
      · have hrow := exec_cntRead_fresh halive hready hno
        have hidx := State.readyCmd_idx hready
        refine ⟨fun hn => ?_, fun h1 hout => ?_, fun h1 ha hin => ⟨fun hdma => ?_, fun hdma hlive => ?_, fun hdma hsnap hpage => ?_⟩⟩
        · exact hrow.trans (by rw [State.cntRead_count hn, hidx])
        · exact hrow.trans (by rw [State.cntRead_range h1 hout, hidx])
        · exact hrow.trans (by rw [State.cntRead_inside h1 ha hin, State.withDma_off _ hdma, hidx])
        · rw [hrow, State.cntRead_live h1 ha hin hdma hlive, hslots s rfl rfl hidx]
        · rw [hrow, State.cntRead_snap h1 ha hin hdma hsnap hpage, hidx]
      · obtain ⟨hidx, hrow⟩ := exec_cntRead_goOn halive hgoes ht hdma
        intro e
        have hfrom : ∀ a, ({ s with svn := { s.svn with snapAt := s.svn.snapAt.erase (65536 * c.toNat + m.idx) } } : State).cntToHost
            c.toNat m a = slots e a := fun a => by
          rw [hidx]; exact hslots e rfl rfl hidx a
        refine ⟨fun hearly => by rw [hrow, State.cntGoOn_early hearly], fun hdue => ?_⟩
        rw [State.cntGoOn_due hdue] at hrow
        dsimp only at hrow
        simp only [hfrom] at hrow
        refine ⟨fun h0 hdone => ?_, fun h0 hdone => ?_, fun h0 h1 hdone => ?_, fun h0 h1 => ?_⟩
        · rw [hrow, if_pos h0, if_pos hdone]
        · rw [hrow, if_pos h0, if_neg (ne_true_of_eq_false hdone)]
        · rw [hrow, if_neg h0, if_pos h1, if_pos hdone]
        · rw [hrow, if_neg h0, if_neg h1, Nat.zero_add]
    · -- INJ_PIPE and INJ_PORT
      have hrow := exec_inj halive hj hready
      have hidx := State.readyCmd_idx hready
      intro port len
      refine ⟨fun hinv => ?_, fun hval => ?_⟩
      · exact hrow.trans (by rw [State.injCmd_invalid _ hinv, hidx])
      · refine ⟨fun hdma => ?_, fun hdma hd => ?_, fun b hdma hd => ?_⟩
        · exact hrow.trans (by rw [State.injCmd_valid _ hval, State.withData_off _ _ hdma, hidx])
        · subst hd
          exact hrow.trans (by rw [State.injCmd_valid _ hval, State.withData_none _ hdma, hidx])
        · subst hd
          refine ⟨fun hturn => ?_, fun u hturn hu => ?_, fun hturn hu => ?_⟩
          · rw [hrow, State.injCmd_notTurn hval hdma hturn]
          · rw [hrow, State.injCmd_placed hval hdma hturn hu, hidx]
          · rw [State.injCmd_lacking hval hdma hturn hu, hidx] at hrow
            exact ⟨fun hheld => by rw [hrow, if_pos hheld], fun hheld => by rw [hrow, if_neg (ne_true_of_eq_false hheld)]⟩
    · -- RX_BUF and EV_BUF
      rw [exec_bufPost halive hj hready, ← State.readyCmd_idx hready]; rfl
  · -- the injected packet
    intro b
    obtain ⟨g, n, q, ue, a, hg, hfree, hpkts, hports, hnow⟩ := State.inject_places ht h
    obtain ⟨hbytes, hport, harr, hseq, hhost, hended, hbuf, hpipe, hline⟩ := a.injectedPkt_fields port g n q cls x ue f
    exact ⟨g, _, hg, hfree, (hpkts _).trans (if_pos rfl), fun k hk => (hpkts k).trans (if_neg (Ne.symm hk)), hbytes, hport,
      harr.trans hnow, hseq.trans (by unfold State.port; rw [hports]), hhost, hended, hbuf, hpipe, hline⟩
  · -- copies to the host
    intro k x need can hp hcopy
    have hrow := (exec_hostCopyDeliver b g c halive).trans (congrArg Host.Outcome.next (State.hostCopyDeliver_eq hp hcopy))
    have hready : s.canDeliver k c.toNat p h = can := rfl
    refine ⟨fun hue => ?_, fun hok => ⟨fun hcan => ?_, fun hcan hdma => ?_, fun hcan hdma => ?_⟩, fun hoff => ?_,
      fun hst htyp hwait => ?_, fun hst htyp hend hfew hdue => ?_⟩
    · rw [hrow, if_pos hue]
    · rw [hrow, if_neg (ne_true_of_eq_false hok), if_neg (ne_true_of_eq_false (hready.trans hcan))]
    · rw [hrow, if_neg (ne_true_of_eq_false hok), if_pos (hready.trans hcan), if_neg (ne_true_of_eq_false hdma)]
    · rw [hrow, if_neg (ne_true_of_eq_false hok), if_pos (hready.trans hcan), if_pos hdma]
      rfl
    · obtain ⟨-, htyp⟩ : x.st = 1 ∧ x.typ ≠ 3 := by simpa using hoff
      rw [exec_rxCopyGiveup b g c halive, State.rxGiveup_closed hp hcopy (by
        rw [ChSt.takesCopies_eq, decide_eq_false htyp, Bool.and_false])]
      rfl
    · rw [exec_rxCopyGiveup b g c halive, State.rxGiveup_waits hp hcopy hst htyp hwait]
    · rw [exec_rxCopyGiveup b g c halive, State.rxGiveup_due hp hcopy hst htyp hend hfew hdue]
      rfl
  · rw [exec_evStreamEntry st halive, State.evEntryPut_none (State.streamChan_none hno)]
  · have hrow := exec_evStreamEntry st halive
    have hfull := (s.chan c).cqFull_eq
    intro room
    refine ⟨fun hno => ?_, fun hcached hroom hdma => ?_, fun hcached hroom hdma => ?_⟩
    · rw [hrow, State.evEntryPut_waits hc (hno.imp_right fun h => hfull.trans (congrArg Bool.not h))]
    · rw [hrow, State.evEntryPut_halts hc hcached (hfull.trans (congrArg Bool.not hroom)) hdma]
    · have hfree := hfull.trans (congrArg Bool.not hroom)
      refine ⟨fun hbody => ?_, fun body hbody => ?_⟩
      · exact hrow.trans (congrArg _ (State.evEntryPut_empty hc hcached hfree hdma hbody))
      · rw [State.evEntryPut_delivers hc hcached hfree hdma hbody] at hrow
        refine ⟨fun h0 hpois => ?_, fun hok => ⟨fun hnone => ?_, fun u hu => ?_⟩⟩
        · exact hrow.trans (congrArg _ (State.evDeliver_poisoned h0 hpois))
        · exact hrow.trans (congrArg _ (State.evDeliver_waits hok hnone))
        · exact hrow.trans (congrArg _ (State.evDeliver_written hok hu))
  · rw [exec_evBufferFlush c halive, State.evFlush_idle (hidle.imp_right (Or.imp_right fun h =>
      (ChSt.cqFull_eq _).trans (congrArg Bool.not h)))]
  · intro p l hfill hst hroom hb hdue
    rw [exec_evBufferFlush c halive]
    exact congrArg _ (State.evFlush_due hfill hst ((ChSt.cqFull_eq _).trans (congrArg Bool.not hroom)) hb hdue)

end Sys2Proof.Machine
end
